-- ==== Sys2Proof/Word.lean ====
section
/-! DEFINITION. The machine's words. -/
namespace Sys2Proof

/-- A general register, an address, a CSR: 64 bits. -/
abbrev Word := BitVec 64

/-- An instruction word: 32 bits, stored little-endian (R111). -/
abbrev InstrWord := BitVec 32

/-- A byte of memory. -/
abbrev Byte := BitVec 8

end Sys2Proof
end

