-- ==== Sys2Proof/Config.lean ====
section
/-! DEFINITION. What one unit of the product fixes, and the values the spec leaves open. The unit is one
THR-SF1152-A package (R1). The open values are opaque: no proof can see one, so a statement that holds of the model
holds whatever they are. -/
namespace Sys2Proof.Config

/-- R9: the package's own number; a THR-SF1152-A is package 0. -/
def packageId : Nat := 0

/-- R9: clusters of a package. -/
def clusters : Nat := 48

/-- R9: cores of a cluster. -/
def coresPerCluster : Nat := 24

/-- R9: strands of a core. -/
def strandsPerCore : Nat := 4

/-- R1: Rininori link ports of a package. -/
def linkPorts : Nat := 32

/-- R234: positions of the Samovar ring, 1,152 stops and 32 retiming positions. -/
def ringPositions : Nat := 1184

/-- R1: HBM of a package in bytes, 8 stacks of 64 GB (decimal GB, R5). -/
def hbmBytes : Nat := 512000000000

/-- A value the spec leaves undefined (log entry 3, DESIGN CHOICE): the `n`-th one, at width `w`. -/
opaque freeBits (n w : Nat) : BitVec w

/-- A scratchpad byte whose contents the spec calls undefined (R67; log entry 4, DESIGN CHOICE): byte `key` of the package's
scratchpads since the carve changed `epoch` times. -/
opaque freeSpad (epoch key : Nat) : BitVec 8

/-- A choice the spec leaves to preference (R31; log entry 5, DESIGN CHOICE): the `n`-th choice, below any bound by remainder. -/
opaque freeChoice (n : Nat) : Nat

/-- Whether a link, a frame or a device answers as the spec allows but does not require (log entry 5, DESIGN CHOICE). -/
opaque freeFlag (n : Nat) : Bool

/-- SHA3-256 of a message of `n` bytes, byte 0 lowest (R357, R370, R371, R374): the algorithm is named, not restated, by
the spec (log entry 15, DESIGN CHOICE). -/
opaque sha3 (n x : Nat) : BitVec 256

/-- R351: the ports a device of the domain is cabled to, in the order the firmware lists them (log entry 23, DESIGN CHOICE). -/
opaque cabling (dev : Nat) : List Nat

/-- R371: verification of an ML-DSA-44 signature under a public key (log entry 15, DESIGN CHOICE). -/
opaque verifySignature (pub : BitVec 10496) (digest : BitVec 256) (sig : BitVec 19360) : Bool

/-- R374: the ML-DSA-44 signature by the identity key (log entry 15, DESIGN CHOICE). -/
opaque identitySign (digest : BitVec 256) : BitVec 19360

/-- R374: the identity public key, from the seed of R370. -/
opaque identityPub : BitVec 10496

/-- R371: the digest of the key an image must be signed with, as fused. -/
opaque fusedKeyDigest : BitVec 256

/-- R371: the least security version fused. -/
opaque fusedSecver : BitVec 32

/-- R315: what the sector with a number holds to a reader under key `read`, when `plain` was written to it under key
`written`; none is the key the device generated for slot 0. The spec calls these bytes unrelated (log entry 26, DESIGN
CHOICE). -/
opaque otherKey (written read : Option (BitVec 512)) (sector : Nat) (plain : BitVec 256) : BitVec 256

end Sys2Proof.Config
end

