-- ==== Sys2Proof/Syntax.lean ====
section
/-! DEFINITION. The instruction set as data: one constructor of `Instr` per row of the opcode table.
The first part are the instruction words (formats of R111, map of R112, operands of R113); the second part are
the table's steps that have no word: completions, interrupts, CSR writes, request frames, link events. -/
namespace Sys2Proof

/-- The kinds of access that rights and faults tell apart (R303). -/
inductive AccessKind where
  | load
  | store
  | atomic
  | fetch
deriving DecidableEq, Repr

/-- What an uncorrectable data error hits (R301): a memory sector of the package (its 32-byte sector number), a
scratchpad sector of a core, a payload word of a Samovar record, a Steep entry on its way, a mailbox message. -/
inductive PoisonPlace where
  | sector (n : Nat)
  | scratch (core n : Nat)
  | samovar (domain tag word : Nat)
  | steepEntry (n : Nat)
  | message (core n : Nat)
deriving DecidableEq, Repr

/-- One step of a Kettle cap (R337: at most one step per change). -/
inductive CapStep where
  | down
  | stay
  | up
deriving DecidableEq, Repr

/-- A request frame as fetched (R320): its KIND, reserved halves, TENANT, TAG and the 48 ARGS bytes as a number,
byte 0 lowest. -/
structure ReqFrame where
  kind : BitVec 16
  rsv0 : BitVec 16
  tenant : BitVec 16
  rsv1 : BitVec 16
  tag : BitVec 64
  args : BitVec 384
deriving DecidableEq, Repr

/-- A Rininori packet (R352): the header flit's fields, `rsv` telling that a reserved field is nonzero, the
payload bytes that follow, and the index flits of an indexed vector request. -/
structure Packet where
  kind : BitVec 8
  cls : BitVec 4
  ddev : BitVec 8
  sdev : BitVec 8
  xtag : BitVec 32
  addr : BitVec 64
  mask : BitVec 128
  aux : BitVec 64
  nelem : BitVec 16
  esz : BitVec 2
  nmerge : BitVec 8
  status : BitVec 32
  rsv : Bool
  data : List (BitVec 8)
  index : List (BitVec 32)
deriving DecidableEq, Repr

/-- One constructor per row of the opcode table. Fields of a word are named as the table names them. -/
inductive Instr where
  | add (d a b : BitVec 5)
  | sub (d a b : BitVec 5)
  | and (d a b : BitVec 5)
  | or (d a b : BitVec 5)
  | xor (d a b : BitVec 5)
  | andn (d a b : BitVec 5)
  | orn (d a b : BitVec 5)
  | sll (d a b : BitVec 5)
  | srl (d a b : BitVec 5)
  | sra (d a b : BitVec 5)
  | rol (d a b : BitVec 5)
  | ror (d a b : BitVec 5)
  | slt (d a b : BitVec 5)
  | sltu (d a b : BitVec 5)
  | min (d a b : BitVec 5)
  | max (d a b : BitVec 5)
  | minu (d a b : BitVec 5)
  | maxu (d a b : BitVec 5)
  | sel (d a b : BitVec 5)
  | mul (d a b : BitVec 5)
  | mulh (d a b : BitVec 5)
  | mulhu (d a b : BitVec 5)
  | mulhsu (d a b : BitVec 5)
  | div (d a b : BitVec 5)
  | divu (d a b : BitVec 5)
  | rem (d a b : BitVec 5)
  | remu (d a b : BitVec 5)
  | clz (d a : BitVec 5)
  | ctz (d a : BitVec 5)
  | popc (d a : BitVec 5)
  | bswap (d a : BitVec 5)
  | sextb (d a : BitVec 5)
  | sexth (d a : BitVec 5)
  | sextw (d a : BitVec 5)
  | zextw (d a : BitVec 5)
  | addi (d a : BitVec 5) (i : BitVec 16)
  | andi (d a : BitVec 5) (i : BitVec 16)
  | ori (d a : BitVec 5) (i : BitVec 16)
  | xori (d a : BitVec 5) (i : BitVec 16)
  | slli (d a : BitVec 5) (s : BitVec 6)
  | srli (d a : BitVec 5) (s : BitVec 6)
  | srai (d a : BitVec 5) (s : BitVec 6)
  | rori (d a : BitVec 5) (s : BitVec 6)
  | ldi (d : BitVec 5) (i : BitVec 16)
  | ldis (d : BitVec 5) (i : BitVec 16)
  | slti (d a : BitVec 5) (i : BitVec 16)
  | sltiu (d a : BitVec 5) (i : BitVec 16)
  | fadd (d a b : BitVec 5) (f : BitVec 2)
  | fsub (d a b : BitVec 5) (f : BitVec 2)
  | fmul (d a b : BitVec 5) (f : BitVec 2)
  | fdiv (d a b : BitVec 5) (f : BitVec 2)
  | fsqrt (d a : BitVec 5) (f : BitVec 2)
  | fmin (d a b : BitVec 5) (f : BitVec 2)
  | fmax (d a b : BitVec 5) (f : BitVec 2)
  | fsgnj (d a b : BitVec 5) (f : BitVec 2)
  | fsgnjn (d a b : BitVec 5) (f : BitVec 2)
  | fsgnjx (d a b : BitVec 5) (f : BitVec 2)
  | feq (d a b : BitVec 5) (f : BitVec 2)
  | flt (d a b : BitVec 5) (f : BitVec 2)
  | fle (d a b : BitVec 5) (f : BitVec 2)
  | fclass (d a : BitVec 5) (f : BitVec 2)
  | fcvti (d a : BitVec 5) (f : BitVec 2)
  | fcvtu (d a : BitVec 5) (f : BitVec 2)
  | fcvtf (d a : BitVec 5) (f : BitVec 2)
  | fcvtfu (d a : BitVec 5) (f : BitVec 2)
  | fcvtff (d a : BitVec 5) (s f : BitVec 2)
  | fmadd (d a b c : BitVec 5) (f : BitVec 2)
  | fmsub (d a b c : BitVec 5) (f : BitVec 2)
  | fnmadd (d a b c : BitVec 5) (f : BitVec 2)
  | fnmsub (d a b c : BitVec 5) (f : BitVec 2)
  | lb (d s : BitVec 5) (c : BitVec 4) (h : BitVec 2) (o : BitVec 10)
  | lbu (d s : BitVec 5) (c : BitVec 4) (h : BitVec 2) (o : BitVec 10)
  | lh (d s : BitVec 5) (c : BitVec 4) (h : BitVec 2) (o : BitVec 10)
  | lhu (d s : BitVec 5) (c : BitVec 4) (h : BitVec 2) (o : BitVec 10)
  | lw (d s : BitVec 5) (c : BitVec 4) (h : BitVec 2) (o : BitVec 10)
  | lwu (d s : BitVec 5) (c : BitVec 4) (h : BitVec 2) (o : BitVec 10)
  | ld (d s : BitVec 5) (c : BitVec 4) (h : BitVec 2) (o : BitVec 10)
  | sb (d s : BitVec 5) (c : BitVec 4) (h : BitVec 2) (o : BitVec 10)
  | sh (d s : BitVec 5) (c : BitVec 4) (h : BitVec 2) (o : BitVec 10)
  | sw (d s : BitVec 5) (c : BitVec 4) (h : BitVec 2) (o : BitVec 10)
  | sd (d s : BitVec 5) (c : BitVec 4) (h : BitVec 2) (o : BitVec 10)
  | loadDataReturn (sid : Nat)
  | amoSwap (d a b : BitVec 5) (c : BitVec 4) (q r w : BitVec 1)
  | amoAdd (d a b : BitVec 5) (c : BitVec 4) (q r w : BitVec 1)
  | amoAnd (d a b : BitVec 5) (c : BitVec 4) (q r w : BitVec 1)
  | amoOr (d a b : BitVec 5) (c : BitVec 4) (q r w : BitVec 1)
  | amoXor (d a b : BitVec 5) (c : BitVec 4) (q r w : BitVec 1)
  | amoMin (d a b : BitVec 5) (c : BitVec 4) (q r w : BitVec 1)
  | amoMax (d a b : BitVec 5) (c : BitVec 4) (q r w : BitVec 1)
  | amoMinu (d a b : BitVec 5) (c : BitVec 4) (q r w : BitVec 1)
  | amoMaxu (d a b : BitVec 5) (c : BitVec 4) (q r w : BitVec 1)
  | amoFadd (d a b : BitVec 5) (c : BitVec 4) (q r w : BitVec 1)
  | cas (d a b : BitVec 5) (c : BitVec 4) (q r w : BitVec 1)
  | amoResponse (sid : Nat)
  | fence (k : BitVec 2) (s : BitVec 3) (m : BitVec 16)
  | fenceCompletion (sid : Nat)
  | vdrain (m : BitVec 16)
  | ifence
  | beq (a b : BitVec 5) (o : BitVec 13)
  | bne (a b : BitVec 5) (o : BitVec 13)
  | blt (a b : BitVec 5) (o : BitVec 13)
  | bge (a b : BitVec 5) (o : BitVec 13)
  | bltu (a b : BitVec 5) (o : BitVec 13)
  | bgeu (a b : BitVec 5) (o : BitVec 13)
  | j (o : BitVec 26)
  | jal (o : BitVec 26)
  | jalr (d a : BitVec 5) (i : BitVec 16)
  | csrrw (d a : BitVec 5) (n : BitVec 14)
  | csrrs (d a : BitVec 5) (n : BitVec 14)
  | csrrc (d a : BitVec 5) (n : BitVec 14)
  | csrrd (d : BitVec 5) (n : BitVec 14)
  | ecall
  | ebreak
  | eret
  | wfi
  | wakeCondition (sid : Nat)
  | yield
  | pause
  | plbinv (a : BitVec 5)
  | htinv (a : BitVec 5)
  | htinvMigrate (a : BitVec 5)
  | strandpark (a : BitVec 5)
  | strandwake (a : BitVec 5)
  | vcfg (d a : BitVec 5) (i : BitVec 16)
  | vsetl (d a : BitVec 5) (w : BitVec 4)
  | vacq (d a : BitVec 5)
  | vrelease
  | vgettag (d a : BitVec 5)
  | vadd (d a b : BitVec 5) (f : BitVec 2) (p : BitVec 3)
  | vsub (d a b : BitVec 5) (f : BitVec 2) (p : BitVec 3)
  | vrsub (d a b : BitVec 5) (f : BitVec 2) (p : BitVec 3)
  | vmul (d a b : BitVec 5) (f : BitVec 2) (p : BitVec 3)
  | vmulh (d a b : BitVec 5) (f : BitVec 2) (p : BitVec 3)
  | vdiv (d a b : BitVec 5) (f : BitVec 2) (p : BitVec 3)
  | vrem (d a b : BitVec 5) (f : BitVec 2) (p : BitVec 3)
  | vmin (d a b : BitVec 5) (f : BitVec 2) (p : BitVec 3)
  | vmax (d a b : BitVec 5) (f : BitVec 2) (p : BitVec 3)
  | vabs (d a : BitVec 5) (p : BitVec 3)
  | vneg (d a : BitVec 5) (p : BitVec 3)
  | vabsd (d a b : BitVec 5) (f : BitVec 2) (p : BitVec 3)
  | vsadd (d a b : BitVec 5) (f : BitVec 2) (p : BitVec 3)
  | vssub (d a b : BitVec 5) (f : BitVec 2) (p : BitVec 3)
  | vsqrt (d a : BitVec 5) (p : BitVec 3)
  | vand (d a b : BitVec 5) (f : BitVec 2) (p : BitVec 3)
  | vor (d a b : BitVec 5) (f : BitVec 2) (p : BitVec 3)
  | vxor (d a b : BitVec 5) (f : BitVec 2) (p : BitVec 3)
  | vnot (d a : BitVec 5) (p : BitVec 3)
  | vsll (d a b : BitVec 5) (f : BitVec 2) (p : BitVec 3)
  | vsrl (d a b : BitVec 5) (f : BitVec 2) (p : BitVec 3)
  | vsra (d a b : BitVec 5) (f : BitVec 2) (p : BitVec 3)
  | vrol (d a b : BitVec 5) (f : BitVec 2) (p : BitVec 3)
  | vclz (d a : BitVec 5) (p : BitVec 3)
  | vpopc (d a : BitVec 5) (p : BitVec 3)
  | vmerge (d a b : BitVec 5) (f : BitVec 2) (p : BitVec 3)
  | vmov (d a : BitVec 5) (p : BitVec 3)
  | vmacc (d a b : BitVec 5) (f : BitVec 2) (p : BitVec 3)
  | vnmsac (d a b : BitVec 5) (f : BitVec 2) (p : BitVec 3)
  | vmadd (d a b : BitVec 5) (f : BitVec 2) (p : BitVec 3)
  | vnmsub (d a b : BitVec 5) (f : BitVec 2) (p : BitVec 3)
  | vdot4 (d a b : BitVec 5) (f : BitVec 2) (p : BitVec 3)
  | vceq (d : BitVec 3) (a b : BitVec 5) (f : BitVec 2) (p : BitVec 3)
  | vcne (d : BitVec 3) (a b : BitVec 5) (f : BitVec 2) (p : BitVec 3)
  | vclt (d : BitVec 3) (a b : BitVec 5) (f : BitVec 2) (p : BitVec 3)
  | vcle (d : BitVec 3) (a b : BitVec 5) (f : BitVec 2) (p : BitVec 3)
  | vcgt (d : BitVec 3) (a b : BitVec 5) (f : BitVec 2) (p : BitVec 3)
  | vcge (d : BitVec 3) (a b : BitVec 5) (f : BitVec 2) (p : BitVec 3)
  | vcun (d : BitVec 3) (a b : BitVec 5) (f : BitVec 2) (p : BitVec 3)
  | vcvt (d a : BitVec 5) (p : BitVec 3)
  | vfrint (d a : BitVec 5) (p : BitVec 3)
  | vfexp2f (d a : BitVec 5) (p : BitVec 3)
  | vfscale (d a b : BitVec 5) (f : BitVec 2) (p : BitVec 3)
  | vfrexp (d a : BitVec 5) (p : BitVec 3)
  | vfmant (d a : BitVec 5) (p : BitVec 3)
  | vrecipe (d a : BitVec 5) (p : BitVec 3)
  | vrsqrte (d a : BitVec 5) (p : BitVec 3)
  | vclass (d a : BitVec 5) (p : BitVec 3)
  | vbxpack (d a : BitVec 5) (p : BitVec 3)
  | vslideup (d a b : BitVec 5) (f : BitVec 2) (p : BitVec 3)
  | vslidedn (d a b : BitVec 5) (f : BitVec 2) (p : BitVec 3)
  | vpermute (d a b : BitVec 5) (f : BitVec 2) (p : BitVec 3)
  | vcompress (d a : BitVec 5) (p : BitVec 3)
  | vexpand (d a : BitVec 5) (p : BitVec 3)
  | vbcast (d b : BitVec 5) (f : BitVec 2) (p : BitVec 3)
  | vextr (d a b : BitVec 5) (f : BitVec 2) (p : BitVec 3)
  | vins (d a b : BitVec 5) (f : BitVec 2) (p : BitVec 3)
  | vrev (d a : BitVec 5) (p : BitVec 3)
  | vzip (d a b : BitVec 5) (f : BitVec 2) (p : BitVec 3)
  | vunzip (d a b : BitVec 5) (f : BitVec 2) (p : BitVec 3)
  | vid (d : BitVec 5) (p : BitVec 3)
  | vmvix (d a : BitVec 5) (p : BitVec 3)
  | vredsum (d a b : BitVec 5) (f : BitVec 2) (p : BitVec 3)
  | vredmin (d a b : BitVec 5) (f : BitVec 2) (p : BitVec 3)
  | vredmax (d a b : BitVec 5) (f : BitVec 2) (p : BitVec 3)
  | vredand (d a b : BitVec 5) (f : BitVec 2) (p : BitVec 3)
  | vredor (d a b : BitVec 5) (f : BitVec 2) (p : BitVec 3)
  | vredxor (d a b : BitVec 5) (f : BitVec 2) (p : BitVec 3)
  | vfredosum (d a b : BitVec 5) (f : BitVec 2) (p : BitVec 3)
  | vscanadd (d a b : BitVec 5) (f : BitVec 2) (p : BitVec 3)
  | vscanmax (d a b : BitVec 5) (f : BitVec 2) (p : BitVec 3)
  | vscanmin (d a b : BitVec 5) (f : BitVec 2) (p : BitVec 3)
  | vrecur (d a b : BitVec 5) (f : BitVec 2) (p : BitVec 3)
  | pand (d a b p : BitVec 3)
  | por (d a b p : BitVec 3)
  | pxor (d a b p : BitVec 3)
  | pandn (d a b p : BitVec 3)
  | pnot (d a p : BitVec 3)
  | pset (d p : BitVec 3)
  | pclr (d p : BitVec 3)
  | pcnt (d : BitVec 5) (a p : BitVec 3)
  | pfirst (d : BitVec 5) (a p : BitVec 3)
  | pfromv (d : BitVec 3) (a : BitVec 5) (p : BitVec 3)
  | ptov (d : BitVec 5) (a p : BitVec 3)
  | vld (d s : BitVec 5) (c : BitVec 4) (h : BitVec 2) (p : BitVec 3)
  | vst (d s : BitVec 5) (c : BitVec 4) (h : BitVec 2) (p : BitVec 3)
  | vldff (d s : BitVec 5) (c : BitVec 4) (h : BitVec 2) (p : BitVec 3)
  | vlds (d s b : BitVec 5) (c : BitVec 4) (h : BitVec 2) (p : BitVec 3)
  | vsts (d s b : BitVec 5) (c : BitVec 4) (h : BitVec 2) (p : BitVec 3)
  | vldx (d s b : BitVec 5) (c : BitVec 4) (h : BitVec 2) (p : BitVec 3)
  | vstx (d s b : BitVec 5) (c : BitVec 4) (h : BitVec 2) (p : BitVec 3)
  | vstxo (d s b : BitVec 5) (c : BitVec 4) (h : BitVec 2) (p : BitVec 3)
  | vldsc (d s b : BitVec 5) (c : BitVec 4) (h : BitVec 2) (p : BitVec 3)
  | vstsc (d s b : BitVec 5) (c : BitVec 4) (h : BitVec 2) (p : BitVec 3)
  | ticketServed
  | elds (e : BitVec 4) (a : BitVec 5)
  | ests (e : BitVec 4) (a : BitVec 5)
  | ezero (e : BitVec 4)
  | repf (c : BitVec 4) (r : BitVec 6) (x y z : BitVec 3)
  | mma (x : BitVec 2) (y z : BitVec 5) (e : BitVec 4) (a b : BitVec 1)
  | mmaz (x : BitVec 2) (y z : BitVec 5) (e : BitVec 4) (a b : BitVec 1)
  | mmas (x : BitVec 2) (y z : BitVec 5) (e : BitVec 4) (a b : BitVec 1)
  | mmaCompletion (core : Nat)
  | tld (t : BitVec 3) (y z : BitVec 5)
  | tst (t : BitVec 3) (y z : BitVec 5)
  | tldm (t : BitVec 3) (y : BitVec 5)
  | tstm (t : BitVec 3) (y : BitVec 5)
  | tzero (t : BitVec 3)
  | tmov (t s : BitVec 3)
  | ttrans (t s : BitVec 3)
  | tcfg (t : BitVec 3) (y : BitVec 5)
  | trowv (x : BitVec 5) (t : BitVec 3) (z : BitVec 5)
  | vtrow (t : BitVec 3) (y z : BitVec 5)
  | tcolv (x : BitVec 5) (t : BitVec 3) (z : BitVec 5)
  | accz (x : BitVec 2)
  | accst (x : BitVec 2) (y z : BitVec 5) (e : BitVec 4)
  | accrd (x : BitVec 2) (y z : BitVec 5)
  | accwr (x : BitVec 2) (y z : BitVec 5)
  | accadd (x y : BitVec 2)
  | accscl (x : BitVec 2) (y : BitVec 5)
  | gbar (d a : BitVec 5)
  | barrierPhaseComplete (gang : Nat)
  | gbarTimeout (sid : Nat)
  | gtmcast (d : BitVec 3) (a : BitVec 5)
  | grank (d a : BitVec 5)
  | sempost (s : BitVec 3)
  | semwait (s : BitVec 3)
  | semtry (d : BitVec 5) (s : BitVec 3)
  | secopy (d a : BitVec 5)
  | seload2d (d a : BitVec 5)
  | sestore2d (d a : BitVec 5)
  | segather (d a : BitVec 5)
  | sefoot (d a : BitVec 5)
  | sewait (a : BitVec 5)
  | cardStart (core : Nat)
  | cardComplete (core card : Nat)
  | cardStop (core card : Nat)
  | cpref (d a b : BitVec 5) (c : BitVec 4)
  | prefetch (core : Nat)
  | cflush (d a b : BitVec 5) (c : BitVec 4)
  | cinv (d a b : BitVec 5) (c : BitVec 4)
  | cpin (d a b : BitVec 5) (c : BitVec 4)
  | cunpin (d a b : BitVec 5) (c : BitVec 4)
  | cpri (d a b : BitVec 5) (c : BitVec 4)
  | samBoard (d a b : BitVec 5) (c : BitVec 4)
  | boardFill (sid : Nat)
  | samAlight (d a : BitVec 5) (c : BitVec 4)
  | samLd (d a : BitVec 5) (c : BitVec 4) (w : BitVec 3)
  | samSt (d a b : BitVec 5) (c : BitVec 4) (w : BitVec 3)
  | samAdd (d a b : BitVec 5) (c : BitVec 4) (w : BitVec 3)
  | samMin (d a b : BitVec 5) (c : BitVec 4) (w : BitVec 3)
  | samMax (d a b : BitVec 5) (c : BitVec 4) (w : BitVec 3)
  | samCas (d a b : BitVec 5) (c : BitVec 4) (w : BitVec 3)
  | samCapture (d a b : BitVec 5) (c : BitVec 4)
  | samCld (d a : BitVec 5) (c : BitVec 4) (w : BitVec 3)
  | samCst (d a b : BitVec 5) (c : BitVec 4) (w : BitVec 3)
  | samRelease (d a : BitVec 5) (c : BitVec 4)
  | samWaitrev (d a : BitVec 5) (c : BitVec 4)
  | samovarPassage (sid : Nat)
  | recordReentry (sid : Nat)
  | captureHoldExpiry (sid : Nat)
  | samNotag (sid : Nat)
  | rstw (a b : BitVec 5) (c : BitVec 4)
  | rstd (a b : BitVec 5) (c : BitVec 4)
  | ramo (d a b : BitVec 5) (c : BitVec 4)
  | ramow (d a b : BitVec 5) (c : BitVec 4)
  | sflush
  | sflushw (d : BitVec 5)
  | sfrec (d a : BitVec 5)
  | steepAgeTrigger (cluster : Nat)
  | steepAck
  | steepAsync (sid : Nat)
  | amsend (d a b : BitVec 5)
  | amsendw (d a b : BitVec 5)
  | amreply (d a b : BitVec 5)
  | amdone
  | rcmask (c : BitVec 4)
  | rcunmask (c : BitVec 4)
  | messageArrival
  | amsendAnswer (sid : Nat)
  | messageDispatch (sid : Nat)
  | handlerOverrun (sid : Nat)
  | gnext (d a : BitVec 5)
  | gfield (d : BitVec 5) (f : BitVec 3)
  | gdone
  | groupRetire (sid : Nat)
  | launch (d a : BitVec 5)
  | lwait (d a : BitVec 5)
  | groupAssign (launch : Nat)
  | footprintFetchComplete (sid : Nat)
  | reassign (sid : Nat)
  | groupBudget (sid : Nat)
  | balloc (d s : BitVec 5)
  | bfree (a : BitVec 5)
  | blockReturn
  | illegalInstr (word : BitVec 32)
  | trapEntry (sid : Nat)
  | timer (sid : Nat)
  | machineCheck (sid : Nat) (unit index : BitVec 8)
  | poisonMark (where_ : PoisonPlace)
  | softErrorCorrected (unit : BitVec 16) (place : BitVec 64)
  | thermalTrip
  | status (v : BitVec 64)
  | tileOwner (v : BitVec 64)
  | ttags (v : BitVec 64)
  | atags (v : BitVec 64)
  | steepAgeMax (v : BitVec 64)
  | vl (v : BitVec 64)
  | vhwe (n : BitVec 5) (v : BitVec 64)
  | fflags (op : BitVec 2) (v : BitVec 64)
  | csrWrite (csr : BitVec 14) (v : BitVec 64)
  | gangSetMembership (v : BitVec 64)
  | gangStop (v : BitVec 64)
  | gangResume (v : BitVec 64)
  | debugHalt (core : Nat)
  | debugResume (core : Nat)
  | dbgData (v : BitVec 64)
  | kettleCtl (v : BitVec 64)
  | kettleAdjust (cluster : Nat) (vlStep mStep : CapStep)
  | svcMode (v : BitVec 64)
  | samQuotaSet (v : BitVec 64)
  | pinQuotaSet (v : BitVec 64)
  | plbFill (sid : Nat) (va : BitVec 64)
  | translationWalk (kind : AccessKind) (va : BitVec 64)
  | migrationSectorCopy (slot : Nat)
  | migrationComplete (slot : Nat)
  | start (q : Nat) (f : ReqFrame)
  | launchFrame (q : Nat) (f : ReqFrame)
  | launchFrameCompletion (launch : Nat)
  | replay (q : Nat) (f : ReqFrame)
  | replayNodeLaunch (replay node : Nat)
  | patch (q : Nat) (f : ReqFrame)
  | abort (q : Nat) (f : ReqFrame)
  | rerun (q : Nat) (f : ReqFrame)
  | notify (q : Nat) (f : ReqFrame)
  | arena (q : Nat) (f : ReqFrame)
  | key (q : Nat) (f : ReqFrame)
  | quota (q : Nat) (f : ReqFrame)
  | partition (q : Nat) (f : ReqFrame)
  | teardown (q : Nat) (f : ReqFrame)
  | attest (q : Nat) (f : ReqFrame)
  | errlog (q : Nat) (f : ReqFrame)
  | firmware (q : Nat) (f : ReqFrame)
  | firmwareTakeover
  | retry (q : Nat)
  | completionPost (q : Nat)
  | sqPoll (q : Nat)
  | qpdPost (qpd : BitVec 64)
  | functionLevelReset
  | reset
  | starvationToken (router port : Nat)
  | combineBatch (cluster queue : Nat)
  | combiningQueueClose (cluster queue : Nat)
  | bridgeLinkFailure (link : Nat) (retrained : Bool)
  | read (p : Packet)
  | write (p : Packet)
  | atomic (p : Packet)
  | vread (p : Packet)
  | vwrite (p : Packet)
  | words (p : Packet)
  | msg (p : Packet)
  | rsp (p : Packet)
  | ack (p : Packet)
  | demand (p : Packet)
  | grant (p : Packet)
  | grantLapse (dev : Nat)
  | blockReplay (port : Nat) (receive : Bool)
  | keyRotation (port : Nat)
  | keyExhausted (port : Nat)
  | portStop (port : Nat)
  | linkKeySelect (v : BitVec 64)
  | linkKeyStage (v : BitVec 64)
  | linkKeyInstall (v : BitVec 64)
  | linkPortStop (v : BitVec 64)
  | linkRetrain (v : BitVec 64)
  | linkKeyData (v : BitVec 64)
  | ramowResponse (sid : Nat)
  | gtmcastCopiesWritten (sid : Nat)
  | writebackComplete (sid : Nat)
  | badPacket (p : Packet)
  | linkTrained (port : Nat)
  | captureMarkerClear (sid : Nat)
  | pauseExpiry (sid : Nat)
deriving DecidableEq, Repr

end Sys2Proof
end

