-- ==== Sys2Proof/WellFormed.lean ====
section
/-! DEFINITION. Which terms of `Instr` an instruction word can stand for: the subfield ranges of R114, the vector
forms each function accepts (R148), the register rules of descriptor operands and tiles (R113). A word that decodes
to an ill-formed term is an illegal word. The steps that have no word are always well formed. -/
namespace Sys2Proof

/-- R113, R114: fence kind 11 is reserved. -/
def fenceKindOk (k : BitVec 2) : Bool := k != 3

/-- R113, R114: fence scope 7 is reserved. -/
def fenceScopeOk (s : BitVec 3) : Bool := s != 7

/-- R114: VSETL width classes are 0 to 4. -/
def widthClassOk (w : BitVec 4) : Bool := decide (w.toNat ≤ 4)

/-- R113, R114: the low four bits of RAMO's d field are an AMO op code 0 to 9. -/
def steepOpOk (d : BitVec 5) : Bool := decide (d.toNat % 16 ≤ 9)

/-- R148: VV and VX only. -/
def formVvVx (f : BitVec 2) : Bool := f == 0 || f == 3

/-- R148: VS and VI only. -/
def formVsVi (f : BitVec 2) : Bool := f == 1 || f == 2

/-- R148: VV, VS and VX. -/
def formNoImm (f : BitVec 2) : Bool := f != 2

/-- R113, R114: GFIELD fields are 0 to 5. -/
def fieldNumberOk (f : BitVec 3) : Bool := decide (f.toNat ≤ 5)

/-- R113, R114: BALLOC size classes are 0 to 8 and bit 4 of the field is unused. -/
def sizeClassOk (s : BitVec 5) : Bool := decide (s.toNat ≤ 8)

/-- R114: ACCST formats 4 to 15 are reserved. -/
def storedFormatOk (e : BitVec 4) : Bool := decide (e.toNat ≤ 3)

/-- R113, R114: SAM words are 0 to 5. -/
def samWordOk (w : BitVec 3) : Bool := decide (w.toNat ≤ 5)

/-- R114: a descriptor operand is an even register. -/
def evenRegister (y : BitVec 5) : Bool := decide (y.toNat % 2 = 0)

/-- R113: a matrix operand is a descriptor pair's even register (its src bit set) or a tile number whose bits
[4:3] are zero. -/
def mmaOperandOk (src : BitVec 1) (y : BitVec 5) : Bool :=
  if src = 1 then evenRegister y else decide (y.toNat < 8)

/-- The checks R114 makes on the fields of a decoded instruction. -/
def Instr.wellFormed : Instr → Bool
  | .add _ _ _ => true
  | .sub _ _ _ => true
  | .and _ _ _ => true
  | .or _ _ _ => true
  | .xor _ _ _ => true
  | .andn _ _ _ => true
  | .orn _ _ _ => true
  | .sll _ _ _ => true
  | .srl _ _ _ => true
  | .sra _ _ _ => true
  | .rol _ _ _ => true
  | .ror _ _ _ => true
  | .slt _ _ _ => true
  | .sltu _ _ _ => true
  | .min _ _ _ => true
  | .max _ _ _ => true
  | .minu _ _ _ => true
  | .maxu _ _ _ => true
  | .sel _ _ _ => true
  | .mul _ _ _ => true
  | .mulh _ _ _ => true
  | .mulhu _ _ _ => true
  | .mulhsu _ _ _ => true
  | .div _ _ _ => true
  | .divu _ _ _ => true
  | .rem _ _ _ => true
  | .remu _ _ _ => true
  | .clz _ _ => true
  | .ctz _ _ => true
  | .popc _ _ => true
  | .bswap _ _ => true
  | .sextb _ _ => true
  | .sexth _ _ => true
  | .sextw _ _ => true
  | .zextw _ _ => true
  | .addi _ _ _ => true
  | .andi _ _ _ => true
  | .ori _ _ _ => true
  | .xori _ _ _ => true
  | .slli _ _ _ => true
  | .srli _ _ _ => true
  | .srai _ _ _ => true
  | .rori _ _ _ => true
  | .ldi _ _ => true
  | .ldis _ _ => true
  | .slti _ _ _ => true
  | .sltiu _ _ _ => true
  | .fadd _ _ _ _ => true
  | .fsub _ _ _ _ => true
  | .fmul _ _ _ _ => true
  | .fdiv _ _ _ _ => true
  | .fsqrt _ _ _ => true
  | .fmin _ _ _ _ => true
  | .fmax _ _ _ _ => true
  | .fsgnj _ _ _ _ => true
  | .fsgnjn _ _ _ _ => true
  | .fsgnjx _ _ _ _ => true
  | .feq _ _ _ _ => true
  | .flt _ _ _ _ => true
  | .fle _ _ _ _ => true
  | .fclass _ _ _ => true
  | .fcvti _ _ _ => true
  | .fcvtu _ _ _ => true
  | .fcvtf _ _ _ => true
  | .fcvtfu _ _ _ => true
  | .fcvtff _ _ _ _ => true
  | .fmadd _ _ _ _ _ => true
  | .fmsub _ _ _ _ _ => true
  | .fnmadd _ _ _ _ _ => true
  | .fnmsub _ _ _ _ _ => true
  | .lb _ _ _ _ _ => true
  | .lbu _ _ _ _ _ => true
  | .lh _ _ _ _ _ => true
  | .lhu _ _ _ _ _ => true
  | .lw _ _ _ _ _ => true
  | .lwu _ _ _ _ _ => true
  | .ld _ _ _ _ _ => true
  | .sb _ _ _ _ _ => true
  | .sh _ _ _ _ _ => true
  | .sw _ _ _ _ _ => true
  | .sd _ _ _ _ _ => true
  | .loadDataReturn _ => true
  | .amoSwap _ _ _ _ _ _ _ => true
  | .amoAdd _ _ _ _ _ _ _ => true
  | .amoAnd _ _ _ _ _ _ _ => true
  | .amoOr _ _ _ _ _ _ _ => true
  | .amoXor _ _ _ _ _ _ _ => true
  | .amoMin _ _ _ _ _ _ _ => true
  | .amoMax _ _ _ _ _ _ _ => true
  | .amoMinu _ _ _ _ _ _ _ => true
  | .amoMaxu _ _ _ _ _ _ _ => true
  | .amoFadd _ _ _ _ _ _ _ => true
  | .cas _ _ _ _ _ _ _ => true
  | .amoResponse _ => true
  | .fence k s _ => fenceKindOk k && fenceScopeOk s
  | .fenceCompletion _ => true
  | .vdrain _ => true
  | .ifence => true
  | .beq _ _ _ => true
  | .bne _ _ _ => true
  | .blt _ _ _ => true
  | .bge _ _ _ => true
  | .bltu _ _ _ => true
  | .bgeu _ _ _ => true
  | .j _ => true
  | .jal _ => true
  | .jalr _ _ _ => true
  | .csrrw _ _ _ => true
  | .csrrs _ _ _ => true
  | .csrrc _ _ _ => true
  | .csrrd _ _ => true
  | .ecall => true
  | .ebreak => true
  | .eret => true
  | .wfi => true
  | .wakeCondition _ => true
  | .yield => true
  | .pause => true
  | .plbinv _ => true
  | .htinv _ => true
  | .htinvMigrate _ => true
  | .strandpark _ => true
  | .strandwake _ => true
  | .vcfg _ _ _ => true
  | .vsetl _ _ w => widthClassOk w
  | .vacq _ _ => true
  | .vrelease => true
  | .vgettag _ _ => true
  | .vadd _ _ _ _ _ => true
  | .vsub _ _ _ _ _ => true
  | .vrsub _ _ _ _ _ => true
  | .vmul _ _ _ _ _ => true
  | .vmulh _ _ _ _ _ => true
  | .vdiv _ _ _ _ _ => true
  | .vrem _ _ _ _ _ => true
  | .vmin _ _ _ _ _ => true
  | .vmax _ _ _ _ _ => true
  | .vabs _ _ _ => true
  | .vneg _ _ _ => true
  | .vabsd _ _ _ _ _ => true
  | .vsadd _ _ _ _ _ => true
  | .vssub _ _ _ _ _ => true
  | .vsqrt _ _ _ => true
  | .vand _ _ _ _ _ => true
  | .vor _ _ _ _ _ => true
  | .vxor _ _ _ _ _ => true
  | .vnot _ _ _ => true
  | .vsll _ _ _ _ _ => true
  | .vsrl _ _ _ _ _ => true
  | .vsra _ _ _ _ _ => true
  | .vrol _ _ _ _ _ => true
  | .vclz _ _ _ => true
  | .vpopc _ _ _ => true
  | .vmerge _ _ _ _ _ => true
  | .vmov _ _ _ => true
  | .vmacc _ _ _ f _ => formNoImm f
  | .vnmsac _ _ _ f _ => formNoImm f
  | .vmadd _ _ _ f _ => formNoImm f
  | .vnmsub _ _ _ f _ => formNoImm f
  | .vdot4 _ _ _ f _ => formVvVx f
  | .vceq _ _ _ _ _ => true
  | .vcne _ _ _ _ _ => true
  | .vclt _ _ _ _ _ => true
  | .vcle _ _ _ _ _ => true
  | .vcgt _ _ _ _ _ => true
  | .vcge _ _ _ _ _ => true
  | .vcun _ _ _ _ _ => true
  | .vcvt _ _ _ => true
  | .vfrint _ _ _ => true
  | .vfexp2f _ _ _ => true
  | .vfscale _ _ _ _ _ => true
  | .vfrexp _ _ _ => true
  | .vfmant _ _ _ => true
  | .vrecipe _ _ _ => true
  | .vrsqrte _ _ _ => true
  | .vclass _ _ _ => true
  | .vbxpack _ _ _ => true
  | .vslideup _ _ _ f _ => formVsVi f
  | .vslidedn _ _ _ f _ => formVsVi f
  | .vpermute _ _ _ f _ => formVvVx f
  | .vcompress _ _ _ => true
  | .vexpand _ _ _ => true
  | .vbcast _ _ f _ => formVsVi f
  | .vextr _ _ _ f _ => formVsVi f
  | .vins _ _ _ f _ => formVsVi f
  | .vrev _ _ _ => true
  | .vzip _ _ _ f _ => formVvVx f
  | .vunzip _ _ _ f _ => formVvVx f
  | .vid _ _ => true
  | .vmvix _ _ _ => true
  | .vredsum _ _ _ _ _ => true
  | .vredmin _ _ _ _ _ => true
  | .vredmax _ _ _ _ _ => true
  | .vredand _ _ _ _ _ => true
  | .vredor _ _ _ _ _ => true
  | .vredxor _ _ _ _ _ => true
  | .vfredosum _ _ _ _ _ => true
  | .vscanadd _ _ _ _ _ => true
  | .vscanmax _ _ _ _ _ => true
  | .vscanmin _ _ _ _ _ => true
  | .vrecur _ _ _ _ _ => true
  | .pand _ _ _ _ => true
  | .por _ _ _ _ => true
  | .pxor _ _ _ _ => true
  | .pandn _ _ _ _ => true
  | .pnot _ _ _ => true
  | .pset _ _ => true
  | .pclr _ _ => true
  | .pcnt _ _ _ => true
  | .pfirst _ _ _ => true
  | .pfromv _ _ _ => true
  | .ptov _ _ _ => true
  | .vld _ _ _ _ _ => true
  | .vst _ _ _ _ _ => true
  | .vldff _ _ _ _ _ => true
  | .vlds _ _ _ _ _ _ => true
  | .vsts _ _ _ _ _ _ => true
  | .vldx _ _ _ _ _ _ => true
  | .vstx _ _ _ _ _ _ => true
  | .vstxo _ _ _ _ _ _ => true
  | .vldsc _ _ _ _ _ _ => true
  | .vstsc _ _ _ _ _ _ => true
  | .ticketServed => true
  | .elds _ _ => true
  | .ests _ _ => true
  | .ezero _ => true
  | .repf _ _ _ _ _ => true
  | .mma _ y z _ a b => mmaOperandOk a y && mmaOperandOk b z
  | .mmaz _ y z _ a b => mmaOperandOk a y && mmaOperandOk b z
  | .mmas _ y z _ a b => mmaOperandOk a y && mmaOperandOk b z
  | .mmaCompletion _ => true
  | .tld _ _ _ => true
  | .tst _ _ _ => true
  | .tldm _ y => evenRegister y
  | .tstm _ y => evenRegister y
  | .tzero _ => true
  | .tmov _ _ => true
  | .ttrans _ _ => true
  | .tcfg _ _ => true
  | .accz _ => true
  | .accst _ _ _ e => storedFormatOk e
  | .accrd _ _ _ => true
  | .accwr _ _ _ => true
  | .accadd _ _ => true
  | .accscl _ _ => true
  | .trowv _ _ _ => true
  | .vtrow _ _ _ => true
  | .tcolv _ _ _ => true
  | .gbar _ _ => true
  | .barrierPhaseComplete _ => true
  | .gbarTimeout _ => true
  | .gtmcast _ _ => true
  | .grank _ _ => true
  | .sempost _ => true
  | .semwait _ => true
  | .semtry _ _ => true
  | .secopy _ _ => true
  | .seload2d _ _ => true
  | .sestore2d _ _ => true
  | .segather _ _ => true
  | .sefoot _ _ => true
  | .sewait _ => true
  | .cardStart _ => true
  | .cardComplete _ _ => true
  | .cardStop _ _ => true
  | .cpref _ _ _ _ => true
  | .prefetch _ => true
  | .cflush _ _ _ _ => true
  | .cinv _ _ _ _ => true
  | .cpin _ _ _ _ => true
  | .cunpin _ _ _ _ => true
  | .cpri _ _ _ _ => true
  | .samBoard _ _ _ _ => true
  | .boardFill _ => true
  | .samAlight _ _ _ => true
  | .samLd _ _ _ w => samWordOk w
  | .samSt _ _ _ _ w => samWordOk w
  | .samAdd _ _ _ _ w => samWordOk w
  | .samMin _ _ _ _ w => samWordOk w
  | .samMax _ _ _ _ w => samWordOk w
  | .samCas _ _ _ _ w => samWordOk w
  | .samCapture _ _ _ _ => true
  | .samCld _ _ _ w => samWordOk w
  | .samCst _ _ _ _ w => samWordOk w
  | .samRelease _ _ _ => true
  | .samWaitrev _ _ _ => true
  | .samovarPassage _ => true
  | .recordReentry _ => true
  | .captureHoldExpiry _ => true
  | .samNotag _ => true
  | .rstw _ _ _ => true
  | .rstd _ _ _ => true
  | .ramo d _ _ _ => steepOpOk d
  | .ramow d _ _ _ => steepOpOk d
  | .sflush => true
  | .sflushw _ => true
  | .sfrec _ _ => true
  | .steepAgeTrigger _ => true
  | .steepAck => true
  | .steepAsync _ => true
  | .amsend _ _ _ => true
  | .amsendw _ _ _ => true
  | .amreply _ _ _ => true
  | .amdone => true
  | .rcmask _ => true
  | .rcunmask _ => true
  | .messageArrival => true
  | .amsendAnswer _ => true
  | .messageDispatch _ => true
  | .handlerOverrun _ => true
  | .gnext _ _ => true
  | .gfield _ f => fieldNumberOk f
  | .gdone => true
  | .groupRetire _ => true
  | .launch _ _ => true
  | .lwait _ _ => true
  | .groupAssign _ => true
  | .footprintFetchComplete _ => true
  | .reassign _ => true
  | .groupBudget _ => true
  | .balloc _ s => sizeClassOk s
  | .bfree _ => true
  | .blockReturn => true
  | .illegalInstr _ => true
  | .trapEntry _ => true
  | .timer _ => true
  | .machineCheck _ _ _ => true
  | .poisonMark _ => true
  | .softErrorCorrected _ _ => true
  | .thermalTrip => true
  | .status _ => true
  | .tileOwner _ => true
  | .ttags _ => true
  | .atags _ => true
  | .steepAgeMax _ => true
  | .vl _ => true
  | .vhwe _ _ => true
  | .fflags _ _ => true
  | .csrWrite _ _ => true
  | .gangSetMembership _ => true
  | .gangStop _ => true
  | .gangResume _ => true
  | .debugHalt _ => true
  | .debugResume _ => true
  | .dbgData _ => true
  | .kettleCtl _ => true
  | .kettleAdjust _ _ _ => true
  | .svcMode _ => true
  | .samQuotaSet _ => true
  | .pinQuotaSet _ => true
  | .plbFill _ _ => true
  | .translationWalk _ _ => true
  | .migrationSectorCopy _ => true
  | .migrationComplete _ => true
  | .start _ _ => true
  | .launchFrame _ _ => true
  | .launchFrameCompletion _ => true
  | .replay _ _ => true
  | .replayNodeLaunch _ _ => true
  | .patch _ _ => true
  | .abort _ _ => true
  | .rerun _ _ => true
  | .notify _ _ => true
  | .arena _ _ => true
  | .key _ _ => true
  | .quota _ _ => true
  | .partition _ _ => true
  | .teardown _ _ => true
  | .attest _ _ => true
  | .errlog _ _ => true
  | .firmware _ _ => true
  | .firmwareTakeover => true
  | .retry _ => true
  | .completionPost _ => true
  | .sqPoll _ => true
  | .qpdPost _ => true
  | .functionLevelReset => true
  | .reset => true
  | .starvationToken _ _ => true
  | .combineBatch _ _ => true
  | .combiningQueueClose _ _ => true
  | .bridgeLinkFailure _ _ => true
  | .read _ => true
  | .write _ => true
  | .atomic _ => true
  | .vread _ => true
  | .vwrite _ => true
  | .words _ => true
  | .msg _ => true
  | .rsp _ => true
  | .ack _ => true
  | .demand _ => true
  | .grant _ => true
  | .grantLapse _ => true
  | .blockReplay _ _ => true
  | .keyRotation _ => true
  | .keyExhausted _ => true
  | .portStop _ => true
  | .linkKeySelect _ => true
  | .linkKeyStage _ => true
  | .linkKeyInstall _ => true
  | .linkPortStop _ => true
  | .linkRetrain _ => true
  | .linkKeyData _ => true
  | .ramowResponse _ => true
  | .gtmcastCopiesWritten _ => true
  | .writebackComplete _ => true
  | .badPacket _ => true
  | .linkTrained _ => true
  | .captureMarkerClear _ => true
  | .pauseExpiry _ => true

end Sys2Proof
end

