-- ==== Sys2Proof/Decode.lean ====
section
/-! DEFINITION. Reading an instruction word (R111 to R114): total on every 32-bit word, with a named rejection for
each word that is not an instruction; and, after it, the encoder written from the same formats and map.
The decoder is marked noncomputable for one reason: Lean's compiler has no run-time tag for a type of this many
constructors. The kernel evaluates it like any other structural definition. -/
namespace Sys2Proof

/-- Why a word is not an instruction (R114). -/
inductive DecodeError where
  /-- Major opcode 0x00, 0x3E or 0x3F. -/
  | reservedMajor
  /-- A function, op, cond or selector value that R112 does not list. -/
  | reservedFunction
  /-- A rsv or unused field that is nonzero (R6). -/
  | unusedNotZero
  /-- A subfield out of range, a form the function does not accept, an odd descriptor register. -/
  | outOfRange
deriving DecidableEq, Repr

/-- What the decoder answers. -/
abbrev Decoded := Except DecodeError Instr

/-- The instruction when its unused bits are zero (R111, R114). -/
def unusedZero (ok : Bool) (i : Instr) : Decoded := if ok then .ok i else .error .unusedNotZero

/-- R112, major 0x01. -/
noncomputable def decodeAlu (w : InstrWord) : Decoded :=
  match (w.extractLsb' 0 11).toNat with
  | 0 => .ok (.add (w.extractLsb' 21 5) (w.extractLsb' 16 5) (w.extractLsb' 11 5))
  | 1 => .ok (.sub (w.extractLsb' 21 5) (w.extractLsb' 16 5) (w.extractLsb' 11 5))
  | 2 => .ok (.and (w.extractLsb' 21 5) (w.extractLsb' 16 5) (w.extractLsb' 11 5))
  | 3 => .ok (.or (w.extractLsb' 21 5) (w.extractLsb' 16 5) (w.extractLsb' 11 5))
  | 4 => .ok (.xor (w.extractLsb' 21 5) (w.extractLsb' 16 5) (w.extractLsb' 11 5))
  | 5 => .ok (.andn (w.extractLsb' 21 5) (w.extractLsb' 16 5) (w.extractLsb' 11 5))
  | 6 => .ok (.orn (w.extractLsb' 21 5) (w.extractLsb' 16 5) (w.extractLsb' 11 5))
  | 16 => .ok (.sll (w.extractLsb' 21 5) (w.extractLsb' 16 5) (w.extractLsb' 11 5))
  | 17 => .ok (.srl (w.extractLsb' 21 5) (w.extractLsb' 16 5) (w.extractLsb' 11 5))
  | 18 => .ok (.sra (w.extractLsb' 21 5) (w.extractLsb' 16 5) (w.extractLsb' 11 5))
  | 19 => .ok (.rol (w.extractLsb' 21 5) (w.extractLsb' 16 5) (w.extractLsb' 11 5))
  | 20 => .ok (.ror (w.extractLsb' 21 5) (w.extractLsb' 16 5) (w.extractLsb' 11 5))
  | 32 => .ok (.slt (w.extractLsb' 21 5) (w.extractLsb' 16 5) (w.extractLsb' 11 5))
  | 33 => .ok (.sltu (w.extractLsb' 21 5) (w.extractLsb' 16 5) (w.extractLsb' 11 5))
  | 34 => .ok (.min (w.extractLsb' 21 5) (w.extractLsb' 16 5) (w.extractLsb' 11 5))
  | 35 => .ok (.max (w.extractLsb' 21 5) (w.extractLsb' 16 5) (w.extractLsb' 11 5))
  | 36 => .ok (.minu (w.extractLsb' 21 5) (w.extractLsb' 16 5) (w.extractLsb' 11 5))
  | 37 => .ok (.maxu (w.extractLsb' 21 5) (w.extractLsb' 16 5) (w.extractLsb' 11 5))
  | 38 => .ok (.sel (w.extractLsb' 21 5) (w.extractLsb' 16 5) (w.extractLsb' 11 5))
  | 48 => .ok (.mul (w.extractLsb' 21 5) (w.extractLsb' 16 5) (w.extractLsb' 11 5))
  | 49 => .ok (.mulh (w.extractLsb' 21 5) (w.extractLsb' 16 5) (w.extractLsb' 11 5))
  | 50 => .ok (.mulhu (w.extractLsb' 21 5) (w.extractLsb' 16 5) (w.extractLsb' 11 5))
  | 51 => .ok (.mulhsu (w.extractLsb' 21 5) (w.extractLsb' 16 5) (w.extractLsb' 11 5))
  | 52 => .ok (.div (w.extractLsb' 21 5) (w.extractLsb' 16 5) (w.extractLsb' 11 5))
  | 53 => .ok (.divu (w.extractLsb' 21 5) (w.extractLsb' 16 5) (w.extractLsb' 11 5))
  | 54 => .ok (.rem (w.extractLsb' 21 5) (w.extractLsb' 16 5) (w.extractLsb' 11 5))
  | 55 => .ok (.remu (w.extractLsb' 21 5) (w.extractLsb' 16 5) (w.extractLsb' 11 5))
  | 64 => unusedZero (w.extractLsb' 11 5 == 0) (.clz (w.extractLsb' 21 5) (w.extractLsb' 16 5))
  | 65 => unusedZero (w.extractLsb' 11 5 == 0) (.ctz (w.extractLsb' 21 5) (w.extractLsb' 16 5))
  | 66 => unusedZero (w.extractLsb' 11 5 == 0) (.popc (w.extractLsb' 21 5) (w.extractLsb' 16 5))
  | 67 => unusedZero (w.extractLsb' 11 5 == 0) (.bswap (w.extractLsb' 21 5) (w.extractLsb' 16 5))
  | 68 => unusedZero (w.extractLsb' 11 5 == 0) (.sextb (w.extractLsb' 21 5) (w.extractLsb' 16 5))
  | 69 => unusedZero (w.extractLsb' 11 5 == 0) (.sexth (w.extractLsb' 21 5) (w.extractLsb' 16 5))
  | 70 => unusedZero (w.extractLsb' 11 5 == 0) (.sextw (w.extractLsb' 21 5) (w.extractLsb' 16 5))
  | 71 => unusedZero (w.extractLsb' 11 5 == 0) (.zextw (w.extractLsb' 21 5) (w.extractLsb' 16 5))
  | _ => .error .reservedFunction

/-- R112, major 0x06. -/
noncomputable def decodeShi (w : InstrWord) : Decoded :=
  match (w.extractLsb' 6 2).toNat with
  | 0 => unusedZero (w.extractLsb' 8 8 == 0) (.slli (w.extractLsb' 21 5) (w.extractLsb' 16 5) (w.extractLsb' 0 6))
  | 1 => unusedZero (w.extractLsb' 8 8 == 0) (.srli (w.extractLsb' 21 5) (w.extractLsb' 16 5) (w.extractLsb' 0 6))
  | 2 => unusedZero (w.extractLsb' 8 8 == 0) (.srai (w.extractLsb' 21 5) (w.extractLsb' 16 5) (w.extractLsb' 0 6))
  | _ => unusedZero (w.extractLsb' 8 8 == 0) (.rori (w.extractLsb' 21 5) (w.extractLsb' 16 5) (w.extractLsb' 0 6))

/-- R112, major 0x0B. -/
noncomputable def decodeFpu (w : InstrWord) : Decoded :=
  match (w.extractLsb' 0 9).toNat with
  | 0 => .ok (.fadd (w.extractLsb' 21 5) (w.extractLsb' 16 5) (w.extractLsb' 11 5) (w.extractLsb' 9 2))
  | 1 => .ok (.fsub (w.extractLsb' 21 5) (w.extractLsb' 16 5) (w.extractLsb' 11 5) (w.extractLsb' 9 2))
  | 2 => .ok (.fmul (w.extractLsb' 21 5) (w.extractLsb' 16 5) (w.extractLsb' 11 5) (w.extractLsb' 9 2))
  | 3 => .ok (.fdiv (w.extractLsb' 21 5) (w.extractLsb' 16 5) (w.extractLsb' 11 5) (w.extractLsb' 9 2))
  | 4 => unusedZero (w.extractLsb' 11 5 == 0) (.fsqrt (w.extractLsb' 21 5) (w.extractLsb' 16 5) (w.extractLsb' 9 2))
  | 5 => .ok (.fmin (w.extractLsb' 21 5) (w.extractLsb' 16 5) (w.extractLsb' 11 5) (w.extractLsb' 9 2))
  | 6 => .ok (.fmax (w.extractLsb' 21 5) (w.extractLsb' 16 5) (w.extractLsb' 11 5) (w.extractLsb' 9 2))
  | 7 => .ok (.fsgnj (w.extractLsb' 21 5) (w.extractLsb' 16 5) (w.extractLsb' 11 5) (w.extractLsb' 9 2))
  | 8 => .ok (.fsgnjn (w.extractLsb' 21 5) (w.extractLsb' 16 5) (w.extractLsb' 11 5) (w.extractLsb' 9 2))
  | 9 => .ok (.fsgnjx (w.extractLsb' 21 5) (w.extractLsb' 16 5) (w.extractLsb' 11 5) (w.extractLsb' 9 2))
  | 16 => .ok (.feq (w.extractLsb' 21 5) (w.extractLsb' 16 5) (w.extractLsb' 11 5) (w.extractLsb' 9 2))
  | 17 => .ok (.flt (w.extractLsb' 21 5) (w.extractLsb' 16 5) (w.extractLsb' 11 5) (w.extractLsb' 9 2))
  | 18 => .ok (.fle (w.extractLsb' 21 5) (w.extractLsb' 16 5) (w.extractLsb' 11 5) (w.extractLsb' 9 2))
  | 19 => unusedZero (w.extractLsb' 11 5 == 0) (.fclass (w.extractLsb' 21 5) (w.extractLsb' 16 5) (w.extractLsb' 9 2))
  | 32 => unusedZero (w.extractLsb' 11 5 == 0) (.fcvti (w.extractLsb' 21 5) (w.extractLsb' 16 5) (w.extractLsb' 9 2))
  | 33 => unusedZero (w.extractLsb' 11 5 == 0) (.fcvtu (w.extractLsb' 21 5) (w.extractLsb' 16 5) (w.extractLsb' 9 2))
  | 34 => unusedZero (w.extractLsb' 11 5 == 0) (.fcvtf (w.extractLsb' 21 5) (w.extractLsb' 16 5) (w.extractLsb' 9 2))
  | 35 => unusedZero (w.extractLsb' 11 5 == 0) (.fcvtfu (w.extractLsb' 21 5) (w.extractLsb' 16 5) (w.extractLsb' 9 2))
  | 36 => unusedZero (w.extractLsb' 13 3 == 0) (.fcvtff (w.extractLsb' 21 5) (w.extractLsb' 16 5) (w.extractLsb' 11 2) (w.extractLsb' 9 2))
  | _ => .error .reservedFunction

/-- R112, major 0x0C. -/
noncomputable def decodeFma (w : InstrWord) : Decoded :=
  match (w.extractLsb' 4 2).toNat with
  | 0 => unusedZero (w.extractLsb' 0 2 == 0) (.fmadd (w.extractLsb' 21 5) (w.extractLsb' 16 5) (w.extractLsb' 11 5) (w.extractLsb' 6 5) (w.extractLsb' 2 2))
  | 1 => unusedZero (w.extractLsb' 0 2 == 0) (.fmsub (w.extractLsb' 21 5) (w.extractLsb' 16 5) (w.extractLsb' 11 5) (w.extractLsb' 6 5) (w.extractLsb' 2 2))
  | 2 => unusedZero (w.extractLsb' 0 2 == 0) (.fnmadd (w.extractLsb' 21 5) (w.extractLsb' 16 5) (w.extractLsb' 11 5) (w.extractLsb' 6 5) (w.extractLsb' 2 2))
  | _ => unusedZero (w.extractLsb' 0 2 == 0) (.fnmsub (w.extractLsb' 21 5) (w.extractLsb' 16 5) (w.extractLsb' 11 5) (w.extractLsb' 6 5) (w.extractLsb' 2 2))

/-- R112, major 0x18. -/
noncomputable def decodeAmo (w : InstrWord) : Decoded :=
  match (w.extractLsb' 0 4).toNat with
  | 0 => .ok (.amoSwap (w.extractLsb' 21 5) (w.extractLsb' 16 5) (w.extractLsb' 11 5) (w.extractLsb' 7 4) (w.extractLsb' 6 1) (w.extractLsb' 5 1) (w.extractLsb' 4 1))
  | 1 => .ok (.amoAdd (w.extractLsb' 21 5) (w.extractLsb' 16 5) (w.extractLsb' 11 5) (w.extractLsb' 7 4) (w.extractLsb' 6 1) (w.extractLsb' 5 1) (w.extractLsb' 4 1))
  | 2 => .ok (.amoAnd (w.extractLsb' 21 5) (w.extractLsb' 16 5) (w.extractLsb' 11 5) (w.extractLsb' 7 4) (w.extractLsb' 6 1) (w.extractLsb' 5 1) (w.extractLsb' 4 1))
  | 3 => .ok (.amoOr (w.extractLsb' 21 5) (w.extractLsb' 16 5) (w.extractLsb' 11 5) (w.extractLsb' 7 4) (w.extractLsb' 6 1) (w.extractLsb' 5 1) (w.extractLsb' 4 1))
  | 4 => .ok (.amoXor (w.extractLsb' 21 5) (w.extractLsb' 16 5) (w.extractLsb' 11 5) (w.extractLsb' 7 4) (w.extractLsb' 6 1) (w.extractLsb' 5 1) (w.extractLsb' 4 1))
  | 5 => .ok (.amoMin (w.extractLsb' 21 5) (w.extractLsb' 16 5) (w.extractLsb' 11 5) (w.extractLsb' 7 4) (w.extractLsb' 6 1) (w.extractLsb' 5 1) (w.extractLsb' 4 1))
  | 6 => .ok (.amoMax (w.extractLsb' 21 5) (w.extractLsb' 16 5) (w.extractLsb' 11 5) (w.extractLsb' 7 4) (w.extractLsb' 6 1) (w.extractLsb' 5 1) (w.extractLsb' 4 1))
  | 7 => .ok (.amoMinu (w.extractLsb' 21 5) (w.extractLsb' 16 5) (w.extractLsb' 11 5) (w.extractLsb' 7 4) (w.extractLsb' 6 1) (w.extractLsb' 5 1) (w.extractLsb' 4 1))
  | 8 => .ok (.amoMaxu (w.extractLsb' 21 5) (w.extractLsb' 16 5) (w.extractLsb' 11 5) (w.extractLsb' 7 4) (w.extractLsb' 6 1) (w.extractLsb' 5 1) (w.extractLsb' 4 1))
  | 9 => .ok (.amoFadd (w.extractLsb' 21 5) (w.extractLsb' 16 5) (w.extractLsb' 11 5) (w.extractLsb' 7 4) (w.extractLsb' 6 1) (w.extractLsb' 5 1) (w.extractLsb' 4 1))
  | _ => .error .reservedFunction

/-- R112, major 0x19. -/
noncomputable def decodeCas (w : InstrWord) : Decoded :=
  match (w.extractLsb' 0 4).toNat with
  | 0 => .ok (.cas (w.extractLsb' 21 5) (w.extractLsb' 16 5) (w.extractLsb' 11 5) (w.extractLsb' 7 4) (w.extractLsb' 6 1) (w.extractLsb' 5 1) (w.extractLsb' 4 1))
  | _ => .error .reservedFunction

/-- R112, major 0x1A. -/
noncomputable def decodeSync (w : InstrWord) : Decoded :=
  match (w.extractLsb' 21 5).toNat with
  | 0 => .ok (.fence (w.extractLsb' 19 2) (w.extractLsb' 16 3) (w.extractLsb' 0 16))
  | 1 => unusedZero (w.extractLsb' 16 5 == 0) (.vdrain (w.extractLsb' 0 16))
  | 2 => unusedZero (w.extractLsb' 0 21 == 0) (.ifence)
  | _ => .error .reservedFunction

/-- R112, major 0x1B. -/
noncomputable def decodeBr (w : InstrWord) : Decoded :=
  match (w.extractLsb' 13 3).toNat with
  | 0 => .ok (.beq (w.extractLsb' 21 5) (w.extractLsb' 16 5) (w.extractLsb' 0 13))
  | 1 => .ok (.bne (w.extractLsb' 21 5) (w.extractLsb' 16 5) (w.extractLsb' 0 13))
  | 2 => .ok (.blt (w.extractLsb' 21 5) (w.extractLsb' 16 5) (w.extractLsb' 0 13))
  | 3 => .ok (.bge (w.extractLsb' 21 5) (w.extractLsb' 16 5) (w.extractLsb' 0 13))
  | 4 => .ok (.bltu (w.extractLsb' 21 5) (w.extractLsb' 16 5) (w.extractLsb' 0 13))
  | 5 => .ok (.bgeu (w.extractLsb' 21 5) (w.extractLsb' 16 5) (w.extractLsb' 0 13))
  | _ => .error .reservedFunction

/-- R112, major 0x1F. -/
noncomputable def decodeCsr (w : InstrWord) : Decoded :=
  match (w.extractLsb' 14 2).toNat with
  | 0 => .ok (.csrrw (w.extractLsb' 21 5) (w.extractLsb' 16 5) (w.extractLsb' 0 14))
  | 1 => .ok (.csrrs (w.extractLsb' 21 5) (w.extractLsb' 16 5) (w.extractLsb' 0 14))
  | 2 => .ok (.csrrc (w.extractLsb' 21 5) (w.extractLsb' 16 5) (w.extractLsb' 0 14))
  | _ => unusedZero (w.extractLsb' 16 5 == 0) (.csrrd (w.extractLsb' 21 5) (w.extractLsb' 0 14))

/-- R112, major 0x20. -/
noncomputable def decodeSys (w : InstrWord) : Decoded :=
  match (w.extractLsb' 21 5).toNat with
  | 0 => unusedZero (w.extractLsb' 0 21 == 0) (.ecall)
  | 1 => unusedZero (w.extractLsb' 0 21 == 0) (.ebreak)
  | 2 => unusedZero (w.extractLsb' 0 21 == 0) (.eret)
  | 3 => unusedZero (w.extractLsb' 0 21 == 0) (.wfi)
  | 4 => unusedZero (w.extractLsb' 0 21 == 0) (.yield)
  | 5 => unusedZero (w.extractLsb' 0 21 == 0) (.pause)
  | 6 => unusedZero (w.extractLsb' 0 16 == 0) (.plbinv (w.extractLsb' 16 5))
  | 7 => unusedZero (w.extractLsb' 0 16 == 0) (.htinv (w.extractLsb' 16 5))
  | 8 => unusedZero (w.extractLsb' 0 16 == 0) (.strandpark (w.extractLsb' 16 5))
  | 9 => unusedZero (w.extractLsb' 0 16 == 0) (.strandwake (w.extractLsb' 16 5))
  | _ => .error .reservedFunction

/-- R112, major 0x22. -/
noncomputable def decodeVecSet (w : InstrWord) : Decoded :=
  match (w.extractLsb' 14 2).toNat with
  | 0 => unusedZero (w.extractLsb' 4 10 == 0) (.vsetl (w.extractLsb' 21 5) (w.extractLsb' 16 5) (w.extractLsb' 0 4))
  | 1 => unusedZero (w.extractLsb' 0 14 == 0) (.vacq (w.extractLsb' 21 5) (w.extractLsb' 16 5))
  | 2 => unusedZero (w.extractLsb' 0 14 == 0 && w.extractLsb' 16 10 == 0) (.vrelease)
  | _ => unusedZero (w.extractLsb' 0 14 == 0) (.vgettag (w.extractLsb' 21 5) (w.extractLsb' 16 5))

/-- R112, major 0x23. -/
def decodeVarith (w : InstrWord) : Decoded :=
  match (w.extractLsb' 0 6).toNat with
  | 0 => .ok (.vadd (w.extractLsb' 21 5) (w.extractLsb' 16 5) (w.extractLsb' 11 5) (w.extractLsb' 9 2) (w.extractLsb' 6 3))
  | 1 => .ok (.vsub (w.extractLsb' 21 5) (w.extractLsb' 16 5) (w.extractLsb' 11 5) (w.extractLsb' 9 2) (w.extractLsb' 6 3))
  | 2 => .ok (.vrsub (w.extractLsb' 21 5) (w.extractLsb' 16 5) (w.extractLsb' 11 5) (w.extractLsb' 9 2) (w.extractLsb' 6 3))
  | 3 => .ok (.vmul (w.extractLsb' 21 5) (w.extractLsb' 16 5) (w.extractLsb' 11 5) (w.extractLsb' 9 2) (w.extractLsb' 6 3))
  | 4 => .ok (.vmulh (w.extractLsb' 21 5) (w.extractLsb' 16 5) (w.extractLsb' 11 5) (w.extractLsb' 9 2) (w.extractLsb' 6 3))
  | 5 => .ok (.vdiv (w.extractLsb' 21 5) (w.extractLsb' 16 5) (w.extractLsb' 11 5) (w.extractLsb' 9 2) (w.extractLsb' 6 3))
  | 6 => .ok (.vrem (w.extractLsb' 21 5) (w.extractLsb' 16 5) (w.extractLsb' 11 5) (w.extractLsb' 9 2) (w.extractLsb' 6 3))
  | 7 => .ok (.vmin (w.extractLsb' 21 5) (w.extractLsb' 16 5) (w.extractLsb' 11 5) (w.extractLsb' 9 2) (w.extractLsb' 6 3))
  | 8 => .ok (.vmax (w.extractLsb' 21 5) (w.extractLsb' 16 5) (w.extractLsb' 11 5) (w.extractLsb' 9 2) (w.extractLsb' 6 3))
  | 9 => unusedZero (w.extractLsb' 9 7 == 0) (.vabs (w.extractLsb' 21 5) (w.extractLsb' 16 5) (w.extractLsb' 6 3))
  | 10 => unusedZero (w.extractLsb' 9 7 == 0) (.vneg (w.extractLsb' 21 5) (w.extractLsb' 16 5) (w.extractLsb' 6 3))
  | 11 => .ok (.vabsd (w.extractLsb' 21 5) (w.extractLsb' 16 5) (w.extractLsb' 11 5) (w.extractLsb' 9 2) (w.extractLsb' 6 3))
  | 12 => .ok (.vsadd (w.extractLsb' 21 5) (w.extractLsb' 16 5) (w.extractLsb' 11 5) (w.extractLsb' 9 2) (w.extractLsb' 6 3))
  | 13 => .ok (.vssub (w.extractLsb' 21 5) (w.extractLsb' 16 5) (w.extractLsb' 11 5) (w.extractLsb' 9 2) (w.extractLsb' 6 3))
  | 14 => unusedZero (w.extractLsb' 9 7 == 0) (.vsqrt (w.extractLsb' 21 5) (w.extractLsb' 16 5) (w.extractLsb' 6 3))
  | _ => .error .reservedFunction

/-- R112, major 0x24. -/
def decodeVlogic (w : InstrWord) : Decoded :=
  match (w.extractLsb' 0 6).toNat with
  | 0 => .ok (.vand (w.extractLsb' 21 5) (w.extractLsb' 16 5) (w.extractLsb' 11 5) (w.extractLsb' 9 2) (w.extractLsb' 6 3))
  | 1 => .ok (.vor (w.extractLsb' 21 5) (w.extractLsb' 16 5) (w.extractLsb' 11 5) (w.extractLsb' 9 2) (w.extractLsb' 6 3))
  | 2 => .ok (.vxor (w.extractLsb' 21 5) (w.extractLsb' 16 5) (w.extractLsb' 11 5) (w.extractLsb' 9 2) (w.extractLsb' 6 3))
  | 3 => unusedZero (w.extractLsb' 9 7 == 0) (.vnot (w.extractLsb' 21 5) (w.extractLsb' 16 5) (w.extractLsb' 6 3))
  | 4 => .ok (.vsll (w.extractLsb' 21 5) (w.extractLsb' 16 5) (w.extractLsb' 11 5) (w.extractLsb' 9 2) (w.extractLsb' 6 3))
  | 5 => .ok (.vsrl (w.extractLsb' 21 5) (w.extractLsb' 16 5) (w.extractLsb' 11 5) (w.extractLsb' 9 2) (w.extractLsb' 6 3))
  | 6 => .ok (.vsra (w.extractLsb' 21 5) (w.extractLsb' 16 5) (w.extractLsb' 11 5) (w.extractLsb' 9 2) (w.extractLsb' 6 3))
  | 7 => .ok (.vrol (w.extractLsb' 21 5) (w.extractLsb' 16 5) (w.extractLsb' 11 5) (w.extractLsb' 9 2) (w.extractLsb' 6 3))
  | 8 => unusedZero (w.extractLsb' 9 7 == 0) (.vclz (w.extractLsb' 21 5) (w.extractLsb' 16 5) (w.extractLsb' 6 3))
  | 9 => unusedZero (w.extractLsb' 9 7 == 0) (.vpopc (w.extractLsb' 21 5) (w.extractLsb' 16 5) (w.extractLsb' 6 3))
  | 10 => .ok (.vmerge (w.extractLsb' 21 5) (w.extractLsb' 16 5) (w.extractLsb' 11 5) (w.extractLsb' 9 2) (w.extractLsb' 6 3))
  | 11 => unusedZero (w.extractLsb' 9 7 == 0) (.vmov (w.extractLsb' 21 5) (w.extractLsb' 16 5) (w.extractLsb' 6 3))
  | _ => .error .reservedFunction

/-- R112, major 0x25. -/
def decodeVfma (w : InstrWord) : Decoded :=
  match (w.extractLsb' 0 6).toNat with
  | 0 => .ok (.vmacc (w.extractLsb' 21 5) (w.extractLsb' 16 5) (w.extractLsb' 11 5) (w.extractLsb' 9 2) (w.extractLsb' 6 3))
  | 1 => .ok (.vnmsac (w.extractLsb' 21 5) (w.extractLsb' 16 5) (w.extractLsb' 11 5) (w.extractLsb' 9 2) (w.extractLsb' 6 3))
  | 2 => .ok (.vmadd (w.extractLsb' 21 5) (w.extractLsb' 16 5) (w.extractLsb' 11 5) (w.extractLsb' 9 2) (w.extractLsb' 6 3))
  | 3 => .ok (.vnmsub (w.extractLsb' 21 5) (w.extractLsb' 16 5) (w.extractLsb' 11 5) (w.extractLsb' 9 2) (w.extractLsb' 6 3))
  | 4 => .ok (.vdot4 (w.extractLsb' 21 5) (w.extractLsb' 16 5) (w.extractLsb' 11 5) (w.extractLsb' 9 2) (w.extractLsb' 6 3))
  | _ => .error .reservedFunction

/-- R112, major 0x26. -/
def decodeVcmp (w : InstrWord) : Decoded :=
  match (w.extractLsb' 0 6).toNat with
  | 0 => unusedZero (w.extractLsb' 24 2 == 0) (.vceq (w.extractLsb' 21 3) (w.extractLsb' 16 5) (w.extractLsb' 11 5) (w.extractLsb' 9 2) (w.extractLsb' 6 3))
  | 1 => unusedZero (w.extractLsb' 24 2 == 0) (.vcne (w.extractLsb' 21 3) (w.extractLsb' 16 5) (w.extractLsb' 11 5) (w.extractLsb' 9 2) (w.extractLsb' 6 3))
  | 2 => unusedZero (w.extractLsb' 24 2 == 0) (.vclt (w.extractLsb' 21 3) (w.extractLsb' 16 5) (w.extractLsb' 11 5) (w.extractLsb' 9 2) (w.extractLsb' 6 3))
  | 3 => unusedZero (w.extractLsb' 24 2 == 0) (.vcle (w.extractLsb' 21 3) (w.extractLsb' 16 5) (w.extractLsb' 11 5) (w.extractLsb' 9 2) (w.extractLsb' 6 3))
  | 4 => unusedZero (w.extractLsb' 24 2 == 0) (.vcgt (w.extractLsb' 21 3) (w.extractLsb' 16 5) (w.extractLsb' 11 5) (w.extractLsb' 9 2) (w.extractLsb' 6 3))
  | 5 => unusedZero (w.extractLsb' 24 2 == 0) (.vcge (w.extractLsb' 21 3) (w.extractLsb' 16 5) (w.extractLsb' 11 5) (w.extractLsb' 9 2) (w.extractLsb' 6 3))
  | 6 => unusedZero (w.extractLsb' 24 2 == 0) (.vcun (w.extractLsb' 21 3) (w.extractLsb' 16 5) (w.extractLsb' 11 5) (w.extractLsb' 9 2) (w.extractLsb' 6 3))
  | _ => .error .reservedFunction

/-- R112, major 0x27. -/
def decodeVxform (w : InstrWord) : Decoded :=
  match (w.extractLsb' 0 6).toNat with
  | 0 => unusedZero (w.extractLsb' 9 7 == 0) (.vcvt (w.extractLsb' 21 5) (w.extractLsb' 16 5) (w.extractLsb' 6 3))
  | 1 => unusedZero (w.extractLsb' 9 7 == 0) (.vfrint (w.extractLsb' 21 5) (w.extractLsb' 16 5) (w.extractLsb' 6 3))
  | 2 => unusedZero (w.extractLsb' 9 7 == 0) (.vfexp2f (w.extractLsb' 21 5) (w.extractLsb' 16 5) (w.extractLsb' 6 3))
  | 3 => .ok (.vfscale (w.extractLsb' 21 5) (w.extractLsb' 16 5) (w.extractLsb' 11 5) (w.extractLsb' 9 2) (w.extractLsb' 6 3))
  | 4 => unusedZero (w.extractLsb' 9 7 == 0) (.vfrexp (w.extractLsb' 21 5) (w.extractLsb' 16 5) (w.extractLsb' 6 3))
  | 5 => unusedZero (w.extractLsb' 9 7 == 0) (.vfmant (w.extractLsb' 21 5) (w.extractLsb' 16 5) (w.extractLsb' 6 3))
  | 6 => unusedZero (w.extractLsb' 9 7 == 0) (.vrecipe (w.extractLsb' 21 5) (w.extractLsb' 16 5) (w.extractLsb' 6 3))
  | 7 => unusedZero (w.extractLsb' 9 7 == 0) (.vrsqrte (w.extractLsb' 21 5) (w.extractLsb' 16 5) (w.extractLsb' 6 3))
  | 8 => unusedZero (w.extractLsb' 9 7 == 0) (.vclass (w.extractLsb' 21 5) (w.extractLsb' 16 5) (w.extractLsb' 6 3))
  | 9 => unusedZero (w.extractLsb' 9 7 == 0) (.vbxpack (w.extractLsb' 21 5) (w.extractLsb' 16 5) (w.extractLsb' 6 3))
  | _ => .error .reservedFunction

/-- R112, major 0x28. -/
def decodeVperm (w : InstrWord) : Decoded :=
  match (w.extractLsb' 0 6).toNat with
  | 0 => .ok (.vslideup (w.extractLsb' 21 5) (w.extractLsb' 16 5) (w.extractLsb' 11 5) (w.extractLsb' 9 2) (w.extractLsb' 6 3))
  | 1 => .ok (.vslidedn (w.extractLsb' 21 5) (w.extractLsb' 16 5) (w.extractLsb' 11 5) (w.extractLsb' 9 2) (w.extractLsb' 6 3))
  | 2 => .ok (.vpermute (w.extractLsb' 21 5) (w.extractLsb' 16 5) (w.extractLsb' 11 5) (w.extractLsb' 9 2) (w.extractLsb' 6 3))
  | 3 => unusedZero (w.extractLsb' 9 7 == 0) (.vcompress (w.extractLsb' 21 5) (w.extractLsb' 16 5) (w.extractLsb' 6 3))
  | 4 => unusedZero (w.extractLsb' 9 7 == 0) (.vexpand (w.extractLsb' 21 5) (w.extractLsb' 16 5) (w.extractLsb' 6 3))
  | 5 => unusedZero (w.extractLsb' 16 5 == 0) (.vbcast (w.extractLsb' 21 5) (w.extractLsb' 11 5) (w.extractLsb' 9 2) (w.extractLsb' 6 3))
  | 6 => .ok (.vextr (w.extractLsb' 21 5) (w.extractLsb' 16 5) (w.extractLsb' 11 5) (w.extractLsb' 9 2) (w.extractLsb' 6 3))
  | 7 => .ok (.vins (w.extractLsb' 21 5) (w.extractLsb' 16 5) (w.extractLsb' 11 5) (w.extractLsb' 9 2) (w.extractLsb' 6 3))
  | 8 => unusedZero (w.extractLsb' 9 7 == 0) (.vrev (w.extractLsb' 21 5) (w.extractLsb' 16 5) (w.extractLsb' 6 3))
  | 9 => .ok (.vzip (w.extractLsb' 21 5) (w.extractLsb' 16 5) (w.extractLsb' 11 5) (w.extractLsb' 9 2) (w.extractLsb' 6 3))
  | 10 => .ok (.vunzip (w.extractLsb' 21 5) (w.extractLsb' 16 5) (w.extractLsb' 11 5) (w.extractLsb' 9 2) (w.extractLsb' 6 3))
  | 11 => unusedZero (w.extractLsb' 9 12 == 0) (.vid (w.extractLsb' 21 5) (w.extractLsb' 6 3))
  | 12 => unusedZero (w.extractLsb' 9 7 == 0) (.vmvix (w.extractLsb' 21 5) (w.extractLsb' 16 5) (w.extractLsb' 6 3))
  | _ => .error .reservedFunction

/-- R112, major 0x29. -/
def decodeVredscan (w : InstrWord) : Decoded :=
  match (w.extractLsb' 0 6).toNat with
  | 0 => .ok (.vredsum (w.extractLsb' 21 5) (w.extractLsb' 16 5) (w.extractLsb' 11 5) (w.extractLsb' 9 2) (w.extractLsb' 6 3))
  | 1 => .ok (.vredmin (w.extractLsb' 21 5) (w.extractLsb' 16 5) (w.extractLsb' 11 5) (w.extractLsb' 9 2) (w.extractLsb' 6 3))
  | 2 => .ok (.vredmax (w.extractLsb' 21 5) (w.extractLsb' 16 5) (w.extractLsb' 11 5) (w.extractLsb' 9 2) (w.extractLsb' 6 3))
  | 3 => .ok (.vredand (w.extractLsb' 21 5) (w.extractLsb' 16 5) (w.extractLsb' 11 5) (w.extractLsb' 9 2) (w.extractLsb' 6 3))
  | 4 => .ok (.vredor (w.extractLsb' 21 5) (w.extractLsb' 16 5) (w.extractLsb' 11 5) (w.extractLsb' 9 2) (w.extractLsb' 6 3))
  | 5 => .ok (.vredxor (w.extractLsb' 21 5) (w.extractLsb' 16 5) (w.extractLsb' 11 5) (w.extractLsb' 9 2) (w.extractLsb' 6 3))
  | 6 => .ok (.vfredosum (w.extractLsb' 21 5) (w.extractLsb' 16 5) (w.extractLsb' 11 5) (w.extractLsb' 9 2) (w.extractLsb' 6 3))
  | 7 => .ok (.vscanadd (w.extractLsb' 21 5) (w.extractLsb' 16 5) (w.extractLsb' 11 5) (w.extractLsb' 9 2) (w.extractLsb' 6 3))
  | 8 => .ok (.vscanmax (w.extractLsb' 21 5) (w.extractLsb' 16 5) (w.extractLsb' 11 5) (w.extractLsb' 9 2) (w.extractLsb' 6 3))
  | 9 => .ok (.vscanmin (w.extractLsb' 21 5) (w.extractLsb' 16 5) (w.extractLsb' 11 5) (w.extractLsb' 9 2) (w.extractLsb' 6 3))
  | 10 => .ok (.vrecur (w.extractLsb' 21 5) (w.extractLsb' 16 5) (w.extractLsb' 11 5) (w.extractLsb' 9 2) (w.extractLsb' 6 3))
  | _ => .error .reservedFunction

/-- R112, major 0x2A. -/
noncomputable def decodeVpred (w : InstrWord) : Decoded :=
  match (w.extractLsb' 0 6).toNat with
  | 0 => unusedZero (w.extractLsb' 9 2 == 0 && w.extractLsb' 14 2 == 0 && w.extractLsb' 19 2 == 0 && w.extractLsb' 24 2 == 0) (.pand (w.extractLsb' 21 3) (w.extractLsb' 16 3) (w.extractLsb' 11 3) (w.extractLsb' 6 3))
  | 1 => unusedZero (w.extractLsb' 9 2 == 0 && w.extractLsb' 14 2 == 0 && w.extractLsb' 19 2 == 0 && w.extractLsb' 24 2 == 0) (.por (w.extractLsb' 21 3) (w.extractLsb' 16 3) (w.extractLsb' 11 3) (w.extractLsb' 6 3))
  | 2 => unusedZero (w.extractLsb' 9 2 == 0 && w.extractLsb' 14 2 == 0 && w.extractLsb' 19 2 == 0 && w.extractLsb' 24 2 == 0) (.pxor (w.extractLsb' 21 3) (w.extractLsb' 16 3) (w.extractLsb' 11 3) (w.extractLsb' 6 3))
  | 3 => unusedZero (w.extractLsb' 9 2 == 0 && w.extractLsb' 14 2 == 0 && w.extractLsb' 19 2 == 0 && w.extractLsb' 24 2 == 0) (.pandn (w.extractLsb' 21 3) (w.extractLsb' 16 3) (w.extractLsb' 11 3) (w.extractLsb' 6 3))
  | 4 => unusedZero (w.extractLsb' 9 7 == 0 && w.extractLsb' 19 2 == 0 && w.extractLsb' 24 2 == 0) (.pnot (w.extractLsb' 21 3) (w.extractLsb' 16 3) (w.extractLsb' 6 3))
  | 5 => unusedZero (w.extractLsb' 9 12 == 0 && w.extractLsb' 24 2 == 0) (.pset (w.extractLsb' 21 3) (w.extractLsb' 6 3))
  | 6 => unusedZero (w.extractLsb' 9 12 == 0 && w.extractLsb' 24 2 == 0) (.pclr (w.extractLsb' 21 3) (w.extractLsb' 6 3))
  | 7 => unusedZero (w.extractLsb' 9 7 == 0 && w.extractLsb' 19 2 == 0) (.pcnt (w.extractLsb' 21 5) (w.extractLsb' 16 3) (w.extractLsb' 6 3))
  | 8 => unusedZero (w.extractLsb' 9 7 == 0 && w.extractLsb' 19 2 == 0) (.pfirst (w.extractLsb' 21 5) (w.extractLsb' 16 3) (w.extractLsb' 6 3))
  | 9 => unusedZero (w.extractLsb' 9 7 == 0 && w.extractLsb' 24 2 == 0) (.pfromv (w.extractLsb' 21 3) (w.extractLsb' 16 5) (w.extractLsb' 6 3))
  | 10 => unusedZero (w.extractLsb' 9 7 == 0 && w.extractLsb' 19 2 == 0) (.ptov (w.extractLsb' 21 5) (w.extractLsb' 16 3) (w.extractLsb' 6 3))
  | _ => .error .reservedFunction

/-- R112, major 0x2B. -/
noncomputable def decodeVmu (w : InstrWord) : Decoded :=
  match (w.extractLsb' 0 2).toNat with
  | 0 => unusedZero (w.extractLsb' 11 5 == 0) (.vld (w.extractLsb' 21 5) (w.extractLsb' 16 5) (w.extractLsb' 7 4) (w.extractLsb' 5 2) (w.extractLsb' 2 3))
  | 1 => unusedZero (w.extractLsb' 11 5 == 0) (.vst (w.extractLsb' 21 5) (w.extractLsb' 16 5) (w.extractLsb' 7 4) (w.extractLsb' 5 2) (w.extractLsb' 2 3))
  | 2 => unusedZero (w.extractLsb' 11 5 == 0) (.vldff (w.extractLsb' 21 5) (w.extractLsb' 16 5) (w.extractLsb' 7 4) (w.extractLsb' 5 2) (w.extractLsb' 2 3))
  | _ => .error .reservedFunction

/-- R112, major 0x2C. -/
noncomputable def decodeVms (w : InstrWord) : Decoded :=
  match (w.extractLsb' 0 2).toNat with
  | 0 => .ok (.vlds (w.extractLsb' 21 5) (w.extractLsb' 16 5) (w.extractLsb' 11 5) (w.extractLsb' 7 4) (w.extractLsb' 5 2) (w.extractLsb' 2 3))
  | 1 => .ok (.vsts (w.extractLsb' 21 5) (w.extractLsb' 16 5) (w.extractLsb' 11 5) (w.extractLsb' 7 4) (w.extractLsb' 5 2) (w.extractLsb' 2 3))
  | _ => .error .reservedFunction

/-- R112, major 0x2D. -/
noncomputable def decodeVmx (w : InstrWord) : Decoded :=
  match (w.extractLsb' 0 2).toNat with
  | 0 => .ok (.vldx (w.extractLsb' 21 5) (w.extractLsb' 16 5) (w.extractLsb' 11 5) (w.extractLsb' 7 4) (w.extractLsb' 5 2) (w.extractLsb' 2 3))
  | 1 => .ok (.vstx (w.extractLsb' 21 5) (w.extractLsb' 16 5) (w.extractLsb' 11 5) (w.extractLsb' 7 4) (w.extractLsb' 5 2) (w.extractLsb' 2 3))
  | 2 => .ok (.vstxo (w.extractLsb' 21 5) (w.extractLsb' 16 5) (w.extractLsb' 11 5) (w.extractLsb' 7 4) (w.extractLsb' 5 2) (w.extractLsb' 2 3))
  | _ => .error .reservedFunction

/-- R112, major 0x2E. -/
noncomputable def decodeVsc (w : InstrWord) : Decoded :=
  match (w.extractLsb' 0 2).toNat with
  | 0 => .ok (.vldsc (w.extractLsb' 21 5) (w.extractLsb' 16 5) (w.extractLsb' 11 5) (w.extractLsb' 7 4) (w.extractLsb' 5 2) (w.extractLsb' 2 3))
  | 1 => .ok (.vstsc (w.extractLsb' 21 5) (w.extractLsb' 16 5) (w.extractLsb' 11 5) (w.extractLsb' 7 4) (w.extractLsb' 5 2) (w.extractLsb' 2 3))
  | _ => .error .reservedFunction

/-- R112, major 0x2F. -/
noncomputable def decodeScale (w : InstrWord) : Decoded :=
  match (w.extractLsb' 14 2).toNat with
  | 0 => unusedZero (w.extractLsb' 0 14 == 0 && w.extractLsb' 25 1 == 0) (.elds (w.extractLsb' 21 4) (w.extractLsb' 16 5))
  | 1 => unusedZero (w.extractLsb' 0 14 == 0 && w.extractLsb' 25 1 == 0) (.ests (w.extractLsb' 21 4) (w.extractLsb' 16 5))
  | 2 => unusedZero (w.extractLsb' 0 14 == 0 && w.extractLsb' 16 5 == 0 && w.extractLsb' 25 1 == 0) (.ezero (w.extractLsb' 21 4))
  | _ => .error .reservedFunction

/-- R112, major 0x31. -/
def decodeMma (w : InstrWord) : Decoded :=
  match (w.extractLsb' 0 5).toNat with
  | 0 => unusedZero (w.extractLsb' 23 3 == 0) (.mma (w.extractLsb' 21 2) (w.extractLsb' 16 5) (w.extractLsb' 11 5) (w.extractLsb' 7 4) (w.extractLsb' 6 1) (w.extractLsb' 5 1))
  | 1 => unusedZero (w.extractLsb' 23 3 == 0) (.mmaz (w.extractLsb' 21 2) (w.extractLsb' 16 5) (w.extractLsb' 11 5) (w.extractLsb' 7 4) (w.extractLsb' 6 1) (w.extractLsb' 5 1))
  | 2 => unusedZero (w.extractLsb' 23 3 == 0) (.mmas (w.extractLsb' 21 2) (w.extractLsb' 16 5) (w.extractLsb' 11 5) (w.extractLsb' 7 4) (w.extractLsb' 6 1) (w.extractLsb' 5 1))
  | _ => .error .reservedFunction

/-- R112, major 0x32. -/
noncomputable def decodeTile (w : InstrWord) : Decoded :=
  match (w.extractLsb' 0 5).toNat with
  | 0 => unusedZero (w.extractLsb' 5 6 == 0 && w.extractLsb' 24 2 == 0) (.tld (w.extractLsb' 21 3) (w.extractLsb' 16 5) (w.extractLsb' 11 5))
  | 1 => unusedZero (w.extractLsb' 5 6 == 0 && w.extractLsb' 24 2 == 0) (.tst (w.extractLsb' 21 3) (w.extractLsb' 16 5) (w.extractLsb' 11 5))
  | 2 => unusedZero (w.extractLsb' 5 11 == 0 && w.extractLsb' 24 2 == 0) (.tldm (w.extractLsb' 21 3) (w.extractLsb' 16 5))
  | 3 => unusedZero (w.extractLsb' 5 11 == 0 && w.extractLsb' 24 2 == 0) (.tstm (w.extractLsb' 21 3) (w.extractLsb' 16 5))
  | 4 => unusedZero (w.extractLsb' 5 16 == 0 && w.extractLsb' 24 2 == 0) (.tzero (w.extractLsb' 21 3))
  | 5 => unusedZero (w.extractLsb' 5 11 == 0 && w.extractLsb' 19 2 == 0 && w.extractLsb' 24 2 == 0) (.tmov (w.extractLsb' 21 3) (w.extractLsb' 16 3))
  | 6 => unusedZero (w.extractLsb' 5 11 == 0 && w.extractLsb' 19 2 == 0 && w.extractLsb' 24 2 == 0) (.ttrans (w.extractLsb' 21 3) (w.extractLsb' 16 3))
  | 7 => unusedZero (w.extractLsb' 5 11 == 0 && w.extractLsb' 24 2 == 0) (.tcfg (w.extractLsb' 21 3) (w.extractLsb' 16 5))
  | _ => .error .reservedFunction

/-- R112, major 0x33. -/
noncomputable def decodeAcc (w : InstrWord) : Decoded :=
  match (w.extractLsb' 0 5).toNat with
  | 0 => unusedZero (w.extractLsb' 5 16 == 0 && w.extractLsb' 23 3 == 0) (.accz (w.extractLsb' 21 2))
  | 1 => unusedZero (w.extractLsb' 5 2 == 0 && w.extractLsb' 23 3 == 0) (.accst (w.extractLsb' 21 2) (w.extractLsb' 16 5) (w.extractLsb' 11 5) (w.extractLsb' 7 4))
  | 2 => unusedZero (w.extractLsb' 5 6 == 0 && w.extractLsb' 23 3 == 0) (.accrd (w.extractLsb' 21 2) (w.extractLsb' 16 5) (w.extractLsb' 11 5))
  | 3 => unusedZero (w.extractLsb' 5 6 == 0 && w.extractLsb' 23 3 == 0) (.accwr (w.extractLsb' 21 2) (w.extractLsb' 16 5) (w.extractLsb' 11 5))
  | 4 => unusedZero (w.extractLsb' 5 11 == 0 && w.extractLsb' 18 3 == 0 && w.extractLsb' 23 3 == 0) (.accadd (w.extractLsb' 21 2) (w.extractLsb' 16 2))
  | 5 => unusedZero (w.extractLsb' 5 11 == 0 && w.extractLsb' 23 3 == 0) (.accscl (w.extractLsb' 21 2) (w.extractLsb' 16 5))
  | _ => .error .reservedFunction

/-- R112, major 0x34. -/
def decodeTileVec (w : InstrWord) : Decoded :=
  match (w.extractLsb' 0 5).toNat with
  | 0 => unusedZero (w.extractLsb' 5 6 == 0 && w.extractLsb' 19 2 == 0) (.trowv (w.extractLsb' 21 5) (w.extractLsb' 16 3) (w.extractLsb' 11 5))
  | 1 => unusedZero (w.extractLsb' 5 6 == 0 && w.extractLsb' 24 2 == 0) (.vtrow (w.extractLsb' 21 3) (w.extractLsb' 16 5) (w.extractLsb' 11 5))
  | 2 => unusedZero (w.extractLsb' 5 6 == 0 && w.extractLsb' 19 2 == 0) (.tcolv (w.extractLsb' 21 5) (w.extractLsb' 16 3) (w.extractLsb' 11 5))
  | _ => .error .reservedFunction

/-- R112, major 0x35. -/
noncomputable def decodeGang (w : InstrWord) : Decoded :=
  match (w.extractLsb' 0 11).toNat with
  | 0 => unusedZero (w.extractLsb' 11 5 == 0) (.gbar (w.extractLsb' 21 5) (w.extractLsb' 16 5))
  | 1 => unusedZero (w.extractLsb' 11 5 == 0 && w.extractLsb' 24 2 == 0) (.gtmcast (w.extractLsb' 21 3) (w.extractLsb' 16 5))
  | 2 => unusedZero (w.extractLsb' 11 5 == 0) (.grank (w.extractLsb' 21 5) (w.extractLsb' 16 5))
  | _ => .error .reservedFunction

/-- R112, major 0x36. -/
noncomputable def decodeSem (w : InstrWord) : Decoded :=
  match (w.extractLsb' 0 11).toNat with
  | 0 => unusedZero (w.extractLsb' 11 5 == 0 && w.extractLsb' 19 7 == 0) (.sempost (w.extractLsb' 16 3))
  | 1 => unusedZero (w.extractLsb' 11 5 == 0 && w.extractLsb' 19 7 == 0) (.semwait (w.extractLsb' 16 3))
  | 2 => unusedZero (w.extractLsb' 11 5 == 0 && w.extractLsb' 19 2 == 0) (.semtry (w.extractLsb' 21 5) (w.extractLsb' 16 3))
  | _ => .error .reservedFunction

/-- R112, major 0x37. -/
noncomputable def decodeStream (w : InstrWord) : Decoded :=
  match (w.extractLsb' 0 11).toNat with
  | 0 => unusedZero (w.extractLsb' 11 5 == 0) (.secopy (w.extractLsb' 21 5) (w.extractLsb' 16 5))
  | 1 => unusedZero (w.extractLsb' 11 5 == 0) (.seload2d (w.extractLsb' 21 5) (w.extractLsb' 16 5))
  | 2 => unusedZero (w.extractLsb' 11 5 == 0) (.sestore2d (w.extractLsb' 21 5) (w.extractLsb' 16 5))
  | 3 => unusedZero (w.extractLsb' 11 5 == 0) (.segather (w.extractLsb' 21 5) (w.extractLsb' 16 5))
  | 4 => unusedZero (w.extractLsb' 11 5 == 0) (.sefoot (w.extractLsb' 21 5) (w.extractLsb' 16 5))
  | 5 => unusedZero (w.extractLsb' 11 5 == 0 && w.extractLsb' 21 5 == 0) (.sewait (w.extractLsb' 16 5))
  | _ => .error .reservedFunction

/-- R112, major 0x38. -/
noncomputable def decodeCache (w : InstrWord) : Decoded :=
  match (w.extractLsb' 0 4).toNat with
  | 0 => unusedZero (w.extractLsb' 4 3 == 0) (.cpref (w.extractLsb' 21 5) (w.extractLsb' 16 5) (w.extractLsb' 11 5) (w.extractLsb' 7 4))
  | 1 => unusedZero (w.extractLsb' 4 3 == 0) (.cflush (w.extractLsb' 21 5) (w.extractLsb' 16 5) (w.extractLsb' 11 5) (w.extractLsb' 7 4))
  | 2 => unusedZero (w.extractLsb' 4 3 == 0) (.cinv (w.extractLsb' 21 5) (w.extractLsb' 16 5) (w.extractLsb' 11 5) (w.extractLsb' 7 4))
  | 3 => unusedZero (w.extractLsb' 4 3 == 0) (.cpin (w.extractLsb' 21 5) (w.extractLsb' 16 5) (w.extractLsb' 11 5) (w.extractLsb' 7 4))
  | 4 => unusedZero (w.extractLsb' 4 3 == 0) (.cunpin (w.extractLsb' 21 5) (w.extractLsb' 16 5) (w.extractLsb' 11 5) (w.extractLsb' 7 4))
  | 5 => unusedZero (w.extractLsb' 4 3 == 0) (.cpri (w.extractLsb' 21 5) (w.extractLsb' 16 5) (w.extractLsb' 11 5) (w.extractLsb' 7 4))
  | _ => .error .reservedFunction

/-- R112, major 0x39. -/
noncomputable def decodeSam (w : InstrWord) : Decoded :=
  match (w.extractLsb' 0 4).toNat with
  | 0 => unusedZero (w.extractLsb' 4 3 == 0) (.samBoard (w.extractLsb' 21 5) (w.extractLsb' 16 5) (w.extractLsb' 11 5) (w.extractLsb' 7 4))
  | 1 => unusedZero (w.extractLsb' 4 3 == 0 && w.extractLsb' 11 5 == 0) (.samAlight (w.extractLsb' 21 5) (w.extractLsb' 16 5) (w.extractLsb' 7 4))
  | 2 => unusedZero (w.extractLsb' 11 5 == 0) (.samLd (w.extractLsb' 21 5) (w.extractLsb' 16 5) (w.extractLsb' 7 4) (w.extractLsb' 4 3))
  | 3 => .ok (.samSt (w.extractLsb' 21 5) (w.extractLsb' 16 5) (w.extractLsb' 11 5) (w.extractLsb' 7 4) (w.extractLsb' 4 3))
  | 4 => .ok (.samAdd (w.extractLsb' 21 5) (w.extractLsb' 16 5) (w.extractLsb' 11 5) (w.extractLsb' 7 4) (w.extractLsb' 4 3))
  | 5 => .ok (.samMin (w.extractLsb' 21 5) (w.extractLsb' 16 5) (w.extractLsb' 11 5) (w.extractLsb' 7 4) (w.extractLsb' 4 3))
  | 6 => .ok (.samMax (w.extractLsb' 21 5) (w.extractLsb' 16 5) (w.extractLsb' 11 5) (w.extractLsb' 7 4) (w.extractLsb' 4 3))
  | 7 => .ok (.samCas (w.extractLsb' 21 5) (w.extractLsb' 16 5) (w.extractLsb' 11 5) (w.extractLsb' 7 4) (w.extractLsb' 4 3))
  | 8 => unusedZero (w.extractLsb' 4 3 == 0) (.samCapture (w.extractLsb' 21 5) (w.extractLsb' 16 5) (w.extractLsb' 11 5) (w.extractLsb' 7 4))
  | 9 => unusedZero (w.extractLsb' 11 5 == 0) (.samCld (w.extractLsb' 21 5) (w.extractLsb' 16 5) (w.extractLsb' 7 4) (w.extractLsb' 4 3))
  | 10 => .ok (.samCst (w.extractLsb' 21 5) (w.extractLsb' 16 5) (w.extractLsb' 11 5) (w.extractLsb' 7 4) (w.extractLsb' 4 3))
  | 11 => unusedZero (w.extractLsb' 4 3 == 0 && w.extractLsb' 11 5 == 0) (.samRelease (w.extractLsb' 21 5) (w.extractLsb' 16 5) (w.extractLsb' 7 4))
  | 12 => unusedZero (w.extractLsb' 4 3 == 0 && w.extractLsb' 11 5 == 0) (.samWaitrev (w.extractLsb' 21 5) (w.extractLsb' 16 5) (w.extractLsb' 7 4))
  | _ => .error .reservedFunction

/-- R112, major 0x3A. -/
noncomputable def decodeSteep (w : InstrWord) : Decoded :=
  match (w.extractLsb' 0 3).toNat with
  | 0 => unusedZero (w.extractLsb' 3 4 == 0 && w.extractLsb' 21 5 == 0) (.rstw (w.extractLsb' 16 5) (w.extractLsb' 11 5) (w.extractLsb' 7 4))
  | 1 => unusedZero (w.extractLsb' 3 4 == 0 && w.extractLsb' 21 5 == 0) (.rstd (w.extractLsb' 16 5) (w.extractLsb' 11 5) (w.extractLsb' 7 4))
  | 2 => unusedZero (w.extractLsb' 3 4 == 0) (.ramo (w.extractLsb' 21 5) (w.extractLsb' 16 5) (w.extractLsb' 11 5) (w.extractLsb' 7 4))
  | 3 => unusedZero (w.extractLsb' 3 4 == 0) (.ramow (w.extractLsb' 21 5) (w.extractLsb' 16 5) (w.extractLsb' 11 5) (w.extractLsb' 7 4))
  | 4 => unusedZero (w.extractLsb' 3 23 == 0) (.sflush)
  | 5 => unusedZero (w.extractLsb' 3 18 == 0) (.sflushw (w.extractLsb' 21 5))
  | 6 => unusedZero (w.extractLsb' 3 13 == 0) (.sfrec (w.extractLsb' 21 5) (w.extractLsb' 16 5))
  | _ => .error .reservedFunction

/-- R112, major 0x3B. -/
noncomputable def decodeMsg (w : InstrWord) : Decoded :=
  match (w.extractLsb' 0 11).toNat with
  | 0 => .ok (.amsend (w.extractLsb' 21 5) (w.extractLsb' 16 5) (w.extractLsb' 11 5))
  | 1 => .ok (.amsendw (w.extractLsb' 21 5) (w.extractLsb' 16 5) (w.extractLsb' 11 5))
  | 2 => .ok (.amreply (w.extractLsb' 21 5) (w.extractLsb' 16 5) (w.extractLsb' 11 5))
  | 3 => unusedZero (w.extractLsb' 11 15 == 0) (.amdone)
  | 4 => unusedZero (w.extractLsb' 11 5 == 0 && w.extractLsb' 20 6 == 0) (.rcmask (w.extractLsb' 16 4))
  | 5 => unusedZero (w.extractLsb' 11 5 == 0 && w.extractLsb' 20 6 == 0) (.rcunmask (w.extractLsb' 16 4))
  | _ => .error .reservedFunction

/-- R112, major 0x3C. -/
noncomputable def decodeGroup (w : InstrWord) : Decoded :=
  match (w.extractLsb' 0 11).toNat with
  | 0 => unusedZero (w.extractLsb' 11 5 == 0) (.gnext (w.extractLsb' 21 5) (w.extractLsb' 16 5))
  | 1 => unusedZero (w.extractLsb' 11 5 == 0 && w.extractLsb' 19 2 == 0) (.gfield (w.extractLsb' 21 5) (w.extractLsb' 16 3))
  | 2 => unusedZero (w.extractLsb' 11 15 == 0) (.gdone)
  | 3 => unusedZero (w.extractLsb' 11 5 == 0) (.launch (w.extractLsb' 21 5) (w.extractLsb' 16 5))
  | 4 => unusedZero (w.extractLsb' 11 5 == 0) (.lwait (w.extractLsb' 21 5) (w.extractLsb' 16 5))
  | _ => .error .reservedFunction

/-- R112, major 0x3D. -/
noncomputable def decodeBlock (w : InstrWord) : Decoded :=
  match (w.extractLsb' 0 11).toNat with
  | 0 => unusedZero (w.extractLsb' 11 5 == 0) (.balloc (w.extractLsb' 21 5) (w.extractLsb' 16 5))
  | 1 => unusedZero (w.extractLsb' 11 5 == 0 && w.extractLsb' 21 5 == 0) (.bfree (w.extractLsb' 16 5))
  | _ => .error .reservedFunction

/-- R116: the words a repeat frame may hold, by their major opcode. -/
def decodeCaptured (w : InstrWord) : Decoded :=
  match (w.extractLsb' 26 6).toNat with
  | 35 => decodeVarith w
  | 36 => decodeVlogic w
  | 37 => decodeVfma w
  | 38 => decodeVcmp w
  | 39 => decodeVxform w
  | 40 => decodeVperm w
  | 41 => decodeVredscan w
  | 49 => decodeMma w
  | 52 => decodeTileVec w
  | _ => .error .reservedMajor

/-- R116, R118: a word that a repeat frame may hold and that is an instruction. -/
def legalCapture (w : InstrWord) : Bool :=
  match decodeCaptured w with
  | .ok i => i.wellFormed
  | .error _ => false

/-- R112: the word by its major opcode, its field ranges not yet checked. -/
noncomputable def decodeRaw (w : InstrWord) : Decoded :=
  match (w.extractLsb' 26 6).toNat with
  | 1 => decodeAlu w
  | 2 => .ok (.addi (w.extractLsb' 21 5) (w.extractLsb' 16 5) (w.extractLsb' 0 16))
  | 3 => .ok (.andi (w.extractLsb' 21 5) (w.extractLsb' 16 5) (w.extractLsb' 0 16))
  | 4 => .ok (.ori (w.extractLsb' 21 5) (w.extractLsb' 16 5) (w.extractLsb' 0 16))
  | 5 => .ok (.xori (w.extractLsb' 21 5) (w.extractLsb' 16 5) (w.extractLsb' 0 16))
  | 6 => decodeShi w
  | 7 => unusedZero (w.extractLsb' 16 5 == 0) (.ldi (w.extractLsb' 21 5) (w.extractLsb' 0 16))
  | 8 => unusedZero (w.extractLsb' 16 5 == 0) (.ldis (w.extractLsb' 21 5) (w.extractLsb' 0 16))
  | 9 => .ok (.slti (w.extractLsb' 21 5) (w.extractLsb' 16 5) (w.extractLsb' 0 16))
  | 10 => .ok (.sltiu (w.extractLsb' 21 5) (w.extractLsb' 16 5) (w.extractLsb' 0 16))
  | 11 => decodeFpu w
  | 12 => decodeFma w
  | 13 => .ok (.lb (w.extractLsb' 21 5) (w.extractLsb' 16 5) (w.extractLsb' 12 4) (w.extractLsb' 10 2) (w.extractLsb' 0 10))
  | 14 => .ok (.lbu (w.extractLsb' 21 5) (w.extractLsb' 16 5) (w.extractLsb' 12 4) (w.extractLsb' 10 2) (w.extractLsb' 0 10))
  | 15 => .ok (.lh (w.extractLsb' 21 5) (w.extractLsb' 16 5) (w.extractLsb' 12 4) (w.extractLsb' 10 2) (w.extractLsb' 0 10))
  | 16 => .ok (.lhu (w.extractLsb' 21 5) (w.extractLsb' 16 5) (w.extractLsb' 12 4) (w.extractLsb' 10 2) (w.extractLsb' 0 10))
  | 17 => .ok (.lw (w.extractLsb' 21 5) (w.extractLsb' 16 5) (w.extractLsb' 12 4) (w.extractLsb' 10 2) (w.extractLsb' 0 10))
  | 18 => .ok (.lwu (w.extractLsb' 21 5) (w.extractLsb' 16 5) (w.extractLsb' 12 4) (w.extractLsb' 10 2) (w.extractLsb' 0 10))
  | 19 => .ok (.ld (w.extractLsb' 21 5) (w.extractLsb' 16 5) (w.extractLsb' 12 4) (w.extractLsb' 10 2) (w.extractLsb' 0 10))
  | 20 => .ok (.sb (w.extractLsb' 21 5) (w.extractLsb' 16 5) (w.extractLsb' 12 4) (w.extractLsb' 10 2) (w.extractLsb' 0 10))
  | 21 => .ok (.sh (w.extractLsb' 21 5) (w.extractLsb' 16 5) (w.extractLsb' 12 4) (w.extractLsb' 10 2) (w.extractLsb' 0 10))
  | 22 => .ok (.sw (w.extractLsb' 21 5) (w.extractLsb' 16 5) (w.extractLsb' 12 4) (w.extractLsb' 10 2) (w.extractLsb' 0 10))
  | 23 => .ok (.sd (w.extractLsb' 21 5) (w.extractLsb' 16 5) (w.extractLsb' 12 4) (w.extractLsb' 10 2) (w.extractLsb' 0 10))
  | 24 => decodeAmo w
  | 25 => decodeCas w
  | 26 => decodeSync w
  | 27 => decodeBr w
  | 28 => .ok (.j (w.extractLsb' 0 26))
  | 29 => .ok (.jal (w.extractLsb' 0 26))
  | 30 => .ok (.jalr (w.extractLsb' 21 5) (w.extractLsb' 16 5) (w.extractLsb' 0 16))
  | 31 => decodeCsr w
  | 32 => decodeSys w
  | 33 => .ok (.vcfg (w.extractLsb' 21 5) (w.extractLsb' 16 5) (w.extractLsb' 0 16))
  | 34 => decodeVecSet w
  | 35 => decodeVarith w
  | 36 => decodeVlogic w
  | 37 => decodeVfma w
  | 38 => decodeVcmp w
  | 39 => decodeVxform w
  | 40 => decodeVperm w
  | 41 => decodeVredscan w
  | 42 => decodeVpred w
  | 43 => decodeVmu w
  | 44 => decodeVms w
  | 45 => decodeVmx w
  | 46 => decodeVsc w
  | 47 => decodeScale w
  | 48 => unusedZero (w.extractLsb' 0 7 == 0) (.repf (w.extractLsb' 22 4) (w.extractLsb' 16 6) (w.extractLsb' 13 3) (w.extractLsb' 10 3) (w.extractLsb' 7 3))
  | 49 => decodeMma w
  | 50 => decodeTile w
  | 51 => decodeAcc w
  | 52 => decodeTileVec w
  | 53 => decodeGang w
  | 54 => decodeSem w
  | 55 => decodeStream w
  | 56 => decodeCache w
  | 57 => decodeSam w
  | 58 => decodeSteep w
  | 59 => decodeMsg w
  | 60 => decodeGroup w
  | 61 => decodeBlock w
  | _ => .error .reservedMajor

/-- R114: the instruction a word stands for, or why it stands for none. -/
noncomputable def decode (w : InstrWord) : Decoded :=
  match decodeRaw w with
  | .ok i => if i.wellFormed then .ok i else .error .outOfRange
  | .error e => .error e

/-- R111: a word is stored little-endian; the four bytes at the lowest address on. -/
def wordBytes (w : InstrWord) : List Byte :=
  [w.extractLsb' 0 8, w.extractLsb' 8 8, w.extractLsb' 16 8, w.extractLsb' 24 8]

/-- The word that bytes in memory order make; missing bytes are zero. -/
def wordOfBytes : List Byte → InstrWord
  | b0 :: b1 :: b2 :: b3 :: _ => b3 ++ b2 ++ b1 ++ b0
  | _ => 0

/-- The decoder on bytes as the hardware stores them: fewer than four bytes are no instruction. -/
noncomputable def decodeBytes : List Byte → Option Instr
  | b0 :: b1 :: b2 :: b3 :: _ => (decode (wordOfBytes [b0, b1, b2, b3])).toOption
  | _ => none

/-- The host's reading of a table word: its bits laid out as bytes, then decoded. -/
noncomputable def decodeTableWord (nbits w : Nat) : Option Instr :=
  decodeBytes (wordBytes (BitVec.ofNat 32 (w % 2 ^ nbits)))

/-- Format F-RRR (R111). -/
def encRrr (op : BitVec 6) (d a b : BitVec 5) (fn : BitVec 11) : InstrWord := op ++ d ++ a ++ b ++ fn

/-- Format F-RRI (R111), and F-MEM and F-BR with their low 16 bits joined. -/
def encRri (op : BitVec 6) (d a : BitVec 5) (imm : BitVec 16) : InstrWord := op ++ d ++ a ++ imm

/-- Format F-J (R111), and REPF with its low 26 bits joined. -/
def encJ (op : BitVec 6) (off : BitVec 26) : InstrWord := op ++ off

/-- Format F-MEM (R111). -/
def encMem (op : BitVec 6) (d s : BitVec 5) (c : BitVec 4) (h : BitVec 2) (o : BitVec 10) : InstrWord :=
  encRri op d s (c ++ h ++ o)

/-- Format F-V (R111). -/
def encV (op : BitVec 6) (d a b : BitVec 5) (f : BitVec 2) (p : BitVec 3) (fn : BitVec 6) : InstrWord :=
  encRrr op d a b (f ++ p ++ fn)

/-- Format F-VM (R111). -/
def encVm (op : BitVec 6) (d s b : BitVec 5) (c : BitVec 4) (h : BitVec 2) (p : BitVec 3) (fn : BitVec 2) :
    InstrWord :=
  encRrr op d s b (c ++ h ++ p ++ fn)

/-- Format F-T (R111). -/
def encT (op : BitVec 6) (x y z : BitVec 5) (e : BitVec 4) (a b : BitVec 1) (fn : BitVec 5) : InstrWord :=
  encRrr op x y z (e ++ a ++ b ++ fn)

/-- Majors 0x18 and 0x19 (R111). -/
def encAmo (op : BitVec 6) (d a b : BitVec 5) (c : BitVec 4) (q r w : BitVec 1) (fn : BitVec 4) : InstrWord :=
  encRrr op d a b (c ++ q ++ r ++ w ++ fn)

/-- Majors 0x38 and 0x39 (R111): class, a three-bit field, op. -/
def encClass (op : BitVec 6) (d a b : BitVec 5) (c : BitVec 4) (w : BitVec 3) (fn : BitVec 4) : InstrWord :=
  encRrr op d a b (c ++ w ++ fn)

/-- Major 0x3A (R111). -/
def encSteep (d a b : BitVec 5) (c : BitVec 4) (fn : BitVec 3) : InstrWord :=
  encRrr 0x3A d a b (c ++ (0 : BitVec 4) ++ fn)

/-- A three-bit register number in its five-bit field (R113). -/
def low3 (x : BitVec 3) : BitVec 5 := (0 : BitVec 2) ++ x

/-- A two-bit accumulator number in its five-bit field (R113). -/
def low2 (x : BitVec 2) : BitVec 5 := (0 : BitVec 3) ++ x

/-- A four-bit register or literal in its five-bit field (R113). -/
def low4 (x : BitVec 4) : BitVec 5 := (0 : BitVec 1) ++ x

/-- The word of an instruction; the steps that have no word have none. HTINV_MIGRATE is the HTINV word with
another operand value. -/
def encode : Instr → Option InstrWord
  | .add d a b => some (encRrr 0x01 d a b 0x000)
  | .sub d a b => some (encRrr 0x01 d a b 0x001)
  | .and d a b => some (encRrr 0x01 d a b 0x002)
  | .or d a b => some (encRrr 0x01 d a b 0x003)
  | .xor d a b => some (encRrr 0x01 d a b 0x004)
  | .andn d a b => some (encRrr 0x01 d a b 0x005)
  | .orn d a b => some (encRrr 0x01 d a b 0x006)
  | .sll d a b => some (encRrr 0x01 d a b 0x010)
  | .srl d a b => some (encRrr 0x01 d a b 0x011)
  | .sra d a b => some (encRrr 0x01 d a b 0x012)
  | .rol d a b => some (encRrr 0x01 d a b 0x013)
  | .ror d a b => some (encRrr 0x01 d a b 0x014)
  | .slt d a b => some (encRrr 0x01 d a b 0x020)
  | .sltu d a b => some (encRrr 0x01 d a b 0x021)
  | .min d a b => some (encRrr 0x01 d a b 0x022)
  | .max d a b => some (encRrr 0x01 d a b 0x023)
  | .minu d a b => some (encRrr 0x01 d a b 0x024)
  | .maxu d a b => some (encRrr 0x01 d a b 0x025)
  | .sel d a b => some (encRrr 0x01 d a b 0x026)
  | .mul d a b => some (encRrr 0x01 d a b 0x030)
  | .mulh d a b => some (encRrr 0x01 d a b 0x031)
  | .mulhu d a b => some (encRrr 0x01 d a b 0x032)
  | .mulhsu d a b => some (encRrr 0x01 d a b 0x033)
  | .div d a b => some (encRrr 0x01 d a b 0x034)
  | .divu d a b => some (encRrr 0x01 d a b 0x035)
  | .rem d a b => some (encRrr 0x01 d a b 0x036)
  | .remu d a b => some (encRrr 0x01 d a b 0x037)
  | .clz d a => some (encRrr 0x01 d a 0 0x040)
  | .ctz d a => some (encRrr 0x01 d a 0 0x041)
  | .popc d a => some (encRrr 0x01 d a 0 0x042)
  | .bswap d a => some (encRrr 0x01 d a 0 0x043)
  | .sextb d a => some (encRrr 0x01 d a 0 0x044)
  | .sexth d a => some (encRrr 0x01 d a 0 0x045)
  | .sextw d a => some (encRrr 0x01 d a 0 0x046)
  | .zextw d a => some (encRrr 0x01 d a 0 0x047)
  | .addi d a i => some (encRri 0x02 d a i)
  | .andi d a i => some (encRri 0x03 d a i)
  | .ori d a i => some (encRri 0x04 d a i)
  | .xori d a i => some (encRri 0x05 d a i)
  | .slli d a s => some (encRri 6 d a ((0 : BitVec 8) ++ (0 : BitVec 2) ++ s))
  | .srli d a s => some (encRri 6 d a ((0 : BitVec 8) ++ (1 : BitVec 2) ++ s))
  | .srai d a s => some (encRri 6 d a ((0 : BitVec 8) ++ (2 : BitVec 2) ++ s))
  | .rori d a s => some (encRri 6 d a ((0 : BitVec 8) ++ (3 : BitVec 2) ++ s))
  | .ldi d i => some (encRri 0x07 d 0 i)
  | .ldis d i => some (encRri 0x08 d 0 i)
  | .slti d a i => some (encRri 0x09 d a i)
  | .sltiu d a i => some (encRri 0x0A d a i)
  | .fadd d a b f => some (encRrr 0x0B d a b (f ++ (0x00 : BitVec 9)))
  | .fsub d a b f => some (encRrr 0x0B d a b (f ++ (0x01 : BitVec 9)))
  | .fmul d a b f => some (encRrr 0x0B d a b (f ++ (0x02 : BitVec 9)))
  | .fdiv d a b f => some (encRrr 0x0B d a b (f ++ (0x03 : BitVec 9)))
  | .fsqrt d a f => some (encRrr 0x0B d a 0 (f ++ (0x04 : BitVec 9)))
  | .fmin d a b f => some (encRrr 0x0B d a b (f ++ (0x05 : BitVec 9)))
  | .fmax d a b f => some (encRrr 0x0B d a b (f ++ (0x06 : BitVec 9)))
  | .fsgnj d a b f => some (encRrr 0x0B d a b (f ++ (0x07 : BitVec 9)))
  | .fsgnjn d a b f => some (encRrr 0x0B d a b (f ++ (0x08 : BitVec 9)))
  | .fsgnjx d a b f => some (encRrr 0x0B d a b (f ++ (0x09 : BitVec 9)))
  | .feq d a b f => some (encRrr 0x0B d a b (f ++ (0x10 : BitVec 9)))
  | .flt d a b f => some (encRrr 0x0B d a b (f ++ (0x11 : BitVec 9)))
  | .fle d a b f => some (encRrr 0x0B d a b (f ++ (0x12 : BitVec 9)))
  | .fclass d a f => some (encRrr 0x0B d a 0 (f ++ (0x13 : BitVec 9)))
  | .fcvti d a f => some (encRrr 0x0B d a 0 (f ++ (0x20 : BitVec 9)))
  | .fcvtu d a f => some (encRrr 0x0B d a 0 (f ++ (0x21 : BitVec 9)))
  | .fcvtf d a f => some (encRrr 0x0B d a 0 (f ++ (0x22 : BitVec 9)))
  | .fcvtfu d a f => some (encRrr 0x0B d a 0 (f ++ (0x23 : BitVec 9)))
  | .fcvtff d a s f => some (encRrr 0x0B d a ((0 : BitVec 3) ++ s) (f ++ (0x24 : BitVec 9)))
  | .fmadd d a b c f => some (encRrr 0x0C d a b (c ++ (0 : BitVec 2) ++ f ++ (0 : BitVec 2)))
  | .fmsub d a b c f => some (encRrr 0x0C d a b (c ++ (1 : BitVec 2) ++ f ++ (0 : BitVec 2)))
  | .fnmadd d a b c f => some (encRrr 0x0C d a b (c ++ (2 : BitVec 2) ++ f ++ (0 : BitVec 2)))
  | .fnmsub d a b c f => some (encRrr 0x0C d a b (c ++ (3 : BitVec 2) ++ f ++ (0 : BitVec 2)))
  | .lb d s c h o => some (encMem 0x0D d s c h o)
  | .lbu d s c h o => some (encMem 0x0E d s c h o)
  | .lh d s c h o => some (encMem 0x0F d s c h o)
  | .lhu d s c h o => some (encMem 0x10 d s c h o)
  | .lw d s c h o => some (encMem 0x11 d s c h o)
  | .lwu d s c h o => some (encMem 0x12 d s c h o)
  | .ld d s c h o => some (encMem 0x13 d s c h o)
  | .sb d s c h o => some (encMem 0x14 d s c h o)
  | .sh d s c h o => some (encMem 0x15 d s c h o)
  | .sw d s c h o => some (encMem 0x16 d s c h o)
  | .sd d s c h o => some (encMem 0x17 d s c h o)
  | .loadDataReturn _ => none
  | .amoSwap d a b c q r w => some (encAmo 0x18 d a b c q r w 0)
  | .amoAdd d a b c q r w => some (encAmo 0x18 d a b c q r w 1)
  | .amoAnd d a b c q r w => some (encAmo 0x18 d a b c q r w 2)
  | .amoOr d a b c q r w => some (encAmo 0x18 d a b c q r w 3)
  | .amoXor d a b c q r w => some (encAmo 0x18 d a b c q r w 4)
  | .amoMin d a b c q r w => some (encAmo 0x18 d a b c q r w 5)
  | .amoMax d a b c q r w => some (encAmo 0x18 d a b c q r w 6)
  | .amoMinu d a b c q r w => some (encAmo 0x18 d a b c q r w 7)
  | .amoMaxu d a b c q r w => some (encAmo 0x18 d a b c q r w 8)
  | .amoFadd d a b c q r w => some (encAmo 0x18 d a b c q r w 9)
  | .cas d a b c q r w => some (encAmo 0x19 d a b c q r w 0)
  | .amoResponse _ => none
  | .fence k s m => some (encRri 0x1A 0 (k ++ s) m)
  | .fenceCompletion _ => none
  | .vdrain m => some (encRri 0x1A 1 0 m)
  | .ifence => some (encRri 0x1A 2 0 0)
  | .beq a b o => some (encRri 0x1B a b ((0 : BitVec 3) ++ o))
  | .bne a b o => some (encRri 0x1B a b ((1 : BitVec 3) ++ o))
  | .blt a b o => some (encRri 0x1B a b ((2 : BitVec 3) ++ o))
  | .bge a b o => some (encRri 0x1B a b ((3 : BitVec 3) ++ o))
  | .bltu a b o => some (encRri 0x1B a b ((4 : BitVec 3) ++ o))
  | .bgeu a b o => some (encRri 0x1B a b ((5 : BitVec 3) ++ o))
  | .j o => some (encJ 0x1C o)
  | .jal o => some (encJ 0x1D o)
  | .jalr d a i => some (encRri 0x1E d a i)
  | .csrrw d a n => some (encRri 0x1F d a ((0 : BitVec 2) ++ n))
  | .csrrs d a n => some (encRri 0x1F d a ((1 : BitVec 2) ++ n))
  | .csrrc d a n => some (encRri 0x1F d a ((2 : BitVec 2) ++ n))
  | .csrrd d n => some (encRri 0x1F d 0 ((3 : BitVec 2) ++ n))
  | .ecall => some (encRri 0x20 0 0 0)
  | .ebreak => some (encRri 0x20 1 0 0)
  | .eret => some (encRri 0x20 2 0 0)
  | .wfi => some (encRri 0x20 3 0 0)
  | .wakeCondition _ => none
  | .yield => some (encRri 0x20 4 0 0)
  | .pause => some (encRri 0x20 5 0 0)
  | .plbinv a => some (encRri 0x20 6 a 0)
  | .htinv a => some (encRri 0x20 7 a 0)
  | .htinvMigrate a => some (encRri 0x20 7 a 0)
  | .strandpark a => some (encRri 0x20 8 a 0)
  | .strandwake a => some (encRri 0x20 9 a 0)
  | .vcfg d a i => some (encRri 0x21 d a i)
  | .vsetl d a w => some (encRri 0x22 d a ((0 : BitVec 2) ++ ((0 : BitVec 10) ++ w)))
  | .vacq d a => some (encRri 0x22 d a ((1 : BitVec 2) ++ (0 : BitVec 14)))
  | .vrelease => some (encRri 0x22 0 0 ((2 : BitVec 2) ++ (0 : BitVec 14)))
  | .vgettag d a => some (encRri 0x22 d a ((3 : BitVec 2) ++ (0 : BitVec 14)))
  | .vadd d a b f p => some (encV 0x23 d a b f p 0)
  | .vsub d a b f p => some (encV 0x23 d a b f p 1)
  | .vrsub d a b f p => some (encV 0x23 d a b f p 2)
  | .vmul d a b f p => some (encV 0x23 d a b f p 3)
  | .vmulh d a b f p => some (encV 0x23 d a b f p 4)
  | .vdiv d a b f p => some (encV 0x23 d a b f p 5)
  | .vrem d a b f p => some (encV 0x23 d a b f p 6)
  | .vmin d a b f p => some (encV 0x23 d a b f p 7)
  | .vmax d a b f p => some (encV 0x23 d a b f p 8)
  | .vabs d a p => some (encV 0x23 d a 0 0 p 9)
  | .vneg d a p => some (encV 0x23 d a 0 0 p 10)
  | .vabsd d a b f p => some (encV 0x23 d a b f p 11)
  | .vsadd d a b f p => some (encV 0x23 d a b f p 12)
  | .vssub d a b f p => some (encV 0x23 d a b f p 13)
  | .vsqrt d a p => some (encV 0x23 d a 0 0 p 14)
  | .vand d a b f p => some (encV 0x24 d a b f p 0)
  | .vor d a b f p => some (encV 0x24 d a b f p 1)
  | .vxor d a b f p => some (encV 0x24 d a b f p 2)
  | .vnot d a p => some (encV 0x24 d a 0 0 p 3)
  | .vsll d a b f p => some (encV 0x24 d a b f p 4)
  | .vsrl d a b f p => some (encV 0x24 d a b f p 5)
  | .vsra d a b f p => some (encV 0x24 d a b f p 6)
  | .vrol d a b f p => some (encV 0x24 d a b f p 7)
  | .vclz d a p => some (encV 0x24 d a 0 0 p 8)
  | .vpopc d a p => some (encV 0x24 d a 0 0 p 9)
  | .vmerge d a b f p => some (encV 0x24 d a b f p 10)
  | .vmov d a p => some (encV 0x24 d a 0 0 p 11)
  | .vmacc d a b f p => some (encV 0x25 d a b f p 0)
  | .vnmsac d a b f p => some (encV 0x25 d a b f p 1)
  | .vmadd d a b f p => some (encV 0x25 d a b f p 2)
  | .vnmsub d a b f p => some (encV 0x25 d a b f p 3)
  | .vdot4 d a b f p => some (encV 0x25 d a b f p 4)
  | .vceq d a b f p => some (encV 0x26 (low3 d) a b f p 0)
  | .vcne d a b f p => some (encV 0x26 (low3 d) a b f p 1)
  | .vclt d a b f p => some (encV 0x26 (low3 d) a b f p 2)
  | .vcle d a b f p => some (encV 0x26 (low3 d) a b f p 3)
  | .vcgt d a b f p => some (encV 0x26 (low3 d) a b f p 4)
  | .vcge d a b f p => some (encV 0x26 (low3 d) a b f p 5)
  | .vcun d a b f p => some (encV 0x26 (low3 d) a b f p 6)
  | .vcvt d a p => some (encV 0x27 d a 0 0 p 0)
  | .vfrint d a p => some (encV 0x27 d a 0 0 p 1)
  | .vfexp2f d a p => some (encV 0x27 d a 0 0 p 2)
  | .vfscale d a b f p => some (encV 0x27 d a b f p 3)
  | .vfrexp d a p => some (encV 0x27 d a 0 0 p 4)
  | .vfmant d a p => some (encV 0x27 d a 0 0 p 5)
  | .vrecipe d a p => some (encV 0x27 d a 0 0 p 6)
  | .vrsqrte d a p => some (encV 0x27 d a 0 0 p 7)
  | .vclass d a p => some (encV 0x27 d a 0 0 p 8)
  | .vbxpack d a p => some (encV 0x27 d a 0 0 p 9)
  | .vslideup d a b f p => some (encV 0x28 d a b f p 0)
  | .vslidedn d a b f p => some (encV 0x28 d a b f p 1)
  | .vpermute d a b f p => some (encV 0x28 d a b f p 2)
  | .vcompress d a p => some (encV 0x28 d a 0 0 p 3)
  | .vexpand d a p => some (encV 0x28 d a 0 0 p 4)
  | .vbcast d b f p => some (encV 0x28 d 0 b f p 5)
  | .vextr d a b f p => some (encV 0x28 d a b f p 6)
  | .vins d a b f p => some (encV 0x28 d a b f p 7)
  | .vrev d a p => some (encV 0x28 d a 0 0 p 8)
  | .vzip d a b f p => some (encV 0x28 d a b f p 9)
  | .vunzip d a b f p => some (encV 0x28 d a b f p 10)
  | .vid d p => some (encV 0x28 d 0 0 0 p 11)
  | .vmvix d a p => some (encV 0x28 d a 0 0 p 12)
  | .vredsum d a b f p => some (encV 0x29 d a b f p 0)
  | .vredmin d a b f p => some (encV 0x29 d a b f p 1)
  | .vredmax d a b f p => some (encV 0x29 d a b f p 2)
  | .vredand d a b f p => some (encV 0x29 d a b f p 3)
  | .vredor d a b f p => some (encV 0x29 d a b f p 4)
  | .vredxor d a b f p => some (encV 0x29 d a b f p 5)
  | .vfredosum d a b f p => some (encV 0x29 d a b f p 6)
  | .vscanadd d a b f p => some (encV 0x29 d a b f p 7)
  | .vscanmax d a b f p => some (encV 0x29 d a b f p 8)
  | .vscanmin d a b f p => some (encV 0x29 d a b f p 9)
  | .vrecur d a b f p => some (encV 0x29 d a b f p 10)
  | .pand d a b p => some (encV 0x2A (low3 d) (low3 a) (low3 b) 0 p 0)
  | .por d a b p => some (encV 0x2A (low3 d) (low3 a) (low3 b) 0 p 1)
  | .pxor d a b p => some (encV 0x2A (low3 d) (low3 a) (low3 b) 0 p 2)
  | .pandn d a b p => some (encV 0x2A (low3 d) (low3 a) (low3 b) 0 p 3)
  | .pnot d a p => some (encV 0x2A (low3 d) (low3 a) 0 0 p 4)
  | .pset d p => some (encV 0x2A (low3 d) 0 0 0 p 5)
  | .pclr d p => some (encV 0x2A (low3 d) 0 0 0 p 6)
  | .pcnt d a p => some (encV 0x2A d (low3 a) 0 0 p 7)
  | .pfirst d a p => some (encV 0x2A d (low3 a) 0 0 p 8)
  | .pfromv d a p => some (encV 0x2A (low3 d) a 0 0 p 9)
  | .ptov d a p => some (encV 0x2A d (low3 a) 0 0 p 10)
  | .vld d s c h p => some (encVm 0x2B d s 0 c h p 0)
  | .vst d s c h p => some (encVm 0x2B d s 0 c h p 1)
  | .vldff d s c h p => some (encVm 0x2B d s 0 c h p 2)
  | .vlds d s b c h p => some (encVm 0x2C d s b c h p 0)
  | .vsts d s b c h p => some (encVm 0x2C d s b c h p 1)
  | .vldx d s b c h p => some (encVm 0x2D d s b c h p 0)
  | .vstx d s b c h p => some (encVm 0x2D d s b c h p 1)
  | .vstxo d s b c h p => some (encVm 0x2D d s b c h p 2)
  | .vldsc d s b c h p => some (encVm 0x2E d s b c h p 0)
  | .vstsc d s b c h p => some (encVm 0x2E d s b c h p 1)
  | .ticketServed => none
  | .elds e a => some (encRri 0x2F (low4 e) a ((0 : BitVec 2) ++ (0 : BitVec 14)))
  | .ests e a => some (encRri 0x2F (low4 e) a ((1 : BitVec 2) ++ (0 : BitVec 14)))
  | .ezero e => some (encRri 0x2F (low4 e) 0 ((2 : BitVec 2) ++ (0 : BitVec 14)))
  | .repf c r x y z => some (encJ 0x30 (c ++ r ++ x ++ y ++ z ++ (0 : BitVec 7)))
  | .mma x y z e a b => some (encT 0x31 (low2 x) y z e a b 0)
  | .mmaz x y z e a b => some (encT 0x31 (low2 x) y z e a b 1)
  | .mmas x y z e a b => some (encT 0x31 (low2 x) y z e a b 2)
  | .mmaCompletion _ => none
  | .tld t y z => some (encT 0x32 (low3 t) y z 0 0 0 0)
  | .tst t y z => some (encT 0x32 (low3 t) y z 0 0 0 1)
  | .tldm t y => some (encT 0x32 (low3 t) y 0 0 0 0 2)
  | .tstm t y => some (encT 0x32 (low3 t) y 0 0 0 0 3)
  | .tzero t => some (encT 0x32 (low3 t) 0 0 0 0 0 4)
  | .tmov t s => some (encT 0x32 (low3 t) (low3 s) 0 0 0 0 5)
  | .ttrans t s => some (encT 0x32 (low3 t) (low3 s) 0 0 0 0 6)
  | .tcfg t y => some (encT 0x32 (low3 t) y 0 0 0 0 7)
  | .accz x => some (encT 0x33 (low2 x) 0 0 0 0 0 0)
  | .accst x y z e => some (encT 0x33 (low2 x) y z e 0 0 1)
  | .accrd x y z => some (encT 0x33 (low2 x) y z 0 0 0 2)
  | .accwr x y z => some (encT 0x33 (low2 x) y z 0 0 0 3)
  | .accadd x y => some (encT 0x33 (low2 x) (low2 y) 0 0 0 0 4)
  | .accscl x y => some (encT 0x33 (low2 x) y 0 0 0 0 5)
  | .trowv x t z => some (encT 0x34 x (low3 t) z 0 0 0 0)
  | .vtrow t y z => some (encT 0x34 (low3 t) y z 0 0 0 1)
  | .tcolv x t z => some (encT 0x34 x (low3 t) z 0 0 0 2)
  | .gbar d a => some (encRrr 0x35 d a 0 0x000)
  | .barrierPhaseComplete _ => none
  | .gbarTimeout _ => none
  | .gtmcast d a => some (encRrr 0x35 (low3 d) a 0 0x001)
  | .grank d a => some (encRrr 0x35 d a 0 0x002)
  | .sempost s => some (encRrr 0x36 0 (low3 s) 0 0x000)
  | .semwait s => some (encRrr 0x36 0 (low3 s) 0 0x001)
  | .semtry d s => some (encRrr 0x36 d (low3 s) 0 0x002)
  | .secopy d a => some (encRrr 0x37 d a 0 0x000)
  | .seload2d d a => some (encRrr 0x37 d a 0 0x001)
  | .sestore2d d a => some (encRrr 0x37 d a 0 0x002)
  | .segather d a => some (encRrr 0x37 d a 0 0x003)
  | .sefoot d a => some (encRrr 0x37 d a 0 0x004)
  | .sewait a => some (encRrr 0x37 0 a 0 0x005)
  | .cardStart _ => none
  | .cardComplete _ _ => none
  | .cardStop _ _ => none
  | .cpref d a b c => some (encClass 0x38 d a b c 0 0)
  | .prefetch _ => none
  | .cflush d a b c => some (encClass 0x38 d a b c 0 1)
  | .cinv d a b c => some (encClass 0x38 d a b c 0 2)
  | .cpin d a b c => some (encClass 0x38 d a b c 0 3)
  | .cunpin d a b c => some (encClass 0x38 d a b c 0 4)
  | .cpri d a b c => some (encClass 0x38 d a b c 0 5)
  | .samBoard d a b c => some (encClass 0x39 d a b c 0 0)
  | .boardFill _ => none
  | .samAlight d a c => some (encClass 0x39 d a 0 c 0 1)
  | .samLd d a c w => some (encClass 0x39 d a 0 c w 2)
  | .samSt d a b c w => some (encClass 0x39 d a b c w 3)
  | .samAdd d a b c w => some (encClass 0x39 d a b c w 4)
  | .samMin d a b c w => some (encClass 0x39 d a b c w 5)
  | .samMax d a b c w => some (encClass 0x39 d a b c w 6)
  | .samCas d a b c w => some (encClass 0x39 d a b c w 7)
  | .samCapture d a b c => some (encClass 0x39 d a b c 0 8)
  | .samCld d a c w => some (encClass 0x39 d a 0 c w 9)
  | .samCst d a b c w => some (encClass 0x39 d a b c w 10)
  | .samRelease d a c => some (encClass 0x39 d a 0 c 0 11)
  | .samWaitrev d a c => some (encClass 0x39 d a 0 c 0 12)
  | .samovarPassage _ => none
  | .recordReentry _ => none
  | .captureHoldExpiry _ => none
  | .samNotag _ => none
  | .rstw a b c => some (encSteep 0 a b c 0)
  | .rstd a b c => some (encSteep 0 a b c 1)
  | .ramo d a b c => some (encSteep d a b c 2)
  | .ramow d a b c => some (encSteep d a b c 3)
  | .sflush => some (encSteep 0 0 0 0 4)
  | .sflushw d => some (encSteep d 0 0 0 5)
  | .sfrec d a => some (encSteep d a 0 0 6)
  | .steepAgeTrigger _ => none
  | .steepAck => none
  | .steepAsync _ => none
  | .amsend d a b => some (encRrr 0x3B d a b 0x000)
  | .amsendw d a b => some (encRrr 0x3B d a b 0x001)
  | .amreply d a b => some (encRrr 0x3B d a b 0x002)
  | .amdone => some (encRrr 0x3B 0 0 0 0x003)
  | .rcmask c => some (encRrr 0x3B 0 (low4 c) 0 0x004)
  | .rcunmask c => some (encRrr 0x3B 0 (low4 c) 0 0x005)
  | .messageArrival => none
  | .amsendAnswer _ => none
  | .messageDispatch _ => none
  | .handlerOverrun _ => none
  | .gnext d a => some (encRrr 0x3C d a 0 0x000)
  | .gfield d f => some (encRrr 0x3C d (low3 f) 0 0x001)
  | .gdone => some (encRrr 0x3C 0 0 0 0x002)
  | .groupRetire _ => none
  | .launch d a => some (encRrr 0x3C d a 0 0x003)
  | .lwait d a => some (encRrr 0x3C d a 0 0x004)
  | .groupAssign _ => none
  | .footprintFetchComplete _ => none
  | .reassign _ => none
  | .groupBudget _ => none
  | .balloc d s => some (encRrr 0x3D d s 0 0x000)
  | .bfree a => some (encRrr 0x3D 0 a 0 0x001)
  | .blockReturn => none
  | .illegalInstr _ => none
  | .trapEntry _ => none
  | .timer _ => none
  | .machineCheck _ _ _ => none
  | .poisonMark _ => none
  | .softErrorCorrected _ _ => none
  | .thermalTrip => none
  | .status _ => none
  | .tileOwner _ => none
  | .ttags _ => none
  | .atags _ => none
  | .steepAgeMax _ => none
  | .vl _ => none
  | .vhwe _ _ => none
  | .fflags _ _ => none
  | .csrWrite _ _ => none
  | .gangSetMembership _ => none
  | .gangStop _ => none
  | .gangResume _ => none
  | .debugHalt _ => none
  | .debugResume _ => none
  | .dbgData _ => none
  | .kettleCtl _ => none
  | .kettleAdjust _ _ _ => none
  | .svcMode _ => none
  | .samQuotaSet _ => none
  | .pinQuotaSet _ => none
  | .plbFill _ _ => none
  | .translationWalk _ _ => none
  | .migrationSectorCopy _ => none
  | .migrationComplete _ => none
  | .start _ _ => none
  | .launchFrame _ _ => none
  | .launchFrameCompletion _ => none
  | .replay _ _ => none
  | .replayNodeLaunch _ _ => none
  | .patch _ _ => none
  | .abort _ _ => none
  | .rerun _ _ => none
  | .notify _ _ => none
  | .arena _ _ => none
  | .key _ _ => none
  | .quota _ _ => none
  | .partition _ _ => none
  | .teardown _ _ => none
  | .attest _ _ => none
  | .errlog _ _ => none
  | .firmware _ _ => none
  | .firmwareTakeover => none
  | .retry _ => none
  | .completionPost _ => none
  | .sqPoll _ => none
  | .qpdPost _ => none
  | .functionLevelReset => none
  | .reset => none
  | .starvationToken _ _ => none
  | .combineBatch _ _ => none
  | .combiningQueueClose _ _ => none
  | .bridgeLinkFailure _ _ => none
  | .read _ => none
  | .write _ => none
  | .atomic _ => none
  | .vread _ => none
  | .vwrite _ => none
  | .words _ => none
  | .msg _ => none
  | .rsp _ => none
  | .ack _ => none
  | .demand _ => none
  | .grant _ => none
  | .grantLapse _ => none
  | .blockReplay _ _ => none
  | .keyRotation _ => none
  | .keyExhausted _ => none
  | .portStop _ => none
  | .linkKeySelect _ => none
  | .linkKeyStage _ => none
  | .linkKeyInstall _ => none
  | .linkPortStop _ => none
  | .linkRetrain _ => none
  | .linkKeyData _ => none
  | .ramowResponse _ => none
  | .gtmcastCopiesWritten _ => none
  | .writebackComplete _ => none
  | .badPacket _ => none
  | .linkTrained _ => none
  | .captureMarkerClear _ => none
  | .pauseExpiry _ => none

/-- The instruction whose word an instruction's word is read as: HTINV's two rows share one word, and its operand's
OP field tells them apart when it runs (R312). -/
def Instr.canonical : Instr → Instr
  | .htinvMigrate a => .htinv a
  | i => i

end Sys2Proof
end

