-- ==== Sys2Proof/Machine/Types.lean ====
section
/-! DEFINITION. The types the state is made of, first part: sparse maps, traps, and the state of one strand. -/
namespace Sys2Proof.Machine

/-- A sparse map from numbers: the pairs in rising order of key. A key that is not listed has the default the
reader names. -/
abbrev Map (α : Type) := List (Nat × α)

/-- The value at a key, or the default. -/
def mapGet {α : Type} (m : Map α) (k : Nat) (dflt : α) : α :=
  match m with
  | [] => dflt
  | (j, x) :: t => if j = k then x else mapGet t k dflt

/-- The map with one key set; the order of keys is kept. -/
def mapSet {α : Type} (m : Map α) (k : Nat) (v : α) : Map α :=
  match m with
  | [] => [(k, v)]
  | (j, x) :: t => if j = k then (k, v) :: t else if k < j then (k, v) :: (j, x) :: t else (j, x) :: mapSet t k v

/-- Whether a key is listed. -/
def mapHas {α : Type} (m : Map α) (k : Nat) : Bool := m.any (fun x => x.1 == k)

/-- The map without a key. -/
def mapDrop {α : Type} (m : Map α) (k : Nat) : Map α := m.filter (fun x => x.1 != k)

/-- The three modes (R10), as STATUS.MODE codes them. -/
inductive Mode where
  | u
  | s
  | f
deriving DecidableEq, Repr

/-- What a trap writes beside its cause (R286): the cause code, TRAP_ADDR, TRAP_ELEM and TRAP_INFO[47:0]. -/
structure Trap where
  cause : BitVec 8
  addr : Word
  elem : BitVec 11
  info : BitVec 48
deriving DecidableEq, Repr

/-- One vector register (R32): its contents, its vtype (R35), its VHWE count and its progress index (R42). -/
structure VReg where
  bits : BitVec 8192
  vtype : BitVec 16
  vhwe : Nat
  progress : Nat
deriving DecidableEq, Repr

/-- A vector register at reset (R32): contents 0, tag DEAD. -/
def VReg.reset : VReg := ⟨0, 0, 0, 0⟩

/-- A repeat frame in progress (R116): the captured words, the number of replays, the staggers, and the next
execution, word `j` of replay `k`; `stale` when the words are to be captured afresh before it (R117, R300). The pc stays
at the REPF while the frame runs (R117). -/
structure Frame where
  words : List InstrWord
  replays : Nat
  sd : Nat
  sa : Nat
  sb : Nat
  k : Nat
  j : Nat
  stale : Bool
deriving DecidableEq, Repr

/-- What the hardware keeps of the thread a handler interrupted (R29, R223), and the handler's own counts.
(log entry 32, DEDUCED.) -/
structure HandlerCtx where
  pc : Word
  mode : Mode
  ie : Bool
  domain : BitVec 12
  /-- The route class of the message (R291's TRAP_INFO). -/
  cls : Nat
  /-- The U-mode cycles the handler has left (R291). -/
  left : Nat
  /-- The message the handler serves: its number in the message network, freed by AMDONE. -/
  msg : Nat
  /-- The landing stores of the dispatch have been performed (R223). -/
  landed : Bool
deriving DecidableEq, Repr

/-- Bytes of another device that a READ of the strand's present instruction has brought (R353): the device, the physical
address, their count, the answer's status and the bytes as a number. -/
structure Gathered where
  dev : Nat
  pa : Nat
  n : Nat
  status : Nat
  value : Nat
deriving DecidableEq, Repr

/-- A store to another device that was refused (R136, R176): its address, its class, and the place of its instruction in
the strand's program order. -/
structure Refused where
  addr : Word
  cls : Nat
  order : Nat
deriving DecidableEq, Repr

/-- A Samovar operation of R246 and R249, as it waits in its stop's queue (R241). -/
inductive RingOp where
  | alight
  | ld (w : Nat)
  | st (w : Nat) (y : Word)
  | add (w : Nat) (y : Word)
  | min (w : Nat) (y : Word)
  | max (w : Nat) (y : Word)
  | cas (w : Nat) (c y : Word)
  | capture (y : Word)
  | waitrev
deriving DecidableEq, Repr

/-- How far the stream engine has come in a row (R208, R326): the bytes moved, and the READ of another device's bytes it
waits for (its XTAG) or what one has brought. -/
structure Mover where
  pos : Nat
  asked : Option Nat
  brought : Option Gathered
deriving DecidableEq, Repr

/-- A row not begun. -/
def Mover.reset : Mover := ⟨0, none, none⟩

/-- A stream-engine card (R205, R206): the accepted function, the card's fields, its number and domain; how many rows it
has moved, how far it has come in the next one and, for SEGATHER, that row's offset once it is read; and the row and trap
of a write that another device did not perform (R209). -/
structure Card where
  num : Nat
  sid : Nat
  domain : BitVec 12
  /-- PLB_CTL at issue (R305). -/
  plb : Word
  fn : Nat
  src : Word
  dst : Word
  spitch : BitVec 32
  dpitch : BitVec 32
  rowBytes : Nat
  rows : Nat
  idx : Word
  span : Nat
  rot : Nat
  moved : Nat
  mover : Mover
  off : Option Int
  failed : Option (Nat × Trap)
  inFlight : Bool
deriving DecidableEq, Repr

/-- A Samovar record (R236): its position on its ring, flags, shadow, passage count, name and payload; `marks` has a
bit per poisoned payload word (R301). -/
structure Record where
  ring : Nat
  pos : Nat
  capturedMark : Bool
  lost : Bool
  shadow : Word
  /-- R236: on a ring, the moves from place 1,183 into place 0 since boarding less those of the position; in a slot or
  waiting to re-enter, that full count itself. -/
  rev : Int
  domain : BitVec 12
  tag : Nat
  words : Vector Word 6
  marks : BitVec 6
  /-- The core whose stop took the record, of a capture marker (R244). -/
  stop : Nat
  /-- One more than the cycle of the last operation on the record, boarding and re-entry among them (R101, R244). -/
  served : Nat
deriving DecidableEq, Repr

/-- Where a run of bytes of one page stands in memory, with the key each part is read and written under (R315): the first
`cut` bytes from `pa` on; byte i after them at `rest + i`. The two parts differ while the page is in transit and the
pointer lies inside the run (R317). -/
structure Span where
  pa : Nat
  key : Option (BitVec 512)
  cut : Nat
  rest : Nat
  restKey : Option (BitVec 512)
deriving DecidableEq, Repr

/-- What a strand waits for (R13). `poll` waits re-execute the instruction at each turn; the others end by their
own row of the opcode table. -/
inductive Wait where
  | none
  /-- The instruction at the pc is tried again at the strand's next turn (SEMWAIT, SEWAIT, GNEXT, LWAIT, ...). -/
  | poll
  /-- As `poll`, but no event is taken before the instruction completes (R307, R313, R296). -/
  | hold
  /-- A load of fabric-remote memory: its XTAG, what it will write to g(d), its size, sign extension and address
  (R132, R353). -/
  | load (xtag : Nat) (d : BitVec 5) (n : Nat) (signed : Bool) (addr : Word)
  /-- An AMO or CAS of fabric-remote memory: its XTAG, d, its size, whether it is FADD, and its address (R134). -/
  | amo (xtag : Nat) (d : BitVec 5) (n : Nat) (fadd : Bool) (addr : Word)
  /-- A RAMOW's entry number; the answer, once it is here: cause (0 for none) and flags (R216). -/
  | ramow (entry : Nat) (answer : Option (BitVec 8 × BitVec 5)) (addr : Word)
  /-- FENCE with its kind, resolved scope and class mask (R92). -/
  | fence (kind scope : Nat) (mask : BitVec 16)
  /-- SFLUSHW with its d (R218). -/
  | sflushw (d : BitVec 5)
  /-- A vector access that has come to an element of fabric-remote memory, VSTART at it (R176, R354): the XTAG of its
  request, if it is sent; the first active element of the issue (R172); the elements of the request with their
  addresses. -/
  | vector (xtag : Option Nat) (first : Nat) (run : List (Nat × Word))
  /-- A ticket of VLDSC or VSTSC (R97, R174), with the instruction's fields. -/
  | ticket (n : Nat) (store : Bool) (d base b : BitVec 5) (c : BitVec 4) (p : BitVec 3)
  /-- A served VLDSC or VSTSC whose elements on other devices are read or checked first (R97, R174): the ticket, the
  fields, the XTAG of the request that is out, if one is, with its elements, the first element not yet checked, and the
  values that came. -/
  | ordered (n : Nat) (store : Bool) (d base b : BitVec 5) (c : BitVec 4) (p : BitVec 3) (xtag : Option Nat)
      (run : List (Nat × Word)) (upto : Nat) (got : List (Nat × Nat))
  /-- A VSTSC whose own package's elements have been performed (R174): its ticket, the fields, the XTAG of the request that
  is out, if one is, with its elements, and the checked elements of other devices still to be sent, each with its device and
  physical address. -/
  | scatter (n : Nat) (d base b : BitVec 5) (c : BitVec 4) (p : BitVec 3) (xtag : Option Nat) (run : List (Nat × Word))
      (left : List (Nat × Nat × Nat))
  /-- A fetch from another device before the instruction is issued: the READ's XTAG (R75). -/
  | fetch (xtag : Nat)
  /-- READs of other devices' bytes that the issued instruction at the pc needs: their XTAGs (R132, R353). -/
  | gather (tags : List Nat)
  /-- The landing stores of a dispatch that go to another device: the landing block and their XTAGs (R223). -/
  | landing (blk : Word) (tags : List Nat)
  /-- PLBINV or HTINV after it has dropped what it names: the requests and Steep entries that passed it before (R307,
  R313). -/
  | inval (tags entries : List Nat)
  /-- A card instruction that has read and checked its card and awaits a slot of the queue (R205, R207): its d and the
  card. -/
  | cardSlot (d : BitVec 5) (card : Card)
  /-- SEWAIT with the card number it awaits (R208). -/
  | sewait (target : Nat)
  /-- GBAR after its arrival, with its d; the deadline is the arrival's (R201, R202). -/
  | gbar (d : BitVec 5)
  /-- SEMWAIT on a semaphore (R198). -/
  | sem (n : Nat)
  /-- WFI (R143). -/
  | wfi
  /-- PAUSE (true) and YIELD (false) until a cycle (R142). -/
  | pause (untilCycle : Nat) (wakes : Bool)
  /-- A Samovar operation awaiting its passage: the tag, d, the class, the operation, the cycle
  SAM_NOTAG counts from, the cycle of issue (R241, R242). -/
  | ring (tag : Nat) (d : BitVec 5) (cls : Nat) (op : RingOp) (since : Nat) (issued : Nat)
  /-- SAM.BOARD awaiting an empty position: d, shadow address, tag, cycle of acceptance (R238). -/
  | board (d : BitVec 5) (shadow : Word) (tag : Nat) (issued : Nat)
  /-- SAM.ALIGHT whose store is on its way to another device (R239): its d, ring, tag and the store's XTAG. -/
  | alight (d : BitVec 5) (ring tag xtag : Nat)
  /-- SAM.ALIGHT whose record has been taken and whose store, checked at the passage, stands behind a combining queue (R239,
  R349): its d, where the bytes go and the record. -/
  | alightTurn (d : BitVec 5) (to_ : Span) (rec_ : Record)
  /-- AMSEND (false) or AMSENDW (true) awaiting the mailbox's answer: the message number (R222). -/
  | amsend (d : BitVec 5) (msg : Nat) (handled : Bool)
  /-- AMSENDW accepted, awaiting the handler's AMDONE (R222). -/
  | amdone (d : BitVec 5) (msg : Nat)
  /-- CFLUSH or CINV awaiting its write-backs: its d, the range's start and its bytes (R212). -/
  | writeback (d : BitVec 5) (start bytes : Nat)
  /-- GNEXT on a launch (R229): the instruction at the pc is tried again at the strand's next turn. -/
  | gnext (launch : Nat)
  /-- GDONE awaiting the group's work (R230). -/
  | gdone
  /-- GTMCAST awaiting its copies: d, the tile, the cores to write, the count (R203). -/
  | gtmcast (d : BitVec 5) (tile : Nat) (cores : List Nat) (count : Nat)
deriving DecidableEq, Repr

/-- The group a strand holds assigned ahead (R28): its launch, identifier, whether its footprint has come, the row
the fetch faulted at, and the count k its buffers were chosen by (R226). -/
structure Ahead where
  launch : Nat
  work : Word
  ready : Bool
  fault : Option Trap
  /-- The fault has been taken at a GNEXT: the fetch resumes when that is reissued (R326). -/
  told : Bool
  count : Nat
  /-- Fetch rows done, in the order of the footprint table (R326), and how far the fetch has come in the next. -/
  rows : Nat
  mover : Mover
deriving DecidableEq, Repr

/-- One strand's own state: its register files (R32), the strand CSRs of R44 and R284, what it waits for, its group,
its gang membership and its handler. -/
structure Strand where
  /-- Whether a thread has been placed here (R323: a listed strand must hold none). -/
  thread : Bool
  pc : Word
  g : Vector Word 32
  v : Vector VReg 32
  p : Vector (BitVec 2048) 8
  e : Vector (BitVec 2048) 16
  fflags : BitVec 5
  frm : BitVec 13
  vl : Nat
  vstart : Nat
  /-- VLANES (R14). -/
  share : Nat
  /-- R324: the start record's LANES and, while a group runs, the header's. -/
  laneLimit : Nat
  groupLaneLimit : Option Nat
  /-- R324: the start record's VLCEIL and, while a group runs, the header's. -/
  vlCeil : Nat
  groupVlCeil : Option Nat
  /-- The share the strand's VSETL last took, the one its instructions issue with (R15; log entry 71,
  DESIGN CHOICE). -/
  issueShare : Nat
  steepAge : Nat
  steepFlog : Word
  steepFcount : Nat
  /-- The last 8 fault records kept for SFREC, newest first (R219): number and 32-byte record. -/
  faultRecords : List (Nat × BitVec 256)
  /-- STEEP_FCOUNT as the last SFLUSHW left it: SFLUSHW's result counts from here (R218). -/
  flushBase : Nat
  /-- Flags of posted RAMO FADDs not yet delivered (R64, R218). -/
  ramoFlags : BitVec 5
  /-- A fault record with ASYNC set has been appended and STEEP_ASYNC is due: its number (R219). -/
  asyncDue : Option Nat
  /-- Refused fabric-remote stores not yet reported, in program order (R136). -/
  refused : List Refused
  /-- What the READs of the present instruction have brought (R353). -/
  gathered : List Gathered
  /-- VDRAINs that earlier scalar accesses of covered classes still stand behind (R94): the mask, and those accesses'
  XTAGs. -/
  vdrains : List (BitVec 16 × List Nat)
  gangId : BitVec 16
  gangRank : BitVec 16
  gangSize : BitVec 16
  /-- Stopped with its gang (R18). -/
  stopped : Bool
  /-- The strand issues nothing before this cycle: it re-enters after a gang resume (R18). -/
  heldUntil : Nat
  workId : Word
  launchId : Word
  /-- The group the strand runs: its launch and identifier (R26). -/
  running : Option (Nat × Word)
  ahead : Option Ahead
  /-- SE_ISSUED when the running group was dispatched: its cards have greater numbers (R230, R330). -/
  cardsBefore : Nat
  /-- How many groups of each launch this strand has received, the count k of R226. -/
  received : Map Nat
  groupBudget : Word
  /-- Consecutive S-mode or parked cycles since a trap entry (R328). -/
  reassignCount : Option Nat
  status : BitVec 64
  trapCause : BitVec 8
  trapPc : Word
  trapAddr : Word
  trapElem : BitVec 11
  trapInfo : Word
  tvec : Word
  sscratch : Word
  domain : BitVec 12
  plbCtl : Word
  /-- STRAND_CTL: PARKED, IPEND, IEN (R284); `parking` while a park waits for an instruction that holds (R296). -/
  parked : Bool
  parking : Bool
  ipend : BitVec 4
  ien : BitVec 4
  timecmp : Word
  /-- STRAND_ID of the last waker (R286, INTERSTRAND). -/
  lastWaker : BitVec 13
  /-- MACHINE_CHECK's syndrome, TRAP_INFO[47:0] when it is taken (R302). -/
  syndrome : BitVec 48
  frame : Option Frame
  handler : Option HandlerCtx
  wait : Wait
deriving DecidableEq, Repr

/-- A strand as the package leaves reset (R32, R44, R283, R284): parked (R370; log entry 117, DEDUCED), no thread. Values the spec
gives no reset for are named in log entry 6, DESIGN CHOICE. -/
def Strand.reset : Strand where
  thread := false
  pc := 0
  g := Vector.replicate 32 0
  v := Vector.replicate 32 VReg.reset
  p := (Vector.replicate 8 0).set 0 (BitVec.allOnes 2048)
  e := Vector.replicate 16 0
  fflags := 0
  frm := 0
  vl := 0
  vstart := 0
  share := 0
  laneLimit := 0
  groupLaneLimit := none
  vlCeil := 2048
  groupVlCeil := none
  issueShare := 0
  steepAge := 512
  steepFlog := 0
  steepFcount := 0
  faultRecords := []
  flushBase := 0
  ramoFlags := 0
  asyncDue := none
  refused := []
  gathered := []
  vdrains := []
  gangId := 0
  gangRank := 0
  gangSize := 0
  stopped := false
  heldUntil := 0
  workId := 0
  launchId := 0
  running := none
  ahead := none
  cardsBefore := 0
  received := []
  groupBudget := BitVec.allOnes 64
  reassignCount := none
  status := 1
  trapCause := 0
  trapPc := 0
  trapAddr := 0
  trapElem := 0
  trapInfo := 0
  tvec := 0
  sscratch := 0
  domain := 0
  plbCtl := 0
  parked := true
  parking := false
  ipend := 0
  ien := 8
  timecmp := BitVec.allOnes 64
  lastWaker := 0
  syndrome := 0
  frame := none
  handler := none
  wait := .none

end Sys2Proof.Machine
end

