-- ==== Sys2Proof/Machine/Units.lean ====
section
/-! DEFINITION. The types the state is made of, second part: a core with its shared units, and the package's units
(translation, Steep buffers, messages, the Caddy, the Samovar, the allocator). -/
namespace Sys2Proof.Machine

/-- A PLB entry (R304): one domain's rights over an aligned power-of-two range. `rights` is A X W R, R lowest. -/
structure PlbEntry where
  domain : BitVec 12
  base : Nat
  log2 : Nat
  rights : BitVec 4
deriving DecidableEq, Repr

/-- A translation a home agent's unit holds (R311, R312): the page's base and size (bits of offset), the leaf entry as
last read or set, the address the leaf lies at, and the cluster of the agent. -/
structure Translation where
  base : Nat
  log2 : Nat
  leaf : BitVec 64
  at_ : Nat
  agent : Nat
deriving DecidableEq, Repr

/-- An issued MMA in the matrix unit (R188): what its completion writes. `mark` is the poison mark it sets, the
window address of the lowest poisoned byte (R189). `doneAt` is the cycle of R187. -/
structure MmaJob where
  sid : Nat
  acc : Nat
  bits : BitVec 131072
  tag : BitVec 8
  flags : BitVec 5
  mark : Option Word
  doneAt : Nat
deriving DecidableEq, Repr

/-- A message in a mailbox or on its way (R222): its number, the class, the 64 bytes (byte 0 lowest), who sent it,
whether it is a reply, a poison mark (R301), and, for an AMSENDW of another device, the XTAG its AMDONE is reported
under; and the route entry it met on arrival, when that was read from another device's memory (R75). -/
structure Msg where
  num : Nat
  cls : Nat
  bytes : BitVec 512
  fromStrand : Nat
  fromDev : Nat
  fromOwn : Bool
  reply : Bool
  poisoned : Bool
  notify : Option Nat
  entry : Option Nat
deriving DecidableEq, Repr

/-- A message on its way to a core, and then its answer on its way back (R222); the packet it came in, when another device's
waits here for its route entry. -/
structure MsgFlight where
  msg : Msg
  core : Nat
  dev : Nat
  own : Bool
  answer : Option Nat
  packet : Option Packet
deriving DecidableEq, Repr

/-- A queued prefetch descriptor (R211): the 32 bytes as read, its operand, the domain. -/
structure PrefetchJob where
  desc : BitVec 256
  operand : BitVec 4
  domain : BitVec 12
deriving DecidableEq, Repr

/-- A region of the L1 instruction cache (R73): its domain, its address ÷ 512, and the sectors it holds, by their place in
the region. -/
structure CodeRegion where
  domain : BitVec 12
  region : Nat
  sectors : Map (BitVec 256)
deriving DecidableEq, Repr

/-- A stopped card (R209): the card, its trap, whether a strand has taken that, whether a card instruction has, and whether it
is restarted and awaits a slot of the queue. -/
structure StoppedCard where
  card : Card
  trap : Trap
  told : Bool
  barred : Bool
  restart : Bool
deriving DecidableEq, Repr

/-- A core: the state its four strands share (R10 to R16, R44, R284). -/
structure Core where
  tiles : Vector (BitVec 32768) 8
  tileTags : Vector (BitVec 8) 8
  accs : Vector (BitVec 131072) 4
  accTags : Vector (BitVec 8) 4
  /-- R189: an accumulator's poison mark, with the window address that set it. -/
  accMarks : Vector (Option Word) 4
  /-- TILE_OWNER: VALID and owner (R293). -/
  tileOwner : BitVec 3
  tdirty : BitVec 12
  matrix : List MmaJob
  sems : Vector Nat 8
  /-- R198: the strands that wait in SEMWAIT, longest first, with their semaphore. -/
  semQueue : List (Nat × Nat)
  plb : List PlbEntry
  carve : Nat
  /-- Carve changes so far, which name the undefined bytes of the scratchpad (R67). -/
  spadEpoch : Nat
  /-- The rotation pointers of the two slots (R12). -/
  slotScalar : Nat
  slotWide : Nat
  /-- R73, R76: the L1 instruction cache: its regions of 512 bytes, newest first. -/
  icache : List CodeRegion
  cards : List Card
  stoppedCards : List StoppedCard
  seIssued : Nat
  vlcap : Nat
  mcap : Nat
  rcmask : BitVec 16
  routeTable : Word
  handlerBudget : Nat
  reassignDelay : Nat
  mailbox : List Msg
  prefetchQ : List PrefetchJob
  halted : Bool
  ebrk : Bool
deriving DecidableEq, Repr

/-- A core as the package leaves reset (R12, R32, R44, R198, R284; the carve is log entry 6, DESIGN CHOICE). -/
def Core.reset : Core where
  tiles := Vector.replicate 8 0
  tileTags := Vector.replicate 8 0
  accs := Vector.replicate 4 0
  accTags := Vector.replicate 4 0
  accMarks := Vector.replicate 4 none
  tileOwner := 0
  tdirty := 0
  matrix := []
  sems := Vector.replicate 8 0
  semQueue := []
  plb := []
  carve := 0
  spadEpoch := 0
  slotScalar := 3
  slotWide := 3
  icache := []
  cards := []
  stoppedCards := []
  seIssued := 0
  vlcap := 8
  mcap := 8
  rcmask := 0
  routeTable := 0
  handlerBudget := 4096
  reassignDelay := 20000
  mailbox := []
  prefetchQ := []
  halted := false
  ebrk := false

/-- The domain CSRs (R44, R284). -/
structure Domain where
  steepAgeMax : Nat
  samQuota : Nat
  pinQuota : Nat
deriving DecidableEq, Repr

/-- R44, R284. -/
def Domain.reset : Domain := ⟨65535, 0, 0⟩

/-- A posted or waited remote word (R215, R219): kind 0 RSTW, 1 RSTD, 2 RAMO, 3 RAMOW. -/
structure SteepEntry where
  num : Nat
  sid : Nat
  domain : BitVec 12
  kind : Nat
  width : Nat
  op : Nat
  cls : Nat
  addr : Word
  data : Word
  pc : Word
  poisoned : Bool
  /-- R98: its destination, as `steepDest` numbers it. -/
  dest : Nat
  /-- PLB_CTL at issue (R305). -/
  plb : Word
deriving DecidableEq, Repr

/-- A Steep buffer (R98, R217): its destination, its entries in order, the cycle of the first and the deadline. -/
structure SteepBuf where
  dest : Nat
  entries : List SteepEntry
  first : Nat
  deadline : Nat
deriving DecidableEq, Repr

/-- A gang as the Caddy keeps it (R201, R297): its size, its members by rank, whether it is stopped, the phase of
its barrier, each rank's arrival with the phase it arrived in, each arrival's deadline, the statuses of arrivals
that expired while their member was parked, and the cycle the open phase completes at. -/
structure Gang where
  size : Nat
  members : List (Nat × Nat)
  stopped : Bool
  phase : Nat
  arrivals : List (Nat × Nat)
  deadlines : List (Nat × Nat)
  expired : List (Nat × Nat)
  completeAt : Option Nat
deriving DecidableEq, Repr

/-- A footprint region (R225). -/
structure Region where
  base : Word
  coef : List (BitVec 32)
  pitch : BitVec 32
  rows : Nat
  rowBytes : Nat
  dest : Nat
deriving DecidableEq, Repr

/-- A launch header as read (R225). -/
structure Header where
  entry : Word
  args : Word
  extents : List Nat
  widths : List Nat
  deps : List (List Int)
  sweep : List Nat
  place : Nat
  flags : BitVec 8
  budget : Nat
  vlceil : Nat
  lanes : Nat
  regions : List Region
deriving DecidableEq, Repr

/-- Who asked for a launch and awaits its end: nobody but LWAIT, a LAUNCH frame of a queue with its TAG (R332), a node
of a replay (R334). -/
inductive LaunchOwner where
  | strand
  | frame (q : Nat) (tag : Word)
  | node (replay node : Nat)
deriving DecidableEq, Repr

/-- A launch in one of the 16 slots (R228, R231, R325): every group of sweep index below `base` has retired, and so
have those listed in `retired`; `assigned` lists the groups that are assigned or running, with their strands; `homes`
the home clusters of placement sets (R21). -/
structure Launch where
  id : Nat
  gang : Nat
  domain : BitVec 12
  header : Header
  owner : LaunchOwner
  base : Nat
  retired : List Nat
  assigned : List (Nat × Nat)
  homes : List (Nat × Nat)
  aborted : Bool
  done : Bool
  /-- The cycle it ended at, for the reuse of its slot (R231). -/
  endedAt : Nat
  /-- Its slot is another launch's: it is unknown, and only its completion is still owed (R231, R332, R334). -/
  forgotten : Bool
deriving DecidableEq, Repr

/-- A capture slot (R243): the record, and the cycle its hold expires at. -/
structure Capture where
  rec_ : Record
  cls : Nat
  expires : Nat
deriving DecidableEq, Repr

/-- A released record waiting to re-enter at its capturing stop (R244). -/
structure Reentry where
  rec_ : Record
  core : Nat
deriving DecidableEq, Repr

/-- A block of an arena (R336). -/
structure Arena where
  cluster : Nat
  cls : Nat
  domain : BitVec 12
  base : Nat
  bytes : Nat
deriving DecidableEq, Repr

/-- A block on its way back to its cluster (R81). -/
structure BlockTransit where
  cluster : Nat
  cls : Nat
  domain : BitVec 12
  addr : Nat
deriving DecidableEq, Repr

/-- A pinned unit (R78): its address ÷ 1 MiB, its vault, the domain that holds it. -/
structure Pin where
  unit : Nat
  vault : Nat
  domain : BitVec 12
deriving DecidableEq, Repr

/-- What an access acts on: a byte run of the package's memory, of a scratchpad through the raw window, of a decode
window (its alias, the core, the output offset), or of a device of the fabric. -/
inductive Place where
  | mem (at_ : Span)
  | spad (core off : Nat)
  | decode (alias_ core off : Nat)
  | fabric (dev pa : Nat)
deriving DecidableEq, Repr

/-- A migration in flight (R316): its descriptor, the page, the leaf's address, the old and the
new leaf, what the leaf holds in transit (TRANSIT set, A and D as the walkers have set them), sectors copied. -/
structure Migration where
  /-- The descriptor's program address. -/
  desc : Word
  va : Nat
  leafAt : Nat
  oldLeaf : BitVec 64
  newLeaf : BitVec 64
  inTransit : BitVec 64
  pointer : Nat
  /-- The final CAS failed, when the leaf held `inTransit`: accesses go to the new frame until software has stored a new entry and
  executed HTINV (R318). -/
  lingering : Bool
deriving DecidableEq, Repr

end Sys2Proof.Machine
end

