-- ==== Sys2Proof/Machine/System.lean ====
section
/-! DEFINITION. The types the state is made of, third part: the mesh, the fabric and its ports, the host link and its
queues, the service cores, partitions, replays. -/
namespace Sys2Proof.Machine

/-- The network classes of the mesh (R347). -/
inductive NetClass where
  | req
  | fwd
  | rsp
  | msg
deriving DecidableEq, Repr

/-- A flit at a router output (R346, R347): the cycle it reached the head of its queue, whether it came by an express link,
its packet's class, the packet it belongs to. -/
structure MeshFlit where
  since : Nat
  express : Bool
  cls : NetClass
  msg : Nat
deriving DecidableEq, Repr

/-- A router output (R346, R347): the flits that wait for it, oldest first, those of one class that came by express links in
one queue and the others of the class in another; and the starvation tokens raised, oldest first: the cycle of the grant and
the flit it goes to. -/
structure RouterPort where
  queue : List MeshFlit
  token : List (Nat × MeshFlit)
deriving DecidableEq, Repr

/-- An operation in a combining queue (R349): a Steep entry's; the integer ADD of a waiting AMO, with a number, its strand, the
domain it passed the PLB in, and its operand; the turn of another access that is tried again: of the strand's instruction at a
pc, or, with none, of a unit that works for the strand; a request of another device; a word of a WORDS packet of another
device, under the packet's number, its address the physical one. -/
inductive CombOp where
  | entry (e : SteepEntry)
  | amo (num sid : Nat) (domain : BitVec 12) (y : Word)
  | turn (sid : Nat) (pc : Option Word)
  | packet (p : Packet)
  | word (num : Nat) (e : SteepEntry)
deriving DecidableEq, Repr

/-- A combining queue of a home agent (R349): its location, named by its address and width, its operations in order of arrival,
and the cycle the last left. The address is the program's, or, while only other devices have used the queue, the physical one
(`phys`). -/
structure CombQueue where
  addr : Nat
  phys : Bool
  width : Nat
  ops : List CombOp
  emptySince : Nat
deriving DecidableEq, Repr

/-- A WORDS packet received and not yet answered (R352): its number, the packet, the words that have come to the home agent, how
many of them wait there in which combining queue (R349), and the answers of those performed. -/
structure WordsJob where
  num : Nat
  packet : Packet
  next : Nat
  waiting : Nat
  queue : Nat
  answers : List Byte
deriving DecidableEq, Repr

/-- A block on a link direction (R357): the packet whose flits it carries, the first of them and their count, the counter
of its first flit, the IV and the key-epoch bit of its tag flit. -/
structure LinkBlock where
  packet : Packet
  first : Nat
  flits : Nat
  counter : BitVec 48
  iv : BitVec 96
  epoch : Bool
deriving DecidableEq, Repr

/-- One direction of a link port (R357, R358): key, counter, epoch, the staged key words. -/
structure LinkDir where
  key : BitVec 256
  counter : BitVec 48
  epoch : Bool
  staged : Vector (Option Word) 4
deriving DecidableEq, Repr

/-- A direction before training. The spec gives its key no value at reset: log entry 6, DESIGN CHOICE. -/
def LinkDir.reset : LinkDir := ⟨0, 0, false, Vector.replicate 4 none⟩

/-- A Rininori port or bridge link (R351, R357 to R359): ports 0 to 31, bridge links 32 to 35. `replay` is the replay
buffer, newest block last; `failures` counts the failures of one block in a row; `needKey` that retraining waits for
a new key; `retrainBy` the cycle by which a bridge link must be trained again (R350). -/
structure LinkPort where
  trained : Bool
  down : Bool
  exhausted : Bool
  needKey : Bool
  tx : LinkDir
  rx : LinkDir
  replay : List LinkBlock
  failures : Nat
  retrainBy : Option Nat
deriving DecidableEq, Repr

/-- A port as the package leaves reset: not trained. -/
def LinkPort.reset : LinkPort := ⟨false, false, false, false, .reset, .reset, [], 0, none⟩

/-- What a request to the fabric was made for: a strand's load or AMO; its store, with the store's address, class and place
in program order; bytes or landing stores it waits for (`held`); a run of vector elements it waits for; the words of a
Steep buffer; the record of a Steep entry's fault; a message; a write of a card's row; a card's read; a footprint fetch's
read, of a group assigned ahead or rerun; the route entry a message on its way needs; the store
of a record that TEARDOWN alights; a field of a migration's descriptor. -/
inductive Purpose where
  | load (sid : Nat)
  | store (sid : Nat) (addr : Word) (cls order : Nat)
  | amo (sid : Nat)
  | held (sid : Nat)
  | vector (sid cls : Nat)
  | steep (entries : List SteepEntry)
  | record (entry : SteepEntry)
  | message (num : Nat)
  | card (core num row : Nat) (addr : Word)
  | cardRead (core num : Nat)
  | route (num : Nat)
  | shadow (domain : BitVec 12) (addr : Word)
  | descriptor
  | footRead (sid : Nat)
  | rerunRead (sid : Nat)
deriving DecidableEq, Repr

/-- A request sent or queued to the fabric and not yet answered (R352): its tag, the port it went by, its packet, what
it is for, the domain it passed its checks in, and, once the RSP or ACK is here, the status and data. -/
structure FabricReq where
  xtag : Nat
  port : Nat
  packet : Packet
  purpose : Purpose
  domain : BitVec 12
  answer : Option (Nat × List (BitVec 8))
  /-- Held back by the pacing of R356. -/
  queued : Bool
  /-- The flits of it that went under grants. -/
  granted : Nat
deriving DecidableEq, Repr

/-- A grant of a device to this package (R356): the flits not yet used, and its cycle. -/
structure Grant where
  flits : Nat
  at_ : Nat
deriving DecidableEq, Repr

/-- A completion (R321). -/
structure Completion where
  tag : Word
  status : Nat
  kind : BitVec 16
  result : Word
deriving DecidableEq, Repr

/-- Whose a queue is (R320): the host's, a partition's local one, a fabric peer's. -/
inductive QueueOwner where
  | host
  | part (num : Nat)
  | peer (dev : Nat)
deriving DecidableEq, Repr

/-- A queue pair (R320, R362): whose it is, its descriptor's fields, the ring indexes, the polling, the frames fetched and not
yet started with the cycle of their fetch, the completions that wait for room, interrupts sent. -/
structure Queue where
  owner : QueueOwner
  sq : Nat
  cq : Nat
  sqn : Nat
  cqn : Nat
  msi : Bool
  sqTailAt : Nat
  cqHeadAt : Nat
  cqTailAt : Nat
  sqHead : Nat
  cqTail : Nat
  /-- The cycle of the last frame delivered (R362). -/
  lastDelivery : Option Nat
  nextPoll : Nat
  held : List (ReqFrame × Nat)
  pending : List Completion
  msiSent : Nat
  /-- The queue fetches (R361: a function-level reset stops it). -/
  fetching : Bool
deriving DecidableEq, Repr

/-- The PCIe capability (R361). -/
structure HostLink where
  state : Nat
  qpd : Word
  reason : Nat
  /-- The 1 ms in which an accepted or refused STATE is due has begun at this cycle. -/
  postedAt : Nat
deriving DecidableEq, Repr

/-- A partition (R363), with its rights list as read (R305) and the frame for PARTDIGEST (R374). -/
structure Partition where
  num : Nat
  dfirst : Nat
  dcount : Nat
  clusters : BitVec 48
  plist : List (BitVec 128)
  lrt : Word
  lqp : Word
  frame : ReqFrame
deriving DecidableEq, Repr

/-- A verified firmware image (R371): its security version and digest. -/
structure Image where
  secver : BitVec 32
  digest : BitVec 256
deriving DecidableEq, Repr

/-- A switch that is pending (R372): the image, and the queue and TAG of the SVC 8 frame. -/
structure PendingImage where
  image : Image
  q : Nat
  tag : Word
deriving DecidableEq, Repr

/-- A record of the error log (R364). -/
structure ErrRecord where
  time : Word
  unit_ : BitVec 16
  event : BitVec 16
  place : BitVec 64
  count : Word
deriving DecidableEq, Repr

/-- A node of a replay's snapshot (R333, R334): the header's 128 bytes, its regions' blocks, the node's ARGS, its
predecessors, the launch it became, and whether that has ended. -/
structure GraphNode where
  raw : Nat
  foot : List Nat
  args : Word
  preds : List Nat
  launch : Option Nat
  done : Bool
deriving DecidableEq, Repr

/-- A replay in progress (R334). `ended` is the status that ended it early with its node. -/
structure Replay where
  id : Nat
  q : Nat
  tag : Word
  domain : BitVec 12
  gang : Nat
  nodes : List GraphNode
  ended : Option (Nat × Nat)
deriving DecidableEq, Repr

/-- A frame in service that waits for something (R67, R330, R363, R366, R372): a RERUN's fetch has come so far; a START has read
its record, which `rows` then holds; a PARTITION or TEARDOWN awaits requests and Steep entries, and then completes with a
RESULT. -/
structure InService where
  q : Nat
  frame : ReqFrame
  since : Nat
  rows : Nat
  mover : Mover
  drain : Option (List Nat × List Nat × Word)
deriving DecidableEq, Repr

end Sys2Proof.Machine
end

