-- ==== Sys2Proof/Machine/State.lean ====
section
/-! DEFINITION. The state of one THR-SF1152-A package as plain data, the reasons a step can stop, and the state right
after reset (R370). Sparse maps list what differs from the reset value of their kind. -/
namespace Sys2Proof.Machine

/-- What happens next (the interleaving is free in the spec; log entry 5, DESIGN CHOICE): a step of the table that has no word, or
one strand's turn, or a cycle in which nothing issues. -/
inductive Turn where
  | event (i : Instr)
  | strand (sid : Nat)
  | lapse
deriving DecidableEq, Repr

/-- The machine. Memory keys: a byte of the package's own memory by its physical address; a byte of host memory at
2^70 plus its host address. -/
structure State where
  /-- Cycles of the 2.1 GHz clock since reset (CYCLE, TIME; R44). -/
  cycle : Nat
  /-- The turns to take, first first; empty: the model's own order. -/
  agenda : List Turn
  /-- In the model's own order: how far the present cycle has come, and the strands that have had their turn in it. -/
  phase : Nat
  turned : List Nat
  /-- The strand whose instruction `exec` runs (STRAND_ID). -/
  cur : Nat
  /-- How many free values have been drawn. -/
  fresh : Nat
  /-- Numbers given to messages, Steep entries, XTAGs and replays so far. -/
  serial : Nat
  powered : Bool
  strands : Map Strand
  cores : Map Core
  domains : Map Domain
  mem : List Host.Cell
  /-- Scratchpad bytes that have been written, by core × 2^19 + offset, rising. -/
  spad : List Host.Cell
  /-- R327: stores to the scratchpad of a core while a footprint fetch is in flight there: the scratchpad key and the count of
  the bytes. -/
  footStores : List (Nat × Nat)
  /-- Poisoned 32-byte sectors of memory and of scratchpads (R301). -/
  poison : List Nat
  spadPoison : List Nat
  /-- The page table's root (R308); none until the firmware builds it. -/
  root : Option Nat
  translations : List Translation
  migrations : List Migration
  keySlots : Map (BitVec 512)
  /-- R315: the key each sector of memory was last written under, by the number of the sector; an unlisted one was
  written under the key the device generated for slot 0. -/
  sectorKeys : Map (BitVec 512)
  /-- CAPS (R368); 0 until the firmware builds the list. -/
  caps : Word
  /-- Where that list lies in memory. -/
  capsAt : Option Nat
  pins : List Pin
  arenas : List Arena
  freeBlocks : List BlockTransit
  blocksBack : List BlockTransit
  steepBufs : Map (List SteepBuf)
  /-- Packets of Steep words under way, in the order sent, with their cluster (R217). -/
  steepSent : List (Nat × List SteepEntry)
  /-- Fault records whose store to the log has to wait: entry, address, record (R219, R349, R367). -/
  recordsDue : List (SteepEntry × Word × BitVec 256)
  messages : List MsgFlight
  /-- AMSENDW waits for AMDONE: message number and sender (R222). -/
  handling : List (Nat × Nat)
  tickets : List Nat
  nextTicket : Nat
  gangs : Map Gang
  launches : List Launch
  nextLaunch : Nat
  records : List Record
  /-- Boards accepted and not yet placed: ring, domain, tag (R238). -/
  boarding : List (Nat × BitVec 12 × Nat)
  /-- Alightings whose store is not yet performed: ring, domain, tag (R239). -/
  alighting : List (Nat × BitVec 12 × Nat)
  captures : Map (Option Capture)
  reentries : List Reentry
  routers : Map RouterPort
  combining : Map CombQueue
  /-- R349: integer ADDs that have come to a home agent in this cycle: physical address and width. -/
  addsHere : List (Nat × Nat)
  /-- WORDS packets of other devices being performed, in order of arrival (R98, R352). -/
  wordsOpen : List WordsJob
  ports : Map LinkPort
  /-- R351: the ports of each device, in the order they are used. -/
  routes : Map (List Nat)
  fabric : List FabricReq
  /-- Packets this package has sent as a target or source, newest last (R352). -/
  sent : List Packet
  /-- R356: what each device has granted this package, oldest first. -/
  grants : Map (List Grant)
  /-- Devices that have announced demand to this package, in rotation (R356): device and flits. -/
  demands : List (Nat × Nat)
  /-- R369: own device number of the fabric. -/
  device : Nat
  linkKeySel : Word
  linkKeyData : Word
  svcMode : Word
  kettleCtl : Word
  /-- The cycle of the last cap change of each cluster (R337). -/
  capChanged : Map Nat
  samQuotaSet : Word
  pinQuotaSet : Word
  dbgCtl : Word
  dbgSel : Word
  partitions : List Partition
  hostLink : HostLink
  /-- Host pages of 4 KiB that do not answer: the host's own business (log entry 40, DESIGN CHOICE). -/
  hostHoles : List Nat
  queues : Map Queue
  service : List InService
  replays : List Replay
  errors : List ErrRecord
  /-- The running image; none while the boot ROM waits for one (R370). -/
  image : Option Image
  pendingImage : Option PendingImage
deriving DecidableEq, Repr

/-- Why the machine stops. -/
inductive Fault where
  /-- Raised by `step`: the thermal trip has cut the power (R375). Safe: the hardware does nothing further either. -/
  | poweredOff
deriving DecidableEq, Repr

/-- Why an instruction has no meaning here. -/
inductive Refusal where
  /-- An instruction the model has not reached. Safe. -/
  | notModelled (mnemonic : String)
deriving DecidableEq, Repr

/-- What a step answers. -/
abbrev Result := Host.Outcome State Fault Refusal

/-- The machine right after reset (R370): the ROM waits for the host, every strand is parked, memory holds zeros.
Log entry 6 names every value the spec does not give. -/
def State.reset : State where
  cycle := 0
  agenda := []
  phase := 0
  turned := []
  cur := 0
  fresh := 0
  serial := 0
  powered := true
  strands := []
  cores := []
  domains := []
  mem := []
  spad := []
  footStores := []
  poison := []
  spadPoison := []
  root := none
  translations := []
  migrations := []
  keySlots := []
  sectorKeys := []
  caps := 0
  capsAt := none
  pins := []
  arenas := []
  freeBlocks := []
  blocksBack := []
  steepBufs := []
  steepSent := []
  recordsDue := []
  messages := []
  handling := []
  tickets := []
  nextTicket := 0
  gangs := []
  launches := []
  nextLaunch := 1
  records := []
  boarding := []
  alighting := []
  captures := []
  reentries := []
  routers := []
  combining := []
  addsHere := []
  wordsOpen := []
  ports := []
  routes := []
  fabric := []
  sent := []
  grants := []
  demands := []
  device := 0
  linkKeySel := 0
  linkKeyData := 0
  svcMode := 0
  kettleCtl := 0x07D0000110880001
  capChanged := []
  samQuotaSet := 0
  pinQuotaSet := 0
  dbgCtl := 0
  dbgSel := 0
  partitions := []
  hostLink := ⟨0, 0, 0, 0⟩
  hostHoles := []
  queues := []
  service := []
  replays := []
  errors := []
  image := none
  pendingImage := none

end Sys2Proof.Machine
end

