-- ==== Sys2Proof/Machine/Ops.lean ====
section
/-! DEFINITION. The named operations over memory and registers that every meaning uses: strands and cores by number,
general registers, little-endian bytes, the scratchpad windows, completing an instruction, taking a trap and
returning from one. -/
namespace Sys2Proof.Machine

/-! ### Memory as a canonical list of bytes -/

/-- The byte at a memory key; an unlisted key reads 0, as R370 step 3 leaves memory. (log entry 2, DEDUCED.) -/
def memGet (m : List Host.Cell) (a : Nat) : Byte :=
  match m with
  | [] => 0
  | (k, b) :: t => if k = a then b else memGet t a

/-- Memory with one byte written: a zero is unlisted, any other byte is listed in rising order. -/
def memSet (m : List Host.Cell) (a : Nat) (b : Byte) : List Host.Cell :=
  if b = 0 then m.filter (fun x => x.1 != a) else mapSet m a b

/-- The canonical form of memory: keys strictly rising, no listed zero. -/
def Memory.wf (m : List Host.Cell) : Bool :=
  match m with
  | [] => true
  | (k, b) :: t => b != 0 && t.all (fun x => decide (k < x.1)) && Memory.wf t

/-- `n` bytes from `a` on, little-endian (R5). -/
def readBytes (f : Nat → Byte) (a : Nat) : Nat → Nat
  | 0 => 0
  | n + 1 => (f a).toNat + 256 * readBytes f (a + 1) n

/-- The bytes `a` on to `a + n - 1` set from a number, little-endian (R5). -/
def writeBytes (m : List Host.Cell) (a : Nat) : Nat → Nat → List Host.Cell
  | 0, _ => m
  | n + 1, x => writeBytes (memSet m a (BitVec.ofNat 8 x)) (a + 1) n (x / 256)

/-- A byte of memory, as the last access that wrote its sector sees it. (log entry 26, DESIGN CHOICE.) -/
def State.byteAt (s : State) (a : Nat) : Byte := memGet s.mem a

/-- `n` bytes of memory as a number. -/
def State.readMem (s : State) (a n : Nat) : Nat := readBytes s.byteAt a n

/-- Memory with `n` bytes written. -/
def State.writeMem (s : State) (a n x : Nat) : State := { s with mem := writeBytes s.mem a n x }

/-! ### Inline encryption (R315) -/

/-- The numbers of the 32-byte sectors that `n` bytes at `a` touch. -/
def sectorsOf (a n : Nat) : List Nat :=
  if n = 0 then [] else (List.range ((a + n - 1) / 32 + 1 - a / 32)).map (fun i => a / 32 + i)

/-- The key in a slot; none is the key the device generated, which slot 0 holds. -/
def State.slotKey (s : State) (slot : Nat) : Option (BitVec 512) :=
  if slot = 0 then none else (s.keySlots.find? (fun x => x.1 == slot)).map Prod.snd

/-- The key a sector was last written under. -/
def State.sectorKey (s : State) (sector : Nat) : Option (BitVec 512) :=
  (s.sectorKeys.find? (fun x => x.1 == sector)).map Prod.snd

/-- The record of the sectors' keys with one sector under another key. -/
def setSectorKey (m : Map (BitVec 512)) (sector : Nat) : Option (BitVec 512) → Map (BitVec 512)
  | none => mapDrop m sector
  | some k => mapSet m sector k

/-- A byte of memory read under a key: what was written under that key, else an unrelated byte. (log entry 26, DESIGN
CHOICE.) -/
def State.byteUnder (s : State) (key : Option (BitVec 512)) (a : Nat) : Byte :=
  if s.sectorKey (a / 32) = key then s.byteAt a
  else
    (Config.otherKey (s.sectorKey (a / 32)) key (a / 32) (BitVec.ofNat 256 (s.readMem (32 * (a / 32)) 32))).extractLsb'
      (8 * (a % 32)) 8

/-- `n` bytes of memory read under a key. -/
def State.readUnder (s : State) (key : Option (BitVec 512)) (a n : Nat) : Nat := readBytes (s.byteUnder key) a n

/-- A sector before `n` bytes at `a` are written under a key: it is under that key from now on, and the bytes the write
leaves are those a read under that key finds. -/
def State.rekey (key : Option (BitVec 512)) (a n : Nat) (s : State) (sector : Nat) : State :=
  if s.sectorKey sector = key then s
  else
    let t := { s with sectorKeys := setSectorKey s.sectorKeys sector key }
    if a ≤ 32 * sector ∧ 32 * sector + 32 ≤ a + n then t
    else t.writeMem (32 * sector) 32 (s.readUnder key (32 * sector) 32)

/-- Memory with `n` bytes written under a key. -/
def State.writeUnder (s : State) (key : Option (BitVec 512)) (a n x : Nat) : State :=
  ((sectorsOf a n).foldl (State.rekey key a n) s).writeMem a n x

/-- Where host memory stands among the memory keys. -/
def hostBase : Nat := 2 ^ 70

/-! ### Strands and cores by number -/

/-- R9: a STRAND_ID names a strand of the package. -/
def strandExists (sid : Nat) : Bool := decide (sid < 6144) && decide (sid / 4 % 32 < 24)

/-- R9: a CORE_ID names a core of the package. -/
def coreExists (c : Nat) : Bool := decide (c < 1536) && decide (c % 32 < 24)

/-- The strand with a STRAND_ID. -/
def State.strand (s : State) (sid : Nat) : Strand := mapGet s.strands sid Strand.reset

/-- The state with one strand replaced. -/
def State.setStrand (s : State) (sid : Nat) (x : Strand) : State := { s with strands := mapSet s.strands sid x }

/-- The strand `exec` runs. -/
def State.me (s : State) : Strand := s.strand s.cur

/-- The state with the running strand replaced. -/
def State.setMe (s : State) (x : Strand) : State := s.setStrand s.cur x

/-- The core with a CORE_ID. -/
def State.core (s : State) (c : Nat) : Core := mapGet s.cores c Core.reset

/-- The state with one core replaced. -/
def State.setCore (s : State) (c : Nat) (x : Core) : State := { s with cores := mapSet s.cores c x }

/-- R9: the core of a strand. -/
def coreOf (sid : Nat) : Nat := sid / 4

/-- R9: the cluster of a strand. -/
def clusterOf (sid : Nat) : Nat := sid / 128

/-- The core of the running strand. -/
def State.myCore (s : State) : Core := s.core (coreOf s.cur)

/-- The state with the running strand's core replaced. -/
def State.setMyCore (s : State) (x : Core) : State := s.setCore (coreOf s.cur) x

/-- The CSRs of a domain. -/
def State.domainOf (s : State) (d : BitVec 12) : Domain := mapGet s.domains d.toNat Domain.reset

/-- The state with a domain's CSRs replaced. -/
def State.setDomain (s : State) (d : BitVec 12) (x : Domain) : State :=
  { s with domains := mapSet s.domains d.toNat x }

/-- Every strand that differs from reset, by number. -/
def State.strandIds (s : State) : List Nat := s.strands.map Prod.fst

/-! ### General registers (R33) -/

/-- g(a): g0 reads as zero. -/
def Strand.getG (x : Strand) (a : BitVec 5) : Word := if a = 0 then 0 else x.g[a.toNat]'(a.isLt)

/-- g(d) := v: a write to g0 is discarded. -/
def Strand.setG (x : Strand) (d : BitVec 5) (v : Word) : Strand :=
  if d = 0 then x else { x with g := x.g.set d.toNat v d.isLt }

/-- g(a) of the running strand. -/
def State.g (s : State) (a : BitVec 5) : Word := s.me.getG a

/-- The state with g(d) of the running strand written. -/
def State.setG (s : State) (d : BitVec 5) (v : Word) : State := s.setMe (s.me.setG d v)

/-! ### Free values -/

/-- A value the spec leaves undefined, of width `w`: the next one of the state's free values. -/
def State.freeValue (s : State) (w : Nat) : BitVec w := Config.freeBits s.fresh w

/-- The state after a free value has been drawn. -/
def State.drawn (s : State) : State := { s with fresh := s.fresh + 1 }

/-! ### Completing an instruction -/

/-- The execution of a frame that follows the present one, if one remains (R116). -/
def Frame.next (f : Frame) : Option Frame :=
  if f.j + 1 < f.words.length then some { f with j := f.j + 1 }
  else if f.k + 1 < f.replays then some { f with k := f.k + 1, j := 0 }
  else none

/-- The strand after its instruction has completed: at the next word, at the next execution of its frame, or behind
the frame (R116). -/
def Strand.retire (x : Strand) : Strand :=
  match x.frame with
  | none => { x with pc := x.pc + 4, wait := .none, gathered := [] }
  | some f =>
    match f.next with
    | some f' => { x with frame := some f', wait := .none, gathered := [] }
    | none =>
      { x with pc := x.pc + 4 + 4 * BitVec.ofNat 64 f.words.length, frame := none, wait := .none, gathered := [] }

/-- The running strand's instruction has completed. -/
def State.retire (s : State) : State := s.setMe s.me.retire

/-- The running strand's instruction has completed and control is at an address. -/
def State.jump (s : State) (target : Word) : State :=
  s.setMe { s.me with pc := target, wait := .none, gathered := [] }

/-- The result of an instruction that writes g(d) and completes. -/
def State.writeG (s : State) (d : BitVec 5) (v : Word) : State := (s.setG d v).retire

/-- The running strand waits. -/
def State.waiting (s : State) (w : Wait) : State := s.setMe { s.me with wait := w }

/-- A step of the hardware made for a strand other than the one that issues: done as if it were the running one. -/
def State.asStrand (s : State) (sid : Nat) (f : State → State) : State := { f { s with cur := sid } with cur := s.cur }

/-! ### STATUS (R283) -/

/-- The mode STATUS.MODE codes. -/
def modeOf (status : BitVec 64) : Mode :=
  match (status.extractLsb' 0 2).toNat with
  | 0 => .u
  | 1 => .s
  | _ => .f

/-- The two-bit code of a mode. -/
def Mode.code : Mode → BitVec 2
  | .u => 0
  | .s => 1
  | .f => 2

/-- The strand's mode. -/
def Strand.mode (x : Strand) : Mode := modeOf x.status

/-- STATUS.IE. -/
def Strand.ie (x : Strand) : Bool := x.status.getLsbD 4

/-- STATUS from its fields, rsv bits zero. -/
def statusWord (mcx phdlr pie ie : Bool) (pmode mode : BitVec 2) : BitVec 64 :=
  (0 : BitVec 55) ++ (BitVec.ofBool mcx ++ (BitVec.ofBool phdlr ++ ((0 : BitVec 1) ++
    (BitVec.ofBool pie ++ (BitVec.ofBool ie ++ (pmode ++ mode))))))

/-! ### Trap causes (R286) -/

/-- The cause codes. -/
def causeIllegal : BitVec 8 := 0x01
/-- PRIVILEGED. -/
def causePrivileged : BitVec 8 := 0x02
/-- MISALIGNED. -/
def causeMisaligned : BitVec 8 := 0x03
/-- FAULT_READ. -/
def causeFaultRead : BitVec 8 := 0x04
/-- FAULT_WRITE. -/
def causeFaultWrite : BitVec 8 := 0x05
/-- FAULT_FETCH. -/
def causeFaultFetch : BitVec 8 := 0x06
/-- DOMAIN_RIGHTS. -/
def causeDomainRights : BitVec 8 := 0x07
/-- TILE_UNAVAIL. -/
def causeTileUnavail : BitVec 8 := 0x08
/-- VECT_NOLANES. -/
def causeVectNolanes : BitVec 8 := 0x09
/-- VECT_DEAD. -/
def causeVectDead : BitVec 8 := 0x0A
/-- VL_RANGE. -/
def causeVlRange : BitVec 8 := 0x0B
/-- ECALL. -/
def causeEcall : BitVec 8 := 0x0C
/-- EBREAK. -/
def causeEbreak : BitVec 8 := 0x0D
/-- FP_ENABLED. -/
def causeFpEnabled : BitVec 8 := 0x0E
/-- SCRATCH_RANGE. -/
def causeScratchRange : BitVec 8 := 0x0F
/-- SAM_NOTAG. -/
def causeSamNotag : BitVec 8 := 0x10
/-- SAM_CAPTURE_LOST. -/
def causeSamCaptureLost : BitVec 8 := 0x11
/-- STEEP_ASYNC. -/
def causeSteepAsync : BitVec 8 := 0x12
/-- HANDLER_OVERRUN. -/
def causeHandlerOverrun : BitVec 8 := 0x13
/-- GROUP_BUDGET. -/
def causeGroupBudget : BitVec 8 := 0x14
/-- PIN_QUOTA. -/
def causePinQuota : BitVec 8 := 0x15
/-- MEM_POISON. -/
def causeMemPoison : BitVec 8 := 0x16
/-- LINK_DOWN. -/
def causeLinkDown : BitVec 8 := 0x17
/-- TIMER. -/
def causeTimer : BitVec 8 := 0x80
/-- HOST_REQUEST. -/
def causeHostRequest : BitVec 8 := 0x81
/-- INTERSTRAND. -/
def causeInterstrand : BitVec 8 := 0x82
/-- MACHINE_CHECK. -/
def causeMachineCheck : BitVec 8 := 0x83

/-- A trap whose TRAP_INFO[31:0] is the word and whose other fields are 0. -/
def wordTrap (cause : BitVec 8) (w : InstrWord) : Trap := ⟨cause, 0, 0, w.setWidth 48⟩

/-- A trap that names an address only. -/
def addrTrap (cause : BitVec 8) (a : Word) : Trap := ⟨cause, a, 0, 0⟩

/-- A trap that names nothing. -/
def plainTrap (cause : BitVec 8) : Trap := ⟨cause, 0, 0, 0⟩

/-! ### Captures and the Samovar release (R244, R245) -/

/-- Whether a strand holds a captured record. -/
def State.captureOf (s : State) (sid : Nat) : Option Capture := mapGet s.captures sid none

/-- A release by hardware with CAPTURE_LOST := 1, or by SAM.RELEASE with 0: the slot is free, the record waits to
re-enter at the strand's stop. -/
def State.releaseCapture (s : State) (sid : Nat) (lost : Bool) : State :=
  match s.captureOf sid with
  | none => s
  | some c =>
    { s with
      captures := mapSet s.captures sid none
      reentries := s.reentries ++ [⟨{ c.rec_ with lost := lost }, coreOf sid⟩] }

/-! ### Taking a trap (R288) -/

/-- TRAP_INFO[63:48] for a trap taken at an execution of a frame (R117). -/
def frameInfo (f : Option Frame) : BitVec 16 :=
  match f with
  | none => 0
  | some f => (1 : BitVec 1) ++ ((0 : BitVec 1) ++ (BitVec.ofNat 6 f.k ++ ((0 : BitVec 4) ++ BitVec.ofNat 4 f.j)))

/-- Trap entry of R288 on a strand whose pc and frame stand at the resume point: the trap CSRs and STATUS are written
and control is at TVEC. Nothing else of the strand changes but the wait it was in, which is cancelled, its frame,
which TRAP_INFO now records, and the count of R328, which begins. -/
def Strand.enter (x : Strand) (t : Trap) : Strand :=
  { x with
    status := statusWord
      (x.status.getLsbD 8 || (t.cause == causeMachineCheck && !x.ie && x.mode == .s))
      x.handler.isSome x.ie false (x.status.extractLsb' 0 2) 1
    trapCause := t.cause
    trapPc := x.pc
    trapAddr := t.addr
    trapElem := t.elem
    trapInfo := frameInfo x.frame ++ t.info
    frame := none
    wait := .none
    gathered := []
    reassignCount := x.reassignCount.or (some 0)
    pc := x.tvec &&& ~~~(3 : Word) }

/-- A trap or interrupt taken on one strand. A captured record is released before a precise trap or a MACHINE_CHECK
is entered (R245). -/
def State.trapOn (s : State) (sid : Nat) (t : Trap) : State :=
  let s := s.releaseCapture sid true
  s.setStrand sid ((s.strand sid).enter t)

/-- A precise trap of the running strand at its own instruction. -/
def State.trap (s : State) (t : Trap) : State := s.trapOn s.cur t

/-- FP_ENABLED and the other traps taken after the instruction has completed (R45, R136): outside a frame TRAP_PC is
the instruction's own address; inside one the resume point is the execution after it, or, when none remains, the
instruction behind the frame (R117). -/
def State.trapAfter (s : State) (t : Trap) : State :=
  match s.me.frame with
  | none => s.trap t
  | some _ => s.retire.trap t

/-! ### Returning from a trap (R290) -/

/-- STATUS after ERET: MODE := PMODE, IE := PIE, the rest kept. -/
def statusAfterEret (st : BitVec 64) : BitVec 64 :=
  statusWord (st.getLsbD 8) (st.getLsbD 7) (st.getLsbD 5) (st.getLsbD 5) (st.extractLsb' 2 2) (st.extractLsb' 2 2)

/-- The strand after an ERET that resumes at TRAP_PC with a frame or without: a handler it was taken from runs again
with a full budget; the count of R328 ends on a return to U-mode, and is at 0 in a handler over a thread in S-mode. -/
def Strand.leave (x : Strand) (frame : Option Frame) (budget : Nat) : Strand :=
  { x with
    status := statusAfterEret x.status
    pc := x.trapPc
    frame := frame
    wait := .none
    gathered := []
    handler := x.handler.map (fun h => { h with left := budget })
    reassignCount :=
      if x.status.extractLsb' 2 2 ≠ 0 then x.reassignCount
      else if x.handler.any (fun h => h.mode != .u) then x.reassignCount.map (fun _ => 0) else none }

end Sys2Proof.Machine
end

