-- ==== Sys2Proof/Machine/Alu.lean ====
section
/-! DEFINITION. The integer register and immediate instructions (R126, R127, R48): majors 0x01 to 0x0A. None traps and
none raises a flag. -/
namespace Sys2Proof.Machine

/-! ### Shared operations -/

/-- A result computed from g(a) and g(b), both read before g(d) is written. -/
def aluRR (f : Word → Word → Word) (d a b : BitVec 5) (s : State) : Result := .next (s.writeG d (f (s.g a) (s.g b)))

/-- A result computed from g(a). -/
def aluR (f : Word → Word) (d a : BitVec 5) (s : State) : Result := .next (s.writeG d (f (s.g a)))

/-- The shift amount y[5:0]. -/
def shamt (y : Word) : Nat := (y.extractLsb' 0 6).toNat

/-- 1 or 0. -/
def boolWord (b : Bool) : Word := if b then 1 else 0

/-- R48: the signed quotient. -/
def divSigned (x y : Word) : Word := if y = 0 then BitVec.allOnes 64 else x.sdiv y

/-- R48: the unsigned quotient. -/
def divUnsigned (x y : Word) : Word := if y = 0 then BitVec.allOnes 64 else x / y

/-- R48: the signed remainder; the dividend for divisor 0. -/
def remSigned (x y : Word) : Word := if y = 0 then x else x.srem y

/-- R48: the unsigned remainder; the dividend for divisor 0. -/
def remUnsigned (x y : Word) : Word := if y = 0 then x else x % y

/-- Bits [127:64] of a product of integers. -/
def highProduct (x y : Int) : Word := BitVec.ofInt 64 (x * y / 2 ^ 64)

/-- Leading zero bits of a value of `n` bits. -/
def leadingZeros (n x : Nat) : Nat := if x = 0 then n else n - 1 - Nat.log2 x

/-- Trailing zero bits among the low `n` bits. -/
def trailingZeros : Nat → Nat → Nat
  | 0, _ => 0
  | n + 1, x => if x % 2 = 1 then 0 else 1 + trailingZeros n (x / 2)

/-- One bits among the low `n` bits. -/
def popCount : Nat → Nat → Nat
  | 0, _ => 0
  | n + 1, x => x % 2 + popCount n (x / 2)

/-- Byte i moved to byte 7 − i. -/
def byteSwap (x : Word) : Word :=
  x.extractLsb' 0 8 ++ (x.extractLsb' 8 8 ++ (x.extractLsb' 16 8 ++ (x.extractLsb' 24 8 ++
    (x.extractLsb' 32 8 ++ (x.extractLsb' 40 8 ++ (x.extractLsb' 48 8 ++ x.extractLsb' 56 8))))))

/-- sext(x, n) of R125. -/
def sextN (n : Nat) (x : Word) : Word := (x.setWidth n).signExtend 64

/-- zext(x, n) of R125. -/
def zextN (n : Nat) (x : Word) : Word := (x.setWidth n).setWidth 64

/-- The lesser of two, signed. -/
def minSigned (x y : Word) : Word := if x.slt y then x else y
/-- The greater of two, signed. -/
def maxSigned (x y : Word) : Word := if x.slt y then y else x
/-- The lesser of two, unsigned. -/
def minUnsigned (x y : Word) : Word := if x.ult y then x else y
/-- The greater of two, unsigned. -/
def maxUnsigned (x y : Word) : Word := if x.ult y then y else x

/-! ### Major 0x01 -/

/-- ADD (R126). -/
def execAdd (d a b : BitVec 5) (s : State) : Result := aluRR (fun x y => x + y) d a b s

/-- SUB (R126). -/
def execSub (d a b : BitVec 5) (s : State) : Result := aluRR (fun x y => x - y) d a b s

/-- AND (R126). -/
def execAnd (d a b : BitVec 5) (s : State) : Result := aluRR (fun x y => x &&& y) d a b s

/-- OR (R126). -/
def execOr (d a b : BitVec 5) (s : State) : Result := aluRR (fun x y => x ||| y) d a b s

/-- XOR (R126). -/
def execXor (d a b : BitVec 5) (s : State) : Result := aluRR (fun x y => x ^^^ y) d a b s

/-- ANDN (R126). -/
def execAndn (d a b : BitVec 5) (s : State) : Result := aluRR (fun x y => x &&& ~~~y) d a b s

/-- ORN (R126). -/
def execOrn (d a b : BitVec 5) (s : State) : Result := aluRR (fun x y => x ||| ~~~y) d a b s

/-- SLL (R126). -/
def execSll (d a b : BitVec 5) (s : State) : Result := aluRR (fun x y => x <<< shamt y) d a b s

/-- SRL (R126). -/
def execSrl (d a b : BitVec 5) (s : State) : Result := aluRR (fun x y => x >>> shamt y) d a b s

/-- SRA (R126). -/
def execSra (d a b : BitVec 5) (s : State) : Result := aluRR (fun x y => x.sshiftRight (shamt y)) d a b s

/-- ROL (R126). -/
def execRol (d a b : BitVec 5) (s : State) : Result := aluRR (fun x y => x.rotateLeft (shamt y)) d a b s

/-- ROR (R126). -/
def execRor (d a b : BitVec 5) (s : State) : Result := aluRR (fun x y => x.rotateRight (shamt y)) d a b s

/-- SLT (R126). -/
def execSlt (d a b : BitVec 5) (s : State) : Result := aluRR (fun x y => boolWord (x.slt y)) d a b s

/-- SLTU (R126). -/
def execSltu (d a b : BitVec 5) (s : State) : Result := aluRR (fun x y => boolWord (x.ult y)) d a b s

/-- MIN (R126). -/
def execMin (d a b : BitVec 5) (s : State) : Result := aluRR (fun x y => minSigned x y) d a b s

/-- MAX (R126). -/
def execMax (d a b : BitVec 5) (s : State) : Result := aluRR (fun x y => maxSigned x y) d a b s

/-- MINU (R126). -/
def execMinu (d a b : BitVec 5) (s : State) : Result := aluRR (fun x y => minUnsigned x y) d a b s

/-- MAXU (R126). -/
def execMaxu (d a b : BitVec 5) (s : State) : Result := aluRR (fun x y => maxUnsigned x y) d a b s

/-- SEL (R126): x if the old g(d) is not 0, else y. -/
def execSel (d a b : BitVec 5) (s : State) : Result := aluRR (fun x y => if s.g d ≠ 0 then x else y) d a b s

/-- MUL (R126). -/
def execMul (d a b : BitVec 5) (s : State) : Result := aluRR (fun x y => x * y) d a b s

/-- MULH (R126). -/
def execMulh (d a b : BitVec 5) (s : State) : Result := aluRR (fun x y => highProduct x.toInt y.toInt) d a b s

/-- MULHU (R126). -/
def execMulhu (d a b : BitVec 5) (s : State) : Result := aluRR (fun x y => highProduct x.toNat y.toNat) d a b s

/-- MULHSU (R126). -/
def execMulhsu (d a b : BitVec 5) (s : State) : Result := aluRR (fun x y => highProduct x.toInt y.toNat) d a b s

/-- DIV (R126). -/
def execDiv (d a b : BitVec 5) (s : State) : Result := aluRR (fun x y => divSigned x y) d a b s

/-- DIVU (R126). -/
def execDivu (d a b : BitVec 5) (s : State) : Result := aluRR (fun x y => divUnsigned x y) d a b s

/-- REM (R126). -/
def execRem (d a b : BitVec 5) (s : State) : Result := aluRR (fun x y => remSigned x y) d a b s

/-- REMU (R126). -/
def execRemu (d a b : BitVec 5) (s : State) : Result := aluRR (fun x y => remUnsigned x y) d a b s

/-- CLZ (R126). -/
def execClz (d a : BitVec 5) (s : State) : Result := aluR (fun x => BitVec.ofNat 64 (leadingZeros 64 x.toNat)) d a s

/-- CTZ (R126). -/
def execCtz (d a : BitVec 5) (s : State) : Result := aluR (fun x => BitVec.ofNat 64 (trailingZeros 64 x.toNat)) d a s

/-- POPC (R126). -/
def execPopc (d a : BitVec 5) (s : State) : Result := aluR (fun x => BitVec.ofNat 64 (popCount 64 x.toNat)) d a s

/-- BSWAP (R126). -/
def execBswap (d a : BitVec 5) (s : State) : Result := aluR (fun x => byteSwap x) d a s

/-- SEXTB (R126). -/
def execSextb (d a : BitVec 5) (s : State) : Result := aluR (fun x => sextN 8 x) d a s

/-- SEXTH (R126). -/
def execSexth (d a : BitVec 5) (s : State) : Result := aluR (fun x => sextN 16 x) d a s

/-- SEXTW (R126). -/
def execSextw (d a : BitVec 5) (s : State) : Result := aluR (fun x => sextN 32 x) d a s

/-- ZEXTW (R126). -/
def execZextw (d a : BitVec 5) (s : State) : Result := aluR (fun x => zextN 32 x) d a s

/-! ### Immediates, majors 0x02 to 0x0A (R127) -/

/-- ADDI (R127): the immediate sign-extended. -/
def execAddi (d a : BitVec 5) (i : BitVec 16) (s : State) : Result := aluR (fun x => x + i.signExtend 64) d a s

/-- ANDI (R127): the immediate zero-extended. -/
def execAndi (d a : BitVec 5) (i : BitVec 16) (s : State) : Result := aluR (fun x => x &&& i.setWidth 64) d a s

/-- ORI (R127): the immediate zero-extended. -/
def execOri (d a : BitVec 5) (i : BitVec 16) (s : State) : Result := aluR (fun x => x ||| i.setWidth 64) d a s

/-- XORI (R127): the immediate zero-extended. -/
def execXori (d a : BitVec 5) (i : BitVec 16) (s : State) : Result := aluR (fun x => x ^^^ i.setWidth 64) d a s

/-- SLTI (R127): the immediate sign-extended. -/
def execSlti (d a : BitVec 5) (i : BitVec 16) (s : State) : Result := aluR (fun x => boolWord (x.slt (i.signExtend 64))) d a s

/-- SLTIU (R127): the immediate sign-extended, compared unsigned. -/
def execSltiu (d a : BitVec 5) (i : BitVec 16) (s : State) : Result := aluR (fun x => boolWord (x.ult (i.signExtend 64))) d a s

/-- SLLI (R127). -/
def execSlli (d a : BitVec 5) (h : BitVec 6) (s : State) : Result := aluR (fun x => x <<< h.toNat) d a s

/-- SRLI (R127). -/
def execSrli (d a : BitVec 5) (h : BitVec 6) (s : State) : Result := aluR (fun x => x >>> h.toNat) d a s

/-- SRAI (R127). -/
def execSrai (d a : BitVec 5) (h : BitVec 6) (s : State) : Result := aluR (fun x => x.sshiftRight h.toNat) d a s

/-- RORI (R127). -/
def execRori (d a : BitVec 5) (h : BitVec 6) (s : State) : Result := aluR (fun x => x.rotateRight h.toNat) d a s

/-- LDI (R127). -/
def execLdi (d : BitVec 5) (i : BitVec 16) (s : State) : Result := .next (s.writeG d (i.signExtend 64))

/-- LDIS (R127): the old g(d) moved up by 16 bits with the immediate below. -/
def execLdis (d : BitVec 5) (i : BitVec 16) (s : State) : Result :=
  .next (s.writeG d ((s.g d <<< 16) ||| i.setWidth 64))

end Sys2Proof.Machine
end

