-- ==== Sys2Proof/Machine/Flags.lean ====
section
/-! DEFINITION. The exception flags (R44, R60) and how an instruction that raised some completes (R45). -/
namespace Sys2Proof.Machine

/-! ### Flags (R44, R60) -/

/-- NV, DZ, OF, UF, NX from bit 4 down. -/
abbrev Flags := BitVec 5

/-- Invalid operation. -/
def flagNV : Flags := 16
/-- Division by zero. -/
def flagDZ : Flags := 8
/-- Overflow. -/
def flagOF : Flags := 4
/-- Underflow. -/
def flagUF : Flags := 2
/-- Inexact. -/
def flagNX : Flags := 1

/-- A flag when a condition holds. -/
def flagIf (b : Bool) (f : Flags) : Flags := if b then f else 0

/-! ### Completion with flags -/

/-- R60, R45: flags raised by an instruction that completes are ORed into FFLAGS, and an enabled one takes
FP_ENABLED. -/
def State.finish (s : State) (flags : BitVec 5) : State :=
  let s := s.setMe { s.me with fflags := s.me.fflags ||| flags }
  let hit := flags &&& s.me.frm.extractLsb' 8 5
  if hit = 0 then s.retire else s.trapAfter ⟨causeFpEnabled, 0, 0, hit.setWidth 48⟩

/-- R40: a tag a tile may have. -/
def isTileTag (t : BitVec 8) : Bool :=
  [0x00, 0x01, 0x09, 0x14, 0x15, 0x18, 0x19, 0x12, 0x13, 0x11].contains t.toNat

end Sys2Proof.Machine
end

