-- ==== Sys2Proof/Machine/Number.lean ====
section
/-! DEFINITION. Number formats and arithmetic (R47 to R64): exact values, the formats' encodings, rounding,
saturation and flags, exact sums, quotients and roots, conversions, and the block-floating-point packer. -/
namespace Sys2Proof.Machine

/-! ### Exact values -/

/-- A value before rounding: a NaN (signalling or quiet), an infinity, or the exact dyadic number ± m × 2^e, zero
keeping its sign. -/
inductive FVal where
  | nan (signalling : Bool)
  | inf (neg : Bool)
  | fin (neg : Bool) (m : Nat) (e : Int)
deriving DecidableEq, Repr

/-- The rounding modes (R56). -/
inductive RMode where
  | rne
  | rtz
  | rdn
  | rup
  | rmm
deriving DecidableEq, Repr

/-- FRM[2:0]'s code; 5, 6 and 7 name no mode (R45). -/
def rmodeOf (frm : Nat) : Option RMode :=
  match frm with
  | 0 => some .rne
  | 1 => some .rtz
  | 2 => some .rdn
  | 3 => some .rup
  | 4 => some .rmm
  | _ => none

/-- m ÷ 2^sh rounded by R56 for a number of the given sign: the rounded magnitude and whether it is inexact. -/
def roundShift (mode : RMode) (neg : Bool) (m sh : Nat) : Nat × Bool :=
  let q := m / 2 ^ sh
  let r := m % 2 ^ sh
  if r = 0 then (q, false)
  else
    let half := 2 ^ sh / 2
    let up : Bool :=
      match mode with
      | .rne => decide (half < r) || (r == half && q % 2 == 1)
      | .rtz => false
      | .rdn => neg
      | .rup => !neg
      | .rmm => decide (half ≤ r)
    (if up then q + 1 else q, true)

/-- ± m × 2^e rounded to a multiple of 2^g: the multiple and whether it is inexact. -/
def roundAt (mode : RMode) (neg : Bool) (m : Nat) (e g : Int) : Nat × Bool :=
  if g ≤ e then (m * 2 ^ (e - g).toNat, false) else roundShift mode neg m (g - e).toNat

/-! ### Formats (R49) -/

/-- The IEEE-style formats. -/
inductive FFmt where
  | fp64
  | fp32
  | fp16
  | bf16
  | e5m2
  | e4m3
deriving DecidableEq, Repr

/-- Bits of a format. -/
def FFmt.width : FFmt → Nat
  | .fp64 => 64
  | .fp32 => 32
  | .fp16 => 16
  | .bf16 => 16
  | .e5m2 => 8
  | .e4m3 => 8

/-- Fraction bits. -/
def FFmt.fbits : FFmt → Nat
  | .fp64 => 52
  | .fp32 => 23
  | .fp16 => 10
  | .bf16 => 7
  | .e5m2 => 2
  | .e4m3 => 3

/-- Exponent bits. -/
def FFmt.ebits : FFmt → Nat
  | .fp64 => 11
  | .fp32 => 8
  | .fp16 => 5
  | .bf16 => 8
  | .e5m2 => 5
  | .e4m3 => 4

/-- Bias. -/
def FFmt.bias : FFmt → Nat
  | .fp64 => 1023
  | .fp32 => 127
  | .fp16 => 15
  | .bf16 => 127
  | .e5m2 => 15
  | .e4m3 => 7

/-- Whether a format has infinities and signalling NaNs: E4M3 has no infinity, and neither 8-bit format has a
signalling NaN (R49, R50). -/
def FFmt.hasInf : FFmt → Bool
  | .e4m3 => false
  | _ => true

/-- R50. -/
def FFmt.hasSignalling : FFmt → Bool
  | .e4m3 => false
  | .e5m2 => false
  | _ => true

/-- The default NaN (R49). -/
def FFmt.nanBits : FFmt → Nat
  | .fp64 => 0x7FF8000000000000
  | .fp32 => 0x7FC00000
  | .fp16 => 0x7E00
  | .bf16 => 0x7FC0
  | .e5m2 => 0x7E
  | .e4m3 => 0x7F

/-- The largest finite magnitude's encoding (R49). -/
def FFmt.maxBits : FFmt → Nat
  | .fp64 => 0x7FEFFFFFFFFFFFFF
  | .fp32 => 0x7F7FFFFF
  | .fp16 => 0x7BFF
  | .bf16 => 0x7F7F
  | .e5m2 => 0x7B
  | .e4m3 => 0x7E

/-- The encoding of +infinity, where the format has one. -/
def FFmt.infBits (f : FFmt) : Nat := (2 ^ f.ebits - 1) * 2 ^ f.fbits

/-- The sign bit of an encoding. -/
def FFmt.signBit (f : FFmt) (neg : Bool) : Nat := if neg then 2 ^ (f.width - 1) else 0

/-- The value an encoding stands for (R49, R50). -/
def FFmt.decode (f : FFmt) (x : Nat) : FVal :=
  let neg := x / 2 ^ (f.width - 1) % 2 == 1
  let e := x / 2 ^ f.fbits % 2 ^ f.ebits
  let fr := x % 2 ^ f.fbits
  if f.hasInf && e == 2 ^ f.ebits - 1 then
    if fr = 0 then .inf neg else .nan (f.hasSignalling && fr < 2 ^ (f.fbits - 1))
  else if !f.hasInf && e == 2 ^ f.ebits - 1 && fr == 2 ^ f.fbits - 1 then .nan false
  else if e = 0 then .fin neg fr (1 - (f.bias : Int) - f.fbits)
  else .fin neg (2 ^ f.fbits + fr) ((e : Int) - f.bias - f.fbits)

/-- Whether a value at the mode overflows to infinity rather than to the largest finite value (R57, SAT = 0). -/
def overflowsToInf (mode : RMode) (neg : Bool) : Bool :=
  match mode with
  | .rne => true
  | .rmm => true
  | .rtz => false
  | .rdn => neg
  | .rup => !neg

/-- R57: the delivery of a finite result too large for the format. -/
def FFmt.overflow (f : FFmt) (mode : RMode) (sat neg : Bool) : Nat × Flags :=
  if !sat && overflowsToInf mode neg then
    if f.hasInf then (f.signBit neg + f.infBits, flagOF ||| flagNX)
    else (f.nanBits, flagNV ||| flagOF ||| flagNX)
  else (f.signBit neg + f.maxBits, flagOF ||| flagNX)

/-- R56, R57: a nonzero exact number delivered in a format: its encoding and flags. Rounding is on the grid of the
number's binade, the subnormal grid below; the result is tiny when its rounding with unbounded exponent lies below
the least normal. Overflow is judged after that rounding: a value between the largest finite number and the next grid point
that the mode rounds back is inexact, no overflow (log entry 44, DEDUCED for formats without infinity, DESIGN CHOICE with). -/
def FFmt.roundFin (f : FFmt) (mode : RMode) (sat neg : Bool) (m : Nat) (e : Int) : Nat × Flags :=
  let lead : Int := e + Nat.log2 m
  let emin : Int := 1 - f.bias
  let free := roundAt mode neg m e (lead - f.fbits)
  let lead' : Int := if 2 ^ (f.fbits + 1) ≤ free.1 then lead + 1 else lead
  let tiny : Bool := decide (lead' < emin)
  let g : Int := max (lead - f.fbits) (emin - f.fbits)
  let r := roundAt mode neg m e g
  let bits := if g = emin - f.fbits ∧ lead < emin then r.1
    else ((lead - emin).toNat + 1) * 2 ^ f.fbits + (r.1 - 2 ^ f.fbits)
  if f.maxBits < bits then f.overflow mode sat neg
  else (f.signBit neg + bits, flagIf (tiny && r.2) flagUF ||| flagIf r.2 flagNX)

/-- R57, R59: an exact value delivered in a format (round_to of R125). A signalling NaN raises NV (R51). -/
def FFmt.deliver (f : FFmt) (mode : RMode) (sat : Bool) (v : FVal) : Nat × Flags :=
  match v with
  | .nan sig => (f.nanBits, flagIf sig flagNV)
  | .inf neg =>
    if f.hasInf then (f.signBit neg + f.infBits, 0)
    else if sat then (f.signBit neg + f.maxBits, 0)
    else (f.nanBits, flagNV)
  | .fin neg m e => if m = 0 then (f.signBit neg, 0) else f.roundFin mode sat neg m e

/-! ### Exact operations -/

/-- Whether a value is a NaN. -/
def FVal.isNan : FVal → Bool
  | .nan _ => true
  | _ => false

/-- Whether a value is a signalling NaN. -/
def FVal.isSignalling : FVal → Bool
  | .nan s => s
  | _ => false

/-- Whether a value is infinite. -/
def FVal.isInf : FVal → Bool
  | .inf _ => true
  | _ => false

/-- The sign; a NaN has none. -/
def FVal.sign : FVal → Bool
  | .nan _ => false
  | .inf n => n
  | .fin n _ _ => n

/-- The value with its sign inverted. -/
def FVal.neg : FVal → FVal
  | .nan s => .nan s
  | .inf n => .inf (!n)
  | .fin n m e => .fin (!n) m e

/-- The magnitude. -/
def FVal.abs : FVal → FVal
  | .nan s => .nan s
  | .inf _ => .inf false
  | .fin _ m e => .fin false m e

/-- The exact number m × 2^e of an integer. -/
def FVal.ofInt (i : Int) : FVal := .fin (decide (i < 0)) i.natAbs 0

/-- The exact product (R60: 0 × ∞ is invalid); flags beside it. -/
def FVal.mul (x y : FVal) : FVal × Flags :=
  let fl := flagIf (x.isSignalling || y.isSignalling) flagNV
  match x, y with
  | .nan _, _ => (.nan false, fl)
  | _, .nan _ => (.nan false, fl)
  | .inf a, .inf b => (.inf (a != b), 0)
  | .inf a, .fin b m _ => if m = 0 then (.nan false, flagNV) else (.inf (a != b), 0)
  | .fin a m _, .inf b => if m = 0 then (.nan false, flagNV) else (.inf (a != b), 0)
  | .fin a m e, .fin b n g => (.fin (a != b) (m * n) (e + g), 0)

/-- The least exponent of the finite terms, or the start. -/
def leastExp : List FVal → Int → Int
  | [], e => e
  | .fin _ _ g :: t, e => leastExp t (min g e)
  | _ :: t, e => leastExp t e

/-- The sum of finite terms as a multiple of 2^g. -/
def sumAt (g : Int) : List FVal → Int
  | [] => 0
  | .fin n m e :: t =>
    let x : Int := (m * 2 ^ (e - g).toNat : Nat)
    (if n then -x else x) + sumAt g t
  | _ :: t => sumAt g t

/-- Whether a term is −0. -/
def FVal.isNegZero : FVal → Bool
  | .fin true 0 _ => true
  | _ => false

/-- Whether a finite term is not zero. -/
def FVal.isNonzero : FVal → Bool
  | .fin _ m _ => m != 0
  | _ => false

/-- The exact sum of terms (R58, R60): a NaN term gives NaN, opposite infinities are invalid, an exact zero is −0
when every term is −0, or when terms cancel under RDN. Zeros cancel nothing: +0 + −0 is +0 in every mode, as R257 has
−0 − (−0) (log entry 84, DEDUCED). -/
def sumExact (mode : RMode) (terms : List FVal) : FVal × Flags :=
  let fl := flagIf (terms.any FVal.isSignalling) flagNV
  let clash := terms.any (fun t => t == .inf true) && terms.any (fun t => t == .inf false)
  if terms.any FVal.isNan then (.nan false, fl ||| flagIf clash flagNV)
  else if clash then (.nan false, flagNV)
  else if terms.any (fun t => t == .inf true) then (.inf true, 0)
  else if terms.any (fun t => t == .inf false) then (.inf false, 0)
  else
    let g := leastExp terms (match terms with | .fin _ _ e :: _ => e | _ => 0)
    let s := sumAt g terms
    if s = 0 then
      let neg := !terms.isEmpty && (terms.all FVal.isNegZero || (mode == .rdn && terms.any FVal.isNonzero))
      (.fin neg 0 g, 0)
    else (.fin (decide (s < 0)) s.natAbs g, 0)

/-- The exact quotient, its tail folded into a last sticky bit far below any rounding (R60). -/
def FVal.div (x y : FVal) : FVal × Flags :=
  let fl := flagIf (x.isSignalling || y.isSignalling) flagNV
  match x, y with
  | .nan _, _ => (.nan false, fl)
  | _, .nan _ => (.nan false, fl)
  | .inf _, .inf _ => (.nan false, flagNV)
  | .inf a, .fin b _ _ => (.inf (a != b), 0)
  | .fin a _ _, .inf b => (.fin (a != b) 0 0, 0)
  | .fin a m e, .fin b n g =>
    if n = 0 then (if m = 0 then (.nan false, flagNV) else (.inf (a != b), flagDZ))
    else
      let k := Nat.log2 n + 68
      let q := m * 2 ^ k / n
      let r := m * 2 ^ k % n
      (.fin (a != b) (2 * q + (if r = 0 then 0 else 1)) (e - g - k - 1), 0)

/-- The integer square root below 2^fuel, bit by bit. -/
def isqrtFrom (x : Nat) : Nat → Nat → Nat
  | 0, r => r
  | i + 1, r => isqrtFrom x i (if (r + 2 ^ i) * (r + 2 ^ i) ≤ x then r + 2 ^ i else r)

/-- The integer square root of a number. -/
def isqrt (x : Nat) : Nat := isqrtFrom x (Nat.log2 x / 2 + 1) 0

/-- The exact square root, its tail folded into a last sticky bit (R60): √(−0) = −0, a number below −0 is invalid. -/
def FVal.sqrt (x : FVal) : FVal × Flags :=
  match x with
  | .nan s => (.nan false, flagIf s flagNV)
  | .inf n => if n then (.nan false, flagNV) else (.inf false, 0)
  | .fin n m e =>
    if m = 0 then (.fin n 0 0, 0)
    else if n then (.nan false, flagNV)
    else
      let odd := e % 2 != 0
      let m1 := if odd then 2 * m else m
      let e1 := if odd then e - 1 else e
      let big := m1 * 2 ^ 140
      let r := isqrt big
      (.fin false (2 * r + (if r * r = big then 0 else 1)) (e1 / 2 - 71), 0)

/-- x × y + z exactly (R130, R60): a product 0 × ∞ is invalid even beside a quiet NaN. -/
def FVal.fma (mode : RMode) (x y z : FVal) : FVal × Flags :=
  let p := x.mul y
  let invalid := p.1.isNan && !x.isNan && !y.isNan
  let s := sumExact mode [p.1, z]
  if invalid then (.nan false, flagNV)
  else (s.1, p.2 ||| s.2)

/-! ### Comparison -/

/-- x < y for numbers; false with a NaN. −0 equals +0. -/
def FVal.lt (x y : FVal) : Bool :=
  match x, y with
  | .nan _, _ => false
  | _, .nan _ => false
  | .inf a, .inf b => a && !b
  | .inf a, .fin _ _ _ => a
  | .fin _ _ _, .inf b => !b
  | .fin a m e, .fin b n g =>
    let k := min e g
    let u : Int := (m * 2 ^ (e - k).toNat : Nat)
    let v : Int := (n * 2 ^ (g - k).toNat : Nat)
    decide ((if a then -u else u) < (if b then -v else v))

/-- x = y for numbers; false with a NaN. -/
def FVal.eq (x y : FVal) : Bool := !x.isNan && !y.isNan && !x.lt y && !y.lt x

/-- R52: x is taken before y by a minimum, −0 below +0. -/
def FVal.before (x y : FVal) : Bool := x.lt y || (x.eq y && x.sign && !y.sign)

/-! ### Conversion to integers (R59) -/

/-- A value rounded to an integer; the rounded integer and whether it is inexact. NaN and infinities are the
caller's. -/
def roundToInt (mode : RMode) (neg : Bool) (m : Nat) (e : Int) : Int × Bool :=
  let r := roundAt mode neg m e 0
  (if neg then -(r.1 : Int) else r.1, r.2)

/-- R59: floating point to an integer range: NaN gives 0, out of range clamps, both with NV and no NX. -/
def FVal.toIntClamped (mode : RMode) (lo hi : Int) (v : FVal) : Int × Flags :=
  match v with
  | .nan _ => (0, flagNV)
  | .inf n => (if n then lo else hi, flagNV)
  | .fin n m e =>
    let r := roundToInt mode n m e
    if r.1 < lo then (lo, flagNV) else if hi < r.1 then (hi, flagNV) else (r.1, flagIf r.2 flagNX)

/-! ### Block floating point (R53, R55) -/

/-- BX8 or BX4. -/
inductive BxFmt where
  | bx8
  | bx4
deriving DecidableEq, Repr

/-- Bits of an element. -/
def BxFmt.width : BxFmt → Nat
  | .bx8 => 8
  | .bx4 => 4

/-- Magnitude bits. -/
def BxFmt.mbits : BxFmt → Nat
  | .bx8 => 6
  | .bx4 => 2

/-- log2 of S (R55). -/
def BxFmt.sbits : BxFmt → Nat
  | .bx8 => 5
  | .bx4 => 1

/-- MMAX (R55). -/
def BxFmt.mmax (f : BxFmt) : Nat := 2 ^ f.mbits - 1

/-- G (R55). -/
def BxFmt.gap : BxFmt → Nat
  | .bx8 => 3
  | .bx4 => 2

/-- R53: an element's value under its block's exponents. -/
def BxFmt.decode (f : BxFmt) (x e0 e1 : Nat) : FVal :=
  let e := if x / 2 ^ (f.width - 1) % 2 = 1 then e1 else e0
  if e = 255 then .nan false
  else .fin (x / 2 ^ f.mbits % 2 == 1) (x % 2 ^ f.mbits) ((e : Int) - 127 - f.sbits)

/-- R55: x × 2^(127 − e) × S rounded to an integer magnitude, and whether it is inexact. -/
def BxFmt.scaled (f : BxFmt) (mode : RMode) (e : Nat) (v : FVal) : Nat × Bool :=
  match v with
  | .fin n m g => roundAt mode n m (g + 127 - e + f.sbits) 0
  | _ => (0, false)

/-- R55: fitexp. An exponent below the number's own leaves a magnitude above MMAX, so the search starts there. -/
def BxFmt.fitexp (f : BxFmt) (mode : RMode) (v : FVal) : Nat :=
  match v with
  | .fin _ m g =>
    if m = 0 then 0
    else
      let start := (g + Nat.log2 m + 127).toNat
      if start ≤ 254 ∧ (f.scaled mode start v).1 ≤ f.mmax then start
      else if start + 1 ≤ 254 ∧ (f.scaled mode (start + 1) v).1 ≤ f.mmax then start + 1
      else 255
  | _ => 255

/-- The greatest of a list, or 0. -/
def maxOf (l : List Nat) : Nat := l.foldl max 0

/-- R55: one element packed under the block's exponents: its bits and flags. -/
def BxFmt.packElem (f : BxFmt) (mode : RMode) (e0 e1 : Nat) (v : FVal) : Nat × Flags :=
  let fi := f.fitexp mode v
  let sel := !decide (fi ≤ e0)
  let r := f.scaled mode (if sel then e1 else e0) v
  let past := decide (f.mmax < r.1)
  let q := if past then f.mmax else r.1
  ((if sel then 2 ^ (f.width - 1) else 0) + (if v.sign then 2 ^ f.mbits else 0) + q,
    if past then flagOF ||| flagNX else flagIf r.2 flagNX)

/-- A packed block: E0, E1, and each element's bits and flags; `invalid` when a NaN or infinity made the block NaN. -/
structure BxBlock where
  e0 : Nat
  e1 : Nat
  elems : List (Nat × Flags)
  invalid : Bool
deriving DecidableEq, Repr

/-- R55: a block packed from its values. -/
def BxFmt.pack (f : BxFmt) (mode : RMode) (xs : List FVal) : BxBlock :=
  if xs.any (fun x => x.isNan || x.isInf) then ⟨255, 255, xs.map (fun _ => (0, 0)), true⟩
  else
    let fits := xs.map (f.fitexp mode)
    let e1 := min (maxOf fits) 254
    let small := fits.filter (fun x => decide (x + f.gap ≤ e1))
    let e0 := if small.isEmpty then e1 else maxOf small
    ⟨e0, e1, xs.map (f.packElem mode e0 e1), false⟩

end Sys2Proof.Machine
end

