-- ==== Sys2Proof/Machine/Fpu.lean ====
section
/-! DEFINITION. Scalar floating point (R128 to R130): majors 0x0B and 0x0C. -/
namespace Sys2Proof.Machine

/-- R111: the format a two-bit fmt field names. -/
def fmtOf (f : BitVec 2) : FFmt :=
  match f.toNat with
  | 0 => .fp32
  | 1 => .fp64
  | 2 => .fp16
  | _ => .bf16

/-- R128: a source read from the low bits of its g register. -/
def State.fsrc (s : State) (fm : FFmt) (a : BitVec 5) : FVal := fm.decode ((s.g a).toNat % 2 ^ fm.width)

/-- R45: the rounding mode of FRM[2:0], if it names one. -/
def State.scalarMode (s : State) : Option RMode := rmodeOf (s.me.frm.extractLsb' 0 3).toNat

/-- R45: an instruction that rounds: ILLEGAL_INSTR when FRM names no mode, else its result and flags under the mode;
g(d) is written, zero-extended (R33), and the flags are delivered. -/
def fpRounding (w : InstrWord) (d : BitVec 5) (f : RMode → Nat × Flags) (s : State) : Result :=
  match s.scalarMode with
  | none => .next (s.trap (wordTrap causeIllegal w))
  | some mode => .next ((s.setG d (BitVec.ofNat 64 (f mode).1)).finish (f mode).2)

/-- An instruction whose result is exact and is never checked against FRM (R128). -/
def fpExact (d : BitVec 5) (r : Nat × Flags) (s : State) : Result := .next ((s.setG d (BitVec.ofNat 64 r.1)).finish r.2)

/-- An exact value with its flags, delivered in a format. -/
def delivered (fm : FFmt) (mode : RMode) (r : FVal × Flags) : Nat × Flags :=
  let q := fm.deliver mode false r.1
  (q.1, q.2 ||| r.2)

/-- The word of an F-RRR instruction of major 0x0B (R111). -/
def fpuWord (d a b : BitVec 5) (f : BitVec 2) (op : BitVec 9) : InstrWord := encRrr 0x0B d a b (f ++ op)

/-- FADD (R129). -/
def execFadd (d a b : BitVec 5) (f : BitVec 2) (s : State) : Result :=
  let fm := fmtOf f
  fpRounding (fpuWord d a b f 0x00) d (fun m => delivered fm m (sumExact m [s.fsrc fm a, s.fsrc fm b])) s

/-- FSUB (R129). -/
def execFsub (d a b : BitVec 5) (f : BitVec 2) (s : State) : Result :=
  let fm := fmtOf f
  fpRounding (fpuWord d a b f 0x01) d (fun m => delivered fm m (sumExact m [s.fsrc fm a, (s.fsrc fm b).neg])) s

/-- FMUL (R129). -/
def execFmul (d a b : BitVec 5) (f : BitVec 2) (s : State) : Result :=
  let fm := fmtOf f
  fpRounding (fpuWord d a b f 0x02) d (fun m => delivered fm m ((s.fsrc fm a).mul (s.fsrc fm b))) s

/-- FDIV (R129). -/
def execFdiv (d a b : BitVec 5) (f : BitVec 2) (s : State) : Result :=
  let fm := fmtOf f
  fpRounding (fpuWord d a b f 0x03) d (fun m => delivered fm m ((s.fsrc fm a).div (s.fsrc fm b))) s

/-- FSQRT (R129). -/
def execFsqrt (d a : BitVec 5) (f : BitVec 2) (s : State) : Result :=
  let fm := fmtOf f
  fpRounding (fpuWord d a 0 f 0x04) d (fun m => delivered fm m (s.fsrc fm a).sqrt) s

/-- R52: the minimum or maximum of two encodings: the operand chosen keeps its bits, both NaN give the default NaN,
a signalling NaN raises NV. -/
def minMaxBits (fm : FFmt) (wantMax : Bool) (x y : Nat) : Nat × Flags :=
  let u := fm.decode x
  let v := fm.decode y
  let fl := flagIf (u.isSignalling || v.isSignalling) flagNV
  if u.isNan && v.isNan then (fm.nanBits, fl)
  else if u.isNan then (y, fl)
  else if v.isNan then (x, fl)
  else if wantMax then (if u.before v then y else x, fl)
  else (if v.before u then y else x, fl)

/-- The low bits of a g register that a format reads (R33). -/
def State.fbitsOf (s : State) (fm : FFmt) (a : BitVec 5) : Nat := (s.g a).toNat % 2 ^ fm.width

/-- FMIN (R129, R52). -/
def execFmin (d a b : BitVec 5) (f : BitVec 2) (s : State) : Result :=
  fpExact d (minMaxBits (fmtOf f) false (s.fbitsOf (fmtOf f) a) (s.fbitsOf (fmtOf f) b)) s

/-- FMAX (R129, R52). -/
def execFmax (d a b : BitVec 5) (f : BitVec 2) (s : State) : Result :=
  fpExact d (minMaxBits (fmtOf f) true (s.fbitsOf (fmtOf f) a) (s.fbitsOf (fmtOf f) b)) s

/-- x with a sign chosen from the signs of x and y; bits copied, no flags (R129). -/
def signInject (pick : Bool → Bool → Bool) (fm : FFmt) (x y : Nat) : Nat × Flags :=
  let top := 2 ^ (fm.width - 1)
  (x % top + (if pick (x / top % 2 == 1) (y / top % 2 == 1) then top else 0), 0)

/-- FSGNJ (R129). -/
def execFsgnj (d a b : BitVec 5) (f : BitVec 2) (s : State) : Result :=
  fpExact d (signInject (fun _ q => q) (fmtOf f) (s.fbitsOf (fmtOf f) a) (s.fbitsOf (fmtOf f) b)) s

/-- FSGNJN (R129). -/
def execFsgnjn (d a b : BitVec 5) (f : BitVec 2) (s : State) : Result :=
  fpExact d (signInject (fun _ q => !q) (fmtOf f) (s.fbitsOf (fmtOf f) a) (s.fbitsOf (fmtOf f) b)) s

/-- FSGNJX (R129). -/
def execFsgnjx (d a b : BitVec 5) (f : BitVec 2) (s : State) : Result :=
  fpExact d (signInject (fun p q => p != q) (fmtOf f) (s.fbitsOf (fmtOf f) a) (s.fbitsOf (fmtOf f) b)) s

/-- 1 or 0. -/
def boolNat (b : Bool) : Nat := if b then 1 else 0

/-- FEQ (R129): NV only for a signalling NaN. -/
def execFeq (d a b : BitVec 5) (f : BitVec 2) (s : State) : Result :=
  let x := s.fsrc (fmtOf f) a
  let y := s.fsrc (fmtOf f) b
  fpExact d (boolNat (x.eq y), flagIf (x.isSignalling || y.isSignalling) flagNV) s

/-- FLT (R129): NV for any NaN. -/
def execFlt (d a b : BitVec 5) (f : BitVec 2) (s : State) : Result :=
  let x := s.fsrc (fmtOf f) a
  let y := s.fsrc (fmtOf f) b
  fpExact d (boolNat (x.lt y), flagIf (x.isNan || y.isNan) flagNV) s

/-- FLE (R129): NV for any NaN. -/
def execFle (d a b : BitVec 5) (f : BitVec 2) (s : State) : Result :=
  let x := s.fsrc (fmtOf f) a
  let y := s.fsrc (fmtOf f) b
  fpExact d (boolNat (x.lt y || x.eq y), flagIf (x.isNan || y.isNan) flagNV) s

/-- The class table of R129 on an encoding: the number of the bit that is set. -/
def classBit (fm : FFmt) (x : Nat) : Nat :=
  match fm.decode x with
  | .nan sig => if sig then 8 else 9
  | .inf neg => if neg then 0 else 7
  | .fin neg m _ =>
    let sub := decide (x / 2 ^ fm.fbits % 2 ^ fm.ebits = 0)
    if m = 0 then (if neg then 3 else 4)
    else if sub then (if neg then 2 else 5)
    else (if neg then 1 else 6)

/-- FCLASS (R129): exactly one bit set, no flags. -/
def execFclass (d a : BitVec 5) (f : BitVec 2) (s : State) : Result :=
  fpExact d (2 ^ classBit (fmtOf f) (s.fbitsOf (fmtOf f) a), 0) s

/-- An integer result as 64 bits with its flags. -/
def intResult (r : Int × Flags) : Nat × Flags := ((BitVec.ofInt 64 r.1).toNat, r.2)

/-- FCVTI (R129, R59). -/
def execFcvti (d a : BitVec 5) (f : BitVec 2) (s : State) : Result :=
  fpRounding (fpuWord d a 0 f 0x20) d
    (fun m => intResult ((s.fsrc (fmtOf f) a).toIntClamped m (-(2 ^ 63)) (2 ^ 63 - 1))) s

/-- FCVTU (R129, R59). -/
def execFcvtu (d a : BitVec 5) (f : BitVec 2) (s : State) : Result :=
  fpRounding (fpuWord d a 0 f 0x21) d (fun m => intResult ((s.fsrc (fmtOf f) a).toIntClamped m 0 (2 ^ 64 - 1))) s

/-- FCVTF (R129, R59). -/
def execFcvtf (d a : BitVec 5) (f : BitVec 2) (s : State) : Result :=
  fpRounding (fpuWord d a 0 f 0x22) d (fun m => (fmtOf f).deliver m false (FVal.ofInt (s.g a).toInt)) s

/-- FCVTFU (R129, R59). -/
def execFcvtfu (d a : BitVec 5) (f : BitVec 2) (s : State) : Result :=
  fpRounding (fpuWord d a 0 f 0x23) d (fun m => (fmtOf f).deliver m false (FVal.ofInt (s.g a).toNat)) s

/-- R129: a conversion between formats; equal formats copy the bits, except that a signalling NaN becomes the default
NaN and raises NV. -/
def convertFF (dst src : FFmt) (mode : RMode) (x : Nat) : Nat × Flags :=
  if src = dst ∧ !(src.decode x).isSignalling then (x, 0) else dst.deliver mode false (src.decode x)

/-- FCVTFF (R129, R59). -/
def execFcvtff (d a : BitVec 5) (sf f : BitVec 2) (s : State) : Result :=
  fpRounding (fpuWord d a ((0 : BitVec 3) ++ sf) f 0x24) d
    (fun m => convertFF (fmtOf f) (fmtOf sf) m (s.fbitsOf (fmtOf sf) a)) s

/-- R130: ± x × y ± z with one rounding. -/
def fmaResult (negProduct negAddend : Bool) (op : BitVec 2) (d a b c : BitVec 5) (f : BitVec 2) (s : State) : Result :=
  let fm := fmtOf f
  let x := s.fsrc fm a
  let z := s.fsrc fm c
  fpRounding (encRrr 0x0C d a b (c ++ op ++ f ++ (0 : BitVec 2))) d
    (fun m => delivered fm m (FVal.fma m (if negProduct then x.neg else x) (s.fsrc fm b)
      (if negAddend then z.neg else z))) s

/-- FMADD (R130). -/
def execFmadd (d a b c : BitVec 5) (f : BitVec 2) (s : State) : Result := fmaResult false false 0 d a b c f s

/-- FMSUB (R130). -/
def execFmsub (d a b c : BitVec 5) (f : BitVec 2) (s : State) : Result := fmaResult false true 1 d a b c f s

/-- FNMADD (R130). -/
def execFnmadd (d a b c : BitVec 5) (f : BitVec 2) (s : State) : Result := fmaResult true true 2 d a b c f s

/-- FNMSUB (R130). -/
def execFnmsub (d a b c : BitVec 5) (f : BitVec 2) (s : State) : Result := fmaResult true false 3 d a b c f s

end Sys2Proof.Machine
end

