-- ==== Sys2Proof/Machine/Operands.lean ====
section
/-! DEFINITION. Vector operands (R32 to R43, R111, R146 to R149, R160): element types, elements of vector registers with
their block exponents, the second operand's forms, type resolution, the checks at issue, and delivery. -/
namespace Sys2Proof.Machine

/-! ### Element types (R36) -/

/-- What a tag code names. -/
inductive Elem where
  | dead
  | int (w : Nat) (signed : Bool)
  | fp (f : FFmt)
  | bx (f : BxFmt)
deriving DecidableEq, Repr

/-- R36: the element type of a tag code; reserved codes name nothing, as DEAD does. -/
def elemOf (tag : BitVec 8) : Elem :=
  match tag.toNat with
  | 0x01 => .int 8 true
  | 0x02 => .int 16 true
  | 0x03 => .int 32 true
  | 0x04 => .int 64 true
  | 0x09 => .int 8 false
  | 0x0A => .int 16 false
  | 0x0B => .int 32 false
  | 0x0C => .int 64 false
  | 0x10 => .fp .fp64
  | 0x11 => .fp .fp32
  | 0x12 => .fp .fp16
  | 0x13 => .fp .bf16
  | 0x14 => .fp .e4m3
  | 0x15 => .fp .e5m2
  | 0x18 => .bx .bx8
  | 0x19 => .bx .bx4
  | _ => .dead

/-- R36: whether a code is in the tag table. -/
def isTag (tag : BitVec 8) : Bool := tag == 0 || elemOf tag != .dead

/-- Element bits. -/
def Elem.width : Elem → Nat
  | .dead => 0
  | .int w _ => w
  | .fp f => f.width
  | .bx f => f.width

/-- VLMAX (R36). -/
def Elem.vlmax (e : Elem) : Nat := if e.width = 0 then 0 else 8192 / e.width

/-- Whether the type is an integer. -/
def Elem.isInt : Elem → Bool
  | .int _ _ => true
  | _ => false

/-- The code of an integer type. -/
def intTag (w : Nat) (signed : Bool) : BitVec 8 :=
  let base : BitVec 8 := if w = 8 then 1 else if w = 16 then 2 else if w = 32 then 3 else 4
  if signed then base else base ||| 8

/-! ### Registers -/

/-- The tag of a vtype word (R35). -/
def vtypeTag (v : BitVec 16) : BitVec 8 := v.extractLsb' 0 8

/-- A vtype word from its fields (R35). -/
def vtypeOf (blk : BitVec 3) (rnd : BitVec 2) (sat : Bool) (tag : BitVec 8) : BitVec 16 :=
  (0 : BitVec 2) ++ (blk ++ (rnd ++ (BitVec.ofBool sat ++ tag)))

/-- R37: the vtype a DEAD destination takes with a tag. -/
def freshVtype (tag : BitVec 8) : BitVec 16 :=
  match elemOf tag with
  | .bx _ => vtypeOf 5 0 false tag
  | _ => vtypeOf 0 0 false tag

/-- The element type a register holds. -/
def VReg.elemType (r : VReg) : Elem := elemOf (vtypeTag r.vtype)

/-- The vector register vn. -/
def Strand.getV (x : Strand) (n : BitVec 5) : VReg := x.v[n.toNat]'(n.isLt)

/-- The vector register vn replaced. -/
def Strand.setV (x : Strand) (n : BitVec 5) (r : VReg) : Strand := { x with v := x.v.set n.toNat r n.isLt }

/-- The predicate register pn; p0 is all ones (R34). -/
def Strand.getP (x : Strand) (n : BitVec 3) : BitVec 2048 := if n = 0 then BitVec.allOnes 2048 else x.p[n.toNat]'(n.isLt)

/-- The predicate register pn written; a write to p0 is discarded. -/
def Strand.setP (x : Strand) (n : BitVec 3) (v : BitVec 2048) : Strand :=
  if n = 0 then x else { x with p := x.p.set n.toNat v n.isLt }

/-- The scale register a vector register uses (R39). -/
def Strand.scaleOf (x : Strand) (n : BitVec 5) : BitVec 2048 := x.e[n.toNat % 16]'(by omega)

/-- Element i of width w of a register image, as bits. -/
def elemBits (bits : BitVec 8192) (w i : Nat) : Nat := (bits.extractLsb' (w * i) w).toNat

/-- A register image with element i of width w set. -/
def setElemBits (bits : BitVec 8192) (w i x : Nat) : BitVec 8192 :=
  let hole := BitVec.ofNat 8192 (2 ^ w - 1) <<< (w * i)
  (bits &&& ~~~hole) ||| (BitVec.ofNat 8192 (x % 2 ^ w) <<< (w * i))

/-- Element i of a register, as bits of its own width. -/
def VReg.raw (r : VReg) (i : Nat) : Nat := elemBits r.bits r.elemType.width i

/-- Element i of a register written; VHWE covers it, and the progress index follows (R42). -/
def VReg.put (r : VReg) (i x : Nat) : VReg :=
  { r with
    bits := setElemBits r.bits r.elemType.width i x
    vhwe := max r.vhwe (i + 1)
    progress := max r.vhwe (i + 1) }

/-- Elements written one after the other. -/
def VReg.putAll (r : VReg) (l : List (Nat × Nat)) : VReg := l.foldl (fun r p => r.put p.1 p.2) r

/-- A byte of a scale register. -/
def scaleByte (e : BitVec 2048) (j : Nat) : Nat := (e.extractLsb' (8 * j) 8).toNat

/-! ### Values -/

/-- The exact value of an element: an integer, or a floating value. -/
inductive EVal where
  | int (v : Int)
  | fl (v : FVal)
deriving DecidableEq, Repr

/-- The value as a floating one: integers are exact. -/
def EVal.toF : EVal → FVal
  | .int v => FVal.ofInt v
  | .fl v => v

/-- The value as an integer; a floating one has none here. -/
def EVal.toI : EVal → Int
  | .int v => v
  | .fl _ => 0

/-- Bits of width w read as an integer. -/
def intOfBits (w : Nat) (signed : Bool) (x : Nat) : Int :=
  if signed && decide (2 ^ (w - 1) ≤ x) then (x : Int) - 2 ^ w else x

/-- The value of an element's bits, its block's exponents given (R53). -/
def Elem.value (t : Elem) (e0 e1 x : Nat) : EVal :=
  match t with
  | .dead => .int 0
  | .int w sg => .int (intOfBits w sg x)
  | .fp f => .fl (f.decode x)
  | .bx f => .fl (f.decode x e0 e1)

/-- R146: value(v, i), a BX element under e(n mod 16) (R39). BLK is 5. -/
def Strand.value (x : Strand) (n : BitVec 5) (i : Nat) : EVal :=
  let r := x.getV n
  let e := x.scaleOf n
  r.elemType.value (scaleByte e (2 * (i / 32))) (scaleByte e (2 * (i / 32) + 1)) (r.raw i)

/-! ### The second operand (R147 to R149) -/

/-- What serves as the second operand: a vector register, or one value for every element, with a tag of its own where it is
a scalar that R147 reads as BF16 beside another tag. -/
inductive Second where
  | vec (n : BitVec 5)
  | one (v : EVal)
  | bf16 (v : EVal)
  | none
deriving DecidableEq, Repr

/-- R147: a VS scalar under va's type. -/
def scalarValue (t : Elem) (g : Word) : EVal :=
  match t with
  | .int w sg => .int (intOfBits w sg (g.toNat % 2 ^ w))
  | .fp .e4m3 => .fl (FFmt.bf16.decode (g.toNat % 65536))
  | .fp .e5m2 => .fl (FFmt.bf16.decode (g.toNat % 65536))
  | .fp f => .fl (f.decode (g.toNat % 2 ^ f.width))
  | .bx _ => .fl (FFmt.bf16.decode (g.toNat % 65536))
  | .dead => .int 0

/-- R147: whether a VS scalar beside va is read as BF16: va is E4M3, E5M2, BX8 or BX4. -/
def Elem.scalarBf16 : Elem → Bool
  | .fp .e4m3 => true
  | .fp .e5m2 => true
  | .bx _ => true
  | _ => false

/-- The VI immediate: −16 to 15 (R113). -/
def viImm (b : BitVec 5) : Int := b.toInt

/-- The second operand of a form: 00 VV, 01 VS, 10 VI, 11 VX (R111), beside va's type. -/
def Strand.second (x : Strand) (f : BitVec 2) (t : Elem) (b : BitVec 5) : Second :=
  match f.toNat with
  | 0 => .vec b
  | 1 => let v := scalarValue t (x.getG b); if t.scalarBf16 then .bf16 v else .one v
  | 2 => .one (if t.isInt then .int (viImm b) else .fl (FVal.ofInt (viImm b)))
  | _ => .vec ((x.getG b).extractLsb' 0 5)

/-- The vector register among a second operand. -/
def Second.regs : Second → List (BitVec 5)
  | .vec n => [n]
  | _ => []

/-- R147: the tag a second operand brings into the resolution of its own: BF16 of a scalar so read. One with va's tag adds
none, and an immediate has none. (log entry 56, DEDUCED.) -/
def Second.tags : Second → List (BitVec 8)
  | .bf16 _ => [0x13]
  | _ => []

/-- The second operand's value at element i. -/
def Strand.secondAt (x : Strand) (y : Second) (i : Nat) : EVal :=
  match y with
  | .vec n => x.value n i
  | .one v => v
  | .bf16 v => v
  | .none => .int 0

/-! ### Type resolution (R147) -/

/-- The domain of an operation: integer of a width and signedness, or floating. -/
inductive VDom where
  | int (w : Nat) (signed : Bool)
  | float
deriving DecidableEq, Repr

/-- What resolution gives: nothing, because a source is DEAD; no domain; or the domain and the result tag. -/
inductive Resolution where
  | dead
  | none
  | ok (dom : VDom) (tag : BitVec 8)
deriving DecidableEq, Repr

/-- The widest integer width among tags. -/
def widest (l : List Elem) : Nat := l.foldl (fun w t => max w t.width) 0

/-- R147's table on the tags of the live sources. -/
def resolveTags (tags : List (BitVec 8)) : Resolution :=
  let ts := tags.map elemOf
  if ts.any (fun t => t == .dead) then .dead
  else if ts.all Elem.isInt then
    match tags with
    | [] => .none
    | t :: rest =>
      if rest.all (fun u => u == t) then
        (match elemOf t with | .int w sg => .ok (.int w sg) t | _ => .none)
      else
        let sg := ts.any (fun t => match t with | .int _ s => s | _ => false)
        .ok (.int (widest ts) sg) (intTag (widest ts) sg)
  else if ts.any Elem.isInt then .none
  else
    match tags with
    | [] => .none
    | t :: rest =>
      if rest.all (fun u => u == t) then .ok .float t
      else if tags.contains 0x10 then .ok .float 0x10
      else if tags.contains 0x11 || (tags.contains 0x12 && tags.contains 0x13) then .ok .float 0x11
      else if tags.contains 0x12 then .ok .float 0x12
      else .ok .float 0x13

/-- The tag of a register of a strand. -/
def Strand.tag (x : Strand) (n : BitVec 5) : BitVec 8 := vtypeTag (x.getV n).vtype

/-- The resolution over vector registers and a second operand (R147): its register, or the tag of its scalar. -/
def Strand.resolveWith (x : Strand) (l : List (BitVec 5)) (y : Second) : Resolution :=
  resolveTags ((l ++ y.regs).map x.tag ++ y.tags)

/-! ### Checks at issue (R14, R37, R38, R45, R115) -/

/-- The traps of a vector instruction at issue, in the order of R115: ILLEGAL_INSTR, VECT_NOLANES, VECT_DEAD over the
registers read, VL_RANGE over types and the elements each must hold. -/
def Strand.vectorTrap (x : Strand) (w : InstrWord) (illegal : Bool) (read : List (BitVec 5))
    (held : List (Elem × Nat)) : Option Trap :=
  if illegal then some (wordTrap causeIllegal w)
  else if x.share = 0 then some (wordTrap causeVectNolanes w)
  else if read.any (fun n => (x.getV n).elemType == .dead) then some (wordTrap causeVectDead w)
  else if held.any (fun h => h.1 != .dead && decide (h.1.vlmax < h.2)) then some (wordTrap causeVlRange w)
  else none

/-- R56: the rounding mode of a destination: its RND, or FRM's. FRM 5 to 7 gives none. -/
def Strand.roundingOf (x : Strand) (vtype : BitVec 16) : Option RMode :=
  match (vtype.extractLsb' 9 2).toNat with
  | 0 => rmodeOf (x.frm.extractLsb' 0 3).toNat
  | 1 => some .rne
  | 2 => some .rtz
  | _ => some .rmm

/-- The vtype of a destination after the retagging of R37, which needs no active element. (log entry 58, DEDUCED.) -/
def Strand.destVtype (x : Strand) (d : BitVec 5) (tag : BitVec 8) : BitVec 16 :=
  if (x.getV d).elemType = .dead then freshVtype tag else (x.getV d).vtype

/-- R45: an instruction that rounds into a destination with RND = 00 while FRM names no mode. -/
def Strand.badRounding (x : Strand) (vtype : BitVec 16) (floating : Bool) : Bool :=
  (floating || !(elemOf (vtypeTag vtype)).isInt) && elemOf (vtypeTag vtype) != .dead && (x.roundingOf vtype).isNone

/-! ### Active elements (R34, R41) -/

/-- The active elements from an index on: below VL and selected by the governing predicate. -/
def Strand.activeFrom (x : Strand) (start : Nat) (p : BitVec 3) : List Nat :=
  (List.range x.vl).filter (fun i => decide (start ≤ i) && (x.getP p).getLsbD i)

/-- The active elements of an element-wise instruction, which begins at VSTART. -/
def Strand.active (x : Strand) (p : BitVec 3) : List Nat := x.activeFrom x.vstart p

/-- R160: a source element another element reads: +0 outside 0 to VL − 1 and where the predicate is 0. -/
def Strand.readElem (x : Strand) (r : VReg) (p : BitVec 3) (j : Int) : Nat :=
  if 0 ≤ j ∧ j < x.vl ∧ (x.getP p).getLsbD j.toNat then r.raw j.toNat else 0

/-! ### Delivery (R146) -/

/-- An integer delivered to an integer type: wrapped, or clamped by SAT (R47). -/
def deliverInt (w : Nat) (signed sat : Bool) (v : Int) : Nat :=
  let lo : Int := if signed then -(2 ^ (w - 1)) else 0
  let hi : Int := if signed then 2 ^ (w - 1) - 1 else 2 ^ w - 1
  let v := if sat then max lo (min hi v) else v
  (v % 2 ^ w).toNat

/-- The least and greatest value of an integer type. -/
def intRange (w : Nat) (signed : Bool) : Int × Int :=
  if signed then (-(2 ^ (w - 1)), 2 ^ (w - 1) - 1) else (0, 2 ^ w - 1)

/-- One value delivered to a type that is not BX: its bits and flags. -/
def Elem.deliver (t : Elem) (mode : RMode) (sat : Bool) (v : EVal) : Nat × Flags :=
  match t, v with
  | .int w sg, .int i => (deliverInt w sg sat i, 0)
  | .int w sg, .fl x =>
    let r := x.toIntClamped mode (intRange w sg).1 (intRange w sg).2
    ((r.1 % 2 ^ w).toNat, r.2)
  | .fp f, v => f.deliver mode sat v.toF
  | _, _ => (0, 0)

/-- The OR of flags. -/
def orFlags (l : List Flags) : Flags := l.foldl (fun a b => a ||| b) 0

/-- A scale register with a block's exponents written. -/
def setScale (e : BitVec 2048) (block e0 e1 : Nat) : BitVec 2048 :=
  let hole := BitVec.ofNat 2048 0xFFFF <<< (16 * block)
  (e &&& ~~~hole) ||| (BitVec.ofNat 2048 (e0 + 256 * e1) <<< (16 * block))

/-- A list's value at a key. -/
def lookupVal (l : List (Nat × EVal)) (i : Nat) : Option EVal := (l.find? (fun p => p.1 == i)).map Prod.snd

/-- R55: one block of a BX destination packed: the writes, the exponents, the flags of what is written. -/
def packBlock (f : BxFmt) (mode : RMode) (l : List (Nat × EVal)) (block : Nat) : List (Nat × Nat) × Nat × Nat × Flags :=
  let idx := (List.range 32).map (fun k => 32 * block + k)
  let b := f.pack mode (idx.map (fun i => ((lookupVal l i).getD (.int 0)).toF))
  let here := (idx.zip b.elems).filter (fun p => (lookupVal l p.1).isSome)
  (here.map (fun p => (p.1, p.2.1)), b.e0, b.e1,
    orFlags (here.map (fun p => p.2.2)) ||| flagIf b.invalid flagNV)

/-- R146: results delivered into vd at its own tag, a DEAD one first taking the result tag (R37); the strand after it and
the flags. -/
def Strand.deliver (x : Strand) (d : BitVec 5) (tag : BitVec 8) (mode : RMode) (l : List (Nat × EVal)) :
    Strand × Flags :=
  let vt := x.destVtype d tag
  let r := { x.getV d with vtype := vt }
  let sat := vt.getLsbD 8
  match elemOf (vtypeTag vt) with
  | .bx f =>
    let blocks := ((l.map (fun p => p.1 / 32)).eraseDups).map (fun k => (k, packBlock f mode l k))
    let e := blocks.foldl (fun e b => setScale e b.1 b.2.2.1 b.2.2.2.1) (x.scaleOf d)
    let x := x.setV d (r.putAll (blocks.flatMap (fun b => b.2.1)))
    ({ x with e := x.e.set (d.toNat % 16) e (by omega) }, orFlags (blocks.map (fun b => b.2.2.2.2)))
  | t =>
    let out := l.map (fun p => (p.1, t.deliver mode sat p.2))
    (x.setV d (r.putAll (out.map (fun p => (p.1, p.2.1)))), orFlags (out.map (fun p => p.2.2)))

/-- Raw bits written into vd, a DEAD one first taking a vtype. -/
def Strand.deliverRaw (x : Strand) (d : BitVec 5) (vtype : BitVec 16) (l : List (Nat × Nat)) : Strand :=
  let r := x.getV d
  let r := if r.elemType = .dead then { r with vtype := vtype } else r
  x.setV d (r.putAll l)

/-- A vector instruction ends: VSTART is 0 and the flags are ORed in (R41, R60). -/
def State.endVector (s : State) (x : Strand) (fl : Flags) : State := (s.setMe { x with vstart := 0 }).finish fl

/-- R41: a vector instruction outside majors 0x28 and 0x29 ends: one that began with VSTART at or beyond VL writes nothing,
no tag either, and only sets VSTART to 0. -/
def State.endFrom (s : State) (x : Strand) (fl : Flags) : State :=
  if s.me.vl ≤ s.me.vstart then s.endVector s.me 0 else s.endVector x fl

end Sys2Proof.Machine
end

