-- ==== Sys2Proof/Machine/AmoOps.lean ====
section
/-! DEFINITION. The arithmetic of the atomics (R64, R133), shared by AMO, RAMO, RAMOW and the fabric's ATOMIC. -/
namespace Sys2Proof.Machine

/-- A number of `n` bytes read as two's complement. -/
def signedOf (n x : Nat) : Int := if 2 ^ (8 * n - 1) ≤ x then (x : Int) - 2 ^ (8 * n) else x

/-- The format of FADD at a width (R133). -/
def faddFmt (n : Nat) : FFmt := if n = 4 then .fp32 else .fp64

/-- R64: rne(old + operand); every NaN operand raises NV. -/
def faddBits (n m y : Nat) : Nat × Flags :=
  let f := faddFmt n
  let u := f.decode m
  let v := f.decode y
  let s := sumExact .rne [u, v]
  let r := f.deliver .rne false s.1
  (r.1, r.2 ||| s.2 ||| flagIf (u.isNan || v.isNan) flagNV)

/-- R133: the new value of an AMO from the old value, the operand and the op; ops above 9 are no AMO. -/
def amoNew (n op m y : Nat) : Nat × Flags :=
  let top := 2 ^ (8 * n)
  match op with
  | 0 => (y % top, 0)
  | 1 => ((m + y) % top, 0)
  | 2 => (m &&& y, 0)
  | 3 => (m ||| y, 0)
  | 4 => (m ^^^ y, 0)
  | 5 => (if signedOf n m ≤ signedOf n y then m else y, 0)
  | 6 => (if signedOf n m ≤ signedOf n y then y else m, 0)
  | 7 => (min m y, 0)
  | 8 => (max m y, 0)
  | _ => faddBits n m y

/-- R133: g(d) from the old value: zero-extended for FADD, else sign-extended. -/
def amoResult (n op m : Nat) : BitVec 64 := if op = 9 then BitVec.ofNat 64 m else BitVec.ofInt 64 (signedOf n m)

end Sys2Proof.Machine
end

