-- ==== Sys2Proof/Machine/Access.lean ====
section
/-! DEFINITION. From a program's address to a place (R65 to R72, R303 to R318): address classes, the PLB and its fill,
the page walk with its A and D updates, pages in transit; and reading and writing the place. -/
namespace Sys2Proof.Machine

/-! ### Address classes (R65, R69) -/

/-- The class of a program address. -/
inductive AddrClass where
  | ordinary
  | window
  | none
deriving DecidableEq, Repr

/-- R65. -/
def classOf (a : Word) : AddrClass :=
  if a.extractLsb' 56 8 = 0 then .ordinary
  else if a &&& 0xFFFFFFFFF0000000 = 0xFEF0000000000000 then .window
  else .none

/-- The fault of an access's kind (R65, R310). -/
def faultOf : AccessKind → BitVec 8
  | .load => causeFaultRead
  | .store => causeFaultWrite
  | .atomic => causeFaultWrite
  | .fetch => causeFaultFetch

/-- R69: ALIAS of a window address. -/
def windowAlias (a : Word) : Nat := (a.extractLsb' 24 4).toNat

/-- R69: OFFSET of a window address. -/
def windowOffset (a : Word) : Nat := (a.extractLsb' 0 19).toNat

/-- R69: the CORE_ID a window address names for a core, if CORE is not reserved. -/
def windowCore (a : Word) (core : Nat) : Option Nat :=
  let c := (a.extractLsb' 19 5).toNat
  if c = 31 then some core else if c < 24 then some (core / 32 * 32 + c) else none

/-- R67: the carve size of a core in bytes. -/
def carveBytes (c : Core) : Nat := 49152 * c.carve

/-! ### The scratchpad (R67 to R71) -/

/-- Where a raw scratchpad byte stands among the scratchpad keys. -/
def spadKey (core off : Nat) : Nat := core * 2 ^ 19 + off

/-- A raw scratchpad byte; one that nothing has written since its row became scratchpad is a free value (R67). -/
def State.spadByte (s : State) (core off : Nat) : Byte :=
  mapGet s.spad (spadKey core off) (Config.freeSpad (s.core core).spadEpoch (spadKey core off))

/-- A raw scratchpad byte written. -/
def State.setSpadByte (s : State) (core off : Nat) (b : Byte) : State :=
  { s with spad := mapSet s.spad (spadKey core off) b }

/-- `n` raw scratchpad bytes as a number. -/
def State.readSpad (s : State) (core off n : Nat) : Nat := readBytes (s.spadByte core) off n

/-- `n` raw scratchpad bytes written. -/
def State.writeSpad (s : State) (core off : Nat) : Nat → Nat → State
  | 0, _ => s
  | n + 1, x => (s.setSpadByte core off (BitVec.ofNat 8 x)).writeSpad core (off + 1) n (x / 256)

/-! ### Places -/

/-- The physical address of byte i of a run. -/
def Span.byte (f : Span) (i : Nat) : Nat := if i < f.cut then f.pa + i else f.rest + i

/-- The key byte i of a run is read and written under. -/
def Span.keyOf (f : Span) (i : Nat) : Option (BitVec 512) := if i < f.cut then f.key else f.restKey

/-- The run that begins with byte i of another. -/
def Span.skip (f : Span) (i : Nat) : Span := ⟨f.pa + i, f.key, f.cut - i, f.rest + i, f.restKey⟩

/-- The sectors of `n` bytes of a run. -/
def Span.sectors (f : Span) (n : Nat) : List Nat :=
  if n ≤ f.cut then sectorsOf f.pa n else sectorsOf f.pa f.cut ++ sectorsOf (f.rest + f.cut) (n - f.cut)

/-- `n` bytes of a run as a number. -/
def State.readSpan (s : State) (f : Span) (n : Nat) : Nat :=
  if n ≤ f.cut then s.readUnder f.key f.pa n
  else s.readUnder f.key f.pa f.cut + 256 ^ f.cut * s.readUnder f.restKey (f.rest + f.cut) (n - f.cut)

/-- `n` bytes of a run written. -/
def State.writeSpan (s : State) (f : Span) (n x : Nat) : State :=
  if n ≤ f.cut then s.writeUnder f.key f.pa n x
  else (s.writeUnder f.key f.pa f.cut x).writeUnder f.restKey (f.rest + f.cut) (n - f.cut) (x / 256 ^ f.cut)

/-- R70: the raw bytes a decode window's output bytes `off` to `off + n - 1` come from: the first raw byte and the one
after the last. -/
def decodeSpan (al off n : Nat) : Nat × Nat :=
  if al = 2 then (off / 2 / 2, (off + n - 1) / 2 / 2 + 1) else (off / 2, (off + n - 1) / 2 + 1)

/-- The window checks of R69 and R72 in their order: the alias, the core, the range against the carve, then a
write through a decode window. -/
def State.windowPlace (s : State) (core : Nat) (kind : AccessKind) (a : Word) (n : Nat) : Except Trap Place :=
  let al := windowAlias a
  let off := windowOffset a
  if 4 < al then .error (addrTrap causeScratchRange a)
  else
    match windowCore a core with
    | none => .error (addrTrap causeScratchRange a)
    | some c =>
      let size := carveBytes (s.core c)
      if al = 0 then
        if size < off + n then .error (addrTrap causeScratchRange a) else .ok (.spad c off)
      else if size < (decodeSpan al off n).2 ∨ 2 ^ 19 < off + n then .error (addrTrap causeScratchRange a)
      else match kind with
        | .load => .ok (.decode al c off)
        | .store => .error (addrTrap causeDomainRights a)
        | .atomic => .error (addrTrap causeDomainRights a)
        | .fetch => .error (addrTrap causeFaultFetch a)

/-- R70, R71: element e of a decode window of a core: its BF16 bits. -/
def State.decodeElem (s : State) (al core e : Nat) : Nat :=
  let size := carveBytes (s.core core)
  match al with
  | 1 =>
    let t := size - size / 16 + 2 * (e / 32)
    (FFmt.bf16.deliver .rne false (BxFmt.bx8.decode (s.spadByte core e).toNat (s.spadByte core t).toNat
      (s.spadByte core (t + 1)).toNat)).1
  | 2 =>
    let t := size - size / 8 + 2 * (e / 32)
    let b := (s.spadByte core (e / 2)).toNat
    (FFmt.bf16.deliver .rne false (BxFmt.bx4.decode (if e % 2 = 0 then b % 16 else b / 16)
      (s.spadByte core t).toNat (s.spadByte core (t + 1)).toNat)).1
  | 3 => (FFmt.bf16.deliver .rne false (FFmt.e4m3.decode (s.spadByte core e).toNat)).1
  | _ => (FFmt.bf16.deliver .rne false (FFmt.e5m2.decode (s.spadByte core e).toNat)).1

/-- R71: the exponent bytes that output bytes `off` to `off + n - 1` of a BX decode window take, as their first raw offset
and their count; none for the other windows. -/
def exponentSpan (al size off n : Nat) : Nat × Nat :=
  let first := off / 2 / 32
  let last := (off + n - 1) / 2 / 32
  match al with
  | 1 => (size - size / 16 + 2 * first, 2 * (last - first + 1))
  | 2 => (size - size / 8 + 2 * first, 2 * (last - first + 1))
  | _ => (0, 0)

/-- R70: an output byte of a decode window. -/
def State.decodeByte (s : State) (al core off : Nat) : Byte :=
  BitVec.ofNat 8 (s.decodeElem al core (off / 2) / (if off % 2 = 0 then 1 else 256))

/-- The value of `n` bytes at a place of the own package; a place of the fabric has none here. -/
def State.readPlace (s : State) (p : Place) (n : Nat) : Nat :=
  match p with
  | .mem f => s.readSpan f n
  | .spad c off => s.readSpad c off n
  | .decode al c off => readBytes (s.decodeByte al c) off n
  | .fabric _ _ => 0

/-- R327: a store to a core's scratchpad noted while a footprint fetch is in flight there. -/
def State.noteStore (s : State) (core off n : Nat) : State :=
  if (List.range 4).any (fun i => (s.strand (4 * core + i)).ahead.any (fun a => !a.ready)) then
    { s with footStores := (spadKey core off, n) :: s.footStores }
  else s

/-- `n` bytes written at a place of the own package. -/
def State.writePlace (s : State) (p : Place) (n x : Nat) : State :=
  match p with
  | .mem f => s.writeSpan f n x
  | .spad c off => (s.writeSpad c off n x).noteStore c off n
  | .decode _ _ _ => s
  | .fabric _ _ => s

/-- R301: whether a read of `n` bytes at a physical address meets a poisoned sector. -/
def State.poisonedAt (s : State) (pa n : Nat) : Bool := (sectorsOf pa n).any (fun k => s.poison.contains k)

/-- Whether a read of `n` raw scratchpad bytes meets a poisoned sector. -/
def State.spadPoisoned (s : State) (core off n : Nat) : Bool :=
  (sectorsOf (spadKey core off) n).any (fun k => s.spadPoison.contains k)

/-- R301: whether a read of the place meets a poisoned sector; a BX decode window reads exponent bytes as well (R71, R84). -/
def State.placePoisoned (s : State) (p : Place) (n : Nat) : Bool :=
  match p with
  | .mem f => (f.sectors n).any (fun k => s.poison.contains k)
  | .spad c off => s.spadPoisoned c off n
  | .decode al c off =>
    let sp := decodeSpan al off n
    let ex := exponentSpan al (carveBytes (s.core c)) off n
    s.spadPoisoned c sp.1 (sp.2 - sp.1) || s.spadPoisoned c ex.1 ex.2
  | .fabric _ _ => false

/-! ### The page table (R308 to R312) -/

/-- R308: the offset bits of a page mapped at a level. -/
def levelBits (level : Nat) : Nat :=
  match level with
  | 0 => 46
  | 1 => 36
  | 2 => 26
  | _ => 16

/-- R309, R310: the leaf's frame is aligned to its size. -/
def frameAligned (e : BitVec 64) (level : Nat) : Bool :=
  match level with
  | 1 => e.extractLsb' 20 20 == 0
  | 2 => e.extractLsb' 20 10 == 0
  | _ => true

/-- R310: a leaf that a walk may use: no rsv bit, no reserved code, an aligned frame, an installed key. -/
def State.leafOk (s : State) (e : BitVec 64) (level : Nat) : Bool :=
  e.extractLsb' 62 2 == 0 && !e.getLsbD 11 && e.extractLsb' 8 2 != 3 && e.extractLsb' 60 2 != 3 &&
    frameAligned e level && (e.extractLsb' 12 8 == 0 || mapHas s.keySlots (e.extractLsb' 12 8).toNat)

/-- R303, R309: the leaf grants the right an access needs. -/
def leafGrants (e : BitVec 64) : AccessKind → Bool
  | .load => e.getLsbD 1
  | .store => e.getLsbD 2 && !e.getLsbD 4
  | .atomic => e.getLsbD 1 && e.getLsbD 2 && !e.getLsbD 4
  | .fetch => e.getLsbD 3

/-- Whether an access of a kind needs D (R312). -/
def needsDirty : AccessKind → Bool
  | .load => false
  | .store => true
  | .atomic => true
  | .fetch => false

/-- R312: the leaf with A set, and D for a store. -/
def setAccessed (e : BitVec 64) (kind : AccessKind) : BitVec 64 :=
  if needsDirty kind then e ||| 0x60 else e ||| 0x20

/-- R308 to R310: the walk from a table at a level: the leaf, its address and its level; none is a fault. -/
def State.walkFrom (s : State) (va : Nat) : Nat → Nat → Nat → Option (BitVec 64 × Nat × Nat)
  | 0, _, _ => none
  | fuel + 1, table, level =>
    let at_ := table + 8 * (va / 2 ^ levelBits level % 1024)
    let e := BitVec.ofNat 64 (s.readMem at_ 8)
    if !e.getLsbD 0 then none
    else if e.getLsbD 7 then
      if level = 0 ∨ !s.leafOk e level then none else some (e, at_, level)
    else if level = 3 ∨ e &&& ~~~(0x000FFFFFFFFFE001 : BitVec 64) ≠ 0 then none
    else s.walkFrom va fuel (e &&& 0x000FFFFFFFFFE000).toNat (level + 1)

/-- The walk from the root (R308). -/
def State.walk (s : State) (va : Nat) : Option (BitVec 64 × Nat × Nat) :=
  match s.root with
  | none => none
  | some r => s.walkFrom va 4 r 0

/-- R77, R311: the cluster whose agent translates an address. -/
def agentOf (va : Nat) : Nat := va / 512 % 48

/-- R318: what every unit holds for a page whose final CAS failed: the new frame, with A and D, whatever the leaf in memory
has become. (log entry 98, DEDUCED.) -/
def State.keptTranslation (s : State) (va : Nat) : Option Translation :=
  (s.migrations.find? (fun m => m.lingering && m.va == va / 65536 * 65536)).map
    (fun m => ⟨m.va, 16, m.newLeaf ||| 0x60, m.leafAt, agentOf va⟩)

/-- The translation an address's own agent holds for it (R311, R318). -/
def State.cachedFor (s : State) (va : Nat) : Option Translation :=
  (s.keptTranslation va).or
    (s.translations.find? (fun t => t.agent == agentOf va && decide (t.base ≤ va) && decide (va < t.base + 2 ^ t.log2)))

/-- R311: each agent's unit keeps at most 4,096 translations; its oldest leaves. (log entry 43, DESIGN CHOICE.) -/
def keepTranslations (l : List Translation) (t : Translation) : List Translation :=
  (t :: l.filter (fun u => u.agent == t.agent)).take 4096 ++ l.filter (fun u => u.agent != t.agent)

/-- R312: the walker's CAS on a leaf has succeeded: the entry is written, and a migration of the page goes on expecting what
the leaf holds now (R318). -/
def State.setLeaf (s : State) (at_ : Nat) (old new : BitVec 64) : State :=
  { s.writeMem at_ 8 new.toNat with
    migrations := s.migrations.map (fun m =>
      if m.leafAt = at_ ∧ m.inTransit = old then { m with inTransit := new } else m) }

/-- A fresh walk for an access (R310 to R312): a fault, or the leaf with A and D set in memory by CAS and the
translation cached. -/
def State.walkFor (s : State) (kind : AccessKind) (va : Nat) : Option (Translation × State) :=
  match s.walk va with
  | none => none
  | some (e, at_, level) =>
    if leafGrants e kind then
      let e' := setAccessed e kind
      let t : Translation := ⟨va / 2 ^ levelBits level * 2 ^ levelBits level, levelBits level, e', at_, agentOf va⟩
      let s1 := if e' = e then s else s.setLeaf at_ e e'
      some (t, { s1 with translations := keepTranslations s1.translations t })
    else none

/-- R311, R312: the translation of an ordinary address for an access, with the state after it. A held translation
without D is set dirty for a store by CAS; when the CAS fails the unit walks again. -/
def State.translation (s : State) (kind : AccessKind) (va : Nat) : Option (Translation × State) :=
  match s.cachedFor va with
  | none => s.walkFor kind va
  | some t =>
    if !leafGrants t.leaf kind then none
    else if needsDirty kind && !t.leaf.getLsbD 6 then
      let rest := s.translations.filter (fun u => u != t)
      if s.readMem t.at_ 8 = t.leaf.toNat then
        let t' := { t with leaf := setAccessed t.leaf kind }
        some (t', { s.setLeaf t.at_ t.leaf t'.leaf with translations := t' :: rest })
      else ({ s with translations := rest }).walkFor kind va
    else some (t, s)

/-- R309: the frame of a leaf as a physical address. -/
def leafFrame (e : BitVec 64) : Nat := (e.extractLsb' 20 32).toNat * 65536

/-- R309, R315: the key a leaf names. -/
def State.leafKey (s : State) (e : BitVec 64) : Option (BitVec 512) := s.slotKey (e.extractLsb' 12 8).toNat

/-- R315, R317: where the bytes of a page stand from an address on, by the pointer while the page is in transit. The spec does
not say which physical addresses the 512 GB of HBM occupies: every frame is memory here (log entry 82, DESIGN CHOICE). -/
def State.physical (s : State) (t : Translation) (va : Nat) : Span :=
  match s.migrations.find? (fun m => m.va == va / 65536 * 65536) with
  | some m =>
    let inPage := va % 65536
    { pa := leafFrame m.newLeaf + inPage, key := s.leafKey m.newLeaf
      cut := (if m.lingering then 65536 else 32 * m.pointer) - inPage
      rest := leafFrame m.oldLeaf + inPage, restKey := s.leafKey m.oldLeaf }
  | none =>
    let pa := leafFrame t.leaf + (va - t.base)
    ⟨pa, s.leafKey t.leaf, 65536, pa, s.leafKey t.leaf⟩

/-- R311: an ordinary address translated: its place by LOC. LOC 01 names the other package of a module, which this unit
is not part of (log entry 7, DEDUCED): the fault of the access's kind. -/
def State.translate (s : State) (kind : AccessKind) (va : Nat) : Option (Place × State) :=
  match s.translation kind va with
  | none => none
  | some (t, s') =>
    match (t.leaf.extractLsb' 60 2).toNat with
    | 0 => some (.mem (s'.physical t va), s')
    | 2 => some (.fabric (t.leaf.extractLsb' 52 8).toNat (leafFrame t.leaf + (va - t.base)), s')
    | _ => none

/-! ### The PLB (R303 to R306) -/

/-- R303: the rights an access needs, R bit 0, W bit 1, X bit 2, A bit 3. -/
def rightsNeeded : AccessKind → BitVec 4
  | .load => 1
  | .store => 2
  | .atomic => 3
  | .fetch => 4

/-- Whether an entry contains an address. -/
def PlbEntry.holds (e : PlbEntry) (va : Nat) : Bool := decide (e.base ≤ va) && decide (va < e.base + 2 ^ e.log2)

/-- R305: an entry of a rights list that is valid, as its range and rights. -/
def rightsEntry (b : BitVec 128) : Option (Nat × Nat × BitVec 4) :=
  let base := (b.extractLsb' 0 64).toNat
  let ctl := b.extractLsb' 64 64
  let n := (ctl.extractLsb' 8 6).toNat
  if ctl.extractLsb' 14 50 = 0 ∧ ctl.extractLsb' 4 4 = 0 ∧ 21 ≤ n ∧ n ≤ 56 ∧ base % 2 ^ n = 0 then
    some (base, n, ctl.extractLsb' 0 4)
  else none

/-- R305, R306: the first valid entry of a list that contains an address; LOG2SIZE 0 ends the list. -/
def firstRights (va : Nat) : List (BitVec 128) → Option (Nat × Nat × BitVec 4)
  | [] => none
  | b :: t =>
    if b.extractLsb' 72 6 = 0 then none
    else
      match rightsEntry b with
      | some (base, n, r) => if base ≤ va ∧ va < base + 2 ^ n then some (base, n, r) else firstRights va t
      | none => firstRights va t

/-- Whose memory the hardware acts on when it acts on its own account: the rights list of the partition it acts for; none for
the firmware's own. -/
abbrev SvcList := Option (List (BitVec 128))

/-- R8, R363: the partition's list grants the rights at an address. -/
def svcGrants (list : SvcList) (need : BitVec 4) (a : Word) : Bool :=
  match list with
  | none => true
  | some l => match firstRights a.toNat l with | some (_, _, r) => r &&& need == need | none => false

/-- What a load on the hardware's own account comes to: the bytes as a number, nothing that can be read, or bytes of another
device. -/
inductive OwnLoad where
  | got (x : Nat)
  | unreadable
  | far (dev pa : Nat)
deriving DecidableEq, Repr

/-- The bytes, if they are here. -/
def OwnLoad.value : OwnLoad → Option Nat
  | .got x => some x
  | .unreadable => none
  | .far _ _ => none

/-- A package-scope load of `n` bytes of one page that a core's or a service core's own hardware makes (R306, R322): the
address class, the window or the page table, and the list of the partition it acts for, but no PLB (R8; log entry 8, DESIGN
CHOICE). The state after it has the A bits the walk set (R312). -/
def State.loadOwn (s : State) (list : SvcList) (core : Nat) (a : Word) (n : Nat) : OwnLoad × State :=
  match classOf a with
  | .none => (.unreadable, s)
  | .window =>
    match s.windowPlace core .load a n with
    | .ok p => if s.placePoisoned p n then (.unreadable, s) else (.got (s.readPlace p n), s)
    | .error _ => (.unreadable, s)
  | .ordinary =>
    if !svcGrants list 1 a then (.unreadable, s)
    else
      match s.translate .load a.toNat with
      | some (.mem f, s1) => if s1.placePoisoned (.mem f) n then (.unreadable, s1) else (.got (s1.readSpan f n), s1)
      | some (.fabric dev pa, s1) => (.far dev pa, s1)
      | some (_, s1) => (.unreadable, s1)
      | none => (.unreadable, s)

/-- The partition a cluster lies in (R363). -/
def State.partitionOf (s : State) (cluster : Nat) : Option Partition :=
  s.partitions.find? (fun p => p.clusters.getLsbD cluster)

/-- R8: the list a core's own loads are made under: its cluster's partition's; a core in none reaches nothing. -/
def State.coreList (s : State) (core : Nat) : SvcList := some (((s.partitionOf (core / 32)).map (fun p => p.plist)).getD [])

/-- A rights list read from memory as package-scope loads of a core, 256 entries; an entry that cannot be read ends it (log
entry 8, DESIGN CHOICE). -/
def State.readRights (s : State) (core : Nat) (at_ : Word) : Nat → List (BitVec 128) × State
  | 0 => ([], s)
  | n + 1 =>
    match s.loadOwn (s.coreList core) core at_ 16 with
    | (.got x, s1) =>
      let r := s1.readRights core (at_ + 16) n
      (BitVec.ofNat 128 x :: r.1, r.2)
    | (_, s1) => ([], s1)

/-- R368: the base of the region over which every partition list grants R: the 2 MiB of the capability list (log entry 23,
DESIGN CHOICE). -/
def State.capsRegion (s : State) : Option Nat := if s.capsAt.isSome then some (s.caps.toNat / 2 ^ 21 * 2 ^ 21) else none

/-- What a partition's list grants at an address (R306), as it was read (R363), with R over the capability list's region. -/
def State.partRights (s : State) (p : Partition) (va : Nat) : Option (Nat × Nat × BitVec 4) :=
  match s.capsRegion.filter (fun base => decide (base ≤ va) && decide (va < base + 2 ^ 21)), firstRights va p.plist with
  | none, r => r
  | some base, none => some (base, 21, 1)
  | some base, some (b, n, r) => if r.getLsbD 0 then some (b, n, r) else some (base, 21, r ||| 1)

/-- The rights list a PLB_CTL names, if it names one (R305). -/
def rightsList (plb : Word) : Option Word :=
  if plb.extractLsb' 12 52 = 0 then none else some (plb &&& ~~~(0xFFF : Word))

/-- R306: the entry a fill installs for a domain under the PLB_CTL that stood when the access issued, if any: the first valid
entry of that list, intersected with the partition's list. RLIST = 0 selects the partition's list alone (R305). -/
def State.fillEntry (s : State) (sid : Nat) (domain : BitVec 12) (plb : Word) (va : Nat) : Option PlbEntry × State :=
  match (s.partitionOf (clusterOf sid)).bind (fun p => s.partRights p va) with
  | none => (none, s)
  | some (pb, pn, pr) =>
    match rightsList plb with
    | none => (some ⟨domain, pb, pn, pr⟩, s)
    | some at_ =>
      let l := s.readRights (coreOf sid) at_ 256
      match firstRights va l.1 with
      | none => (none, l.2)
      | some (b, n, r) =>
        if n ≤ pn then (some ⟨domain, b, n, r &&& pr⟩, l.2) else (some ⟨domain, pb, pn, r &&& pr⟩, l.2)

/-- What an access is made for: the strand, and the DOMAIN and PLB_CTL that stand when it issues (R284, R304, R305); `unit_` when
a unit makes it for the strand (a card, a footprint fetch, a fault record) and not the strand's instruction. -/
structure Actor where
  sid : Nat
  domain : BitVec 12
  plb : Word
  unit_ : Bool
deriving DecidableEq, Repr

/-- A strand as the actor of its own accesses. -/
def State.actorOf (s : State) (sid : Nat) : Actor := ⟨sid, (s.strand sid).domain, (s.strand sid).plbCtl, false⟩

/-- The running strand as the actor of its own accesses. -/
def State.actor (s : State) : Actor := s.actorOf s.cur

/-- R304: the PLB keeps 64 entries; the oldest leaves. (log entry 43, DESIGN CHOICE.) -/
def keepPlb (l : List PlbEntry) (e : PlbEntry) : List PlbEntry := (e :: l).take 64

/-- The PLB entry that covers an address for a strand's domain: of several that cover it, the one filled last. (log entry 118,
DESIGN CHOICE.) -/
def State.plbEntry (s : State) (sid : Nat) (domain : BitVec 12) (va : Nat) : Option PlbEntry :=
  (s.core (coreOf sid)).plb.find? (fun e => e.domain == domain && e.holds va)

/-- The PLB check of one address (R303, R306): the entry, filled on a miss; none when the fill finds nothing. -/
def State.plbLookup (s : State) (who : Actor) (va : Nat) : Option PlbEntry × State :=
  match s.plbEntry who.sid who.domain va with
  | some e => (some e, s)
  | none =>
    match s.fillEntry who.sid who.domain who.plb va with
    | (none, s1) => (none, s1)
    | (some e, s1) =>
      let c := s1.core (coreOf who.sid)
      (some e, s1.setCore (coreOf who.sid) { c with plb := keepPlb c.plb e })

/-- R303: whether the domain has the rights at an address, with the state after a fill. -/
def State.plbGrants (s : State) (who : Actor) (need : BitVec 4) (va : Nat) : Bool × State :=
  match s.plbLookup who va with
  | (none, s') => (false, s')
  | (some e, s') => (e.rights &&& need == need, s')

/-! ### One access -/

/-- What keeps an access from being performed now: a trap of its instruction; the service cores, which are being switched
and do the fill or the walk it needs (R367), or a combining queue it stands behind (R349); or bytes of another device that a
READ must bring first (R353): the class of the access, their device, physical address and count. -/
inductive Stop where
  | trap (t : Trap)
  | busy
  | need (cls dev pa n : Nat)
deriving DecidableEq, Repr

/-- An access checked: what it acts on, or what it meets, each with the state its checks leave: the PLB entries they filled
and the A and D bits they set (R306, R312). -/
abbrev Checked (α : Type) := Except (Stop × State) (α × State)

/-- R367, R372, R373: the firmware is being switched, its last frame in service done, so operations that SVC_MODE gives to the
service cores wait. -/
def State.assistedWaits (s : State) (bit : Nat) : Bool :=
  s.pendingImage.isSome && s.service.isEmpty && s.svcMode.getLsbD bit

/-- Whether two ranges of addresses share a byte. -/
def rangesMeet (a n b m : Nat) : Bool := decide (a < b + m) && decide (b < a + n)

/-- R349: the physical address of a queue's location, if it lies in the package's memory now. -/
def State.queuePa (s : State) (q : CombQueue) : Option Nat :=
  if q.phys then some q.addr
  else
    match s.translate .atomic q.addr with
    | some (.mem f, _) => some (f.byte 0)
    | _ => none

/-- R349: the queue's location is memory that `n` bytes at a physical address touch. -/
def State.queueMeets (s : State) (q : CombQueue) (pa n : Nat) : Bool :=
  (s.queuePa q).any (fun a => rangesMeet a q.width pa n)

/-- R349: the combining queue, with operations waiting in it, whose location `n` bytes at a physical address touch. -/
def State.combiningAt (s : State) (pa n : Nat) : Option (Nat × CombQueue) :=
  s.combining.find? (fun q => !q.2.ops.isEmpty && s.queueMeets q.2 pa n)

/-- The same for `n` bytes of a run. -/
def State.combiningIn (s : State) (f : Span) (n : Nat) : Option (Nat × CombQueue) :=
  match (if f.cut = 0 then none else s.combiningAt f.pa (min n f.cut)) with
  | some q => some q
  | none => if n ≤ f.cut then none else s.combiningAt (f.rest + f.cut) (n - f.cut)

/-- The operation at a queue's head is its home agent's to perform, and not the turn of an access. -/
def CombQueue.serving (q : CombQueue) : Bool :=
  match q.ops with
  | [] => false
  | .turn .. :: _ => false
  | _ => true

/-- R349: `n` bytes of a run stand behind what home agents have to perform: an access that the hardware makes on its own account
waits. (log entry 91, DESIGN CHOICE.) -/
def State.agentBusy (s : State) (f : Span) (n : Nat) : Bool := (s.combiningIn f n).any (fun q => q.2.serving)

/-- A run of memory as it stands, with no page in transit. -/
def plainSpan (pa : Nat) : Span := ⟨pa, none, 65536, pa, none⟩

/-- The addresses of the entries a walk from a table at a level reads (R308). -/
def State.walkReads (s : State) (va : Nat) : Nat → Nat → Nat → List Nat
  | 0, _, _ => []
  | fuel + 1, table, level =>
    let at_ := table + 8 * (va / 2 ^ levelBits level % 1024)
    let e := BitVec.ofNat 64 (s.readMem at_ 8)
    at_ :: (if e.getLsbD 0 && !e.getLsbD 7 && level != 3 then
      s.walkReads va fuel (e &&& 0x000FFFFFFFFFE000).toNat (level + 1) else [])

/-- R349: an entry that the translation of an address reads, or the leaf of one held, stands behind a combining queue. -/
def State.walkQueued (s : State) (va : Nat) : Bool :=
  !s.combining.isEmpty &&
    ((match s.cachedFor va with
      | some t => [t.at_]
      | none => (s.root.map (fun r => s.walkReads va 4 r 0)).getD []).any (fun a => s.agentBusy (plainSpan a) 8))

/-- R367: an ordinary address whose walk has to wait for the service cores. -/
def State.walkAssisted (s : State) (va : Nat) : Bool := s.assistedWaits 0 && (s.cachedFor va).isNone

/-- An ordinary address whose walk has to wait: for the service cores (R367), or for a combining queue (R349). -/
def State.walkWaits (s : State) (va : Nat) : Bool := s.walkAssisted va || s.walkQueued va

/-- `n` bytes of one page that the hardware is to read on its own account, at an ordinary address: its walk has to wait, or they
stand behind a combining queue. -/
def State.ownWaits (s : State) (a : Word) (n : Nat) : Bool :=
  classOf a == .ordinary && (s.walkWaits a.toNat ||
    (!s.combining.isEmpty &&
      match s.translate .load a.toNat with
      | some (.mem f, _) => s.agentBusy f n
      | _ => false))

/-- An ordinary address whose PLB fill has to wait: for the service cores, or for the reads of its rights list (R349, R367). -/
def State.fillWaits (s : State) (who : Actor) (va : Nat) : Bool :=
  (s.plbEntry who.sid who.domain va).isNone &&
    (s.assistedWaits 1 || (rightsList who.plb).any (fun a => s.ownWaits a 4096))

/-- The PLB check of every byte of a range, entry by entry (R212, R313): fuel bounds the entries it may need. A fill that the
service cores are to make waits while they are being switched (R367). -/
def State.plbRange (s : State) (who : Actor) (need : BitVec 4) (va stop : Nat) : Nat → Checked Unit
  | 0 => .error (.trap (addrTrap causeDomainRights (BitVec.ofNat 64 va)), s)
  | fuel + 1 =>
    if stop ≤ va then .ok ((), s)
    else if s.fillWaits who va then .error (.busy, s)
    else
      match s.plbLookup who va with
      | (none, s') => .error (.trap (addrTrap causeDomainRights (BitVec.ofNat 64 va)), s')
      | (some e, s') =>
        if e.rights &&& need == need then s'.plbRange who need (e.base + 2 ^ e.log2) stop fuel
        else .error (.trap (addrTrap causeDomainRights (BitVec.ofNat 64 va)), s')


/-- R349: an operation joins a queue; past the 64th place it stands before the agent, in order all the same. -/
def State.joinQueue (s : State) (k : Nat) (q : CombQueue) (o : CombOp) : State :=
  { s with combining := mapSet s.combining k { q with ops := q.ops ++ [o] } }

/-- R349: the first operation of a queue is taken from it. -/
def State.popQueue (s : State) (k : Nat) (q : CombQueue) (n : Nat) : State :=
  { s with combining := mapSet s.combining k { q with ops := q.ops.drop n, emptySince := s.cycle } }

/-- The turn of an access in a queue. -/
def State.turnFor (s : State) (who : Actor) : CombOp := .turn who.sid (if who.unit_ then none else some (s.strand who.sid).pc)

/-- R349: an access that touches a location with operations waiting joins them in order of arrival, and is performed in its
turn: the state in which it may be performed, or else that in which it waits. -/
def State.takeTurn (s : State) (who : Actor) (p : Place) (n : Nat) : Except State State :=
  match p with
  | .mem f =>
    match s.combiningIn f n with
    | none => .ok s
    | some (k, q) =>
      let turn := s.turnFor who
      if q.ops.head? = some turn then .ok (s.popQueue k q 1)
      else if q.ops.contains turn then .error s
      else .error (s.joinQueue k q turn)
  | _ => .ok s

/-- The address checks of R132 after alignment, in the order of R115 step 10: no address, the window, the PLB, the page.
`n` bytes are assumed to lie in one page. -/
def State.reach (s : State) (who : Actor) (kind : AccessKind) (a : Word) (n : Nat) : Checked Place :=
  match classOf a with
  | .none => .error (.trap (addrTrap (faultOf kind) a), s)
  | .window =>
    if kind = .fetch then .error (.trap (addrTrap causeFaultFetch a), s)
    else
      match s.windowPlace (coreOf who.sid) kind a n with
      | .error t => .error (.trap t, s)
      | .ok p => .ok (p, s)
  | .ordinary =>
    if s.fillWaits who a.toNat then .error (.busy, s)
    else
      match s.plbGrants who (rightsNeeded kind) a.toNat with
      | (false, s1) =>
        .error (.trap (addrTrap (match kind with | .fetch => causeFaultFetch | _ => causeDomainRights) a), s1)
      | (true, s1) =>
        if s1.walkWaits a.toNat then .error (.busy, s1)
        else
          match s1.translate kind a.toNat with
          | none => .error (.trap (addrTrap (faultOf kind) a), s1)
          | some r => .ok r

/-- The address checks, and then the access's turn at a combining queue of its location (R349); an atomic takes its own (R133). -/
def State.resolve (s : State) (who : Actor) (kind : AccessKind) (a : Word) (n : Nat) : Checked Place :=
  match s.reach who kind a n with
  | .error e => .error e
  | .ok (p, s1) =>
    if kind = .atomic then .ok (p, s1)
    else
      match s1.takeTurn who p n with
      | .ok s2 => .ok (p, s2)
      | .error s2 => .error (.busy, s2)

/-- R66: a natural alignment. -/
def aligned (a : Word) (n : Nat) : Bool := a.toNat % n == 0

end Sys2Proof.Machine
end

