-- ==== Sys2Proof/Machine/Fabric.lean ====
section
/-! DEFINITION. Requests to the fabric (R351 to R356, R359): choosing a port, blocks on the wire, pacing, sending, what is
outstanding, and the bytes of another device that an instruction needs. -/
namespace Sys2Proof.Machine

/-! ### Ports and routes (R351) -/

/-- A port by number. -/
def State.port (s : State) (n : Nat) : LinkPort := mapGet s.ports n LinkPort.reset

/-- A port replaced. -/
def State.setPort (s : State) (n : Nat) (p : LinkPort) : State := { s with ports := mapSet s.ports n p }

/-- Whether a port carries traffic. -/
def LinkPort.up (p : LinkPort) : Bool := p.trained && !p.down && !p.exhausted

/-- R351: the ports of a device: one and up to three further ones, the one in use first. -/
def State.portsOf (s : State) (dev : Nat) : List Nat := (mapGet s.routes dev []).take 4

/-- R351: the port a device's traffic takes: the one in use, if it is up. (log entry 1, DESIGN CHOICE.) -/
def State.routeTo (s : State) (dev : Nat) : Option Nat := (s.portsOf dev).head?.filter (fun n => (s.port n).up)

/-- R351, R359: the first port of a list that is up comes to its front, the ones before it behind the rest; with none up
the list stays. -/
def turnTo (up : Nat → Bool) (l : List Nat) : List Nat :=
  if l.any up then l.dropWhile (fun n => !up n) ++ l.takeWhile (fun n => !up n) else l

/-- R359: every device's traffic goes by its next listed port when the one in use has stopped; it stays there. -/
def State.reroute (s : State) : State :=
  { s with routes := s.routes.map (fun d => (d.1, turnTo (fun n => (s.port n).up) (d.2.take 4))) }

/-- R4, R369: the fabric entry of the capability list is active. -/
def State.fabricActive (s : State) : Bool := (List.range Config.linkPorts).any (fun n => (s.port n).trained)

/-! ### Packets -/

/-- A packet with every field zero. -/
def emptyPacket : Packet :=
  ⟨0, 0, 0, 0, 0, 0, 0, 0, 0, 0, 0, 0, false, [], []⟩

/-- The flits of a packet: the header, 64 bytes of data each, 16 indexes each (R352 to R354). -/
def packetFlits (p : Packet) : Nat := 1 + (p.data.length + 63) / 64 + (p.index.length + 15) / 16

/-- R351: the blocks a packet of `n` flits takes: at most 31 packet flits in each. -/
def blocksOf (n : Nat) : Nat := (n + 30) / 31

/-! ### Blocks and counters (R357, R359) -/

/-- R357: the 48-bit salt of a direction: SHA3-256 of its key, the port and the direction (0 transmit, 1 receive). -/
def linkSalt (key : BitVec 256) (port dir : Nat) : BitVec 48 :=
  (Config.sha3 34 (key.toNat + 2 ^ 256 * port + 2 ^ 264 * dir)).extractLsb' 0 48

/-- R357: the IV of a block: the salt, followed by the counter of its first flit. -/
def blockIv (key : BitVec 256) (port dir : Nat) (counter : BitVec 48) : BitVec 96 := linkSalt key port dir ++ counter

/-- The last counter value of a key: the tag flit that takes it ends the port's use of the key (R359). -/
def lastCounter : Nat := 2 ^ 48 - 1

/-- R357: a direction at counter 2^47 takes its next key, derived by SHA3-256 from the current one, and flips its epoch. -/
def LinkDir.rotate (d : LinkDir) : LinkDir :=
  if 2 ^ 47 ≤ d.counter.toNat then { d with key := Config.sha3 32 d.key.toNat, counter := 0, epoch := !d.epoch } else d

/-- R358: hardware rotation governs a port: SVC_MODE bit 4 is 0, and always on the bridge (R350). -/
def State.hwRotation (s : State) (port : Nat) : Bool := decide (32 ≤ port) || !s.svcMode.getLsbD 4

/-- A direction moved on by counter values, never past the last one (R357). -/
def LinkDir.pass (d : LinkDir) (n : Nat) : LinkDir :=
  { d with counter := BitVec.ofNat 48 (min (d.counter.toNat + n) lastCounter) }

/-- R357: what a receiver takes of a packet, block by block: the flits and a tag flit of each; under hardware rotation a direction
at counter 2^47 has its next key before the block. -/
def LinkDir.take (d : LinkDir) (rotates : Bool) (p : Packet) : LinkDir :=
  (List.range (blocksOf (packetFlits p))).foldl (fun d k =>
    (if rotates then d.rotate else d).pass (min 31 (packetFlits p - 31 * k) + 1)) d

/-- One block of a packet's flits sent: under hardware rotation a direction at counter 2^47 has its next key first; the block
takes its counter values and its tag flit one more, and joins the replay buffer of 4 blocks (R357). A block ends where the tag
flit takes the last counter value, and where the next value would be the last a tag flit takes that too: the port has then
exhausted its key and is down (R359). The answer says how many of the packet's flits are still to go. -/
def LinkPort.sendBlock (l : LinkPort) (rotates : Bool) (port : Nat) (p : Packet) (first : Nat) : LinkPort × Nat :=
  let l := if rotates then { l with tx := l.tx.rotate } else l
  let c := l.tx.counter.toNat
  let n := min (min 31 (packetFlits p - first)) (lastCounter - c)
  let b : LinkBlock := ⟨p, first, n, l.tx.counter, blockIv l.tx.key port 0 l.tx.counter, l.tx.epoch⟩
  let ends := decide (lastCounter ≤ c + n + 1)
  ({ l with
      replay := (l.replay ++ [b]).drop (l.replay.length + 1 - 4)
      tx := if ends then { l.tx with counter := BitVec.allOnes 48 } else l.tx.pass (n + 1)
      down := l.down || ends, exhausted := l.exhausted || ends, needKey := l.needKey || ends },
    packetFlits p - first - n)

/-- R351, R357: a packet on the wire in blocks of its own (log entry 22, DESIGN CHOICE), as far as the port carries it; and
whether it has gone whole. -/
def LinkPort.carry (l : LinkPort) (rotates : Bool) (port : Nat) (p : Packet) : Nat → LinkPort × Bool
  | 0 => (l, true)
  | blocks + 1 =>
    if l.down || l.exhausted then (l, false)
    else
      let r := l.sendBlock rotates port p (31 * (blocksOf (packetFlits p) - (blocks + 1)))
      if r.2 = 0 then (r.1, true) else r.1.carry rotates port p blocks

/-- A port after it has sent: when that was its last block, the traffic of its devices goes by their next ports (R359). -/
def State.portSent (s : State) (port : Nat) (l : LinkPort) : State :=
  let s1 := s.setPort port l
  if l.down then s1.reroute else s1

/-- A packet leaves by a port. One that the port's last counter cuts does not arrive; a port that has come to it carries
nothing more, and its devices' traffic goes by their next ports (R359); KEY_EXHAUSTED then ends its requests. -/
def State.transmit (s : State) (port : Nat) (p : Packet) : State :=
  let r := (s.port port).carry (s.hwRotation port) port p (blocksOf (packetFlits p))
  let s2 := s.portSent port r.1
  if r.2 then { s2 with sent := s2.sent ++ [p] } else s2

/-- A packet this package answers or announces with, by the route to its device; with no port up it is lost. -/
def State.emit (s : State) (p : Packet) : State :=
  match s.routeTo p.ddev.toNat with
  | some port => s.transmit port { p with sdev := BitVec.ofNat 8 s.device }
  | none => s

/-- The answer to a request of another device: kind 0x08 RSP or 0x09 ACK (R352). -/
def State.answer (s : State) (p : Packet) (kind : BitVec 8) (status : Nat) (data : List Byte) : State :=
  s.emit { emptyPacket with
    kind := kind, cls := p.cls, ddev := p.sdev, xtag := p.xtag, nmerge := p.nmerge, mask := p.mask
    status := BitVec.ofNat 32 status, data := data }

/-! ### Pacing (R356) -/

/-- A request towards a device that has left and is not answered. -/
def FabricReq.flying (r : FabricReq) (dev : Nat) : Bool :=
  r.packet.ddev.toNat == dev && !r.queued && r.answer.isNone

/-- R356: the flits in flight towards a device under the standing allowance. -/
def State.inFlightTo (s : State) (dev : Nat) : Nat :=
  ((s.fabric.filter (fun r => r.flying dev)).map (fun r => packetFlits r.packet - r.granted)).sum

/-- The queued requests towards a device, oldest first. -/
def State.queuedFor (s : State) (dev : Nat) : List FabricReq :=
  s.fabric.filter (fun r => r.queued && r.packet.ddev.toNat == dev)

/-- R356: the flits queued towards a device. -/
def State.queuedTo (s : State) (dev : Nat) : Nat := ((s.queuedFor dev).map (fun r => packetFlits r.packet)).sum

/-- R356: whether flits may go under the standing allowance of 64: nothing waits before them. -/
def State.paceFits (s : State) (dev n : Nat) : Bool := (s.queuedFor dev).isEmpty && decide (s.inFlightTo dev + n ≤ 64)

/-- The flits a device has granted and this package has not used. -/
def State.grantedBy (s : State) (dev : Nat) : Nat := ((mapGet s.grants dev []).map (fun g => g.flits)).sum

/-- Granted flits used, the oldest grant first. -/
def useGrants : List Grant → Nat → List Grant
  | [], _ => []
  | g :: t, n => if g.flits ≤ n then useGrants t (n - g.flits) else { g with flits := g.flits - n } :: t

/-- R356: a DEMAND for the flits queued towards a device. -/
def State.announce (s : State) (dev : Nat) : State :=
  s.emit { emptyPacket with kind := 0x0A, ddev := BitVec.ofNat 8 dev, aux := BitVec.ofNat 64 (s.queuedTo dev) }

/-- The requests towards a device that now fit, sent in order (R356): the standing allowance first, then what was granted. A
request whose port has stopped holds the others back until its end. -/
def State.releaseQueued (s : State) (dev : Nat) : List FabricReq → State
  | [] => s
  | r :: t =>
    let n := packetFlits r.packet
    let extra := n - (64 - s.inFlightTo dev)
    if extra ≤ s.grantedBy dev ∧ (s.port r.port).up then
      let s1 := { s with
        grants := mapSet s.grants dev (useGrants (mapGet s.grants dev []) extra)
        fabric := s.fabric.map (fun (x : FabricReq) =>
          if x.xtag = r.xtag then { x with queued := false, granted := extra } else x) }
      (s1.transmit r.port r.packet).releaseQueued dev t
    else s

/-! ### Sending (R352) -/

/-- R352: a transaction tag no open request bears: the next of the 2^32 values. -/
def State.newTag (s : State) : Nat :=
  (((List.range (s.fabric.length + 1)).map (fun k => (s.serial + k) % 2 ^ 32)).find?
    (fun n => s.fabric.all (fun r => r.xtag != n))).getD 0

/-- The domain a request passed its checks in (R307). -/
def State.purposeDomain (s : State) (why : Purpose) : BitVec 12 :=
  match why with
  | .load sid => (s.strand sid).domain
  | .store sid _ _ _ => (s.strand sid).domain
  | .amo sid => (s.strand sid).domain
  | .held sid => (s.strand sid).domain
  | .vector sid _ => (s.strand sid).domain
  | .steep l => ((l.head?).map (fun e => e.domain)).getD 0
  | .record e => e.domain
  | .message _ => 0
  | .route _ => 0
  | .shadow d _ => d
  | .descriptor => 0
  | .card core num _ _ => (((s.core core).cards.find? (fun c => c.num == num)).map (fun c => c.domain)).getD 0
  | .footRead sid => (s.strand sid).domain
  | .rerunRead sid => (s.strand sid).domain
  | .cardRead core num => (((s.core core).cards.find? (fun c => c.num == num)).map (fun c => c.domain)).getD 0

/-- A request sent, or queued behind a DEMAND when it exceeds the allowance (R356); none when no port is up. -/
def State.sendRequest (s : State) (dev : Nat) (why : Purpose) (p : Packet) : Option (Nat × State) :=
  match s.routeTo dev with
  | none => none
  | some port =>
    let xtag := s.newTag
    let p := { p with ddev := BitVec.ofNat 8 dev, sdev := BitVec.ofNat 8 s.device, xtag := BitVec.ofNat 32 xtag }
    let fits := s.paceFits dev (packetFlits p)
    let s1 := { s with
      serial := s.serial + 1
      fabric := s.fabric ++ [(⟨xtag, port, p, why, s.purposeDomain why, none, !fits, 0⟩ : FabricReq)] }
    some (xtag, if fits then s1.transmit port p else s1.announce dev)

/-- The request with an XTAG. -/
def State.fabricReq (s : State) (xtag : Nat) : Option FabricReq := s.fabric.find? (fun r => r.xtag == xtag)

/-- The request with an XTAG gone. -/
def State.dropReq (s : State) (xtag : Nat) : State :=
  { s with fabric := s.fabric.filter (fun r => r.xtag != xtag) }

/-- The class and target of a strand's outstanding fabric stores. -/
def FabricReq.storeOf (r : FabricReq) (sid : Nat) : Option (Nat × Nat) :=
  match r.purpose with
  | .store sid' _ c _ => if sid' = sid then some (c, r.packet.ddev.toNat) else none
  | _ => none

/-- R355: a strand may send an access of a class to a target (a device, or none for the own package) once its earlier
accesses of the class for other targets are answered; and, for the same device, once those over a port that has stopped
have been refused (R360). -/
def State.mayTarget (s : State) (sid cls : Nat) (target : Option Nat) : Bool :=
  s.fabric.all (fun r =>
    match r.storeOf sid with
    | some (c, d) => c != cls || (target == some d && (s.port r.port).up)
    | none => true)

/-- Whether a strand's outstanding fabric stores of covered classes are all answered. -/
def State.storesAnswered (s : State) (sid : Nat) (mask : BitVec 16) : Bool :=
  s.fabric.all (fun r =>
    match r.storeOf sid with
    | some (c, _) => !mask.getLsbD c
    | none => true)

/-- A refused store joins those not yet reported, in program order (R136). -/
def Strand.refuse (x : Strand) (r : Refused) : Strand :=
  { x with refused := x.refused.takeWhile (fun y => decide (y.order ≤ r.order)) ++
      r :: x.refused.dropWhile (fun y => decide (y.order ≤ r.order)) }

/-- A store of the running strand that no link carries (R136). -/
def State.refuseNow (s : State) (a : Word) (cls : Nat) : State := s.setMe (s.me.refuse ⟨a, cls, s.serial⟩)

/-! ### The packets of accesses (R352, R353) -/

/-- The byte enables of `n` bytes at an address of a line (R352). -/
def lineMask (pa n : Nat) : BitVec 128 := BitVec.ofNat 128 ((2 ^ n - 1) * 2 ^ (pa % 128))

/-- `n` bytes of a number, lowest first. -/
def bytesOf (x : Nat) : Nat → List Byte
  | 0 => []
  | n + 1 => BitVec.ofNat 8 x :: bytesOf (x / 256) n

/-- A number from bytes, lowest first. -/
def numOf : List Byte → Nat
  | [] => 0
  | b :: t => b.toNat + 256 * numOf t

/-- The data flits of a line that a mask enables (R353). -/
def lineFlits (mask : BitVec 128) (image : Nat) : List Byte :=
  (if mask.extractLsb' 0 64 = 0 then [] else bytesOf image 64) ++
    (if mask.extractLsb' 64 64 = 0 then [] else bytesOf (image / 256 ^ 64) 64)

/-- The bytes of a line from its flits (R353), as a number. -/
def lineImage (mask : BitVec 128) (data : List Byte) : Nat :=
  if mask.extractLsb' 0 64 = 0 then numOf data * 256 ^ 64 else numOf data

/-- R353: a READ of `n` bytes inside one line. -/
def readPacket (cls pa n : Nat) : Packet :=
  { emptyPacket with kind := 0x01, cls := BitVec.ofNat 4 cls, addr := BitVec.ofNat 64 (pa / 128 * 128), mask := lineMask pa n }

/-- R353: a WRITE of `n` bytes inside one line: the data flits its mask enables. -/
def writePacket (cls pa n x : Nat) : Packet :=
  { emptyPacket with
    kind := 0x02, cls := BitVec.ofNat 4 cls, addr := BitVec.ofNat 64 (pa / 128 * 128), mask := lineMask pa n
    nmerge := 1, data := lineFlits (lineMask pa n) (x * 256 ^ (pa % 128)) }

/-- R354: the physical address of element i of a vector request. -/
def elemPa (p : Packet) (i : Nat) : Int :=
  if p.index.isEmpty then (p.addr.toNat : Int) + i * p.aux.toInt
  else (p.addr.toInt : Int) + ((p.index.getD i 0).toInt)

/-- The physical addresses a request touches, one in each page it touches: its line's or operand's, those of its words
(24 bytes each; log entry 9, DESIGN CHOICE), or those of its elements. -/
def packetPlaces (p : Packet) : List Nat :=
  if p.kind = 0x06 then (List.range p.nelem.toNat).map (fun i => numOf ((p.data.drop (24 * i)).take 8))
  else if p.kind = 0x04 ∨ p.kind = 0x05 then (List.range p.nelem.toNat).map (fun i => (elemPa p i).toNat)
  else [p.addr.toNat]

/-- R352: an ATOMIC: AUX carries the AMO op in [3:0] and the width in [4]; CAS is op 15 with the comparand behind the
operand (the AUX layout is log entry 9, DESIGN CHOICE). -/
def atomicPacket (cls pa n op x y : Nat) : Packet :=
  { emptyPacket with
    kind := 0x03, cls := BitVec.ofNat 4 cls, addr := BitVec.ofNat 64 pa
    aux := BitVec.ofNat 64 (op + (if n = 8 then 16 else 0)), data := bytesOf (y + x * 256 ^ n) 16 }

/-- The cause a response's status carries (R352), for a load or for an access that needs write rights. -/
def statusCause (status : Nat) : Option (BitVec 8) :=
  match status with
  | 0 => none
  | 1 => some causeFaultRead
  | 2 => some causeFaultWrite
  | 3 => some causeMemPoison
  | _ => some causeLinkDown

/-! ### Bytes of another device that an instruction needs (R75, R132, R353) -/

/-- What the READs of the strand's instruction have brought of `n` bytes at an address of a device. -/
def Strand.gatheredAt (x : Strand) (dev pa n : Nat) : Option Gathered :=
  x.gathered.find? (fun g => g.dev == dev && g.pa == pa && g.n == n)

/-- `n` bytes at a place that the running strand's instruction reads, at a program address: its own package's bytes or the
poison it meets, or what a READ has brought of another device's; until then, that need. -/
def State.loadPlace (s : State) (who cls : Nat) (p : Place) (a : Word) (n : Nat) : Except Stop Nat :=
  match p with
  | .fabric dev pa =>
    match (s.strand who).gatheredAt dev pa n with
    | none => if (s.routeTo dev).isNone then .error (.trap (addrTrap causeLinkDown a)) else .error (.need cls dev pa n)
    | some g =>
      match statusCause (g.status % 65536) with
      | some cause => .error (.trap (addrTrap cause a))
      | none => .ok g.value
  | p => if s.placePoisoned p n then .error (.trap (addrTrap causeMemPoison a)) else .ok (s.readPlace p n)

/-- A READ for bytes that the instruction of a strand needs: the strand waits for it with those already sent. A link that is
down is found when the instruction is tried again. -/
def State.ask (s : State) (sid cls dev pa n : Nat) : State :=
  let tags := match (s.strand sid).wait with | .gather l => l | _ => []
  match s.sendRequest dev (.held sid) (readPacket cls pa n) with
  | none => s.setStrand sid { s.strand sid with wait := .poll }
  | some (xtag, s1) => s1.setStrand sid { s1.strand sid with wait := .gather (tags ++ [xtag]) }

/-- A fetch of the running strand that cannot be made now (R12, R75, R114): its trap; else the strand has issued nothing, and
stands in no wait, or in that for the READ its fetch needs. -/
def State.fetchStopped (s : State) (e : Stop) : State :=
  match e with
  | .trap t => s.trap t
  | .busy => s
  | .need cls dev pa n =>
    if s.mayTarget s.cur cls (some dev) then
      match s.sendRequest dev (.held s.cur) (readPacket cls pa n) with
      | none => s
      | some (xtag, s1) => s1.waiting (.fetch xtag)
    else s

/-- What the running strand's instruction does when it cannot be performed now (R13, R132): it takes its trap, waits for the
service cores, or sends the READ it needs once R355 lets it. -/
def State.stopped (s : State) (e : Stop) : State :=
  match e with
  | .trap t => s.trap t
  | .busy => s.waiting .poll
  | .need cls dev pa n => if s.mayTarget s.cur cls (some dev) then s.ask s.cur cls dev pa n else s.waiting .poll

/-! ### Accesses made of pieces (R177, R194, R196) -/

/-- Whether a place is another device's. -/
def Place.remote : Place → Bool
  | .fabric _ _ => true
  | _ => false

/-- The trap with the lower address. -/
def lowerTrap (x : Option Trap) (t : Trap) : Option Trap :=
  match x with
  | some u => if u.addr.toNat < t.addr.toNat then some u else some t
  | none => some t

/-- Pieces of `n` bytes that an instruction accesses: the values of those it reads, or the places of those it writes, in
order; the device and physical address of those a READ must bring; whether the service cores hold one up; and the fault
with the lowest address. -/
structure Pieces where
  values : List Nat
  places : List Place
  needs : List (Nat × Nat)
  busy : Bool
  fault : Option Trap
deriving DecidableEq, Repr

/-- What a piece that cannot be accessed adds. -/
def Pieces.stopped (x : Pieces) (e : Stop) : Pieces :=
  match e with
  | .trap t => { x with fault := lowerTrap x.fault t }
  | .busy => { x with busy := true }
  | .need _ dev pa _ => { x with needs := (dev, pa) :: x.needs }

/-- The pieces at addresses, each checked. -/
def State.pieces (s : State) (kind : AccessKind) (cls n : Nat) : List Word → Pieces × State
  | [] => (⟨[], [], [], false, none⟩, s)
  | a :: t =>
    match s.resolve s.actor kind a n with
    | .error (e, s1) =>
      let r := s1.pieces kind cls n t
      (r.1.stopped e, r.2)
    | .ok (p, s1) =>
      let r := s1.pieces kind cls n t
      match (if kind = .load then s1.loadPlace s.cur cls p a n else .ok 0) with
      | .ok x => ({ r.1 with values := x :: r.1.values, places := p :: r.1.places }, r.2)
      | .error e => (r.1.stopped e, r.2)

/-- The pieces, all accessible, with the state after their checks; or the state in which the running strand stops for them:
waiting for the service cores, for READs to the first device that must bring some, or for its earlier accesses of the class
(R355), or with its trap. -/
def State.takePieces (s : State) (kind : AccessKind) (cls n : Nat) (l : List Word) : Except State (Pieces × State) :=
  let r := s.pieces kind cls n l
  if r.1.busy then .error (r.2.waiting .poll)
  else
    match r.1.needs, r.1.fault with
    | (dev, _) :: _, _ =>
      if s.mayTarget s.cur cls (some dev) then
        .error ((r.1.needs.filter (fun q => q.1 == dev)).foldl (fun s q => s.ask s.cur cls q.1 q.2 n) r.2)
      else .error (r.2.waiting .poll)
    | [], some t => .error (r.2.trap t)
    | [], none =>
      if r.1.places.all (fun p => s.mayTarget s.cur cls (match p with
          | .fabric dev _ => if kind = .load then none else some dev
          | _ => none)) then .ok r
      else .error (r.2.waiting .poll)

/-- A number from values of `w` bits, lowest first. -/
def joinValues (w : Nat) : List Nat → Nat
  | [] => 0
  | x :: t => x + 2 ^ w * joinValues w t

/-- Pieces of `n` bytes written from a number, lowest first, as class-0 stores; another device's are sent to it. -/
def State.writePieces (s : State) (n x : Nat) : List (Word × Place) → State
  | [] => s
  | (a, p) :: t =>
    let v := x % 2 ^ (8 * n)
    let s1 := match p with
      | .fabric dev pa =>
        (match s.sendRequest dev (.store s.cur a 0 s.serial) (writePacket 0 pa n v) with
          | some (_, s') => s'
          | none => s.refuseNow a 0)
      | p => s.writePlace p n v
    s1.writePieces n (x / 2 ^ (8 * n)) t

/-- The bytes a READ of `n` bytes at `pa` has brought in its flits. -/
def readValue (mask : BitVec 128) (data : List Byte) (pa n : Nat) : Nat :=
  lineImage mask data / 256 ^ (pa % 128) % 256 ^ n

/-- The answers of a strand's READs taken up, when all are here; its instruction, which goes on waiting so, is then tried
again, or, when that is to be issued first, its fetch. -/
def State.takeGathered (s : State) (sid : Nat) (tags : List Nat) (w : Wait) : Option State :=
  let l := tags.filterMap (fun t => s.fabricReq t)
  if l.any (fun r => r.answer.isNone) then none
  else
    let got := l.map (fun r =>
      let n := (List.range 128).countP (fun i => r.packet.mask.getLsbD i)
      let pa := r.packet.addr.toNat + ((List.range 128).find? (fun i => r.packet.mask.getLsbD i)).getD 0
      (⟨r.packet.ddev.toNat, pa, n, (r.answer.map Prod.fst).getD 4,
        readValue r.packet.mask ((r.answer.map Prod.snd).getD []) pa n⟩ : Gathered))
    let s1 := tags.foldl State.dropReq s
    some (s1.setStrand sid { s1.strand sid with wait := w, gathered := (s1.strand sid).gathered ++ got })

end Sys2Proof.Machine
end

