-- ==== Sys2Proof/Machine/Steep.lean ====
section
/-! DEFINITION. Remote words: the Steep buffers, their triggers, acknowledgement and fault records (R98 to R100, R215 to
R219), and the instructions of major 0x3A. -/
namespace Sys2Proof.Machine

/-! ### Destinations and scopes -/

/-- R4: a fence scope as the features present resolve it. -/
def State.resolveScope (s : State) (scope : Nat) : Nat :=
  match scope with
  | 4 => 3
  | 5 => if s.fabricActive then 5 else 3
  | n => n

/-- R77, R98: the destination of an entry as a number: a home agent's cluster, 1,000 plus a core for its scratchpad, and
for fabric-remote memory 10,000 plus the number of the home agent among those of every device, 48 to a device. -/
def State.steepDest (s : State) (sid : Nat) (a : Word) : Nat :=
  match classOf a with
  | .window => 1000 + (windowCore a (coreOf sid)).getD 0
  | _ =>
    match s.translate .store a.toNat with
    | some (.fabric dev _, _) => 10000 + 48 * dev + agentOf a.toNat
    | _ => agentOf a.toNat

/-- The device a destination lies on, if it is another one. -/
def destDevice (dest : Nat) : Option Nat := if 10000 ≤ dest then some ((dest - 10000) / 48) else none

/-- R90, R100: whether a destination lies within a resolved scope of a strand. -/
def destWithin (sid scope dest : Nat) : Bool :=
  if 10000 ≤ dest then decide (5 ≤ scope)
  else if 1000 ≤ dest then
    decide (2 ≤ scope) || (scope == 1 && dest == 1000 + coreOf sid)
  else decide (3 ≤ scope) || (scope == 2 && dest == clusterOf sid)

/-! ### Buffers -/

/-- The buffers of a cluster, oldest first entry first. -/
def State.bufsOf (s : State) (cluster : Nat) : List SteepBuf := mapGet s.steepBufs cluster []

/-- The buffers of a cluster replaced. -/
def State.setBufs (s : State) (cluster : Nat) (l : List SteepBuf) : State :=
  { s with steepBufs := mapSet s.steepBufs cluster l }

/-- The buffers that a test picks are sent, in their order; the others stay (R217). -/
def State.sendBufs (s : State) (cluster : Nat) (pick : SteepBuf → Bool) : State :=
  let l := s.bufsOf cluster
  { s.setBufs cluster (l.filter (fun b => !pick b)) with
    steepSent := s.steepSent ++ (l.filter pick).map (fun b => (cluster, b.entries)) }

/-- R217: an entry with its strand's STEEP_AGE joins its destination's buffer or opens one; with 64 buffers in use the
one with the oldest first entry is sent first. The buffer is sent when it is full or its deadline has passed. -/
def State.postEntry (s : State) (cluster dest age : Nat) (e : SteepEntry) : State :=
  let l := s.bufsOf cluster
  if l.any (fun b => b.dest == dest) then
    let l' := l.map (fun b =>
      if b.dest = dest then { b with entries := b.entries ++ [e], deadline := min b.deadline (b.first + age) } else b)
    (s.setBufs cluster l').sendBufs cluster
      (fun b => b.dest == dest && (decide (16 ≤ b.entries.length) || decide (b.deadline ≤ s.cycle)))
  else
    let s := if 64 ≤ l.length then s.sendBufs cluster (fun b => l.head? == some b) else s
    s.setBufs cluster (s.bufsOf cluster ++ [⟨dest, [e], s.cycle, s.cycle + age⟩])

/-- The Steep entry of this package that an operation of a combining queue performs. -/
def CombOp.steep : CombOp → Option SteepEntry
  | .entry e => some e
  | _ => none

/-- Entries that have left their buffers and no destination has acknowledged: under way, in a combining queue, faulted with the
record still to be stored, or at another device. -/
def State.sentEntries (s : State) : List SteepEntry :=
  s.steepSent.flatMap (fun p => p.2) ++ s.combining.flatMap (fun q => q.2.ops.filterMap CombOp.steep) ++
    s.recordsDue.map (fun d => d.1) ++ s.fabric.flatMap (fun r =>
      match r.purpose with
      | .steep l => l
      | .record e => [e]
      | _ => [])

/-- Entries of a strand that no destination has acknowledged, wherever they are. -/
def State.openEntries (s : State) (sid : Nat) : List SteepEntry :=
  ((s.bufsOf (clusterOf sid)).flatMap (fun b => b.entries) ++ s.sentEntries).filter (fun e => e.sid == sid)

/-- The entries of a strand in covered classes whose destination lies within a scope (R100). -/
def State.coveredEntries (s : State) (sid scope : Nat) (mask : BitVec 16) : List SteepEntry :=
  (s.openEntries sid).filter (fun e => mask.getLsbD e.cls && destWithin sid scope e.dest)

/-- R100, R217: every buffer that holds one of those entries is sent. -/
def State.flushCovered (s : State) (sid scope : Nat) (mask : BitVec 16) : State :=
  let want := s.coveredEntries sid scope mask
  s.sendBufs (clusterOf sid) (fun b => b.entries.any (fun e => want.contains e))

/-- R218: every buffer that holds an entry of the strand is sent. -/
def State.flushAll (s : State) (sid : Nat) : State :=
  s.sendBufs (clusterOf sid) (fun b => b.entries.any (fun e => e.sid == sid))

/-! ### Acknowledgement and fault records (R100, R219) -/

/-- R219: the record of a faulted entry, number n. DATA is g(b) whole, for an entry of 4 bytes too (log entry 94, DESIGN
CHOICE). -/
def faultRecord (n : Nat) (e : SteepEntry) (cause : BitVec 8) : BitVec 256 :=
  let info : BitVec 64 :=
    BitVec.ofNat 32 n ++ ((0 : BitVec 11) ++ (BitVec.ofBool (e.width == 8) ++ (BitVec.ofNat 4 e.op ++
      ((0 : BitVec 1) ++ (BitVec.ofNat 3 e.kind ++ (BitVec.ofNat 4 e.cls ++ cause))))))
  e.pc ++ (info ++ (e.data ++ e.addr))

/-- The slot of STEEP_FLOG a strand's next record goes to, if it names a log (R219). -/
def Strand.logSlot (x : Strand) : Option Word :=
  if x.steepFlog.extractLsb' 12 52 = 0 then none
  else some ((x.steepFlog &&& ~~~(0xFFF : Word)) +
    BitVec.ofNat 64 (32 * (x.steepFcount % 2 ^ (x.steepFlog.extractLsb' 0 4).toNat)))

/-- R219: the store of a record, a class-0 store in its entry's domain; one that cannot be performed leaves the slot as it
was. To another device it is a WRITE, and the entry stays open until that is answered; so it does while the store has to wait
for the service cores (R367) or for a combining queue (R349), the record being owed. -/
def State.storeRecord (s : State) (e : SteepEntry) (slot : Word) (r : BitVec 256) : State :=
  if s.assistedWaits 5 then { s with recordsDue := s.recordsDue ++ [(e, slot, r)] }
  else
    match s.resolve ⟨e.sid, e.domain, e.plb, true⟩ .store slot 32 with
    | .ok (.fabric dev pa, s1) =>
      match s1.sendRequest dev (.record e) (writePacket 0 pa 32 r.toNat) with
      | some (_, s2) => s2
      | none => s1
    | .ok (p, s1) => s1.writePlace p 32 r.toNat
    | .error (.busy, s1) => { s1 with recordsDue := s1.recordsDue ++ [(e, slot, r)] }
    | .error (_, s1) => s1

/-- The record owed longest is tried; none when that changes nothing. -/
def State.storeOwed (s : State) : Option State :=
  match s.recordsDue with
  | [] => none
  | (e, slot, r) :: rest =>
    let t := { s with recordsDue := rest }.storeRecord e slot r
    if t.recordsDue.length ≤ rest.length ∨ t.combining ≠ s.combining then some t else none

/-- FAULT_RECORD_APPEND: the record is stored to the log if one is named, kept among the last 8, and counted; ASYNC makes
STEEP_ASYNC due (R219). Whether each of two records appended before the strand's next boundary raises a trap of its own is
not said: one is due, with the later n (log entry 93, DESIGN CHOICE). -/
def State.appendRecord (s : State) (e : SteepEntry) (cause : BitVec 8) : State :=
  let x := s.strand e.sid
  let n := x.steepFcount
  let r := faultRecord n e cause
  let s1 := match x.logSlot with | some slot => s.storeRecord e slot r | none => s
  s1.setStrand e.sid { s1.strand e.sid with
    steepFcount := n + 1
    faultRecords := ((n, r) :: x.faultRecords).take 8
    asyncDue := if x.steepFlog.getLsbD 4 then some n else x.asyncDue }

/-- An entry faulted at its destination: a waited one answers its strand, a posted one is recorded (R216, R219). -/
def State.entryFault (s : State) (e : SteepEntry) (cause : BitVec 8) : State :=
  if e.kind = 3 then
    let x := s.strand e.sid
    match x.wait with
    | .ramow n _ a => if n = e.num then s.setStrand e.sid { x with wait := .ramow n (some (cause, 0)) a } else s
    | _ => s
  else s.appendRecord e cause

/-- An entry was performed, raising flags: a waited one answers its strand, a posted one holds its flags for the next
SFLUSHW (R64). -/
def State.entryDone (s : State) (e : SteepEntry) (fl : Flags) : State :=
  let x := s.strand e.sid
  if e.kind = 3 then
    match x.wait with
    | .ramow n _ a => if n = e.num then s.setStrand e.sid { x with wait := .ramow n (some (0, fl)) a } else s
    | _ => s
  else s.setStrand e.sid { x with ramoFlags := x.ramoFlags ||| fl }

/-- The new bytes an entry writes over the old ones (R215). -/
def SteepEntry.newValue (e : SteepEntry) (m : Nat) : Nat × Flags :=
  if e.kind ≤ 1 then (e.data.toNat % 2 ^ (8 * e.width), 0)
  else amoNew e.width e.op m (e.data.toNat % 2 ^ (8 * e.width))

/-- An entry at a place of the package: its bytes are written, or, for an atomic, read and written, as one step. -/
def State.performAt (s : State) (e : SteepEntry) (p : Place) : State :=
  if 2 ≤ e.kind ∧ s.placePoisoned p e.width then s.entryFault e causeMemPoison
  else
    let r := e.newValue (s.readPlace p e.width)
    (s.writePlace p e.width r.1).entryDone e r.2

/-- The access an entry makes. -/
def SteepEntry.access (e : SteepEntry) : AccessKind := if e.kind ≤ 1 then .store else .atomic

/-- R100: an entry is performed at its destination, or faults there: the page, poison and the link are checked here
(R216). A window entry passed its checks at issue, against the carve of that time (R67). The answer names the place of an
entry for another device, which is not performed here. -/
def State.performEntry (s : State) (e : SteepEntry) : State × Option (Nat × Nat) :=
  if e.poisoned then (s.entryFault e causeMemPoison, none)
  else
    match classOf e.addr with
    | .window =>
      let c := (windowCore e.addr (coreOf e.sid)).getD (coreOf e.sid)
      (s.performAt e (.spad c (windowOffset e.addr)), none)
    | _ =>
      match s.translate e.access e.addr.toNat with
      | none => (s.entryFault e causeFaultWrite, none)
      | some (.fabric dev pa, s1) => (s1, some (dev, pa))
      | some (p, s1) => (s1.performAt e p, none)

/-- The data of a WORDS packet: 24 bytes an entry: its physical address, its operand, then AMO op [3:0], width [4] and kind
[6:5], its class, zeros. (log entry 9, DESIGN CHOICE.) -/
def wordsData (l : List (SteepEntry × Nat)) : List Byte :=
  l.flatMap (fun x =>
    bytesOf x.2 8 ++ bytesOf x.1.data.toNat 8 ++
      [BitVec.ofNat 8 (x.1.op + (if x.1.width = 8 then 16 else 0) + 32 * x.1.kind), BitVec.ofNat 8 x.1.cls] ++
      bytesOf 0 6)

/-- R217: the entries of a buffer that go to another device, as one packet; with the link down each of them faults. -/
def State.sendWords (s : State) (dev : Nat) (l : List (SteepEntry × Nat)) : State :=
  match l with
  | [] => s
  | (e, pa) :: _ =>
    match s.sendRequest dev (.steep (l.map Prod.fst))
        { emptyPacket with
          kind := 0x06, cls := BitVec.ofNat 4 e.cls, addr := BitVec.ofNat 64 pa
          nelem := BitVec.ofNat 16 l.length, data := wordsData l } with
    | some (_, s1) => s1
    | none => l.foldl (fun s x => s.entryFault x.1 causeLinkDown) s

/-! ### Combining queues (R349) -/

/-- The key of a home agent's queue. -/
def combKey (cluster queue : Nat) : Nat := cluster * 16 + queue

/-- R349: an entry that makes an integer ADD in ordinary memory. -/
def SteepEntry.isAdd (e : SteepEntry) : Bool := decide (2 ≤ e.kind) && e.op == 1 && classOf e.addr == .ordinary

/-- R349: what an operation of a queue adds, when it is an integer ADD to its location and of its width; none for any other. An
ATOMIC of another device is an AMO's. -/
def CombOp.addend (q : CombQueue) : CombOp → Option Nat
  | .entry e =>
    if e.isAdd && !e.poisoned && !q.phys && e.addr.toNat == q.addr && e.width == q.width then
      some (e.data.toNat % 2 ^ (8 * q.width))
    else none
  | .amo _ _ _ y => some y.toNat
  | .turn _ _ => none
  | .packet p =>
    if p.kind = 0x03 ∧ p.aux.toNat % 32 = (if q.width = 8 then 17 else 1) ∧ p.addr.toNat % q.width = 0 then
      some (numOf (p.data.take q.width))
    else none
  | .word _ e =>
    if 2 ≤ e.kind ∧ e.op = 1 ∧ e.width = q.width ∧ e.addr.toNat % q.width = 0 then some (e.data.toNat % 2 ^ (8 * q.width)) else none

/-- R349: integer ADDs to a location that wait at its home agent, but one: Steep words under way, and those that came in this
cycle, in which the agent serves one (log entry 91, DESIGN CHOICE). -/
def State.addsWaiting (s : State) (pa n : Nat) (but : Option SteepEntry) : Nat :=
  ((s.steepSent.flatMap Prod.snd).filter (fun e => e.isAdd && e.width == n && but != some e &&
    s.queuePa ⟨e.addr.toNat, false, n, [], 0⟩ == some pa)).length +
    (s.addsHere.filter (fun x => x == (pa, n))).length

/-- An integer ADD has come to its home agent in this cycle. -/
def State.addCame (s : State) (pa n : Nat) : State := { s with addsHere := (pa, n) :: s.addsHere }

/-- R349: the queue of a location and width in which nothing waits. -/
def State.idleQueue (s : State) (pa n : Nat) : Option (Nat × CombQueue) :=
  s.combining.find? (fun q => q.2.ops.isEmpty && q.2.width == n && s.queuePa q.2 == some pa)

/-- A queue that only other devices have used takes the program address of an access to its location, when one comes. -/
def CombQueue.named (q : CombQueue) (va : Option Nat) (n : Nat) : CombQueue :=
  match va with
  | some a => if q.phys && q.width == n then { q with addr := a, phys := false } else q
  | none => q

/-- R349: an operation on `n` bytes at a physical address, and at a program address if it has one, joins the queue of a location
it touches; an integer ADD joins the empty queue of its location, or opens one when two more wait and a queue of the home agent
is free. None when it is performed by itself. -/
def State.combine (s : State) (va : Option Nat) (pa n : Nat) (o : CombOp) : Option State :=
  match s.combiningAt pa n with
  | some (k, q) => some (s.joinQueue k (q.named va n) o)
  | none =>
    let new : CombQueue := ⟨va.getD pa, va.isNone, n, [o], s.cycle⟩
    if (o.addend new).isNone then none
    else
      match s.idleQueue pa n with
      | some (k, q) => some (s.joinQueue k (q.named va n) o)
      | none =>
        if s.addsWaiting pa n o.steep < 2 then none
        else
          ((List.range 16).find? (fun i => !mapHas s.combining (combKey (agentOf new.addr) i))).map (fun i =>
            { s with combining := mapSet s.combining (combKey (agentOf new.addr) i) new })

/-- The queue an entry has to join (R349), if any. -/
def State.entryQueue (s : State) (e : SteepEntry) : Option (Nat × CombQueue) :=
  match classOf e.addr, s.translate e.access e.addr.toNat with
  | .ordinary, some (.mem f, _) => s.combiningAt (f.byte 0) e.width
  | _, _ => none

/-- R98: an earlier entry of the strand, class and destination stands in a combining queue that this one does not join. -/
def State.queuedBefore (s : State) (e : SteepEntry) : Bool :=
  s.combining.any (fun q => (s.entryQueue e).map Prod.fst != some q.1 &&
    (q.2.ops.filterMap CombOp.steep).any (fun x => x.sid == e.sid && x.cls == e.cls && x.dest == e.dest))

/-- An entry has to wait: for its walk (R349, R367), or for the entries before it (R98). -/
def State.entryWaits (s : State) (e : SteepEntry) : Bool :=
  (classOf e.addr == .ordinary && s.walkWaits e.addr.toNat) || s.queuedBefore e

/-- A packet of entries under way has to wait: its first entry, or, when it goes to another device whole, any of them. -/
def State.packetWaits (s : State) (l : List SteepEntry) : Bool :=
  match l with
  | [] => false
  | e :: more => s.entryWaits e || ((destDevice e.dest).isSome && more.any s.entryWaits)

/-- The physical address of the bytes an entry names, if they are ordinary memory of the package. -/
def State.entryPa (s : State) (e : SteepEntry) : Option Nat :=
  match classOf e.addr, s.translate e.access e.addr.toNat with
  | .ordinary, some (.mem f, _) => some (f.byte 0)
  | _, _ => none

/-- An entry that has come to its destination joins a combining queue, if it is to; a poisoned one faults by itself. -/
def State.entryJoins (s : State) (e : SteepEntry) : Option State :=
  if e.poisoned then none else (s.entryPa e).bind (fun pa => s.combine (some e.addr.toNat) pa e.width (.entry e))

/-- An entry performed by itself: an integer ADD is counted as come (R349). The answer names its place on another device. -/
def State.performAdding (s : State) (e : SteepEntry) : State × Option (Nat × Nat) :=
  match (if e.isAdd then s.entryPa e else none) with
  | some pa => (s.addCame pa e.width).performEntry e
  | none => s.performEntry e

/-- An entry performed, or sent where its page now lies on another device. -/
def State.deliverEntry (s : State) (e : SteepEntry) : State :=
  match s.performAdding e with
  | (s1, none) => s1
  | (s1, some (dev, pa)) => s1.sendWords dev [(e, pa)]

/-- A packet for another device delivered to the fabric: each entry's page is checked, what is to go goes, the rest joins a
combining queue, is performed or faults here. -/
def State.sendBuffer (s : State) (l : List SteepEntry) : State :=
  let r := l.foldl (fun (acc : State × List (SteepEntry × Nat × Nat)) e =>
    match acc.1.entryJoins e with
    | some s1 => (s1, acc.2)
    | none =>
      match acc.1.performAdding e with
      | (s1, none) => (s1, acc.2)
      | (s1, some (dev, pa)) => (s1, acc.2 ++ [(e, dev, pa)])) (s, [])
  ((r.2.map (fun x => x.2.1)).eraseDups).foldl
    (fun s dev => s.sendWords dev ((r.2.filter (fun x => x.2.1 == dev)).map (fun x => (x.1, x.2.2)))) r.1

/-! ### The instructions (R215, R216, R218, R219) -/

/-- The issue checks of R216 on an entry's address. -/
def State.steepCheck (s : State) (kind : AccessKind) (a : Word) (n : Nat) : Except (Stop × State) State :=
  if !aligned a n then .error (.trap (addrTrap causeMisaligned a), s)
  else
    match classOf a with
    | .none => .error (.trap (addrTrap causeFaultWrite a), s)
    | .window =>
      match s.windowPlace (coreOf s.cur) kind a n with
      | .error t => .error (.trap t, s)
      | .ok _ => .ok s
    | .ordinary =>
      if s.fillWaits s.actor a.toNat then .error (.busy, s)
      else
        match s.plbGrants s.actor (rightsNeeded kind) a.toNat with
        | (true, s') => .ok s'
        | (false, s') => .error (.trap (addrTrap causeDomainRights a), s')

/-- The entry an instruction makes. -/
def State.newEntry (s : State) (kind width op cls : Nat) (a data : Word) : SteepEntry :=
  ⟨s.serial, s.cur, s.me.domain, kind, width, op, cls, a, data, s.me.pc, false, s.steepDest s.cur a, s.me.plbCtl⟩

/-- A posted entry: checked, placed in its buffer, and the instruction completes (R216). -/
def postWord (kind width op : Nat) (a b : BitVec 5) (c : BitVec 4) (s : State) : Result :=
  let acc : AccessKind := if kind ≤ 1 then .store else .atomic
  match s.steepCheck acc (s.g a) width with
  | .error (t, s1) => .next (s1.stopped t)
  | .ok s1 =>
    let e := s.newEntry kind width op c.toNat (s.g a) (s.g b)
    .next (({ s1 with serial := s1.serial + 1 }).postEntry (clusterOf s.cur) e.dest s.me.steepAge e).retire

/-- RSTW (R215). -/
def execRstw (a b : BitVec 5) (c : BitVec 4) (s : State) : Result := postWord 0 4 0 a b c s

/-- RSTD (R215). -/
def execRstd (a b : BitVec 5) (c : BitVec 4) (s : State) : Result := postWord 1 8 0 a b c s

/-- The width RAMO's d field names, in bytes. -/
def ramoWidth (d : BitVec 5) : Nat := if d.getLsbD 4 then 8 else 4

/-- RAMO (R215): posted. -/
def execRamo (d a b : BitVec 5) (c : BitVec 4) (s : State) : Result :=
  postWord 2 (ramoWidth d) (d.toNat % 16) a b c s

/-- RAMOW (R216): straight to its destination, the strand waits for the response. It is ordered as an AMO of its class
(R95), so R355 may hold it first. -/
def execRamow (d a b : BitVec 5) (c : BitVec 4) (s : State) : Result :=
  match s.steepCheck .atomic (s.g a) (ramoWidth d) with
  | .error (t, s1) => .next (s1.stopped t)
  | .ok s1 =>
    let e := s.newEntry 3 (ramoWidth d) (d.toNat % 16) c.toNat (s.g a) (s.g b)
    if !s1.mayTarget s.cur c.toNat (destDevice e.dest) then .next (s1.waiting .poll)
    else .next (({ s1 with
      serial := s1.serial + 1
      steepSent := s1.steepSent ++ [(clusterOf s.cur, [e])] }).waiting (.ramow e.num none (s.g a)))

/-- RAMOW_RESPONSE (R216): the answer completes the waiting RAMOW, ORing FADD's flags, or traps with the destination's
fault. The strand named must be waiting with its answer here; otherwise the step is not due and nothing happens. -/
def execRamowResponse (sid : Nat) (s : State) : Result :=
  match (s.strand sid).wait with
  | .ramow _ (some (cause, fl)) a =>
    .next (s.asStrand sid (fun s => if cause = 0 then s.finish fl else s.trap (addrTrap cause a)))
  | _ => .next s

/-- SFLUSH (R218). -/
def execSflush (s : State) : Result := .next (s.flushAll s.cur).retire

/-- R218: what SFLUSHW does once every entry is acknowledged: the flags of posted RAMOs are delivered and g(d) counts
the records appended since the previous one. -/
def State.finishFlush (s : State) (d : BitVec 5) : State :=
  let x := s.me
  let fl := x.ramoFlags
  let s1 := s.setMe { x with ramoFlags := 0, flushBase := x.steepFcount }
  (s1.setG d (BitVec.ofNat 64 (x.steepFcount - x.flushBase))).finish fl

/-- SFLUSHW (R218): it sends, and completes at once when nothing is outstanding, else waits. -/
def execSflushw (d : BitVec 5) (s : State) : Result :=
  let s1 := s.flushAll s.cur
  if (s1.openEntries s.cur).isEmpty then .next (s1.finishFlush d) else .next (s1.waiting (.sflushw d))

/-- SFREC (R219): a word of a record kept, or all ones. -/
def execSfrec (d a : BitVec 5) (s : State) : Result :=
  let q := s.g a
  match s.me.faultRecords.find? (fun r => r.1 == (q >>> 2).toNat) with
  | some (_, r) => .next (s.writeG d (r.extractLsb' (64 * (q.toNat % 4)) 64))
  | none => .next (s.writeG d (BitVec.allOnes 64))

/-! ### The engine's steps -/

/-- STEEP_AGE_TRIGGER (R217): every buffer of the cluster whose deadline has come is sent. -/
def execSteepAgeTrigger (cluster : Nat) (s : State) : Result :=
  .next (s.sendBufs cluster (fun b => decide (b.deadline ≤ s.cycle)))

/-- The packet sent first: its first entry is performed or faults, and is acknowledged, or joins a combining queue (R349); a
packet for another device is sent there whole, and its entries stay open until the answer. -/
def State.ackPacket (s : State) : State :=
  match s.steepSent with
  | [] => s
  | (_, []) :: rest => { s with steepSent := rest }
  | (cl, e :: more) :: rest =>
    if s.packetWaits (e :: more) then s
    else if (destDevice e.dest).isSome then { s with steepSent := rest }.sendBuffer (e :: more)
    else
      let s1 := { s with steepSent := if more.isEmpty then rest else (cl, more) :: rest }
      match s1.entryJoins e with
      | some s2 => s2
      | none => s1.deliverEntry e

/-- STEEP_ACK (R100, R217): a fault record that is owed is stored; else the packet sent first goes on. -/
def execSteepAck (s : State) : Result := .next (s.storeOwed.getD s.ackPacket)

end Sys2Proof.Machine
end

