-- ==== Sys2Proof/Machine/Stream.lean ====
section
/-! DEFINITION. The stream engine (R103 to R105, R205 to R209): job cards, their edges, starting, moving, stopping, and
SEWAIT. -/
namespace Sys2Proof.Machine

/-! ### Cards as numbers -/

/-- The bytes [lo, lo + n) of a 512-bit card as a number. -/
def cardField (x : Nat) (lo n : Nat) : Nat := x / 256 ^ lo % 256 ^ n

/-- A 32-bit signed pitch. -/
def pitchInt (p : BitVec 32) : Int := p.toInt

/-- The address `base + k` in 64-bit wrap. -/
def addrAdd (base : Word) (k : Int) : Word := base + BitVec.ofInt 64 k

/-- R190: t(r) of a rotation code. -/
def rotShift (rot r : Nat) : Nat := rot % 16 * r / 2 ^ (rot / 16 % 8) % 4

/-- The address of byte p of row r, rotated when the code is not 0 (R206). -/
def rowAddr (base : Word) (pitch : Int) (rot r p : Nat) : Word :=
  let row := addrAdd base (pitch * r)
  if rot = 0 then addrAdd row p
  else addrAdd row (64 * (p / 64) + 16 * ((p % 64 / 16 + rotShift rot r) % 4) + p % 16 : Nat)

/-! ### Regions (R206) -/

/-- A range of bytes: of memory by program address, or of a scratchpad by its raw key. -/
structure ByteRange where
  inSpad : Bool
  lo : Int
  hi : Int
deriving DecidableEq, Repr

/-- R206: the lowest byte of row r of `n` bytes, and the one after its highest, from the row's start: with a rotation, of
the chunks of its first and its last segments. -/
def rowReach (rot n r : Nat) : Nat × Nat :=
  if rot = 0 then (0, n)
  else
    let chunk := fun c => 64 * (c / 4) + 16 * ((c % 4 + rotShift rot r) % 4)
    let last := (n + 15) / 16 - 1
    ([0, 1, 2, 3].foldl (fun m c => if 16 * c < n then min m (chunk c) else m) 48,
      [0, 1, 2, 3].foldl (fun m c => max m (chunk (last - c) + min 16 (n - 16 * (last - c)))) 0)

/-- Where the first row stands: a window's at the raw location of its core, if its CORE is not reserved. -/
def rowsBase (core : Nat) (base : Word) : Option Int :=
  match classOf base with
  | .window => (windowCore base core).map (fun c => (spadKey c (windowOffset base) : Nat))
  | _ => some (base.toNat : Nat)

/-- R206: the range from the lowest to the highest byte of rows at an address; rows at no core cover none. -/
def rowsRange (core : Nat) (base : Word) (pitch : Int) (rows rowBytes rot : Nat) : ByteRange :=
  match rowsBase core base with
  | none => ⟨true, 0, 0⟩
  | some lo0 =>
    let at_ := fun (r : Nat) => pitch * r
    let ends := if rot = 0 then [0, rows - 1] else List.range rows
    let first := rowReach rot rowBytes 0
    ends.foldl (fun (x : ByteRange) r =>
      let e := rowReach rot rowBytes r
      { x with lo := min x.lo (lo0 + at_ r + e.1), hi := max x.hi (lo0 + at_ r + e.2) })
      ⟨classOf base == .window, lo0 + first.1, lo0 + first.2⟩

/-- Whether two ranges share a byte. -/
def ByteRange.meets (x y : ByteRange) : Bool :=
  x.inSpad == y.inSpad && decide (max x.lo y.lo < min x.hi y.hi)

/-- Whether an address is a scratchpad window address. -/
def isWindow (a : Word) : Bool := classOf a == .window

/-- The regions a card reads. -/
def Card.reads (c : Card) : List ByteRange :=
  let core := coreOf c.sid
  if c.fn = 3 then [rowsRange core c.src 0 1 c.span 0, rowsRange core c.idx 0 1 (8 * c.rows) 0]
  else [rowsRange core c.src (pitchInt c.spitch) c.rows c.rowBytes (if c.fn = 2 then c.rot else 0)]

/-- The region a card writes. -/
def Card.writes (c : Card) : ByteRange :=
  rowsRange (coreOf c.sid) c.dst (pitchInt c.dpitch) c.rows c.rowBytes (if c.fn = 2 then 0 else c.rot)

/-- R104: an edge from an earlier card to a later one of its domain. -/
def cardEdge (early late : Card) : Bool :=
  early.domain == late.domain && decide (early.num < late.num) &&
    (late.reads.any (fun r => r.meets early.writes) || early.reads.any (fun r => late.writes.meets r) ||
      late.writes.meets early.writes)

/-! ### The engine's view -/

/-- Every card of a core that has not completed: queued, in flight or stopped. -/
def Core.openCards (c : Core) : List Card := c.cards ++ c.stoppedCards.map (fun x => x.card)

/-- SE_SEQ as a strand of a domain reads it (R105). -/
def Core.seSeq (c : Core) (domain : BitVec 12) : Nat :=
  ((c.openCards.filter (fun k => k.domain == domain)).map (fun k => k.num - 1)).foldl min c.seIssued

/-- The cards in flight. -/
def Core.flights (c : Core) : Nat := (c.cards.filter (fun x => x.inFlight)).length

/-- R208: whether a footprint fetch of a strand is under way. -/
def Strand.fetching (x : Strand) : Bool := x.ahead.any (fun a => !a.ready && a.fault.isNone)

/-- R208: the footprint fetches under way on the first strands of a core. -/
def State.fetchesOn (s : State) (core n : Nat) : Nat := (List.range n).countP (fun i => (s.strand (4 * core + i)).fetching)

/-- R208: a footprint fetch holds a flight slot: of the 8, those that the cards and the fetches before it leave. -/
def State.fetchRuns (s : State) (sid : Nat) : Bool :=
  decide ((s.core (coreOf sid)).flights + s.fetchesOn (coreOf sid) (sid % 4) < 8)

/-- R208: a queued card may start beside a number of footprint fetches: its edges are satisfied and a flight slot is free. -/
def Core.startable (c : Core) (fetches : Nat) (k : Card) : Bool :=
  !k.inFlight && decide (c.flights + fetches < 8) && !c.openCards.any (fun e => cardEdge e k)

/-- R208: the card that starts next, the lowest number among the startable. -/
def Core.nextStart (c : Core) (fetches : Nat) : Option Card :=
  (c.cards.filter (c.startable fetches)).foldl
    (fun best k => match best with | some b => if k.num < b.num then some k else some b | none => some k) none

/-- CARD_START (R208). -/
def execCardStart (core : Nat) (s : State) : Result :=
  let c := s.core core
  match c.nextStart (s.fetchesOn core 4) with
  | none => .next s
  | some k =>
    .next (s.setCore core { c with cards := c.cards.map (fun x => if x.num = k.num then { x with inFlight := true } else x) })

/-! ### Moving rows -/

/-- R69, R70: where the engine finds `n` bytes of a window, whatever its alias: the raw bytes of its core, inside the carve. -/
def State.rawPlace (s : State) (core : Nat) (a : Word) (n : Nat) : Option (Nat × Nat) :=
  if 4 < windowAlias a then none
  else (windowCore a core).bind (fun c =>
    if windowOffset a + n ≤ carveBytes (s.core c) then some (c, windowOffset a) else none)

/-- A piece of at most 16 bytes that the engine reads, or what it meets: a cause of R132, the service cores being switched,
or another device's bytes that a READ must bring. Of a window it reads the stored bytes, by a decode window too: as a source
(R207) and as an index array (R70). -/
def State.pieceRead (s : State) (who : Actor) (brought : Option Gathered) (a : Word) (n : Nat) : Checked Nat :=
  let r : Checked Place := if isWindow a then
      (match s.rawPlace (coreOf who.sid) a n with
        | some (c, off) => .ok (.spad c off, s)
        | none => .error (.trap (addrTrap causeScratchRange a), s))
    else s.resolve who .load a n
  match r with
  | .error e => .error e
  | .ok (.fabric dev pa, s1) =>
    match brought.filter (fun g => g.dev == dev && g.pa == pa && g.n == n) with
    | none => .error (if (s1.routeTo dev).isNone then .trap (addrTrap causeLinkDown a) else .need 0 dev pa n, s1)
    | some g =>
      match statusCause (g.status % 65536) with
      | some cause => .error (.trap (addrTrap cause a), s1)
      | none => .ok (g.value, s1)
  | .ok (p, s1) =>
    if s1.placePoisoned p n then .error (.trap (addrTrap causeMemPoison a), s1) else .ok (s1.readPlace p n, s1)

/-- A piece the engine writes: for a row of a card, or into a footprint buffer. -/
def State.pieceWrite (s : State) (who : Actor) (for_ : Option (Nat × Nat)) (a : Word) (n x : Nat) :
    Except (Stop × State) State :=
  if isWindow a then
    match s.rawPlace (coreOf who.sid) a n with
    | some (c, off) => .ok (if for_.isSome then s.writePlace (.spad c off) n x else s.writeSpad c off n x)
    | none => .error (.trap (addrTrap causeScratchRange a), s)
  else
    match s.resolve who .store a n with
    | .error e => .error e
    | .ok (.fabric dev pa, s1) =>
      match s1.sendRequest dev (.card (coreOf who.sid) ((for_.map Prod.fst).getD 0) ((for_.map Prod.snd).getD 0) a)
          (writePacket 0 pa n x) with
      | none => .error (.trap (addrTrap causeLinkDown a), s1)
      | some (_, s2) => .ok s2
    | .ok (p, s1) => .ok (s1.writePlace p n x)

/-- A row moved piece by piece from where its mover stands on: the state, the mover, and what keeps it from the next piece;
fuel bounds the pieces. -/
def State.moveRow (s : State) (who : Actor) (for_ : Option (Nat × Nat)) (src dst : Nat → Word) (rowBytes : Nat) :
    Nat → Mover → State × Mover × Option Stop
  | 0, _ => (s, .reset, none)
  | fuel + 1, m =>
    if rowBytes ≤ m.pos then (s, .reset, none)
    else
      let a := src m.pos
      let b := dst m.pos
      let n := min (min (16 - a.toNat % 16) (16 - b.toNat % 16)) (min (16 - m.pos % 16) (rowBytes - m.pos))
      match s.pieceRead who m.brought a n with
      | .error (e, s1) => (s1, m, some e)
      | .ok (x, s1) =>
        match s1.pieceWrite who for_ b n x with
        | .error (e, s2) => (s2, m, some e)
        | .ok s2 => s2.moveRow who for_ src dst rowBytes fuel ⟨m.pos + n, none, none⟩

/-- Whether row r of `n` bytes with a rotation writes the 16 bytes at an offset from the row's start (R190). -/
def chunkWritten (rot r n o : Nat) : Bool :=
  decide (64 * (o / 64) + 16 * ((o % 64 / 16 + 4 - rotShift rot r) % 4) + 16 ≤ n)

/-- R301: a row that writes all 32 bytes of a sector clears its mark: of row r, `n` bytes from `a` on. -/
def State.clearMarks (s : State) (who : Actor) (a : Word) (n rot r : Nat) : State :=
  let first := (a.toNat + 31) / 32
  let last := (a.toNat + (if rot = 0 then n else (n + 63) / 64 * 64)) / 32
  (List.range (last - first)).foldl (fun s i =>
    let va := BitVec.ofNat 64 (32 * (first + i))
    let o := 32 * (first + i) - a.toNat
    if rot ≠ 0 ∧ !(chunkWritten rot r n o && chunkWritten rot r n (o + 16)) then s
    else if isWindow a then
      let k := spadKey ((windowCore va (coreOf who.sid)).getD 0) (windowOffset va) / 32
      { s with spadPoison := s.spadPoison.filter (fun x => x != k) }
    else
      match s.translate .store va.toNat with
      | some (.mem f, _) => { s with poison := s.poison.filter (fun x => x != f.byte 0 / 32) }
      | _ => s) s

/-- A card as the actor of its accesses: the DOMAIN and PLB_CTL of its issue (R284, R305). -/
def Card.actor (c : Card) : Actor := ⟨c.sid, c.domain, c.plb, true⟩

/-- R205, R206: where the next row of a card is read from, as its offset from SRC; SEGATHER reads that first, and the row
must stay in the declared range (R209). -/
def State.cardSource (s : State) (c : Card) : Checked Int :=
  if c.fn = 3 then
    match c.off with
    | some off => .ok (off, s)
    | none =>
      match s.pieceRead c.actor c.mover.brought (addrAdd c.idx (8 * c.moved : Nat)) 8 with
      | .error e => .error e
      | .ok (x, s1) =>
        let off := (BitVec.ofNat 64 x).toInt
        if off < 0 ∨ (c.span : Int) < off + c.rowBytes then
          .error (.trap (addrTrap causeFaultRead (addrAdd c.src off)), s1)
        else .ok (off, s1)
  else .ok (pitchInt c.spitch * c.moved, s)

/-- A card at its next row, with the row's offset. -/
def Card.begun (c : Card) (off : Int) : Card :=
  if c.fn = 3 ∧ c.off = none then { c with off := some off, mover := .reset } else c

/-- A card whose row has been moved. -/
def Card.rowDone (c : Card) : Card := { c with moved := c.moved + 1, off := none, mover := .reset }

/-- The rows of a card from its first unmoved one on: the state after what moves, the card, and what keeps it from going
on. -/
def State.runCard (s : State) (c : Card) : Nat → State × Card × Option Stop
  | 0 => (s, c, none)
  | left + 1 =>
    let who := c.actor
    match s.cardSource c with
    | .error (e, s1) => (s1, c, some e)
    | .ok (off, s1) =>
      let c1 := c.begun off
      let base := addrAdd c.src off
      let srcRot := if c.fn = 2 then c.rot else 0
      let dstRot := if c.fn = 2 then 0 else c.rot
      match s1.moveRow who (some (c.num, c.moved))
          (fun p => if srcRot = 0 then addrAdd base p else rowAddr c.src (pitchInt c.spitch) srcRot c.moved p)
          (fun p => rowAddr c.dst (pitchInt c.dpitch) dstRot c.moved p) c.rowBytes c.rowBytes c1.mover with
      | (s2, m, some e) => (s2, { c1 with mover := m }, some e)
      | (s2, _, none) =>
        (s2.clearMarks who (rowAddr c.dst (pitchInt c.dpitch) 0 c.moved 0) c.rowBytes dstRot c.moved).runCard c1.rowDone left

/-- The outcome of a card in flight; SEFOOT moves nothing. -/
def State.cardOutcome (s : State) (c : Card) : State × Card × Option Stop :=
  if c.fn = 4 then (s, { c with moved := c.rows }, none) else s.runCard c (c.rows - c.moved)

/-- A card of a core by number. -/
def Core.card (c : Core) (num : Nat) : Option Card := c.cards.find? (fun k => k.num == num)

/-- A card of a core replaced. -/
def State.setCard (s : State) (core : Nat) (k : Card) : State :=
  let c := s.core core
  s.setCore core { c with cards := c.cards.map (fun x => if x.num = k.num then k else x) }

/-- R209: restarted cards enter the queue while it has a slot, in order. -/
def Core.requeue (c : Core) : Core :=
  let back := (c.stoppedCards.filter (fun x => x.restart)).take (16 - c.cards.length)
  { c with
    cards := c.cards ++ back.map (fun x => x.card)
    stoppedCards := c.stoppedCards.filter (fun x => !back.contains x) }

/-- A card leaves the queue. -/
def State.removeCard (s : State) (core num : Nat) (stopped : List StoppedCard) : State :=
  let c := s.core core
  s.setCore core ({ c with
    cards := c.cards.filter (fun x => x.num != num), stoppedCards := c.stoppedCards ++ stopped }).requeue

/-- Whether writes of a card to another device are unanswered. -/
def State.cardFlying (s : State) (core num : Nat) : Bool :=
  s.fabric.any (fun r => match r.purpose with | .card c n _ _ => c == core && n == num | _ => false)

/-- A card sends the READ its next piece needs; a link that is down is found when the piece is tried again. -/
def State.askCard (s : State) (core : Nat) (k : Card) (dev pa n : Nat) : State :=
  match s.sendRequest dev (.cardRead core k.num) (readPacket 0 pa n) with
  | some (xtag, s1) => s1.setCard core { k with mover := { k.mover with asked := some xtag } }
  | none => s.setCard core k

/-- CARD_COMPLETE (R105): a card in flight moves its rows, as far as the bytes of another device it reads are here; when
all are moved and the writes to another device answered, it leaves the queue. -/
def execCardComplete (core num : Nat) (s : State) : Result :=
  match (s.core core).card num with
  | none => .next s
  | some k =>
    if !k.inFlight || k.failed.isSome || k.mover.asked.isSome then .next s
    else
      match s.cardOutcome k with
      | (_, _, some (.trap _)) => .next s
      | (s1, k1, some .busy) => .next (s1.setCard core k1)
      | (s1, k1, some (.need _ dev pa n)) => .next (s1.askCard core k1 dev pa n)
      | (s1, k1, none) =>
        if s1.cardFlying core num then .next (s1.setCard core k1) else .next (s1.removeCard core num [])

/-- A stopped card: from its first unmoved row on it is moved again. -/
def Card.stoppedAt (k : Card) (row : Nat) (t : Trap) : StoppedCard :=
  ⟨{ k with moved := row, mover := .reset, off := none, failed := none, inFlight := false },
    { t with info := BitVec.ofNat 48 k.num }, false, false, false⟩

/-- The stopped cards of a strand that are not restarted (R209), oldest first. -/
def Core.stoppedOf (c : Core) (sid : Nat) : List StoppedCard := c.stoppedCards.filter (fun y => y.card.sid == sid && !y.restart)

/-- R209: the engine keeps up to four stopped cards of a strand: whether it can keep one more. A further card that meets a fault
stays in flight until one of them is restarted (log entry 96, DEDUCED). -/
def Core.stopRoom (c : Core) (sid : Nat) : Bool := decide ((c.stoppedOf sid).length < 4)

/-- CARD_STOP (R209): a card in flight that meets a memory fault, or a write of which another device did not perform: rows
before it stay moved, and the card leaves the queue with its trap. Its other writes to other devices are answered first. -/
def execCardStop (core num : Nat) (s : State) : Result :=
  match (s.core core).card num with
  | none => .next s
  | some k =>
    if !k.inFlight || k.mover.asked.isSome || s.cardFlying core num || !(s.core core).stopRoom k.sid then .next s
    else
      match k.failed with
      | some (row, t) => .next (s.removeCard core num [k.stoppedAt row t])
      | none =>
        match s.cardOutcome k with
        | (s1, k1, some (.trap t)) =>
          if s1.cardFlying core num then .next (s1.setCard core k1)
          else .next (s1.removeCard core num [k1.stoppedAt k1.moved t])
        | _ => .next s

/-! ### Awaiting cards (R208, R209) -/

/-- The stopped cards an instruction awaits: those whose trap was taken are restarted; the first whose trap was not is
taken now. The answer is the trap, if one is due, and the state. -/
def State.serveStopped (s : State) (core : Nat) (pick : Card → Bool) : Option Trap × State :=
  let c := s.core core
  let again := c.stoppedCards.map (fun (x : StoppedCard) => if pick x.card && x.told then { x with restart := true } else x)
  match again.find? (fun x => pick x.card && !x.told) with
  | none => (none, s.setCore core ({ c with stoppedCards := again }).requeue)
  | some k =>
    (some k.trap, s.setCore core ({ c with
      stoppedCards := again.map (fun (x : StoppedCard) => if x.card.num = k.card.num then { x with told := true } else x) }).requeue)

/-- SEWAIT for a card number (R208): SE_SEQ of the domain covers it, a stopped card it awaits traps, or it waits. -/
def State.trySewait (s : State) (target : Nat) : State :=
  match s.serveStopped (coreOf s.cur) (fun k => k.domain == s.me.domain && decide (k.num ≤ target)) with
  | (some t, s1) => s1.trap t
  | (none, s1) =>
    if target ≤ (s1.core (coreOf s.cur)).seSeq s.me.domain then s1.retire else s1.waiting (.sewait target)

/-- SEWAIT (R208): the number it awaits is taken at issue. -/
def execSewait (a : BitVec 5) (s : State) : Result :=
  .next (s.trySewait (min (s.g a).toNat s.myCore.seIssued))

/-! ### Card instructions (R205 to R207) -/

/-- A card from its 64 bytes. -/
def cardOf (fn num sid : Nat) (domain : BitVec 12) (plb : Word) (x : Nat) : Card :=
  { num := num, sid := sid, domain := domain, plb := plb, fn := fn
    src := BitVec.ofNat 64 (cardField x 0 8), dst := BitVec.ofNat 64 (cardField x 8 8)
    spitch := BitVec.ofNat 32 (cardField x 16 4), dpitch := BitVec.ofNat 32 (cardField x 20 4)
    rowBytes := cardField x 24 4, rows := cardField x 28 4
    idx := BitVec.ofNat 64 (cardField x 32 8), span := cardField x 40 8
    rot := cardField x 48 1, moved := 0, mover := .reset, off := none, failed := none, inFlight := false }

/-- R206: the window requirements of a function. -/
def Card.windowsOk (c : Card) : Bool :=
  match c.fn with
  | 1 => isWindow c.dst && !isWindow c.src
  | 2 => isWindow c.src && !isWindow c.dst
  | _ => true

/-- R206: whether the function may carry a rotation. -/
def Card.mayRotate (c : Card) : Bool := c.fn == 1 || c.fn == 2 || (c.fn == 3 && isWindow c.dst)

/-- R207: the fields' checks that trap ILLEGAL_INSTR. `hint` is the card's HINT byte, 0 to 3 for SEFOOT too (log entry 114, DESIGN
CHOICE), `tail` its rsv bytes. -/
def Card.fieldsOk (c : Card) (hint tail : Nat) : Bool :=
  tail == 0 && decide (hint < 4) && decide (c.rot < 128) && (c.rot == 0 || c.mayRotate) &&
    (c.fn == 3 || (c.idx == 0 && c.span == 0)) && (c.fn != 3 || c.spitch == 0) &&
    decide (1 ≤ c.rowBytes) && decide (c.rowBytes ≤ 1048576) && decide (1 ≤ c.rows) && decide (c.rows ≤ 65536) &&
    c.windowsOk && !c.reads.any (fun r => r.meets c.writes)

/-- R207: with a rotation, the scratchpad offset, its pitch and ROWBYTES are multiples of 16. -/
def Card.rotAligned (c : Card) : Bool :=
  c.rot == 0 ||
    (c.rowBytes % 16 == 0 &&
      (if c.fn == 2 then windowOffset c.src % 16 == 0 && c.spitch.toNat % 16 == 0
       else windowOffset c.dst % 16 == 0 && c.dpitch.toNat % 16 == 0))

/-- R69, R207: a window side: its alias and core, and every byte inside the carve. -/
def State.windowSideOk (s : State) (core : Nat) (a : Word) (r : ByteRange) : Bool :=
  if isWindow a then
    match windowCore a core with
    | none => false
    | some c =>
      decide (windowAlias a ≤ 4) && decide ((spadKey c 0 : Int) ≤ r.lo) &&
        decide (r.hi ≤ (spadKey c (carveBytes (s.core c)) : Int))
  else true

/-- R207: the checks of a card at issue, in the order of R115. -/
def State.cardCheck (s : State) (c : Card) (w : InstrWord) (at_ : Word) (hint tail : Nat) : Option Trap :=
  let core := coreOf c.sid
  if !c.fieldsOk hint tail then some { wordTrap causeIllegal w with addr := at_ }
  else if !c.rotAligned then some (addrTrap causeMisaligned (if c.fn = 2 then c.src else c.dst))
  else if c.fn = 3 ∧ c.idx.toNat % 8 ≠ 0 then some (addrTrap causeMisaligned c.idx)
  else if !s.windowSideOk core c.src (c.reads.headD c.writes) then some (addrTrap causeScratchRange c.src)
  else if !s.windowSideOk core c.dst c.writes then some (addrTrap causeScratchRange c.dst)
  else if isWindow c.dst ∧ windowAlias c.dst ≠ 0 then some (addrTrap causeDomainRights c.dst)
  else none

/-- A block of a line that an instruction reads as one load of a class (R205, R211, R228). -/
def State.readBlockOf (s : State) (who : Actor) (cls : Nat) (a : Word) (n : Nat) : Checked Nat :=
  match s.resolve who .load a n with
  | .error e => .error e
  | .ok (p, s1) =>
    match p with
    | .fabric dev pa =>
      match s1.loadPlace who.sid cls (.fabric dev pa) a n with
      | .error e => .error (e, s1)
      | .ok x => .ok (x, s1)
    | p =>
      if !s1.mayTarget who.sid cls none then .error (.busy, s1)
      else
        match s1.loadPlace who.sid cls p a n with
        | .error e => .error (e, s1)
        | .ok x => .ok (x, s1)

/-- A block read as one class-0 load. -/
def State.readBlock (s : State) (who : Actor) (a : Word) (n : Nat) : Checked Nat := s.readBlockOf who 0 a n

/-- R209: a card instruction of a strand that holds four stopped cards takes the trap of the oldest; its reissue restarts that
one first, whether or not an instruction that awaits the card has trapped for it as well (log entry 96, DEDUCED). -/
def State.makeRoom (s : State) (core sid : Nat) : Option Trap × State :=
  let c := s.core core
  if c.stopRoom sid then (none, s)
  else
    match c.stoppedOf sid with
    | [] => (none, s)
    | k :: _ =>
      let mark := fun (x : StoppedCard) =>
        if x.card.num = k.card.num then { x with told := true, barred := true, restart := k.barred } else x
      (if k.barred then none else some k.trap,
        s.setCore core ({ c with stoppedCards := c.stoppedCards.map mark }).requeue)

/-- R207, R209: a card that has passed its checks is accepted and takes the next number; its instruction waits while the
queue holds 16, and traps for a strand that holds four stopped ones. -/
def State.acceptCard (s : State) (d : BitVec 5) (k : Card) : State :=
  let core := coreOf s.cur
  let r := s.makeRoom core s.cur
  match r.1 with
  | some t => r.2.trap t
  | none =>
    let c := r.2.core core
    if 16 ≤ c.cards.length then r.2.waiting (.cardSlot d k)
    else
      (r.2.setCore core { c with
        cards := c.cards ++ [{ k with num := c.seIssued + 1 }], seIssued := c.seIssued + 1 }).writeG d
          (BitVec.ofNat 64 (c.seIssued + 1))

/-- A card instruction (R205 to R207): the card at g(a) is read once and checked, then accepted. -/
def cardOp (fn : Nat) (d a : BitVec 5) (s : State) : Result :=
  let at_ := s.g a
  let w := encRrr 0x37 d a 0 (BitVec.ofNat 11 fn)
  if !aligned at_ 64 then .next (s.trap (addrTrap causeMisaligned at_))
  else
    match s.readBlock s.actor at_ 64 with
    | .error (e, s1) => .next (s1.stopped e)
    | .ok (x, s1) =>
      let k := cardOf fn 0 s.cur s.me.domain s.me.plbCtl x
      match s1.cardCheck k w at_ (cardField x 49 1) (cardField x 50 14) with
      | some t => .next (s1.trap t)
      | none => .next (s1.acceptCard d k)

/-- SECOPY (R206). -/
def execSecopy (d a : BitVec 5) (s : State) : Result := cardOp 0 d a s
/-- SELOAD2D (R206). -/
def execSeload2d (d a : BitVec 5) (s : State) : Result := cardOp 1 d a s
/-- SESTORE2D (R206). -/
def execSestore2d (d a : BitVec 5) (s : State) : Result := cardOp 2 d a s
/-- SEGATHER (R206). -/
def execSegather (d a : BitVec 5) (s : State) : Result := cardOp 3 d a s
/-- SEFOOT (R206). -/
def execSefoot (d a : BitVec 5) (s : State) : Result := cardOp 4 d a s

end Sys2Proof.Machine
end

