-- ==== Sys2Proof/Machine/Sync.lean ====
section
/-! DEFINITION. FENCE, VDRAIN and IFENCE (R4, R90 to R94, R135 to R137) and FENCE_COMPLETION. Accesses to the package's
own memory are performed when they issue, so a fence has only Steep entries, cards and fabric accesses to await (log
entry 11). -/
namespace Sys2Proof.Machine

/-- R92: what a fence of a kind (0 full, 1 acquire, 2 release), a resolved scope and a mask still awaits is here; a fence of
strand scope awaits the strand's cards as well (R103). -/
def State.fenceDone (s : State) (sid kind scope : Nat) (mask : BitVec 16) : Bool :=
  mask == 0 ||
    ((kind == 1 || (s.coveredEntries sid scope mask).isEmpty) &&
      (kind == 1 || decide (scope < 5) || s.storesAnswered sid mask) &&
      (scope != 0 || (s.core (coreOf sid)).openCards.all (fun k => k.sid != sid)))

/-- R136: the refused stores a fence collects: those of covered classes, by a full or release fence of fabric or system
scope. -/
def collects (kind scope : Nat) : Bool := kind != 1 && decide (5 ≤ scope)

/-- R94: the strand's later vector accesses of covered classes stand behind its scalar stores of covered classes that another
device has not answered yet; its vector accesses have been performed. -/
def State.drain (s : State) (mask : BitVec 16) : State :=
  let tags := (s.fabric.filter (fun r =>
    match r.storeOf s.cur with
    | some (c, _) => mask.getLsbD c
    | none => false)).map (fun r => r.xtag)
  let old := s.me.vdrains.filter (fun v => v.2.any (fun t => (s.fabricReq t).isSome))
  s.setMe { s.me with vdrains := if tags.isEmpty then old else old ++ [(mask, tags)] }

/-- R94: whether a vector access of a class still stands behind a VDRAIN's scalar stores. -/
def State.drainHolds (s : State) (sid cls : Nat) : Bool :=
  (s.strand sid).vdrains.any (fun v => v.1.getLsbD cls && v.2.any (fun t => (s.fabricReq t).isSome))

/-- R135, R136: the running strand's fence completes, draining as R92 says, and reporting refused stores by LINK_DOWN. -/
def State.finishFence (s : State) (kind scope : Nat) (mask : BitVec 16) : State :=
  let s1 := s.drain mask
  let hit := s1.me.refused.filter (fun r => mask.getLsbD r.cls)
  if collects kind scope then
    match hit with
    | [] => s1.retire
    | r :: _ =>
      (s1.setMe { s1.me with refused := s1.me.refused.filter (fun r => !mask.getLsbD r.cls) }).trapAfter
        ⟨causeLinkDown, r.addr, 0, BitVec.ofNat 48 (hit.length % 2 ^ 32)⟩
  else s1.retire

/-- The stopped cards a fence meets (R103, R209): those of its strand, at strand scope. (log entry 42,
DEDUCED.) -/
def State.fenceCards (s : State) (sid scope : Nat) : Option Trap × State :=
  if scope = 0 then s.serveStopped (coreOf sid) (fun c => c.sid == sid) else (none, s)

/-- FENCE (R135): it sends what it must, takes the trap of a stopped card (R103), and completes at once when nothing is
outstanding, else waits. -/
def execFence (k : BitVec 2) (sc : BitVec 3) (m : BitVec 16) (s : State) : Result :=
  let scope := s.resolveScope sc.toNat
  if m = 0 then .next (s.finishFence k.toNat scope m)
  else
    match s.fenceCards s.cur scope with
    | (some t, s1) => .next (s1.trap t)
    | (none, s1) =>
      let s2 := if k = 1 then s1 else s1.flushCovered s.cur scope m
      if s2.fenceDone s.cur k.toNat scope m then .next (s2.finishFence k.toNat scope m)
      else .next (s2.waiting (.fence k.toNat scope m))

/-- FENCE_COMPLETION (R92): a waiting fence, or SFLUSHW, with nothing left to await completes; a card of the strand that
stopped meanwhile is taken by the fence. Otherwise the step is not due. -/
def execFenceCompletion (sid : Nat) (s : State) : Result :=
  match (s.strand sid).wait with
  | .fence k scope m =>
    if s.fenceDone sid k scope m then .next (s.asStrand sid (fun s => s.finishFence k scope m))
    else
      match s.fenceCards sid scope with
      | (some t, s1) => .next (s1.trapOn sid t)
      | (none, _) => .next s
  | .sflushw d =>
    if (s.openEntries sid).isEmpty then .next (s.asStrand sid (fun s => s.finishFlush d)) else .next s
  | _ => .next s

/-- VDRAIN (R94, R137): the strand's earlier vector accesses have been performed, so it completes at once. -/
def execVdrain (m : BitVec 16) (s : State) : Result := .next (s.drain m).retire

/-- IFENCE (R137): the strand's earlier stores of every class are performed; then the core's L1 instruction cache is
invalidated. An event that falls due meanwhile is taken at the IFENCE, which is issued again: no rule names it among the
instructions that hold events off (log entry 101, DESIGN CHOICE). -/
def execIfence (s : State) : Result :=
  if s.storesAnswered s.cur (BitVec.allOnes 16) then .next (s.setMyCore { s.myCore with icache := [] }).retire
  else .next (s.waiting .poll)

end Sys2Proof.Machine
end

