-- ==== Sys2Proof/Machine/Tile.lean ====
section
/-! DEFINITION. Tile state (R16, R40, R180 to R182), scratchpad operand descriptors (R190, R191), and the tile transfers and
moves of major 0x32 (R193 to R195). -/
namespace Sys2Proof.Machine

/-! ### Tiles and accumulators of a core -/

/-- Tile t of a core. -/
def Core.tile (c : Core) (t : BitVec 3) : BitVec 32768 := c.tiles[t.toNat]'(t.isLt)

/-- The tag of a tile. -/
def Core.tileTag (c : Core) (t : BitVec 3) : BitVec 8 := c.tileTags[t.toNat]'(t.isLt)

/-- A tile written with its tag; its TDIRTY bit is set (R181). -/
def Core.setTile (c : Core) (t : BitVec 3) (bits : BitVec 32768) (tag : BitVec 8) : Core :=
  { c with
    tiles := c.tiles.set t.toNat bits t.isLt
    tileTags := c.tileTags.set t.toNat tag t.isLt
    tdirty := c.tdirty ||| (1#12 <<< t.toNat) }

/-- Accumulator x of a core. -/
def Core.acc (c : Core) (x : BitVec 2) : BitVec 131072 := c.accs[x.toNat]'(x.isLt)

/-- The tag of an accumulator. -/
def Core.accTag (c : Core) (x : BitVec 2) : BitVec 8 := c.accTags[x.toNat]'(x.isLt)

/-- The poison mark of an accumulator (R189). -/
def Core.accMark (c : Core) (x : BitVec 2) : Option Word := c.accMarks[x.toNat]'(x.isLt)

/-- An accumulator written with its tag and mark; its TDIRTY bit is set (R181). -/
def Core.setAcc (c : Core) (x : BitVec 2) (bits : BitVec 131072) (tag : BitVec 8) (mark : Option Word) : Core :=
  { c with
    accs := c.accs.set x.toNat bits x.isLt
    accTags := c.accTags.set x.toNat tag x.isLt
    accMarks := c.accMarks.set x.toNat mark x.isLt
    tdirty := c.tdirty ||| (1#12 <<< (8 + x.toNat)) }

/-- R16, R293: a strand is the tile owner of its core. -/
def Core.owns (c : Core) (sid : Nat) : Bool := c.tileOwner.getLsbD 2 && (c.tileOwner.extractLsb' 0 2).toNat == sid % 4

/-- R182: an MMA that writes one of the accumulators named has not completed. -/
def Core.accBusy (c : Core) (l : List (BitVec 2)) : Bool := c.matrix.any (fun j => l.any (fun x => x.toNat == j.acc))

/-- Elements of `w` bits from a register image, lowest first. -/
def elemsOf (x w : Nat) : Nat → List Nat
  | 0 => []
  | n + 1 => x % 2 ^ w :: elemsOf (x / 2 ^ w) w n

/-- Elements of `w` bits as a register image, lowest first. -/
def packElems (w : Nat) : List Nat → Nat
  | [] => 0
  | x :: t => x % 2 ^ w + 2 ^ w * packElems w t

/-- Element k of row r of a tile at an element width (R180). -/
def tileElem (bits : BitVec 32768) (w r k : Nat) : Nat := (bits.extractLsb' (512 * r + w * k) w).toNat

/-- R180: elements per row at a tag. -/
def rowElems (t : BitVec 8) : Nat := if (elemOf t).width = 0 then 0 else 512 / (elemOf t).width

/-- UINT8, the tag of a DEAD tile that is written raw (R194, R195). -/
def tagUint8 : BitVec 8 := 0x09

/-- A tag, or another when it is DEAD. -/
def liveTag (t other : BitVec 8) : BitVec 8 := if t = 0 then other else t

/-- An instruction of majors 0x31 to 0x34 (R16, R115, R182): it traps without the tiles, waits for an accumulator it names,
and then goes on. -/
def tileOp (w : InstrWord) (accs : List (BitVec 2)) (body : State → Result) (s : State) : Result :=
  if !s.myCore.owns s.cur then .next (s.trap (wordTrap causeTileUnavail w))
  else if s.myCore.accBusy accs then .next (s.waiting .poll)
  else body s

/-- As `tileOp`, for an instruction that names one of the strand's own vector registers: a tag of it that no such transfer
takes is judged first (R115, step 2). -/
def tileVecOp (bad : Bool) (w : InstrWord) (accs : List (BitVec 2)) (body : State → Result) (s : State) : Result :=
  if bad then .next (s.trap (wordTrap causeIllegal w)) else tileOp w accs body s

/-! ### Descriptors (R190, R191) -/

/-- A scratchpad operand descriptor. -/
structure Desc where
  base : Word
  rsv : Bool
  rot : Nat
  tp : Nat
  k : Nat
  rp : Nat
deriving DecidableEq, Repr

/-- R190: the pair g(n), g(n + 1). -/
def Strand.desc (x : Strand) (n : BitVec 5) : Desc :=
  let w := x.getG (n + 1)
  ⟨x.getG n, w.extractLsb' 55 9 != 0, (w.extractLsb' 48 7).toNat, (w.extractLsb' 32 16).toNat,
    (w.extractLsb' 16 16).toNat, (w.extractLsb' 0 16).toNat⟩

/-- R191: the tag a window names, if it is a decode window. -/
def Desc.windowTag (d : Desc) : Option (BitVec 8) :=
  if isWindow d.base then
    match windowAlias d.base with
    | 1 => some 0x18
    | 2 => some 0x19
    | 3 => some 0x14
    | 4 => some 0x15
    | _ => none
  else none

/-- The offset of segment s of row r. -/
def Desc.segment (d : Desc) (r s : Nat) : Nat := windowOffset d.base + r * d.rp + s * d.tp * 64

/-- R190: the offset of chunk q of segment s of row r. -/
def Desc.chunk (d : Desc) (r s q : Nat) : Nat := d.segment r s + 16 * ((q + rotShift d.rot r) % 4)

/-- The window address of an offset. An offset of 2^19 or more, which only a SCRATCH_RANGE reports, is added as it is and so
runs into the CORE field (log entry 106, DESIGN CHOICE). -/
def Desc.address (d : Desc) (off : Nat) : Word := d.base - BitVec.ofNat 64 (windowOffset d.base) + BitVec.ofNat 64 off

/-- R191: the alignment trap. -/
def Desc.alignTrap (d : Desc) : Option Trap :=
  if windowOffset d.base % 16 ≠ 0 ∨ d.rp % 16 ≠ 0 then some (addrTrap causeMisaligned d.base) else none

/-- The least of a list. -/
def leastOf : List Nat → Option Nat
  | [] => none
  | x :: t => match leastOf t with | some y => some (min x y) | none => some x

/-- Every segment of a descriptor: row and segment numbers. -/
def segmentsOf (segs : Nat) : List (Nat × Nat) :=
  (List.range 64).flatMap (fun r => (List.range segs).map (fun s => (r, s)))

/-- R191: the target core, or the range trap. -/
def State.descCore (s : State) (core : Nat) (d : Desc) (segs : Nat) : Except Trap Nat :=
  if !isWindow d.base ∨ 4 < windowAlias d.base then .error (addrTrap causeScratchRange d.base)
  else
    match windowCore d.base core with
    | none => .error (addrTrap causeScratchRange d.base)
    | some c =>
      let size := carveBytes (s.core c)
      let bad := ((segmentsOf segs).map (fun p => d.segment p.1 p.2)).filter (fun a => decide (size < a + 64))
      match leastOf (bad.map (fun a => max a size)) with
      | some off => .error (addrTrap causeScratchRange (d.address off))
      | none => .ok c

/-- The 64 stored bytes of segment s of row r, unrotated, as a number. -/
def State.readSegment (s : State) (core : Nat) (d : Desc) (r seg : Nat) : Nat :=
  packElems 128 ((List.range 4).map (fun q => s.readSpad core (d.chunk r seg q) 16))

/-- The lowest poisoned byte among the segments read, as a window address (R189). A segment counts whole, the chunks of a
partly filled one beyond the row's K elements too (log entry 102, DESIGN CHOICE). -/
def State.descPoison (s : State) (core : Nat) (d : Desc) (segs : List (Nat × Nat)) : Option Word :=
  let bad := (segs.flatMap (fun p => (List.range 4).map (fun q => d.chunk p.1 p.2 q))).filter
    (fun off => s.spadPoison.contains (spadKey core off / 32))
  (leastOf bad).map d.address

/-! ### Transfers by address (R194, R196) -/

/-- The addresses of `rows` rows of `chunks` pieces of 16 bytes at a base and a signed pitch. -/
def rowPieces (base pitch : Word) (rows chunks : Nat) : List Word :=
  (List.range rows).flatMap (fun r => (List.range chunks).map (fun q =>
    base + BitVec.ofNat 64 r * pitch + BitVec.ofNat 64 (16 * q)))

/-! ### TLD, TST, TLDM, TSTM (R194) -/

/-- The word of a TMEM instruction. -/
def tmemWord (fn : BitVec 5) (t : BitVec 3) (y z : BitVec 5) : InstrWord := encT 0x32 (t.setWidth 5) y z 0 0 0 fn

/-- R194: the base and the pitch are multiples of 16. -/
def pitchTrap (base pitch : Word) : Option Trap :=
  if !aligned base 16 ∨ !aligned pitch 16 then some (addrTrap causeMisaligned base) else none

/-- TLD (R194). -/
def execTld (t : BitVec 3) (y z : BitVec 5) (s : State) : Result :=
  tileOp (tmemWord 0 t y z) [] (fun s =>
    match pitchTrap (s.g y) (s.g z) with
    | some tr => .next (s.trap tr)
    | none =>
      match s.takePieces .load 0 16 (rowPieces (s.g y) (s.g z) 64 4) with
      | .error s1 => .next s1
      | .ok (l, s1) =>
        let c := s1.myCore
        .next (s1.setMyCore (c.setTile t (BitVec.ofNat 32768 (joinValues 128 l.values))
          (liveTag (c.tileTag t) tagUint8))).retire) s

/-- TST (R194). -/
def execTst (t : BitVec 3) (y z : BitVec 5) (s : State) : Result :=
  tileOp (tmemWord 1 t y z) [] (fun s =>
    if s.myCore.tileTag t = 0 then .next (s.trap (wordTrap causeVectDead (tmemWord 1 t y z)))
    else
      match pitchTrap (s.g y) (s.g z) with
      | some tr => .next (s.trap tr)
      | none =>
        let at_ := rowPieces (s.g y) (s.g z) 64 4
        match s.takePieces .store 0 16 at_ with
        | .error s1 => .next s1
        | .ok (l, s1) => .next (s1.writePieces 16 (s.myCore.tile t).toNat (at_.zip l.places)).retire) s

/-- The checks of a tile transfer by descriptor (R191, R194): the target core. -/
def State.tileDesc (s : State) (d : Desc) (w : InstrWord) (dead : Bool) : Except Trap Nat :=
  if d.rsv then .error (wordTrap causeIllegal w)
  else if dead then .error (wordTrap causeVectDead w)
  else
    match d.alignTrap with
    | some t => .error t
    | none => s.descCore (coreOf s.cur) d 1

/-- The rows of a descriptor's first segments, each with its number. -/
def firstSegments : List (Nat × Nat) := (List.range 64).map (fun r => (r, 0))

/-- TLDM (R194). -/
def execTldm (t : BitVec 3) (y : BitVec 5) (s : State) : Result :=
  tileOp (tmemWord 2 t y 0) [] (fun s =>
    let d := s.me.desc y
    match s.tileDesc d (tmemWord 2 t y 0) false with
    | .error tr => .next (s.trap tr)
    | .ok core =>
      if !s.mayTarget s.cur 0 none then .next (s.waiting .poll)
      else
        match s.descPoison core d firstSegments with
        | some a => .next (s.trap (addrTrap causeMemPoison a))
        | none =>
          let c := s.myCore
          let tag := d.windowTag.getD (liveTag (c.tileTag t) tagUint8)
          let bits := packElems 512 ((List.range 64).map (fun r => s.readSegment core d r 0))
          .next (s.setMyCore (c.setTile t (BitVec.ofNat 32768 bits) tag)).retire) s

/-- A row of 64 bytes stored at segment 0 of row r. -/
def State.writeSegment (s : State) (core : Nat) (d : Desc) (r x : Nat) : State :=
  (List.range 4).foldl (fun s q => s.writePlace (.spad core (d.chunk r 0 q)) 16 (x / 2 ^ (128 * q))) s

/-- TSTM (R194). -/
def execTstm (t : BitVec 3) (y : BitVec 5) (s : State) : Result :=
  tileOp (tmemWord 3 t y 0) [] (fun s =>
    let d := s.me.desc y
    match s.tileDesc d (tmemWord 3 t y 0) (s.myCore.tileTag t == 0) with
    | .error tr => .next (s.trap tr)
    | .ok core =>
      if windowAlias d.base ≠ 0 then .next (s.trap (addrTrap causeDomainRights d.base))
      else if !s.mayTarget s.cur 0 none then .next (s.waiting .poll)
      else
        let bits := s.myCore.tile t
        .next ((List.range 64).foldl (fun s r =>
          s.writeSegment core d r (bits.extractLsb' (512 * r) 512).toNat) s).retire) s

/-! ### Moves (R195) -/

/-- TZERO. -/
def execTzero (t : BitVec 3) (s : State) : Result :=
  tileOp (tmemWord 4 t 0 0) [] (fun s =>
    .next (s.setMyCore (s.myCore.setTile t 0 (liveTag (s.myCore.tileTag t) tagUint8))).retire) s

/-- TMOV: bytes and tag. -/
def execTmov (t src : BitVec 3) (s : State) : Result :=
  let w := tmemWord 5 t (src.setWidth 5) 0
  tileOp w [] (fun s =>
    let c := s.myCore
    if c.tileTag src = 0 then .next (s.trap (wordTrap causeVectDead w))
    else .next (s.setMyCore (c.setTile t (c.tile src) (c.tileTag src))).retire) s

/-- R195: the tags TTRANS accepts. -/
def transposable (t : BitVec 8) : Bool := t == 0x01 || t == 0x09 || t == 0x14 || t == 0x15

/-- R195: destination element (r, c) is source element (c, r). -/
def transposed (bits : BitVec 32768) : BitVec 32768 :=
  BitVec.ofNat 32768 (packElems 8 ((List.range 4096).map (fun i => tileElem bits 8 (i % 64) (i / 64))))

/-- TTRANS. -/
def execTtrans (t src : BitVec 3) (s : State) : Result :=
  let w := tmemWord 6 t (src.setWidth 5) 0
  tileOp w [] (fun s =>
    let c := s.myCore
    if c.tileTag src = 0 then .next (s.trap (wordTrap causeVectDead w))
    else if !transposable (c.tileTag src) then .next (s.trap (wordTrap causeIllegal w))
    else .next (s.setMyCore (c.setTile t (transposed (c.tile src)) (c.tileTag src))).retire) s

/-- TCFG: the tag alone. -/
def execTcfg (t : BitVec 3) (y : BitVec 5) (s : State) : Result :=
  let w := tmemWord 7 t y 0
  tileOp w [] (fun s =>
    let v := s.g y
    if v.extractLsb' 8 56 ≠ 0 ∨ !isTileTag (v.extractLsb' 0 8) then .next (s.trap (wordTrap causeIllegal w))
    else .next (s.setMyCore (s.myCore.setTile t (s.myCore.tile t) (v.extractLsb' 0 8))).retire) s

end Sys2Proof.Machine
end

