-- ==== Sys2Proof/Machine/Acc.lean ====
section
/-! DEFINITION. Accumulator instructions (R189, R196): major 0x33; and tile-vector transfers (R197): major 0x34. -/
namespace Sys2Proof.Machine

/-- The word of an ACC instruction. -/
def accWord (fn : BitVec 5) (x y z : BitVec 5) (e : BitVec 4) : InstrWord := encT 0x33 x y z e 0 0 fn

/-- ACCZ: the mark is cleared; a DEAD accumulator becomes FP32. -/
def execAccz (x : BitVec 2) (s : State) : Result :=
  tileOp (accWord 0 (x.setWidth 5) 0 0 0) [x] (fun s =>
    .next (s.setMyCore (s.myCore.setAcc x 0 (liveTag (s.myCore.accTag x) 0x11) none)).retire) s

/-! ### ACCST -/

/-- The bytes of an element in a store format: .s FP32, .b BF16, .h FP16, .w INT32. -/
def accBytes (e : BitVec 4) : Nat := if e = 0 ∨ e = 3 then 4 else 2

/-- R196, R59: an element's bits converted to a store format by RNE with SAT = 0. -/
def accConvert (tag : BitVec 8) (e : BitVec 4) (x : Nat) : Nat × Flags :=
  if tag = 0x03 then
    let v := intOfBits 32 true x
    match e.toNat with
    | 3 => (x, 0)
    | 0 => FFmt.fp32.deliver .rne false (FVal.ofInt v)
    | 1 => FFmt.bf16.deliver .rne false (FVal.ofInt v)
    | _ => FFmt.fp16.deliver .rne false (FVal.ofInt v)
  else
    let v := FFmt.fp32.decode x
    match e.toNat with
    | 0 => (x, 0)
    | 1 => FFmt.bf16.deliver .rne false v
    | 2 => FFmt.fp16.deliver .rne false v
    | _ =>
      let r := v.toIntClamped .rne (-(2 ^ 31)) (2 ^ 31 - 1)
      ((r.1 % 2 ^ 32).toNat, r.2)

/-- The sectors that `n` bytes at a place cover are marked poisoned. A WRITE to another device carries no mark (R352), so none
arrives there (log entry 103, DESIGN CHOICE). -/
def State.markPlace (s : State) (p : Place) (n : Nat) : State :=
  match p with
  | .mem f => { s with poison := s.poison ++ (f.sectors n).filter (fun k => !s.poison.contains k) }
  | .spad c off =>
    { s with spadPoison := s.spadPoison ++ (sectorsOf (spadKey c off) n).filter (fun k => !s.spadPoison.contains k) }
  | _ => s

/-- ACCST (R189, R196): every address is checked first; a marked accumulator marks what it writes. -/
def execAccst (x : BitVec 2) (y z : BitVec 5) (e : BitVec 4) (s : State) : Result :=
  let w := accWord 1 (x.setWidth 5) y z e
  tileOp w [x] (fun s =>
    let c := s.myCore
    if c.accTag x = 0 then .next (s.trap (wordTrap causeVectDead w))
    else
      match pitchTrap (s.g y) (s.g z) with
      | some tr => .next (s.trap tr)
      | none =>
        let at_ := rowPieces (s.g y) (s.g z) 64 (4 * accBytes e)
        match s.takePieces .store 0 16 at_ with
        | .error s1 => .next s1
        | .ok (l, s1) =>
          let out := (elemsOf (c.acc x).toNat 32 4096).map (accConvert (c.accTag x) e)
          let image := packElems (8 * accBytes e) (out.map Prod.fst)
          let s2 := s1.writePieces 16 image (at_.zip l.places)
          let s3 := if (c.accMark x).isSome then l.places.foldl (fun s p => s.markPlace p 16) s2 else s2
          .next (s3.finish (orFlags (out.map Prod.snd)))) s

/-! ### Rows -/

/-- R196: a vector register's tag that no accumulator can have. -/
def accForeign (t : BitVec 8) : Bool := t != 0 && t != 0x03 && t != 0x11

/-- R196: a vector register and an accumulator do not pair. -/
def accMismatch (tv ta : BitVec 8) : Bool := tv != 0 && ta != 0 && tv != ta

/-- ACCRD: elements 0 to 63 := row g(z)[5:0]. -/
def execAccrd (x : BitVec 2) (y z : BitVec 5) (s : State) : Result :=
  let w := accWord 2 (x.setWidth 5) y z 0
  tileVecOp (accForeign (s.me.tag y)) w [x] (fun s =>
    let c := s.myCore
    if accMismatch (s.me.tag y) (c.accTag x) then .next (s.trap (wordTrap causeIllegal w))
    else if c.accTag x = 0 then .next (s.trap (wordTrap causeVectDead w))
    else
      match c.accMark x with
      | some m => .next (s.trap (addrTrap causeMemPoison m))
      | none =>
        let row := (s.g z).toNat % 64
        let out := (List.range 64).map (fun j => (j, ((c.acc x).extractLsb' (2048 * row + 32 * j) 32).toNat))
        .next (s.setMe (s.me.deliverRaw y (freshVtype (c.accTag x)) out)).retire) s

/-- An accumulator with row r replaced. -/
def setAccRow (bits : BitVec 131072) (r x : Nat) : BitVec 131072 :=
  let hole := BitVec.ofNat 131072 (2 ^ 2048 - 1) <<< (2048 * r)
  (bits &&& ~~~hole) ||| (BitVec.ofNat 131072 (x % 2 ^ 2048) <<< (2048 * r))

/-- ACCWR: row g(z)[5:0] := elements 0 to 63; the mark stays. -/
def execAccwr (x : BitVec 2) (y z : BitVec 5) (s : State) : Result :=
  let w := accWord 3 (x.setWidth 5) y z 0
  tileVecOp (accForeign (s.me.tag y)) w [x] (fun s =>
    let c := s.myCore
    if accMismatch (s.me.tag y) (c.accTag x) then .next (s.trap (wordTrap causeIllegal w))
    else if s.me.tag y = 0 then .next (s.trap (wordTrap causeVectDead w))
    else
      let row := ((s.me.getV y).bits.extractLsb' 0 2048).toNat
      .next (s.setMyCore (c.setAcc x (setAccRow (c.acc x) ((s.g z).toNat % 64) row)
        (liveTag (c.accTag x) (s.me.tag y)) (c.accMark x))).retire) s

/-! ### Arithmetic -/

/-- R196: two elements added: FP32 by rne, INT32 modulo 2^32. -/
def accSum (tag : BitVec 8) (x y : Nat) : Nat × Flags :=
  if tag = 0x03 then ((x + y) % 2 ^ 32, 0)
  else
    let r := sumExact .rne [FFmt.fp32.decode x, FFmt.fp32.decode y]
    let b := FFmt.fp32.deliver .rne false r.1
    (b.1, r.2 ||| b.2)

/-- ACCADD. With both operands marked the trap reports x's mark (R189; log entry 104, DESIGN CHOICE). -/
def execAccadd (x y : BitVec 2) (s : State) : Result :=
  let w := accWord 4 (x.setWidth 5) (y.setWidth 5) 0 0
  tileOp w [x, y] (fun s =>
    let c := s.myCore
    if c.accTag x ≠ 0 ∧ c.accTag y ≠ 0 ∧ c.accTag x ≠ c.accTag y then .next (s.trap (wordTrap causeIllegal w))
    else if c.accTag x = 0 ∨ c.accTag y = 0 then .next (s.trap (wordTrap causeVectDead w))
    else
      match (c.accMark x).or (c.accMark y) with
      | some m => .next (s.trap (addrTrap causeMemPoison m))
      | none =>
        let out := ((elemsOf (c.acc x).toNat 32 4096).zip (elemsOf (c.acc y).toNat 32 4096)).map
          (fun p => accSum (c.accTag x) p.1 p.2)
        .next ((s.setMyCore (c.setAcc x (BitVec.ofNat 131072 (packElems 32 (out.map Prod.fst))) (c.accTag x) none)).finish
          (orFlags (out.map Prod.snd)))) s

/-- R196: an element scaled. -/
def accScaled (tag : BitVec 8) (k : FVal) (x : Nat) : Nat × Flags :=
  let v := if tag = 0x03 then FVal.ofInt (intOfBits 32 true x) else FFmt.fp32.decode x
  let r := v.mul k
  let b := FFmt.fp32.deliver .rne false r.1
  (b.1, r.2 ||| b.2)

/-- ACCSCL: the accumulator becomes FP32. -/
def execAccscl (x : BitVec 2) (y : BitVec 5) (s : State) : Result :=
  let w := accWord 5 (x.setWidth 5) y 0 0
  tileOp w [x] (fun s =>
    let c := s.myCore
    if c.accTag x = 0 then .next (s.trap (wordTrap causeVectDead w))
    else
      match c.accMark x with
      | some m => .next (s.trap (addrTrap causeMemPoison m))
      | none =>
        let k := FFmt.fp32.decode ((s.g y).toNat % 2 ^ 32)
        let out := (elemsOf (c.acc x).toNat 32 4096).map (accScaled (c.accTag x) k)
        .next ((s.setMyCore (c.setAcc x (BitVec.ofNat 131072 (packElems 32 (out.map Prod.fst))) 0x11 none)).finish
          (orFlags (out.map Prod.snd)))) s

/-! ### Tile-vector transfers (R197) -/

/-- The word of a transfer of major 0x34. -/
def rowWord (fn : BitVec 5) (x y z : BitVec 5) : InstrWord := encT 0x34 x y z 0 0 0 fn

/-- R197: a vector register's live tag that no tile can have. -/
def tileForeign (t : BitVec 8) : Bool := t != 0 && !isTileTag t

/-- R197, R115: the traps of a transfer between a tile and a vector register that stand behind TILE_UNAVAIL: `src` is the
source's tag. -/
def State.rowTrap (s : State) (w : InstrWord) (tileTag vecTag src : BitVec 8) : Option Trap :=
  if tileTag != 0 && vecTag != 0 && tileTag != vecTag then
    some (wordTrap causeIllegal w)
  else if s.me.share = 0 then some (wordTrap causeVectNolanes w)
  else if src = 0 then some (wordTrap causeVectDead w)
  else none

/-- TROWV: the elements of tile row g(z) mod 64. -/
def execTrowv (x : BitVec 5) (t : BitVec 3) (z : BitVec 5) (s : State) : Result :=
  let w := rowWord 0 x (t.setWidth 5) z
  tileVecOp (tileForeign (s.me.tag x)) w [] (fun s =>
    let tag := s.myCore.tileTag t
    match s.rowTrap w tag (s.me.tag x) tag with
    | some tr => .next (s.trap tr)
    | none =>
      let out := (List.range (rowElems tag)).map (fun k =>
        (k, tileElem (s.myCore.tile t) (elemOf tag).width ((s.g z).toNat % 64) k))
      .next (s.setMe (s.me.deliverRaw x (freshVtype tag) out)).retire) s

/-- A tile with row r replaced. -/
def setTileRow (bits : BitVec 32768) (r : Nat) (x : BitVec 512) : BitVec 32768 :=
  let hole := (BitVec.allOnes 512).setWidth 32768 <<< (512 * r)
  (bits &&& ~~~hole) ||| (x.setWidth 32768 <<< (512 * r))

/-- VTROW: tile row g(z) mod 64 := elements 0 to n − 1. -/
def execVtrow (t : BitVec 3) (y z : BitVec 5) (s : State) : Result :=
  let w := rowWord 1 (t.setWidth 5) y z
  tileVecOp (tileForeign (s.me.tag y)) w [] (fun s =>
    let c := s.myCore
    match s.rowTrap w (c.tileTag t) (s.me.tag y) (s.me.tag y) with
    | some tr => .next (s.trap tr)
    | none =>
      .next (s.setMyCore (c.setTile t
        (setTileRow (c.tile t) ((s.g z).toNat % 64) ((s.me.getV y).bits.extractLsb' 0 512)) (s.me.tag y))).retire) s

/-- TCOLV: element r := tile element (r, g(z) mod n). -/
def execTcolv (x : BitVec 5) (t : BitVec 3) (z : BitVec 5) (s : State) : Result :=
  let w := rowWord 2 x (t.setWidth 5) z
  tileVecOp (tileForeign (s.me.tag x)) w [] (fun s =>
    let tag := s.myCore.tileTag t
    match s.rowTrap w tag (s.me.tag x) tag with
    | some tr => .next (s.trap tr)
    | none =>
      let col := (s.g z).toNat % rowElems tag
      let out := (List.range 64).map (fun r => (r, tileElem (s.myCore.tile t) (elemOf tag).width r col))
      .next (s.setMe (s.me.deliverRaw x (freshVtype tag) out)).retire) s

end Sys2Proof.Machine
end

