-- ==== Sys2Proof/Machine/Mem.lean ====
section
/-! DEFINITION. Scalar loads and stores (R131, R132) and LOAD_DATA_RETURN. -/
namespace Sys2Proof.Machine

/-- R131: the address of an F-MEM instruction. -/
def State.memAddr (s : State) (base : BitVec 5) (off : BitVec 10) (n : Nat) : Word :=
  s.g base + off.signExtend 64 * BitVec.ofNat 64 n

/-- R131: what a load of `n` bytes writes to g(d). -/
def extend (n : Nat) (signed : Bool) (x : Nat) : Word :=
  if signed then sextN (8 * n) (BitVec.ofNat 64 x) else zextN (8 * n) (BitVec.ofNat 64 x)

/-- A load of `n` bytes (R131, R132): the checks in order, then the value, or, for fabric-remote memory, the request and
the wait. R355 may hold it first. (log entry 11, DEDUCED.) -/
def loadOp (n : Nat) (signed : Bool) (d base : BitVec 5) (c : BitVec 4) (off : BitVec 10) (s : State) : Result :=
  let a := s.memAddr base off n
  if !aligned a n then .next (s.trap (addrTrap causeMisaligned a))
  else
    match s.resolve s.actor .load a n with
    | .error (e, s1) => .next (s1.stopped e)
    | .ok (.fabric dev pa, s1) =>
      if !s1.mayTarget s.cur c.toNat (some dev) then .next (s1.waiting .poll)
      else
        match s1.sendRequest dev (.load s.cur) (readPacket c.toNat pa n) with
        | none => .next (s1.trap (addrTrap causeLinkDown a))
        | some (xtag, s2) => .next (s2.waiting (.load xtag d n signed a))
    | .ok (p, s1) =>
      if !s1.mayTarget s.cur c.toNat none then .next (s1.waiting .poll)
      else if s1.placePoisoned p n then .next (s1.trap (addrTrap causeMemPoison a))
      else .next (s1.writeG d (extend n signed (s1.readPlace p n)))

/-- A store of the low `n` bytes of g(d) (R131, R132); to fabric-remote memory it is posted, and a link that is down
refuses it (R136). -/
def storeOp (n : Nat) (d base : BitVec 5) (c : BitVec 4) (off : BitVec 10) (s : State) : Result :=
  let a := s.memAddr base off n
  let x := (s.g d).toNat % 2 ^ (8 * n)
  if !aligned a n then .next (s.trap (addrTrap causeMisaligned a))
  else
    match s.resolve s.actor .store a n with
    | .error (e, s1) => .next (s1.stopped e)
    | .ok (.fabric dev pa, s1) =>
      if !s1.mayTarget s.cur c.toNat (some dev) then .next (s1.waiting .poll)
      else
        match s1.sendRequest dev (.store s.cur a c.toNat s1.serial) (writePacket c.toNat pa n x) with
        | none => .next (s1.refuseNow a c.toNat).retire
        | some (_, s2) => .next s2.retire
    | .ok (p, s1) =>
      if !s1.mayTarget s.cur c.toNat none then .next (s1.waiting .poll)
      else .next (s1.writePlace p n x).retire

/-- LB (R131). -/
def execLb (d base : BitVec 5) (c : BitVec 4) (_h : BitVec 2) (off : BitVec 10) (s : State) : Result := loadOp 1 true d base c off s
/-- LBU (R131). -/
def execLbu (d base : BitVec 5) (c : BitVec 4) (_h : BitVec 2) (off : BitVec 10) (s : State) : Result := loadOp 1 false d base c off s
/-- LH (R131). -/
def execLh (d base : BitVec 5) (c : BitVec 4) (_h : BitVec 2) (off : BitVec 10) (s : State) : Result := loadOp 2 true d base c off s
/-- LHU (R131). -/
def execLhu (d base : BitVec 5) (c : BitVec 4) (_h : BitVec 2) (off : BitVec 10) (s : State) : Result := loadOp 2 false d base c off s
/-- LW (R131). -/
def execLw (d base : BitVec 5) (c : BitVec 4) (_h : BitVec 2) (off : BitVec 10) (s : State) : Result := loadOp 4 true d base c off s
/-- LWU (R131). -/
def execLwu (d base : BitVec 5) (c : BitVec 4) (_h : BitVec 2) (off : BitVec 10) (s : State) : Result := loadOp 4 false d base c off s
/-- LD (R131). -/
def execLd (d base : BitVec 5) (c : BitVec 4) (_h : BitVec 2) (off : BitVec 10) (s : State) : Result := loadOp 8 false d base c off s
/-- SB (R131). -/
def execSb (d base : BitVec 5) (c : BitVec 4) (_h : BitVec 2) (off : BitVec 10) (s : State) : Result := storeOp 1 d base c off s
/-- SH (R131). -/
def execSh (d base : BitVec 5) (c : BitVec 4) (_h : BitVec 2) (off : BitVec 10) (s : State) : Result := storeOp 2 d base c off s
/-- SW (R131). -/
def execSw (d base : BitVec 5) (c : BitVec 4) (_h : BitVec 2) (off : BitVec 10) (s : State) : Result := storeOp 4 d base c off s
/-- SD (R131). -/
def execSd (d base : BitVec 5) (c : BitVec 4) (_h : BitVec 2) (off : BitVec 10) (s : State) : Result := storeOp 8 d base c off s

/-- LOAD_DATA_RETURN (R132): the data of a waiting load is here, or its fault: g(d) is written or the trap is taken at the
load. A strand that waits for no load, or whose answer is not here, is left as it is. -/
def execLoadDataReturn (sid : Nat) (s : State) : Result :=
  match (s.strand sid).wait with
  | .load xtag d n signed a =>
    match s.fabricReq xtag with
    | some r =>
      match r.answer with
      | some (status, data) =>
        let s1 := s.dropReq xtag
        .next (s1.asStrand sid (fun s =>
          match statusCause (status % 65536) with
          | some cause => s.trap (addrTrap cause a)
          | none => s.writeG d (extend n signed (readValue r.packet.mask data a.toNat n))))
      | none => .next s
    | none => .next s
  | _ => .next s

end Sys2Proof.Machine
end

