-- ==== Sys2Proof/Machine/Fetch.lean ====
section
/-! DEFINITION. Fetching instruction words (R72, R73, R75, R76, R111, R303): the checks, then the core's instruction cache,
which keeps the sectors it has fetched until an IFENCE or until their region is replaced. -/
namespace Sys2Proof.Machine

/-! ### The L1 instruction cache (R73, R76) -/

/-- A sector the cache holds, by the domain and the sector's address ÷ 32. -/
def cachedSector (l : List CodeRegion) (domain : BitVec 12) (sector : Nat) : Option (BitVec 256) :=
  (l.find? (fun r => r.domain == domain && r.region == sector / 16)).bind
    (fun r => (r.sectors.find? (fun x => x.1 == sector % 16)).map Prod.snd)

/-- R73: the cache with a sector it has fetched: into its region, or a new region, of which 32 KiB hold 64; the region
fetched first is replaced. (log entry 75, DESIGN CHOICE.) -/
def keepSector (l : List CodeRegion) (domain : BitVec 12) (sector : Nat) (x : BitVec 256) : List CodeRegion :=
  let here := fun (r : CodeRegion) => r.domain == domain && r.region == sector / 16
  if l.any here then l.map (fun r => if here r then { r with sectors := mapSet r.sectors (sector % 16) x } else r)
  else (⟨domain, sector / 16, [(sector % 16, x)]⟩ :: l).take 64

/-- The word at an address of a sector's bytes. -/
def wordOf (x : BitVec 256) (va : Word) : InstrWord := x.extractLsb' (8 * (va.toNat % 32)) 32

/-- The sectors of a range of addresses leave a cache (R212, R313; log entry 53, DEDUCED). -/
def dropCode (l : List CodeRegion) (lo n : Nat) : List CodeRegion :=
  l.map (fun r => { r with sectors := r.sectors.filter (fun x =>
    !(decide (512 * r.region + 32 * x.1 < lo + n) && decide (lo < 512 * r.region + 32 * x.1 + 32))) })

/-! ### Fetching -/

/-- The 32 bytes of a sector at a place of the package; a poisoned one has no value the spec gives, and is free. (log entry
55, DEDUCED.) -/
def State.sectorAt (s : State) (p : Place) : BitVec 256 × State :=
  if s.placePoisoned p 32 then (s.freeValue 256, s.drawn) else (BitVec.ofNat 256 (s.readPlace p 32), s)

/-- One word fetched for a strand at an address (R303, R73, R75): a miss brings its sector; memory of another device is
cached nowhere, and a READ brings the word. -/
def State.fetchWord (s : State) (sid : Nat) (va : Word) : Checked InstrWord :=
  let who := s.actorOf sid
  match s.resolve who .fetch va 4 with
  | .error e => .error e
  | .ok (.fabric dev pa, s1) =>
    match s1.loadPlace sid 0 (.fabric dev pa) va 4 with
    | .ok x => .ok (BitVec.ofNat 32 x, s1)
    | .error (.trap t) =>
      if t.cause = causeMemPoison then .ok (s1.freeValue 32, s1.drawn)
      else .error (.trap (addrTrap (if t.cause = causeLinkDown then causeLinkDown else causeFaultFetch) va), s1)
    | .error e => .error (e, s1)
  | .ok (_, s1) =>
    match cachedSector (s1.core (coreOf sid)).icache who.domain (va.toNat / 32) with
    | some x => .ok (wordOf x va, s1)
    | none =>
      match s1.resolve who .fetch (va &&& ~~~(31 : Word)) 32 with
      | .error t => .error t
      | .ok (p, s2) =>
        let r := s2.sectorAt p
        let c := r.2.core (coreOf sid)
        .ok (wordOf r.1 va, r.2.setCore (coreOf sid) { c with
          icache := keepSector c.icache who.domain (va.toNat / 32) r.1 })

/-- `n` words fetched from an address on. -/
def State.fetchWords (s : State) (sid : Nat) (va : Word) : Nat → Checked (List InstrWord)
  | 0 => .ok ([], s)
  | n + 1 =>
    match s.fetchWord sid va with
    | .error t => .error t
    | .ok (w, s1) =>
      match s1.fetchWords sid (va + 4) n with
      | .error t => .error t
      | .ok (ws, s2) => .ok (w :: ws, s2)

end Sys2Proof.Machine
end

