-- ==== Sys2Proof/Machine/Samovar.lean ====
section
/-! DEFINITION. The Samovar ring (R101, R102, R234 to R251): geometry, registry, passages, capture and re-entry, and the
instructions of major 0x39. -/
namespace Sys2Proof.Machine

/-! ### Geometry (R234, R235) -/

/-- The clusters in visit order, q = 0 to 47 (R235). -/
def visitOrder : List Nat :=
  [3, 2, 1, 0, 8, 9, 10, 11, 19, 18, 17, 16, 24, 25, 26, 27] ++
  [35, 34, 33, 32, 40, 41, 42, 43, 44, 45, 46, 47, 39, 38, 37, 36] ++
  [28, 29, 30, 31, 23, 22, 21, 20, 12, 13, 14, 15, 7, 6, 5, 4]

/-- The visit index of a cluster. -/
def visitIndex (cluster : Nat) : Nat := visitOrder.idxOf cluster

/-- R235: the place of a core's stop on a ring. -/
def stopPlace (ring core : Nat) : Nat :=
  let q := visitIndex (core / 32)
  let p0 := 24 * q + core % 32 + (if 24 ≤ q then 16 else 0)
  if ring = 0 then p0 else (1184 - p0) % 1184

/-- R234: the place a position is at in a cycle: every position moves one place per cycle. -/
def placeAt (pos cycle : Nat) : Nat := (pos + cycle) % 1184

/-- The position that is at a stop in a cycle. -/
def posAtStop (ring core cycle : Nat) : Nat := (stopPlace ring core + 1184 - cycle % 1184) % 1184

/-- R236: entries into place 0 of a position up to a cycle. -/
def originPasses (pos cycle : Nat) : Nat := (pos + cycle) / 1184

/-- The passage count of a record on a ring (R236): the entries of its position into place 0 while it was there, those
before a capture included. -/
def Record.passages (r : Record) (cycle : Nat) : Nat := (r.rev + originPasses r.pos cycle).toNat

/-- A record on a ring at a position, with a passage count; no operation of the cycle is left to it (R101, R244). -/
def Record.placed (r : Record) (pos count cycle : Nat) : Record :=
  { r with pos := pos, capturedMark := false, rev := (count : Int) - originPasses pos cycle, served := cycle + 1 }

/-- R247: the header summary: FLAGS and REV. -/
def Record.summary (r : Record) (cycle : Nat) : Word :=
  (0 : BitVec 40) ++ (((0 : BitVec 5) ++ (BitVec.ofBool r.lost ++ ((0 : BitVec 1) ++ (1 : BitVec 1)))) ++
    BitVec.ofNat 16 (r.passages cycle))

/-! ### The ring's contents -/

/-- The live record of a name on a ring. -/
def State.liveRecord (s : State) (domain : BitVec 12) (tag : Nat) : Option Record :=
  s.records.find? (fun r => !r.capturedMark && r.domain == domain && r.tag == tag)

/-- Whether a position of a ring is empty. -/
def State.posEmpty (s : State) (ring pos : Nat) : Bool := s.records.all (fun r => !(r.ring == ring && r.pos == pos))

/-- Every name registered: on a ring, in a capture slot, waiting to re-enter, or boarding (R237). -/
def State.registered (s : State) : List (Nat × BitVec 12 × Nat) :=
  (s.records.filter (fun r => !r.capturedMark)).map (fun r => (r.ring, r.domain, r.tag)) ++
  (s.captures.filterMap (fun x => x.2.map (fun c => (c.rec_.ring, c.rec_.domain, c.rec_.tag)))) ++
  s.reentries.map (fun r => (r.rec_.ring, r.rec_.domain, r.rec_.tag)) ++ s.boarding ++ s.alighting

/-- R238: positions of a ring in use or reserved: records, markers, and boards not yet placed. -/
def State.ringUse (s : State) (ring : Nat) : Nat :=
  (s.records.filter (fun r => r.ring == ring)).length + (s.boarding.filter (fun b => b.1 == ring)).length

/-- R240: records of a domain, reserved boards included, and alightings whose store is not yet performed (log entry 110, DESIGN
CHOICE). -/
def State.domainRecords (s : State) (domain : BitVec 12) : Nat :=
  (s.registered.filter (fun x => x.2.1 == domain)).length

/-- A record replaced by name. -/
def State.setRecord (s : State) (r : Record) : State :=
  { s with records := s.records.map (fun x =>
      if !x.capturedMark && x.domain == r.domain && x.tag == r.tag then r else x) }

/-! ### Shadow memory (R238, R239) -/

/-- R102, R238: the 48 bytes at a shadow address read for a board; a frame of another device faults FAULT_READ, poison
MEM_POISON at the lowest poisoned sector. -/
def State.readShadow (s : State) (who : Actor) (a : Word) : Checked Nat :=
  match s.resolve who .load a 48 with
  | .error e => .error e
  | .ok (.mem f, s1) =>
    if s1.placePoisoned (.mem f) 32 then .error (.trap (addrTrap causeMemPoison a), s1)
    else if s1.placePoisoned (.mem (f.skip 32)) 16 then .error (.trap (addrTrap causeMemPoison (a + 32)), s1)
    else .ok (s1.readSpan f 48, s1)
  | .ok (_, s1) => .error (.trap (addrTrap causeFaultRead a), s1)

/-- The payload as a number of 48 bytes. -/
def Record.payload (r : Record) : Nat := (r.words.toList.foldr (fun w acc => w.toNat + 2 ^ 64 * acc) 0)

/-- R239, R301: a record's payload stored at a run of memory, and the marks of its words at their sectors. -/
def State.storeRecordAt (s : State) (f : Span) (r : Record) : State :=
  let s1 := s.writeSpan f 48 r.payload
  let marked := ((List.range 6).filter (fun k => r.marks.getLsbD k)).map (fun k => f.byte (8 * k) / 32)
  { s1 with poison := s1.poison ++ marked.filter (fun k => !s1.poison.contains k) }

/-- What the alighting store of a record comes to: performed, or refused by a link that is down; sent to another device, under
its XTAG; or behind a combining queue (R349), with the bytes it goes to. -/
inductive AlightStore where
  | done
  | sent (xtag : Nat)
  | queued (to_ : Span)
deriving DecidableEq, Repr

/-- R239, R301: the alighting store of class c: the payload to SHADOW and the marks of its words to their sectors; to another
device it is a WRITE (log entry 76, DEDUCED), which carries no mark (log entry 103, DESIGN CHOICE). -/
def State.alightStore (s : State) (who : Actor) (cls : Nat) (r : Record) : Checked AlightStore :=
  match s.reach who .store r.shadow 48 with
  | .error e => .error e
  | .ok (.mem f, s1) =>
    match s1.takeTurn who (.mem f) 48 with
    | .ok s2 => .ok (.done, s2.storeRecordAt f r)
    | .error s2 => .ok (.queued f, s2)
  | .ok (.fabric dev pa, s1) =>
    match s1.sendRequest dev (.store who.sid r.shadow cls s1.serial) (writePacket cls pa 48 r.payload) with
    | some (xtag, s2) => .ok (.sent xtag, s2)
    | none => .ok (.done, s1.setStrand who.sid ((s1.strand who.sid).refuse ⟨r.shadow, cls, s1.serial⟩))
  | .ok (_, s1) => .error (.trap (addrTrap causeFaultWrite r.shadow), s1)

/-- R239: the strand of an alighting whose record has been taken: it has completed, or waits with the pair still registered. -/
def State.alighted (s : State) (sid : Nat) (d : BitVec 5) (r : Record) (o : AlightStore) : State :=
  let open_ : State := { s with alighting := s.alighting ++ [(r.ring, r.domain, r.tag)] }
  match o with
  | .done => s.asStrand sid (fun s => s.writeG d 0)
  | .sent xtag => open_.asStrand sid (fun s => s.waiting (.alight d r.ring r.tag xtag))
  | .queued f => open_.asStrand sid (fun s => s.waiting (.alightTurn d f r))

/-! ### Issue (R243, R245, R247, R241) -/

/-- The tag of a register's value. -/
def tagOf (w : Word) : Nat := (w.extractLsb' 0 20).toNat

/-- The word of a Samovar instruction (R246). -/
def samWord (d a b : BitVec 5) (c : BitVec 4) (w : BitVec 3) (op : BitVec 4) : InstrWord := encClass 0x39 d a b c w op

/-- R102, R247: an operation of class c stands behind the strand's class-c stores that another device has not answered. -/
def State.classWaits (s : State) (c : BitVec 4) : Bool := !s.storesAnswered s.cur (BitVec.ofNat 16 (2 ^ c.toNat))

/-- R243, R249: an operation that takes a passage: illegal while the strand holds a capture, else it joins its stop's
queue on the record. -/
def joinRing (word : InstrWord) (d a : BitVec 5) (c : BitVec 4) (op : RingOp) (s : State) : Result :=
  match s.captureOf s.cur with
  | some _ => .next (s.trap (wordTrap causeIllegal word))
  | none =>
    if s.classWaits c then .next (s.waiting .poll)
    else .next (s.waiting (.ring (tagOf (s.g a)) d c.toNat op s.cycle s.cycle))

/-- SAM.ALIGHT (R239). -/
def execSamAlight (d a : BitVec 5) (c : BitVec 4) (s : State) : Result := joinRing (samWord d a 0 c 0 1) d a c .alight s
/-- SAM.LD (R248). -/
def execSamLd (d a : BitVec 5) (c : BitVec 4) (w : BitVec 3) (s : State) : Result :=
  joinRing (samWord d a 0 c w 2) d a c (.ld w.toNat) s
/-- SAM.ST (R248). -/
def execSamSt (d a b : BitVec 5) (c : BitVec 4) (w : BitVec 3) (s : State) : Result :=
  joinRing (samWord d a b c w 3) d a c (.st w.toNat (s.g b)) s
/-- SAM.ADD (R248). -/
def execSamAdd (d a b : BitVec 5) (c : BitVec 4) (w : BitVec 3) (s : State) : Result :=
  joinRing (samWord d a b c w 4) d a c (.add w.toNat (s.g b)) s
/-- SAM.MIN (R248). -/
def execSamMin (d a b : BitVec 5) (c : BitVec 4) (w : BitVec 3) (s : State) : Result :=
  joinRing (samWord d a b c w 5) d a c (.min w.toNat (s.g b)) s
/-- SAM.MAX (R248). -/
def execSamMax (d a b : BitVec 5) (c : BitVec 4) (w : BitVec 3) (s : State) : Result :=
  joinRing (samWord d a b c w 6) d a c (.max w.toNat (s.g b)) s
/-- SAM.CAS (R248): g(d) is the comparand. -/
def execSamCas (d a b : BitVec 5) (c : BitVec 4) (w : BitVec 3) (s : State) : Result :=
  joinRing (samWord d a b c w 7) d a c (.cas w.toNat (s.g d) (s.g b)) s
/-- SAM.CAPTURE (R243, R249). -/
def execSamCapture (d a b : BitVec 5) (c : BitVec 4) (s : State) : Result :=
  joinRing (samWord d a b c 0 8) d a c (.capture (s.g b)) s
/-- SAM.WAITREV (R248). -/
def execSamWaitrev (d a : BitVec 5) (c : BitVec 4) (s : State) : Result :=
  joinRing (samWord d a 0 c 0 12) d a c .waitrev s

/-- R237, R243, R245: CLD, CST and RELEASE on the slot: SAM_CAPTURE_LOST without a capture, ILLEGAL_INSTR with one of another
name: another tag, or the same tag of another domain, whose record is invisible (log entry 97, DEDUCED). -/
def State.slotFor (s : State) (word : InstrWord) (a : BitVec 5) : Except Trap Capture :=
  match s.captureOf s.cur with
  | none => .error (addrTrap causeSamCaptureLost (zextN 20 (s.g a)))
  | some c =>
    if c.rec_.tag = tagOf (s.g a) ∧ c.rec_.domain = s.me.domain then .ok c else .error (wordTrap causeIllegal word)

/-- Word k of a record's payload, and the payload with word k set; k is below 6 in a well-formed instruction. -/
def Record.word (r : Record) (k : Nat) : Word := r.words.toList.getD k 0

/-- Word k set; a mark of the word goes with its old value (R301). -/
def Record.setWord (r : Record) (k : Nat) (v : Word) : Record :=
  if h : k < 6 then { r with words := r.words.set k v h, marks := r.marks &&& ~~~(BitVec.ofNat 6 (2 ^ k)) } else r

/-- SAM.CLD (R249). -/
def execSamCld (d a : BitVec 5) (c : BitVec 4) (w : BitVec 3) (s : State) : Result :=
  match s.slotFor (samWord d a 0 c w 9) a with
  | .error t => .next (s.trap t)
  | .ok k =>
    if k.rec_.marks.getLsbD w.toNat then .next (s.trap (addrTrap causeMemPoison (zextN 20 (s.g a))))
    else if s.classWaits c then .next (s.waiting .poll)
    else .next (s.writeG d (k.rec_.word w.toNat))

/-- SAM.CST (R249). -/
def execSamCst (d a b : BitVec 5) (c : BitVec 4) (w : BitVec 3) (s : State) : Result :=
  match s.slotFor (samWord d a b c w 10) a with
  | .error t => .next (s.trap t)
  | .ok k =>
    if k.rec_.marks.getLsbD w.toNat then .next (s.trap (addrTrap causeMemPoison (zextN 20 (s.g a))))
    else if s.classWaits c then .next (s.waiting .poll)
    else
      let k' := { k with rec_ := k.rec_.setWord w.toNat (s.g b) }
      .next (({ s with captures := mapSet s.captures s.cur (some k') }).writeG d (k.rec_.word w.toNat))

/-- SAM.RELEASE (R245, R249). -/
def execSamRelease (d a : BitVec 5) (c : BitVec 4) (s : State) : Result :=
  match s.slotFor (samWord d a 0 c 0 11) a with
  | .error t => .next (s.trap t)
  | .ok _ =>
    if s.classWaits c then .next (s.waiting .poll) else .next ((s.releaseCapture s.cur false).writeG d 0)

/-! ### Boarding (R238) -/

/-- SAM.BOARD (R238): the checks of the shadow address, the registry's decision as one step, then the wait for an empty
position. -/
def execSamBoard (d a b : BitVec 5) (c : BitVec 4) (s : State) : Result :=
  let shadow := s.g a
  let tag := tagOf (s.g b)
  let ring := tag % 2
  let domain := s.me.domain
  match s.captureOf s.cur with
  | some _ => .next (s.trap (wordTrap causeIllegal (samWord d a b c 0 0)))
  | none =>
    if !aligned shadow 64 then .next (s.trap (addrTrap causeMisaligned shadow))
    else if classOf shadow ≠ .ordinary then
      .next (s.trap (addrTrap (if classOf shadow = .window then causeDomainRights else causeFaultRead) shadow))
    else
      if s.fillWaits s.actor shadow.toNat then .next (s.waiting .poll)
      else match s.plbGrants s.actor 3 shadow.toNat with
      | (false, s1) => .next (s1.trap (addrTrap causeDomainRights shadow))
      | (true, s1) =>
        if s1.registered.any (fun x => x.2.1 == domain && x.2.2 == tag) then .next (s1.writeG d 1)
        else if (s1.domainOf domain).samQuota < s1.domainRecords domain + 1 then .next (s1.writeG d 2)
        else if 1184 ≤ s1.ringUse ring then .next (s1.writeG d 3)
        else if s1.classWaits c then .next (s1.waiting .poll)
        else
          .next (({ s1 with boarding := s1.boarding ++ [(ring, domain, tag)] }).waiting
            (.board d shadow tag s1.cycle))

/-- R238: the strand whose board takes an empty position at a stop: the earliest accepted of the stop on the ring. -/
def State.firstBoarder (s : State) (core ring : Nat) : Option Nat :=
  ((List.range 4).foldl (fun best i =>
    let sid := 4 * core + i
    match (s.strand sid).wait with
    | .board _ _ tag t =>
      if tag % 2 = ring then
        match best with
        | some (t0, sid0) => if t < t0 then some (t, sid) else some (t0, sid0)
        | none => some (t, sid)
      else best
    | _ => best) none).map Prod.snd

/-- A cancelled or faulted board withdraws its registration (R238, R250). -/
def State.withdrawBoard (s : State) (domain : BitVec 12) (tag : Nat) : State :=
  { s with boarding := s.boarding.filter (fun x => !(x.2.1 == domain && x.2.2 == tag)) }

/-- R238: an empty position is at the stop of a strand that waits with the stop's first board. -/
def State.boardDue (s : State) (sid : Nat) : Bool :=
  match (s.strand sid).wait with
  | .board _ _ tag _ =>
    s.posEmpty (tag % 2) (posAtStop (tag % 2) (coreOf sid) s.cycle) && s.firstBoarder (coreOf sid) (tag % 2) == some sid
  | _ => false

/-- BOARD_FILL (R238): an empty position is at the stop of a strand that waits with the stop's first board: the shadow
bytes are read and the record is placed, or the fault is taken and no record exists. -/
def execBoardFill (sid : Nat) (s : State) : Result :=
  match (s.strand sid).wait with
  | .board d shadow tag _ =>
    let ring := tag % 2
    let pos := posAtStop ring (coreOf sid) s.cycle
    let domain := (s.strand sid).domain
    if s.boardDue sid then
      match s.readShadow (s.actorOf sid) shadow with
      | .error (.trap t, s1) => .next ((s1.withdrawBoard domain tag).trapOn sid t)
      | .error (_, s1) => .next s1
      | .ok (x, s1) =>
        let r : Record :=
          { ring := ring, pos := pos, capturedMark := false, lost := false, shadow := shadow
            rev := 0, domain := domain, tag := tag
            words := Vector.ofFn (fun i => BitVec.ofNat 64 (x / 2 ^ (64 * i.val))), marks := 0, stop := 0, served := 0 }
        .next (({ s1.withdrawBoard domain tag with records := s1.records ++ [r.placed pos 0 s.cycle] }).asStrand sid
          (fun s => s.writeG d 0))
    else .next s
  | _ => .next s

/-! ### Passages (R241, R242, R248) -/

/-- R241: the operations of a stop's strands on one record, and whether a strand's is the one that issued first. -/
def State.headOfStop (s : State) (sid : Nat) : Bool :=
  let x := s.strand sid
  match x.wait with
  | .ring tag _ _ _ _ issued =>
    (List.range 4).all (fun i =>
      let y := 4 * coreOf sid + i
      match (s.strand y).wait with
      | .ring tag' _ _ _ _ issued' =>
        y == sid || tag' != tag || (s.strand y).domain != x.domain || decide (issued < issued') ||
          (issued == issued' && decide (sid < y))
      | _ => true)
  | _ => false

/-- R248: what a payload operation does to a word and answers. -/
def RingOp.apply (op : RingOp) (r : Record) (cycle : Nat) : Record × Word :=
  match op with
  | .ld k => (r, r.word k)
  | .st k y => (r.setWord k y, r.word k)
  | .add k y => (r.setWord k (r.word k + y), r.word k)
  | .min k y => (r.setWord k (if y.slt (r.word k) then y else r.word k), r.word k)
  | .max k y => (r.setWord k (if (r.word k).slt y then y else r.word k), r.word k)
  | .cas k c y => (if r.word k = c then r.setWord k y else r, r.word k)
  | .waitrev => (r, r.summary cycle)
  | .capture _ => (r, r.summary cycle)
  | .alight => (r, 0)

/-- The payload word an operation reads, if it reads one (R301). -/
def RingOp.reads : RingOp → Option Nat
  | .ld k => some k
  | .st k _ => some k
  | .add k _ => some k
  | .min k _ => some k
  | .max k _ => some k
  | .cas k _ _ => some k
  | .waitrev => none
  | .capture _ => none
  | .alight => none

/-- R243: the hold of a capture; g(b) is taken as unsigned (log entry 111, DESIGN CHOICE). -/
def holdCycles (y : Word) : Nat := min (max y.toNat 1) 64

/-- R101, R241: the record of a waiting strand passes its stop, the strand's operation is the stop's first on it, and no
operation has been performed on it at this passage. -/
def State.passageDue (s : State) (sid : Nat) : Option Record :=
  match (s.strand sid).wait with
  | .ring tag _ _ _ _ issued =>
    (s.liveRecord (s.strand sid).domain tag).filter (fun r =>
      placeAt r.pos s.cycle == stopPlace r.ring (coreOf sid) && s.headOfStop sid && decide (issued < s.cycle) &&
        r.served != s.cycle + 1)
  | _ => none

/-- The capture marker a record leaves at its position (R244). -/
def Record.marker (r : Record) (core : Nat) : Record := { r with capturedMark := true, stop := core }

/-- SAMOVAR_PASSAGE (R241): the operation of a waiting strand whose passage has come is performed. -/
def execSamovarPassage (sid : Nat) (s : State) : Result :=
  match (s.strand sid).wait, s.passageDue sid with
  | .ring tag d cls op _ _, some r =>
    let domain := (s.strand sid).domain
    let r := { r with served := s.cycle + 1 }
    match op.reads with
    | some k =>
      if r.marks.getLsbD k then .next (s.trapOn sid (addrTrap causeMemPoison (BitVec.ofNat 64 tag)))
      else
        let q := op.apply r s.cycle
        .next ((s.setRecord q.1).asStrand sid (fun s => s.writeG d q.2))
    | none =>
      match op with
      | .capture y =>
        let s1 := { s.setRecord (r.marker (coreOf sid)) with
          captures := mapSet s.captures sid
            (some ⟨{ r with rev := r.passages s.cycle }, cls, s.cycle + holdCycles y⟩) }
        .next (s1.asStrand sid (fun s => s.writeG d (r.summary s.cycle)))
      | .alight =>
        let rest := s.records.filter (fun x => !(!x.capturedMark && x.domain == domain && x.tag == tag))
        match s.alightStore (s.actorOf sid) cls r with
        | .error (.trap t, s1) => .next (s1.trapOn sid { t with addr := r.shadow })
        | .error (_, s1) => .next s1
        | .ok (o, s1) => .next ({ s1 with records := rest }.alighted sid d r o)
      | _ => .next ((s.setRecord r).asStrand sid (fun s => s.writeG d (r.summary s.cycle)))
  | _, _ => .next s

/-- R239: the registration of an alighted pair is withdrawn and its instruction completes. -/
def State.endAlight (s : State) (sid : Nat) (d : BitVec 5) (name : Nat × BitVec 12 × Nat) : State :=
  ({ s with alighting := s.alighting.filter (fun x => x != name) }).asStrand sid (fun s => s.writeG d 0)

/-- R239: an alighting ends when another device has answered its store, or when the store's turn in a combining queue has come
and it is performed. -/
def State.finishAlight (s : State) (sid : Nat) : State :=
  match (s.strand sid).wait with
  | .alight d ring tag xtag =>
    if (s.fabricReq xtag).isSome then s else s.endAlight sid d (ring, (s.strand sid).domain, tag)
  | .alightTurn d f r =>
    match s.takeTurn (s.actorOf sid) (.mem f) 48 with
    | .error s1 => s1
    | .ok s1 => (s1.storeRecordAt f r).endAlight sid d (r.ring, r.domain, r.tag)
  | _ => s

/-- Whether an alighting store that has passed its checks stands behind a combining queue: what would change where its page lies
waits for it. -/
def State.alightsQueued (s : State) : Bool :=
  s.strands.any (fun x => match x.2.wait with | .alightTurn .. => true | _ => false)

/-- R242: whether the record of a waiting operation, or a marker of it, is at the operation's stop. -/
def State.tagSeen (s : State) (sid : Nat) : Bool :=
  match (s.strand sid).wait with
  | .ring tag _ _ _ _ _ =>
    s.records.any (fun r => r.domain == (s.strand sid).domain && r.tag == tag &&
      placeAt r.pos s.cycle == stopPlace r.ring (coreOf sid))
  | _ => false

/-- SAM_NOTAG (R242): 2,368 cycles have passed since issue, or since the stop last saw the marker or the record, and the
operation traps. (log entry 76, DEDUCED.) -/
def execSamNotag (sid : Nat) (s : State) : Result :=
  match (s.strand sid).wait with
  | .ring tag _ _ _ since _ =>
    if since + 2368 ≤ s.cycle ∧ !s.tagSeen sid then
      .next (s.trapOn sid (addrTrap causeSamNotag (BitVec.ofNat 64 tag)))
    else .next s
  | _ => .next s

/-- R242: the SAM_NOTAG counts of the operations whose stop sees their record or its marker in this cycle start afresh. -/
def State.tagsSeen (s : State) : State :=
  s.strandIds.foldl (fun s sid =>
    match (s.strand sid).wait with
    | .ring tag d cls op _ issued =>
      if s.tagSeen sid then s.setStrand sid { s.strand sid with wait := .ring tag d cls op s.cycle issued } else s
    | _ => s) s

/-! ### Re-entry and markers (R244) -/

/-- A released record's own marker: its name's that its stop left. -/
def State.ownMarker (s : State) (e : Reentry) : Option Record :=
  s.records.find? (fun m => m.capturedMark && m.domain == e.rec_.domain && m.tag == e.rec_.tag && m.stop == e.core)

/-- R244: a released record can re-enter: the position at its stop is empty or its own marker's. -/
def State.reentryDue (s : State) (e : Reentry) : Bool :=
  let pos := posAtStop e.rec_.ring e.core s.cycle
  s.posEmpty e.rec_.ring pos || (s.ownMarker e).any (fun m => m.pos == pos)

/-- R244: the first record that waits at a core's stop and can re-enter does so; a marker of its own there is cleared. The
passage count is kept. -/
def State.reenter (s : State) (core : Nat) : State :=
  match s.reentries.find? (fun e => e.core == core && s.reentryDue e) with
  | none => s
  | some e =>
    let pos := posAtStop e.rec_.ring e.core s.cycle
    let r := e.rec_
    { s with
      reentries := s.reentries.filter (fun x => x != e)
      records := s.records.filter (fun x =>
        !(x.capturedMark && x.domain == r.domain && x.tag == r.tag && x.stop == e.core && x.pos == pos)) ++
          [r.placed pos r.rev.toNat s.cycle] }

/-- RECORD_REENTRY (R244). -/
def execRecordReentry (sid : Nat) (s : State) : Result := .next (s.reenter (coreOf sid))

/-- R244: a marker passes the stop that left it, and its record has been put back. -/
def State.markerDone (s : State) (m : Record) : Bool :=
  m.capturedMark && placeAt m.pos s.cycle == stopPlace m.ring m.stop &&
    s.captures.all (fun x => x.2.all (fun c =>
      !(coreOf x.1 == m.stop && c.rec_.domain == m.domain && c.rec_.tag == m.tag))) &&
    s.reentries.all (fun e => !(e.core == m.stop && e.rec_.domain == m.domain && e.rec_.tag == m.tag))

/-- CAPTURE_MARKER_CLEAR (R244): a marker of a strand's stop passes it and is cleared. -/
def execCaptureMarkerClear (sid : Nat) (s : State) : Result :=
  .next { s with records := s.records.filter (fun m => !(m.stop == coreOf sid && s.markerDone m)) }

/-- What the rings do in every cycle: the counts of R242, the records that re-enter, the markers that are cleared. It comes after
the strands' turns, so a board takes an empty position before a re-entry does; of two re-entries the one released first comes
first. (log entry 112, DESIGN CHOICE.) -/
def State.ringTurn (s : State) : State :=
  let s1 := s.reentries.foldl (fun s e => s.reenter e.core) s.tagsSeen
  { s1 with records := s1.records.filter (fun m => !s1.markerDone m) }

/-- CAPTURE_HOLD_EXPIRY (R245): the hold is over: the record is released with CAPTURE_LOST. -/
def execCaptureHoldExpiry (sid : Nat) (s : State) : Result :=
  match s.captureOf sid with
  | some c => if c.expires ≤ s.cycle then .next (s.releaseCapture sid true) else .next s
  | none => .next s

end Sys2Proof.Machine
end

