-- ==== Sys2Proof/Machine/Boundary.lean ====
section
/-! DEFINITION. Instruction boundaries: what an event does to a strand that waits (R92, R143, R171, R199, R202, R216,
R218, R222, R229, R232, R250), which events are due (R289, R291, R292, R219), wake conditions (R143), stops and
halts (R18, R296, R300), and the steps that take them. -/
namespace Sys2Proof.Machine

/-! ### The route-class table (R220) -/

/-- A valid route entry (R220). -/
structure RouteEntry where
  entry : Word
  land : Word
  domain : BitVec 12
  strand : Nat
deriving DecidableEq, Repr

/-- R220: where a route-class table stands: at a multiple of 512, so that no entry crosses a page. (log entry 109, DESIGN
CHOICE.) -/
def tableAt (route : Word) : Word := route &&& ~~~(511 : Word)

/-- Where the route entry of a class on a core stands. -/
def State.routeAt (s : State) (core cls : Nat) : Word := tableAt (s.core core).routeTable + BitVec.ofNat 64 (32 * cls)

/-- A route entry from its 32 bytes, if it is valid, with the class's landing block on a core. -/
def routeFrom (core x : Nat) : Option RouteEntry :=
  let ctl := BitVec.ofNat 64 (cardField x 16 8)
  let land := BitVec.ofNat 64 (cardField x 8 8)
  if ctl.getLsbD 0 then
    some ⟨BitVec.ofNat 64 (cardField x 0 8),
      if ctl.getLsbD 1 then land + BitVec.ofNat 64 (128 * (core / 32 * 24 + core % 32)) else land,
      ctl.extractLsb' 16 12, (ctl.extractLsb' 8 2).toNat⟩
  else none

/-- A core's read of the route entry of a class (log entry 8, DESIGN CHOICE), with the A bits its translation sets (R312). -/
def State.routeLoad (s : State) (core cls : Nat) : OwnLoad × State := s.loadOwn (s.coreList core) core (s.routeAt core cls) 32

/-- Whether the route entry of a class on a core lies in another device's memory. -/
def State.routeFar (s : State) (core cls : Nat) : Bool := match (s.routeLoad core cls).1 with | .far _ _ => true | _ => false

/-- The route entry of a class on a core, of the package's own memory. -/
def State.routeEntry (s : State) (core cls : Nat) : Option RouteEntry :=
  (s.routeLoad core cls).1.value.bind (routeFrom core)

/-- The route entry of a message on a core: what was read of another device's memory when it arrived, or the table's (log entry
30, DEDUCED). -/
def State.routeOf (s : State) (core : Nat) (m : Msg) : Option RouteEntry :=
  match m.entry with
  | some x => routeFrom core x
  | none => s.routeEntry core m.cls

/-- The state after a read of a route entry. -/
def State.touchRoute (s : State) (core cls : Nat) : State := (s.routeLoad core cls).2

/-- Messages of a core that some strand is handling. -/
def State.handledNow (s : State) (core : Nat) : List Nat :=
  (List.range 4).filterMap (fun i => (s.strand (4 * core + i)).handler.map (fun h => h.msg))

/-- R224: whether a message of a core may be dispatched: its class is not masked, and no strand is handling it. -/
def State.dispatchable (s : State) (core : Nat) (m : Msg) : Bool :=
  !(s.core core).rcmask.getLsbD m.cls && !(s.handledNow core).contains m.num

/-- R75, R223: the oldest message that may be dispatched but whose route entry lies on another device, unread: a READ must
bring it first. (log entry 30, DEDUCED.) -/
def State.routeUnread (s : State) (core : Nat) : Option Msg :=
  (s.core core).mailbox.find? (fun m => s.dispatchable core m && m.entry.isNone && s.routeFar core m.cls)

/-- R223: the oldest unmasked accepted message for a strand, with its route entry. (log entry 30, DEDUCED.) One that a
strand is handling holds its slot and counts as no message here, nor for a wake condition (log entry 77, DESIGN
CHOICE). -/
def State.messageFor (s : State) (sid : Nat) : Option (Msg × RouteEntry) :=
  let core := coreOf sid
  (s.core core).mailbox.findSome? (fun m =>
    if !s.dispatchable core m then none
    else
      match s.routeOf core m with
      | some r => if r.strand = sid % 4 then some (m, r) else none
      | none => none)

/-! ### Interrupts pending (R284, R289) -/

/-- TIME (R44): the 100 MHz count; 21 cycles of the 2.1 GHz clock are one of its steps. -/
def State.time (s : State) : Nat := s.cycle / 21

/-- TIMER's condition (R284). -/
def State.timerPending (s : State) (sid : Nat) : Bool := decide ((s.strand sid).timecmp.toNat ≤ s.time)

/-- IPEND as it reads: bit 0 follows TIMER's condition. -/
def State.ipendNow (s : State) (sid : Nat) : BitVec 4 :=
  ((s.strand sid).ipend &&& 14) ||| (if s.timerPending sid then 1 else 0)

/-- R143: a wake condition holds for a strand. -/
def State.wakeHolds (s : State) (sid : Nat) : Bool :=
  (s.ipendNow sid &&& ((s.strand sid).ien ||| 8)) != 0 || (s.messageFor sid).isSome

/-- Whether a strand may take events at all: a parked, stopped or halted one takes none. -/
def State.attends (s : State) (sid : Nat) : Bool :=
  !(s.strand sid).parked && !(s.strand sid).parking && !(s.strand sid).stopped && !(s.core (coreOf sid)).halted

/-- R289: the mode lets an interrupt or a dispatch in. -/
def Strand.open_ (x : Strand) : Bool := x.mode == .u || x.ie

/-- A trap that is due at a boundary: the trap, the IPEND bits it clears, and whether it is STEEP_ASYNC. -/
structure DueTrap where
  trap : Trap
  clears : BitVec 4
  async : Bool
deriving DecidableEq, Repr

/-- R289: the first event due for a strand, message dispatch apart. (log entry 46, DEDUCED.) -/
def State.due (s : State) (sid : Nat) : Option DueTrap :=
  let x := s.strand sid
  let pend := s.ipendNow sid &&& x.ien
  let calm := x.handler.isNone && (s.captureOf sid).isNone
  if !s.attends sid then none
  else if x.ipend.getLsbD 3 then some ⟨⟨causeMachineCheck, 0, 0, x.syndrome⟩, 8, false⟩
  else if x.mode == .u && (x.handler.map (fun h => h.left)) == some 0 then
    some ⟨⟨causeHandlerOverrun, 0, 0, BitVec.ofNat 48 ((x.handler.map (fun h => h.cls)).getD 0)⟩, 0, false⟩
  else if x.mode == .u && x.handler.isNone && x.running.isSome && x.groupBudget == 0 then
    some ⟨plainTrap causeGroupBudget, 0, false⟩
  else
    match (if calm then x.asyncDue else none) with
    | some n => some ⟨⟨causeSteepAsync, 0, 0, BitVec.ofNat 48 n⟩, 0, true⟩
    | none =>
      if !calm || !x.open_ then none
      else if pend.getLsbD 2 then some ⟨⟨causeInterstrand, 0, 0, x.lastWaker.setWidth 48⟩, 4, false⟩
      else if pend.getLsbD 1 then some ⟨plainTrap causeHostRequest, 2, false⟩
      else if pend.getLsbD 0 then some ⟨plainTrap causeTimer, 0, false⟩
      else none

/-! ### What an event does to a wait -/

/-- Whether a wait tries its instruction again at the strand's turn. -/
def Wait.retries : Wait → Bool
  | .none => true
  | .poll => true
  | .hold => true
  | .vector .. => true
  | .ordered .. => true
  | .scatter .. => true
  | .gnext _ => true
  | _ => false

/-- Whether a wait holds an access of the instruction that is tried again when the wait ends. -/
def Wait.holdsTurn : Wait → Bool
  | .gather _ => true
  | .ring .. => true
  | .board .. => true
  | .landing .. => true
  | .alightTurn .. => true
  | _ => false

/-- The kinds of event that meet a wait. -/
inductive Meeting where
  | trap
  | handler
  | stop
deriving DecidableEq, Repr

/-- Whether Steep entries include one bound to another device. -/
def awaitsDevice (entries : List SteepEntry) : Bool := entries.any (fun e => (destDevice e.dest).isSome)

/-- R212: the bytes covered by a CFLUSH or CINV that an event ends early, at a 512-byte region boundary the spec leaves
open (log entry 5, DESIGN CHOICE). -/
def earlyEnd (choice start bytes : Nat) : Nat :=
  let regions := (start + bytes) / 512 - start / 512
  min bytes ((start / 512 + choice % (regions + 1)) * 512 - start)

/-- R202: a GBAR met by an interrupt or a handler counts its timeout afresh when it is reissued: the deadline of its
arrival is dropped. -/
def State.dropDeadline (s : State) (sid : Nat) : State :=
  let x := s.strand sid
  let rank := x.gangRank.toNat
  { s with gangs := s.gangs.map (fun g =>
      if g.1 = x.gangId.toNat then (g.1, { g.2 with deadlines := g.2.deadlines.filter (fun d => d.1 != rank) }) else g) }

/-- R171: a request of a vector store is out: its elements have begun. -/
def State.storeOut (s : State) (xtag : Option Nat) : Bool :=
  (xtag.bind s.fabricReq).any (fun r => r.packet.kind == 0x02 || r.packet.kind == 0x05)

/-- A strand brought to an instruction boundary for an event: its wait is cancelled (the instruction will be reissued
at the same pc), completed, or, for a wait that holds events off, not ended: none. An event that ends a WFI without being a wake condition
(HANDLER_OVERRUN, GROUP_BUDGET, STEEP_ASYNC) completes it as well (log entry 95, DESIGN CHOICE). -/
def State.settle (s : State) (sid : Nat) (meet : Meeting) : Option State :=
  let x := s.strand sid
  let cancel := s.setStrand sid { x with wait := .none }
  match x.wait with
  | .none => some s
  | .poll => some cancel
  | .hold => none
  | .load .. => none
  | .amo .. => none
  | .ramow .. => none
  | .fence kind scope mask =>
    if scope < 5 ∨ kind = 1 then none
    else if awaitsDevice (s.coveredEntries sid scope mask) ∨ !s.storesAnswered sid mask then some cancel
    else none
  | .sflushw _ => if awaitsDevice (s.openEntries sid) then some cancel else none
  | .vector xtag _ _ => if meet = .handler ∨ s.storeOut xtag then none else some cancel
  | .ticket .. => none
  | .ordered .. => none
  | .scatter .. => none
  | .fetch _ => some (s.setStrand sid { x with wait := .none, gathered := [] })
  | .gather _ => none
  | .landing .. => none
  | .inval .. => none
  | .cardSlot .. => some cancel
  | .sewait _ => some cancel
  | .gbar _ => if meet = .stop then some cancel else some (cancel.dropDeadline sid)
  | .sem _ =>
    let c := cancel.core (coreOf sid)
    some (cancel.setCore (coreOf sid) { c with semQueue := c.semQueue.filter (fun q => q.1 != sid) })
  | .wfi => if meet = .stop then some cancel else some (s.asStrand sid State.retire)
  | .pause .. => some (s.asStrand sid State.retire)
  | .ring .. => if (s.passageDue sid).isSome then none else some cancel
  | .board _ _ tag _ => if s.boardDue sid then none else some (cancel.withdrawBoard x.domain tag)
  | .alight .. => none
  | .alightTurn .. => none
  | .amsend .. => none
  | .amdone d _ => some (s.asStrand sid (fun s => s.writeG d 4))
  | .writeback d start bytes =>
    some (s.drawn.asStrand sid (fun t => t.writeG d (BitVec.ofNat 64 (earlyEnd (Config.freeChoice s.fresh) start bytes))))
  | .gnext _ => some cancel
  | .gdone => some cancel
  | .gtmcast .. => none

/-- R171: what TRAP_ELEM shows for a trap taken at a strand that waits in a vector access. -/
def Strand.elemNow (x : Strand) : BitVec 11 :=
  match x.wait with
  | .vector .. => BitVec.ofNat 11 x.vstart
  | _ => 0

/-- The first due event of a strand taken, if one is due and the strand's wait lets it in. -/
def State.takeDue (s : State) (sid : Nat) : Option State :=
  match s.due sid with
  | none => none
  | some d =>
    let elem := (s.strand sid).elemNow
    match s.settle sid .trap with
    | none => none
    | some s1 =>
      let x := s1.strand sid
      let s2 := s1.setStrand sid { x with
        ipend := x.ipend &&& ~~~d.clears, asyncDue := if d.async then none else x.asyncDue }
      some (s2.trapOn sid { d.trap with elem := elem })

/-- The same for one cause only. -/
def State.takeCause (s : State) (sid : Nat) (cause : BitVec 8) : Result :=
  if (s.due sid).map (fun d => d.trap.cause) = some cause then .next ((s.takeDue sid).getD s) else .next s

/-! ### Stopping (R18, R296, R300) -/

/-- R250: what a passage that has come does, or, for a board, an empty position: it goes before any event or stop. -/
def State.passageTurn (s : State) (sid : Nat) : Option Result :=
  if (s.passageDue sid).isSome then some (execSamovarPassage sid s)
  else if s.boardDue sid then some (execBoardFill sid s)
  else none

/-- R250: a passage that has come is taken before a stop. -/
def State.ringFirst (s : State) (sid : Nat) : State :=
  match s.passageTurn sid with
  | some (.next s1) => s1
  | _ => s

/-- R171: what a stop shows of a vector access it meets: TRAP_ELEM and TRAP_PC. -/
def Strand.showStop (x : Strand) (w : Wait) : Strand :=
  match w with
  | .vector .. => { x with trapElem := BitVec.ofNat 11 x.vstart, trapPc := x.pc }
  | _ => x

/-- A strand that is being stopped: a passage that has come is taken, its capture is released, its wait settled where it
can be; one that holds finishes its instruction first and issues no other. (log entry 59, DEDUCED.) -/
def State.quiet (s : State) (sid : Nat) : State :=
  let s1 := (s.ringFirst sid).releaseCapture sid true
  match s1.settle sid .stop with
  | some s2 => s2.setStrand sid ((s2.strand sid).showStop (s1.strand sid).wait)
  | none => s1

/-- Whether a strand that was told to stop has come to its boundary. -/
def State.atRest (s : State) (sid : Nat) : Bool := (s.strand sid).wait == .none

/-- R296: a park of a strand: PARKED is set once the strand has come to its boundary. -/
def Strand.parkNow (x : Strand) : Strand :=
  { x with parked := x.parked || x.wait == .none, parking := x.wait != .none }

/-- R296: the strand parked, or, while its instruction holds, about to be. -/
def State.park (s : State) (sid : Nat) : State :=
  let s1 := s.quiet sid
  s1.setStrand sid (s1.strand sid).parkNow

/-- A gang member stopped (R18). -/
def State.stopStrand (s : State) (sid : Nat) : State :=
  let s1 := s.quiet sid
  s1.setStrand sid { s1.strand sid with stopped := true }

/-- R300: a core told to halt: every strand comes to rest. -/
def State.haltCore (s : State) (core : Nat) : State :=
  let s1 := (List.range 4).foldl (fun s i => s.quiet (4 * core + i)) s
  s1.setCore core { s1.core core with halted := true }

/-- DBG_CTL.HALTED: the core is halted and every issued instruction of its strands has completed. -/
def State.haltedNow (s : State) (core : Nat) : Bool :=
  (s.core core).halted && (s.core core).matrix.isEmpty && (List.range 4).all (fun i => s.atRest (4 * core + i))

/-- R300, R117: a frame in progress is captured afresh before its next execution. -/
def State.recapture (s : State) (sid : Nat) : State :=
  let x := s.strand sid
  match x.frame with
  | none => s
  | some f => s.setStrand sid { x with frame := some { f with stale := true } }

/-- R300: the core resumes; frames in progress are recaptured from memory. -/
def State.resumeCore (s : State) (core : Nat) : State :=
  let s1 := s.setCore core { s.core core with halted := false }
  (List.range 4).foldl (fun s i => s.recapture (4 * core + i)) s1

/-! ### The steps -/

/-- TRAP_ENTRY (R288, R289): the first pending event of a strand is taken at its instruction boundary. -/
def execTrapEntry (sid : Nat) (s : State) : Result := .next ((s.takeDue sid).getD s)

/-- STEEP_ASYNC (R219). -/
def execSteepAsync (sid : Nat) (s : State) : Result := s.takeCause sid causeSteepAsync

/-- HANDLER_OVERRUN (R291). -/
def execHandlerOverrun (sid : Nat) (s : State) : Result := s.takeCause sid causeHandlerOverrun

/-- GROUP_BUDGET (R292). -/
def execGroupBudget (sid : Nat) (s : State) : Result := s.takeCause sid causeGroupBudget

/-- TIMER (R284): TIME has reached TIMECMP and TIMER is pending. -/
def execTimer (sid : Nat) (s : State) : Result :=
  if s.timerPending sid then
    .next (s.setStrand sid { s.strand sid with ipend := (s.strand sid).ipend ||| 1 })
  else .next s

/-- R143: a wait in WFI or PAUSE is over. -/
def State.endSleep (s : State) (sid : Nat) : State :=
  match (s.strand sid).wait with
  | .wfi => s.asStrand sid State.retire
  | .pause _ true => s.asStrand sid State.retire
  | _ => s

/-- WAKE_CONDITION (R143): a wake condition of the strand holds and ends its WFI or PAUSE. -/
def execWakeCondition (sid : Nat) (s : State) : Result :=
  if s.wakeHolds sid then .next (s.endSleep sid) else .next s

/-- PAUSE_EXPIRY (R142): the cycles of a PAUSE or a YIELD have run out. -/
def execPauseExpiry (sid : Nat) (s : State) : Result :=
  match (s.strand sid).wait with
  | .pause t _ => if t ≤ s.cycle then .next (s.asStrand sid State.retire) else .next s
  | _ => .next s

/-- DEBUG_HALT (R300). -/
def execDebugHalt (core : Nat) (s : State) : Result :=
  if coreExists core then .next (s.haltCore core) else .next s

/-- DEBUG_RESUME (R300). -/
def execDebugResume (core : Nat) (s : State) : Result :=
  if coreExists core then .next (s.resumeCore core) else .next s

end Sys2Proof.Machine
end

