-- ==== Sys2Proof/Machine/Alloc.lean ====
section
/-! DEFINITION. The hardware allocator (R81, R233, R336): BALLOC, BFREE and BLOCK_RETURN. -/
namespace Sys2Proof.Machine

/-- R81: bytes of a block of a size class. -/
def blockBytes (cls : Nat) : Nat := 256 * 2 ^ cls

/-- The word of an ALLOC instruction. -/
def allocWord (d a : BitVec 5) (fn : BitVec 11) : InstrWord := encRrr 0x3D d a 0 fn

/-- R81: a block is handed out with undefined contents: its bytes are free values where its page is in the package's
memory (log entry 88, DESIGN CHOICE). -/
def State.spoilBlock (s : State) (b : BlockTransit) : State :=
  match s.translate .load b.addr with
  | some (.mem f, _) => s.drawn.writeSpan f (blockBytes b.cls) (s.freeValue (8 * blockBytes b.cls)).toNat
  | _ => s

/-- BALLOC (R81, R233): the block longest in the cluster's list of a class for the strand's domain (log entry 113, DESIGN CHOICE), or
0. -/
def execBalloc (d c : BitVec 5) (s : State) : Result :=
  let cls := (c.extractLsb' 0 4).toNat
  if 9 ≤ cls then .next (s.trap (wordTrap causeIllegal (allocWord d c 0)))
  else
    match s.freeBlocks.find? (fun b =>
        b.cluster == clusterOf s.cur && b.cls == cls && b.domain == s.me.domain) with
    | none => .next (s.writeG d 0)
    | some b => .next ((({ s with freeBlocks := s.freeBlocks.erase b }).spoilBlock b).writeG d (BitVec.ofNat 64 b.addr))

/-- The arena of a domain that holds an address. -/
def State.arenaOf (s : State) (domain : BitVec 12) (a : Nat) : Option Arena :=
  s.arenas.find? (fun r => r.domain == domain && decide (r.base ≤ a) && decide (a < r.base + r.bytes))

/-- BFREE (R81, R233): the block goes back to the list of its arena's cluster: at once in the cluster itself, else on its
way there. -/
def execBfree (a : BitVec 5) (s : State) : Result :=
  let at_ := s.g a
  match s.arenaOf s.me.domain at_.toNat with
  | none => .next (s.trap (addrTrap causeDomainRights at_))
  | some r =>
    if at_.toNat % blockBytes r.cls ≠ 0 then .next (s.trap (addrTrap causeMisaligned at_))
    else
      let b : BlockTransit := ⟨r.cluster, r.cls, r.domain, at_.toNat⟩
      if r.cluster = clusterOf s.cur then .next (State.retire { s with freeBlocks := s.freeBlocks ++ [b] })
      else .next (State.retire { s with blocksBack := s.blocksBack ++ [b] })

/-- BLOCK_RETURN (R81): the block longest on its way is back on its cluster's list; a block whose arena is gone has no
list. -/
def execBlockReturn (s : State) : Result :=
  match s.blocksBack with
  | [] => .next s
  | b :: rest =>
    let s1 := { s with blocksBack := rest }
    if s.arenas.any (fun r => r.cluster == b.cluster && r.cls == b.cls && r.domain == b.domain &&
        decide (r.base ≤ b.addr) && decide (b.addr < r.base + r.bytes)) then
      .next { s1 with freeBlocks := s1.freeBlocks ++ [b] }
    else .next s1

end Sys2Proof.Machine
end

