-- ==== Sys2Proof/Machine/Atomic.lean ====
section
/-! DEFINITION. AMO and CAS (R133, R134, R95, R96, R64) and AMO_RESPONSE. -/
namespace Sys2Proof.Machine

/-- R96: the scope of a location, as the fence codes number it. -/
def placeScope (core : Nat) (p : Place) : Nat :=
  match p with
  | .mem _ => 3
  | .spad c _ => if c = core then 1 else 2
  | .decode _ _ _ => 2
  | .fabric _ _ => 5

/-- The bytes of a width bit. -/
def widthBytes (w : BitVec 1) : Nat := if w = 1 then 8 else 4

/-- What an AMO or CAS writes: the new value if it writes one, and flags. Op 15 stands for CAS with its comparand. -/
def atomicNew (n op comparand m y : Nat) : Option Nat × Flags :=
  if op = 15 then (if m = comparand then some y else none, 0)
  else
    let r := amoNew n op m y
    (some r.1, r.2)

/-- The tag of an AMO that waits in a combining queue under a number: no request bears it (R352 gives a tag 32 bits). -/
def combineTag (num : Nat) : Nat := 2 ^ 32 + num

/-- R349: an AMO ADD of ordinary memory that joins or opens a combining queue of its width, under the next number. -/
def State.combineAmo (s : State) (p : Place) (a : Word) (n op : Nat) (y : Word) : Option State :=
  match p with
  | .mem f =>
    if op = 1 ∧ (s.combiningAt (f.byte 0) n).all (fun q => q.2.width == n) then
      ({ s with serial := s.serial + 1 }).combine (some a.toNat) (f.byte 0) n (.amo s.serial s.cur s.me.domain y)
    else none
  | _ => none

/-- An AMO (ops 0 to 9) or CAS (op 15): the checks of R134, RL's Steep entries, then the location read and written as
one step, g(d) written after it. -/
def atomicOp (op : Nat) (d a b : BitVec 5) (c : BitVec 4) (rl w : BitVec 1) (s : State) : Result :=
  let n := widthBytes w
  let addr := s.g a
  let y := (s.g b).toNat % 2 ^ (8 * n)
  let comparand := (s.g d).toNat % 2 ^ (8 * n)
  if !aligned addr n then .next (s.trap (addrTrap causeMisaligned addr))
  else
    match s.resolve s.actor .atomic addr n with
    | .error (e, s1) => .next (s1.stopped e)
    | .ok (p, s1) =>
      let mask : BitVec 16 := BitVec.ofNat 16 (2 ^ c.toNat)
      let scope := placeScope (coreOf s.cur) p
      if rl = 1 ∧ !(s1.coveredEntries s.cur scope mask).isEmpty then
        .next ((s1.flushCovered s.cur scope mask).waiting .hold)
      else
        match p with
        | .fabric dev pa =>
          if !s1.mayTarget s.cur c.toNat (some dev) then .next (s1.waiting .poll)
          else
            match s1.sendRequest dev (.amo s.cur) (atomicPacket c.toNat pa n op comparand y) with
            | none => .next (s1.trap (addrTrap causeLinkDown addr))
            | some (xtag, s2) => .next (s2.waiting (.amo xtag d n (op == 9) addr))
        | p =>
          if !s1.mayTarget s.cur c.toNat none then .next (s1.waiting .poll)
          else
            match s1.combineAmo p addr n op (BitVec.ofNat 64 y) with
            | some s2 => .next (s2.waiting (.amo (combineTag s1.serial) d n false addr))
            | none =>
              match s1.takeTurn s.actor p n with
              | .error s2 => .next (s2.waiting .poll)
              | .ok s2 =>
                if s2.placePoisoned p n then .next (s2.trap (addrTrap causeMemPoison addr))
                else
                  let m := s2.readPlace p n
                  let r := atomicNew n op comparand m y
                  let s3 := match r.1 with | some x => s2.writePlace p n x | none => s2
                  let s3 := match p with | .mem f => if op = 1 then s3.addCame (f.byte 0) n else s3 | _ => s3
                  .next ((s3.setG d (amoResult n op m)).finish r.2)

/-- AMO SWAP (R133). -/
def execAmoSwap (d a b : BitVec 5) (c : BitVec 4) (_q r w : BitVec 1) (s : State) : Result := atomicOp 0 d a b c r w s
/-- AMO ADD (R133). -/
def execAmoAdd (d a b : BitVec 5) (c : BitVec 4) (_q r w : BitVec 1) (s : State) : Result := atomicOp 1 d a b c r w s
/-- AMO AND (R133). -/
def execAmoAnd (d a b : BitVec 5) (c : BitVec 4) (_q r w : BitVec 1) (s : State) : Result := atomicOp 2 d a b c r w s
/-- AMO OR (R133). -/
def execAmoOr (d a b : BitVec 5) (c : BitVec 4) (_q r w : BitVec 1) (s : State) : Result := atomicOp 3 d a b c r w s
/-- AMO XOR (R133). -/
def execAmoXor (d a b : BitVec 5) (c : BitVec 4) (_q r w : BitVec 1) (s : State) : Result := atomicOp 4 d a b c r w s
/-- AMO MIN (R133). -/
def execAmoMin (d a b : BitVec 5) (c : BitVec 4) (_q r w : BitVec 1) (s : State) : Result := atomicOp 5 d a b c r w s
/-- AMO MAX (R133). -/
def execAmoMax (d a b : BitVec 5) (c : BitVec 4) (_q r w : BitVec 1) (s : State) : Result := atomicOp 6 d a b c r w s
/-- AMO MINU (R133). -/
def execAmoMinu (d a b : BitVec 5) (c : BitVec 4) (_q r w : BitVec 1) (s : State) : Result := atomicOp 7 d a b c r w s
/-- AMO MAXU (R133). -/
def execAmoMaxu (d a b : BitVec 5) (c : BitVec 4) (_q r w : BitVec 1) (s : State) : Result := atomicOp 8 d a b c r w s
/-- AMO FADD (R133, R64). -/
def execAmoFadd (d a b : BitVec 5) (c : BitVec 4) (_q r w : BitVec 1) (s : State) : Result := atomicOp 9 d a b c r w s
/-- CAS (R133). -/
def execCas (d a b : BitVec 5) (c : BitVec 4) (_q r w : BitVec 1) (s : State) : Result := atomicOp 15 d a b c r w s

/-- AMO_RESPONSE (R64, R134): the answer of the owning device: g(d) is written, FADD's flags are ORed in, or the fault is
taken at the AMO. The flags of a device's FADD come in the response's last data byte (log entry 9, DESIGN CHOICE). -/
def execAmoResponse (sid : Nat) (s : State) : Result :=
  match (s.strand sid).wait with
  | .amo xtag d n fadd a =>
    match s.fabricReq xtag with
    | some r =>
      match r.answer with
      | some (status, data) =>
        let s1 := s.dropReq xtag
        .next (s1.asStrand sid (fun s =>
          match statusCause (status % 65536) with
          | some cause => s.trap (addrTrap (if cause = causeFaultRead then causeFaultWrite else cause) a)
          | none =>
            let m := numOf (data.take n)
            let fl : Flags := if fadd then BitVec.ofNat 5 (numOf ((data.drop n).take 1)) else 0
            (s.setG d (amoResult n (if fadd then 9 else 0) m)).finish fl))
      | none => .next s
    | none => .next s
  | _ => .next s

end Sys2Proof.Machine
end

