-- ==== Sys2Proof/Machine/Gang.lean ====
section
/-! DEFINITION. Gangs (R17, R18, R297): membership, stop and resume; GRANK; and the partition test they share with
parking (R296). -/
namespace Sys2Proof.Machine

/-- R296, R297: whether two clusters lie in one partition; a cluster in no partition is outside every one. -/
def State.samePartition (s : State) (c1 c2 : Nat) : Bool :=
  match s.partitionOf c1, s.partitionOf c2 with
  | some p, some q => p.num == q.num
  | _, _ => false

/-- A gang with no members: nothing is recorded of it (R297). -/
def Gang.none : Gang := ⟨0, [], false, 0, [], [], [], Option.none⟩

/-- The record of a gang. -/
def State.gang (s : State) (n : Nat) : Gang := mapGet s.gangs n Gang.none

/-- A gang's record replaced; one whose last member has left is forgotten (R297). -/
def State.setGang (s : State) (n : Nat) (g : Gang) : State :=
  { s with gangs := if g.members.isEmpty then mapDrop s.gangs n else mapSet s.gangs n g }

/-- The strands of a gang. -/
def Gang.strands (g : Gang) : List Nat := g.members.map Prod.snd

/-- The strand that holds a rank. -/
def Gang.holder (g : Gang) (rank : Nat) : Option Nat := (g.members.find? (fun m => m.1 == rank)).map Prod.snd

/-- Arrivals of the open phase. -/
def Gang.arrived (g : Gang) : List Nat := (g.arrivals.filter (fun a => a.2 == g.phase)).map Prod.fst

/-- R201, R297: the phase completes 96 cycles after the last arrival; a gang short of a member completes none. -/
def Gang.judge (g : Gang) (now : Nat) : Gang :=
  if g.completeAt.isNone ∧ g.arrived.length = g.size ∧ g.members.length = g.size then
    { g with completeAt := some (now + 96) }
  else g

/-- A strand leaves its gang, if it is in one; its rank becomes free. An arrival stands: it is recorded per rank (R202). -/
def State.leaveGang (s : State) (sid : Nat) : State :=
  let x := s.strand sid
  if x.gangId = 0 then s
  else
    let g := s.gang x.gangId.toNat
    let g' := { g with members := g.members.filter (fun m => m.2 != sid) }
    (s.setGang x.gangId.toNat g').setStrand sid { x with gangId := 0, gangRank := 0, gangSize := 0 }

/-- A strand joins a gang under a rank, whose arrival may stand (R202); a stopped gang stops it at once. -/
def State.enterGang (s : State) (sid : Nat) (n : Nat) (rank size : Nat) : State :=
  let g := s.gang n
  let g' := { g with size := size, members := g.members ++ [(rank, sid)] }
  let x := s.strand sid
  (s.setGang n (g'.judge s.cycle)).setStrand sid { x with
    gangId := BitVec.ofNat 16 n, gangRank := BitVec.ofNat 16 rank, gangSize := BitVec.ofNat 16 size
    stopped := g.stopped }

/-- The fields of GANG_CTL (R297). -/
def gangField (v : Word) : Nat := (v.extractLsb' 48 16).toNat
/-- RANK. -/
def rankField (v : Word) : Nat := (v.extractLsb' 32 16).toNat
/-- SIZE. -/
def sizeField (v : Word) : Nat := (v.extractLsb' 16 16).toNat

/-- R297: a SIZE or RANK out of range. -/
def rankOutside (v : Word) : Bool := sizeField v < 1 || 4608 < sizeField v || sizeField v ≤ rankField v

/-- R297: every member of a gang lies in the partition of a cluster. -/
def State.gangReachable (s : State) (cluster n : Nat) : Bool :=
  (s.gang n).strands.all (fun m => s.samePartition cluster (clusterOf m))

/-- What a CSR write comes to: done, waiting for something first, or trapping ILLEGAL_INSTR with nothing changed. -/
inductive WriteEffect where
  | done (s : State)
  | wait (s : State)
  | illegal

/-- A strand in no gang, with the rank and size it wrote (R297). -/
def State.leaveFor (s : State) (sid rank size : Nat) : State :=
  let s1 := s.leaveGang sid
  s1.setStrand sid { s1.strand sid with gangRank := BitVec.ofNat 16 rank, gangSize := BitVec.ofNat 16 size }

/-- GANG_CTL CMD 00 by a strand (R297): RANK and SIZE are judged whatever GANG names. (log entry 47, DEDUCED.) -/
def State.setMembership (s : State) (sid : Nat) (v : Word) : WriteEffect :=
  let x := s.strand sid
  let n := gangField v
  let rank := rankField v
  let size := sizeField v
  if x.workId ≠ 0 then .illegal
  else if rankOutside v then .illegal
  else if n = 0 then .done (s.leaveFor sid rank size)
  else
    let g := s.gang n
    let others := g.members.filter (fun m => m.2 != sid)
    if !s.gangReachable (clusterOf sid) n then .illegal
    else if !g.members.isEmpty && g.size != size then .illegal
    else if others.any (fun m => m.1 == rank) then .illegal
    else .done ((s.leaveGang sid).enterGang sid n rank size)

/-- R331: PREEMPT_RELEASE: a stopped strand's group assigned ahead and not yet started becomes assignable again. -/
def State.releaseAhead (s : State) (sid : Nat) : State :=
  let x := s.strand sid
  match x.ahead with
  | none => s
  | some a =>
    match s.launches.find? (fun l => l.id == a.launch) with
    | some l =>
      if l.header.flags.getLsbD 1 then
        { s.setStrand sid { x with ahead := none } with
          launches := s.launches.map (fun k => if k.id = a.launch then
            { k with assigned := k.assigned.filter (fun y => !(y.2 == sid && y.1 == a.work.toNat)) } else k) }
      else s
    | none => s

/-- R18, R331: every member of a gang but the issuing strand told to stop; groups held ahead by any member are released. -/
def State.stopGang (s : State) (n issuer : Nat) : State :=
  let g := s.gang n
  let s1 := s.setGang n { g with stopped := true }
  let s2 := (g.strands.filter (fun m => m != issuer)).foldl State.stopStrand s1
  g.strands.foldl State.releaseAhead s2

/-- GANG_CTL CMD 01 (R297): it completes when the last of the members has stopped. -/
def State.gangStopBy (s : State) (issuer : Nat) (v : Word) : WriteEffect :=
  let n := gangField v
  if n = 0 ∨ !s.gangReachable (clusterOf issuer) n then .illegal
  else
    let s1 := s.stopGang n issuer
    if ((s.gang n).strands.filter (fun m => m != issuer)).all s1.atRest then .done s1 else .wait s1

/-- R18: the cores that hold members, in ascending order. -/
def Gang.cores (g : Gang) : List Nat := ((g.strands.map coreOf).mergeSort (fun a b => decide (a ≤ b))).eraseDups

/-- R18: the cycle of the resume in which core n of N re-enters. -/
def resumeCycle (count n : Nat) : Nat := n / ((count + 63) / 64)

/-- R18: the gang resumes: its members re-enter core by core. -/
def State.resumeGang (s : State) (n : Nat) : State :=
  let g := s.gang n
  let cores := g.cores
  let s1 := s.setGang n { g with stopped := false }
  g.strands.foldl (fun s m =>
    let x := s.strand m
    if x.stopped then
      s.setStrand m { x with
        stopped := false, heldUntil := s.cycle + resumeCycle cores.length (cores.idxOf (coreOf m)) }
    else s) s1

/-- GANG_CTL CMD 10 (R297): RANK and SIZE are judged; only CMD 01 ignores them. (log entry 47, DEDUCED.) -/
def State.gangResumeBy (s : State) (issuer : Nat) (v : Word) : WriteEffect :=
  let n := gangField v
  if rankOutside v || n == 0 || !s.gangReachable (clusterOf issuer) n then .illegal else .done (s.resumeGang n)

/-- A write of GANG_CTL by its CMD (R297). -/
def State.writeGangCtl (s : State) (sid : Nat) (v : Word) : WriteEffect :=
  match (v.extractLsb' 0 2).toNat with
  | 0 => s.setMembership sid v
  | 1 => s.gangStopBy sid v
  | 2 => s.gangResumeBy sid v
  | _ => .illegal

/-- A write taken as a step of the table: a write that must wait leaves what it has begun; one that traps changes nothing
here, its trap being the CSR instruction's (R140). (log entry 50, DESIGN CHOICE.) -/
def WriteEffect.state (e : WriteEffect) (s : State) : State :=
  match e with
  | .done s1 => s1
  | .wait s1 => s1
  | .illegal => s

/-- GANG_SET_MEMBERSHIP (R297), by the running strand. -/
def execGangSetMembership (v : Word) (s : State) : Result := .next ((s.setMembership s.cur v).state s)

/-- GANG_STOP (R18, R297), by the running strand. -/
def execGangStop (v : Word) (s : State) : Result := .next ((s.gangStopBy s.cur v).state s)

/-- GANG_RESUME (R18, R297), by the running strand. -/
def execGangResume (v : Word) (s : State) : Result := .next ((s.gangResumeBy s.cur v).state s)

/-- GRANK (R204): the STRAND_ID of a rank's holder; all ones for a rank no strand holds. -/
def execGrank (d a : BitVec 5) (s : State) : Result :=
  let rank := (s.g a).toNat
  let x := s.me
  if x.gangId = 0 ∨ x.gangSize.toNat ≤ rank then .next (s.writeG d (BitVec.allOnes 64))
  else
    match (s.gang x.gangId.toNat).holder rank with
    | some m => .next (s.writeG d (BitVec.ofNat 64 m))
    | none => .next (s.writeG d (BitVec.allOnes 64))

end Sys2Proof.Machine
end

