-- ==== Sys2Proof/Machine/Barrier.lean ====
section
/-! DEFINITION. Gang barriers and tile multicast (R201 to R203), and semaphores (R198, R199). -/
namespace Sys2Proof.Machine

/-! ### Barrier bookkeeping -/

/-- The phase a rank arrived in, if its arrival stands. -/
def Gang.arrival (g : Gang) (rank : Nat) : Option Nat := (g.arrivals.find? (fun a => a.1 == rank)).map Prod.snd

/-- A rank's arrival gone, with its deadline. -/
def Gang.dropArrival (g : Gang) (rank : Nat) : Gang :=
  { g with
    arrivals := g.arrivals.filter (fun a => a.1 != rank)
    deadlines := g.deadlines.filter (fun a => a.1 != rank) }

/-- A deadline for a rank's arrival, unless it has one or there is no timeout. (log entry 68, DEDUCED.) -/
def Gang.withDeadline (g : Gang) (rank timeout : Nat) : Gang :=
  if timeout = 0 ∨ g.deadlines.any (fun d => d.1 == rank) then g
  else { g with deadlines := g.deadlines ++ [(rank, timeout)] }

/-- R201: a rank arrives; the last arrival sets the cycle of completion, 96 later. -/
def Gang.arrive (g : Gang) (rank now : Nat) : Gang :=
  { g with arrivals := g.arrivals ++ [(rank, g.phase)] }.judge now

/-- R201: the status of a rank's timeout: 2 when another member not yet arrived is parked, else 1. -/
def State.timeoutStatus (s : State) (g : Gang) (rank : Nat) : Nat :=
  if g.members.any (fun m => m.1 != rank && !g.arrived.contains m.1 && (s.strand m.2).parked) then 2 else 1

/-! ### GBAR (R201, R202) -/

/-- The word of a GANG instruction. -/
def gangWord (d a : BitVec 5) (fn : BitVec 11) : InstrWord := encRrr 0x35 d a 0 fn

/-- GBAR: Steep entries first; then the arrival, or the state of one that stands. -/
def execGbar (d a : BitVec 5) (s : State) : Result :=
  let x := s.me
  let n := x.gangId.toNat
  let rank := x.gangRank.toNat
  if x.gangId = 0 then .next (s.trap (wordTrap causeIllegal (gangWord d a 0)))
  else if !(s.coveredEntries s.cur 3 0xFFFF).isEmpty then .next ((s.flushCovered s.cur 3 0xFFFF).waiting .poll)
  else
    let g := s.gang n
    match (g.expired.find? (fun e => e.1 == rank)).map Prod.snd with
    | some status =>
      .next ((s.setGang n { g with expired := g.expired.filter (fun e => e.1 != rank) }).writeG d (BitVec.ofNat 64 status))
    | none =>
      match g.arrival rank with
      | some ph =>
        if ph < g.phase then .next ((s.setGang n (g.dropArrival rank)).writeG d 0)
        else .next ((s.setGang n (g.withDeadline rank (s.g a).toNat)).waiting (.gbar d))
      | none => .next ((s.setGang n ((g.arrive rank s.cycle).withDeadline rank (s.g a).toNat)).waiting (.gbar d))

/-- A member that waits in GBAR sees its phase complete. -/
def State.releaseMember (s : State) (n rank sid : Nat) : State :=
  match (s.strand sid).wait with
  | .gbar d => (s.setGang n ((s.gang n).dropArrival rank)).asStrand sid (fun s => s.writeG d 0)
  | _ => s

/-- BARRIER_PHASE_COMPLETE (R201): 96 cycles after the last arrival the phase completes; the members that wait see 0, the
others when they reissue. -/
def execBarrierPhaseComplete (n : Nat) (s : State) : Result :=
  let g := s.gang n
  match g.completeAt with
  | none => .next s
  | some t =>
    if s.cycle < t then .next s
    else
      let s1 := s.setGang n { g with phase := g.phase + 1, completeAt := none, deadlines := [] }
      .next (g.members.foldl (fun s m => s.releaseMember n m.1 m.2) s1)

/-- GBAR_TIMEOUT (R201, R202): the deadline of a strand's arrival has run out in an open phase: the arrival is withdrawn;
a waiting GBAR returns the status, a parked member's is kept for its reissue. -/
def execGbarTimeout (sid : Nat) (s : State) : Result :=
  let x := s.strand sid
  let n := x.gangId.toNat
  let rank := x.gangRank.toNat
  let g := s.gang n
  if x.gangId ≠ 0 ∧ g.deadlines.any (fun d => d.1 == rank && d.2 == 0) ∧ g.completeAt.isNone ∧
      g.arrived.contains rank then
    let g' := g.dropArrival rank
    let status := s.timeoutStatus g' rank
    match x.wait with
    | .gbar d => .next ((s.setGang n g').asStrand sid (fun s => s.writeG d (BitVec.ofNat 64 status)))
    | _ => .next (s.setGang n { g' with expired := g'.expired ++ [(rank, status)] })
  else .next s

/-! ### GTMCAST (R203) -/

/-- Whether a rank is among FIRST + i × STRIDE for i below COUNT. -/
def isTarget (first count stride rank : Nat) : Bool :=
  decide (0 < count) && decide (first ≤ rank) &&
    (if stride = 0 then rank == first else (rank - first) % stride == 0 && decide ((rank - first) / stride < count))

/-- The members a set delivers to: tile owners of their cores. -/
def State.delivered (s : State) (g : Gang) (set : Word) : List Nat :=
  (g.members.filter (fun m => decide (m.1 < g.size) &&
    isTarget (set.extractLsb' 0 16).toNat (set.extractLsb' 16 16).toNat (set.extractLsb' 32 16).toNat m.1 &&
      (s.core (coreOf m.2)).owns m.2)).map Prod.snd

/-- The tile copied into the cores of a list. -/
def State.copyTile (s : State) (t : BitVec 3) (bits : BitVec 32768) (tag : BitVec 8) (cores : List Nat) : State :=
  cores.foldl (fun s c => s.setCore c ((s.core c).setTile t bits tag)) s

/-- GTMCAST: it waits for its copies when there are any to write. Whether a target owns its core's tiles, and so the count, is
judged at issue (log entry 78, DESIGN CHOICE). -/
def execGtmcast (d : BitVec 3) (a : BitVec 5) (s : State) : Result :=
  let w := gangWord (d.setWidth 5) a 1
  tileOp w [] (fun s =>
    let set := s.g a
    if s.me.gangId = 0 ∨ set.extractLsb' 48 16 ≠ 0 then .next (s.trap (wordTrap causeIllegal w))
    else if s.myCore.tileTag d = 0 then .next (s.trap (wordTrap causeVectDead w))
    else
      let reached := s.delivered (s.gang s.me.gangId.toNat) set
      let cores := ((reached.map coreOf).filter (fun c => c != coreOf s.cur)).eraseDups
      if cores.isEmpty then .next (s.writeG (d.setWidth 5) (BitVec.ofNat 64 reached.length))
      else .next (s.waiting (.gtmcast (d.setWidth 5) d.toNat cores reached.length))) s

/-- GTMCAST_COPIES_WRITTEN (R203): the copies of a waiting GTMCAST are written and it completes. The source tile is read as
it stands then, not as at issue (log entry 107, DESIGN CHOICE). -/
def execGtmcastCopiesWritten (sid : Nat) (s : State) : Result :=
  match (s.strand sid).wait with
  | .gtmcast d t cores count =>
    let c := s.core (coreOf sid)
    let t := BitVec.ofNat 3 t
    .next ((s.copyTile t (c.tile t) (c.tileTag t) cores).asStrand sid (fun s => s.writeG d (BitVec.ofNat 64 count)))
  | _ => .next s

/-! ### Semaphores (R198) -/

/-- The count of a semaphore. -/
def Core.sem (c : Core) (n : BitVec 3) : Nat := c.sems[n.toNat]'(n.isLt)

/-- A semaphore's count set. -/
def Core.setSem (c : Core) (n : BitVec 3) (v : Nat) : Core := { c with sems := c.sems.set n.toNat v n.isLt }

/-- SEMPOST: the strand that waits longest completes, or the count rises to at most 65,535. -/
def execSempost (n : BitVec 3) (s : State) : Result :=
  let c := s.myCore
  match c.semQueue.find? (fun q => q.2 == n.toNat) with
  | some (sid, _) =>
    let s1 := s.setMyCore { c with semQueue := c.semQueue.filter (fun q => q.1 != sid) }
    .next (s1.asStrand sid State.retire).retire
  | none => .next (s.setMyCore (c.setSem n (min 65535 (c.sem n + 1)))).retire

/-- SEMWAIT: it takes a count, or waits for a post. -/
def execSemwait (n : BitVec 3) (s : State) : Result :=
  let c := s.myCore
  if 0 < c.sem n then .next (s.setMyCore (c.setSem n (c.sem n - 1))).retire
  else .next ((s.setMyCore { c with semQueue := c.semQueue ++ [(s.cur, n.toNat)] }).waiting (.sem n.toNat))

/-- SEMTRY: it never waits. -/
def execSemtry (d : BitVec 5) (n : BitVec 3) (s : State) : Result :=
  let c := s.myCore
  if 0 < c.sem n then .next ((s.setMyCore (c.setSem n (c.sem n - 1))).writeG d 1) else .next (s.writeG d 0)

end Sys2Proof.Machine
end

