-- ==== Sys2Proof/Machine/Migration.lean ====
section
/-! DEFINITION. Invalidation of rights and translations (R307, R313) and page migration (R316 to R318), with the steps
PLB_FILL (R306), TRANSLATION_WALK (R311, R312), MIGRATION_SECTOR_COPY and MIGRATION_COMPLETE. -/
namespace Sys2Proof.Machine

/-! ### PLBINV (R307) -/

/-- The PLB entries of the domains picked leave every core. -/
def State.dropPlb (s : State) (pick : BitVec 12 → Bool) : State :=
  { s with cores := s.cores.map (fun c => (c.1, { c.2 with plb := c.2.plb.filter (fun e => !pick e.domain) })) }

/-- Every open Steep entry. -/
def State.allEntries (s : State) : List SteepEntry :=
  s.steepBufs.flatMap (fun b => b.2.flatMap (fun x => x.entries)) ++ s.sentEntries

/-- Whether a fabric request is an access to memory, and not a message. -/
def FabricReq.isAccess (r : FabricReq) : Bool := match r.purpose with | .message _ => false | _ => true

/-- The number and the domain of a waiting AMO's ADD. -/
def CombOp.waiter : CombOp → Option (Nat × BitVec 12)
  | .amo num _ domain _ => some (num, domain)
  | _ => none

/-- The AMOs that wait in the combining queues (R349) that a test picks. -/
def State.waiters (s : State) (pick : CombQueue → Bool) : List (Nat × BitVec 12) :=
  (s.combining.filter (fun q => pick q.2)).flatMap (fun q => q.2.ops.filterMap CombOp.waiter)

/-- R307: what has passed an entry of the domains picked and is not yet performed: the requests to other devices; and the
Steep entries and the AMOs in combining queues, by their numbers. -/
def State.passedOpen (s : State) (pick : BitVec 12 → Bool) : List Nat × List Nat :=
  ((s.fabric.filter (fun r => r.isAccess && r.answer.isNone && pick r.domain)).map (fun r => r.xtag),
    (s.allEntries.filter (fun e => pick e.domain)).map (fun e => e.num) ++
      ((s.waiters (fun _ => true)).filter (fun w => pick w.2)).map Prod.fst)

/-- R307, R313: every earlier access of the running strand has been performed: its Steep entries, its stores to other devices,
and its cards but those that have stopped. -/
def State.ownPerformed (s : State) : Bool :=
  (s.openEntries s.cur).isEmpty && s.storesAnswered s.cur (BitVec.allOnes 16) &&
    s.myCore.cards.all (fun k => k.sid != s.cur)

/-- Of the requests, and of the Steep entries and waiting AMOs, that are named, one is still to be performed, or an alighting store
that has passed its checks is (R239). -/
def State.stillOpen (s : State) (tags entries : List Nat) : Bool :=
  tags.any (fun t => (s.fabricReq t).any (fun r => r.answer.isNone)) || s.allEntries.any (fun e => entries.contains e.num) ||
    (s.waiters (fun _ => true)).any (fun w => entries.contains w.1) || s.alightsQueued

/-- R307, R313: the running strand's PLBINV or HTINV completes once what is named has been performed. -/
def State.finishInval (s : State) (tags entries : List Nat) : State :=
  if s.stillOpen tags entries then s.waiting (.inval tags entries) else s.retire

/-- Every buffer that holds an entry of the domains picked is sent. -/
def State.sendDomains (s : State) (pick : BitVec 12 → Bool) : State :=
  (s.steepBufs.map Prod.fst).foldl (fun s cl => s.sendBufs cl (fun b => b.entries.any (fun e => pick e.domain))) s

/-- The domains a PLBINV operand names. -/
def plbinvPick (v : Word) (d : BitVec 12) : Bool := v.getLsbD 63 || d == v.extractLsb' 0 12

/-- PLBINV (R307): the strand's earlier accesses are performed first; then the entries are dropped, and the instruction
completes once every access that passed one has been performed. -/
def execPlbinv (a : BitVec 5) (s : State) : Result :=
  let word := encRri 0x20 6 a 0
  let v := s.g a
  if s.me.mode = .u then .next (s.trap (wordTrap causePrivileged word))
  else if v &&& 0x7FFFFFFFFFFFF000 ≠ 0 then .next (s.trap (wordTrap causeIllegal word))
  else
    let s0 := s.flushAll s.cur
    if !s0.ownPerformed then .next (s0.waiting .hold)
    else
      let s1 := (s0.dropPlb (plbinvPick v)).sendDomains (plbinvPick v)
      let open_ := s1.passedOpen (plbinvPick v)
      .next (s1.finishInval open_.1 open_.2)

/-! ### HTINV, OP 00 (R313) -/

/-- R318: an HTINV ends a migration whose final CAS failed: its page lies in the range, and software has stored a new entry since.
(log entry 98, DEDUCED.) -/
def State.endsLinger (s : State) (m : Migration) (lo n : Nat) : Bool :=
  m.lingering && rangesMeet m.va 65536 lo n && BitVec.ofNat 64 (s.readMem m.leafAt 8) != m.inTransit

/-- R313: translations of a range leave every unit, and cached copies of its words the instruction caches; a migration
whose final CAS failed may end with them (R318). -/
def State.dropTranslations (s : State) (lo n : Nat) : State :=
  { s with
    translations := s.translations.filter (fun t => !rangesMeet t.base (2 ^ t.log2) lo n)
    migrations := s.migrations.filter (fun m => !s.endsLinger m lo n)
    cores := s.cores.map (fun c => (c.1, { c.2 with icache := dropCode c.2.icache lo n })) }

/-- R313: the accesses sent to a device under a translation of the range that are not yet performed, wherever in the packet
their bytes are named. -/
def State.translatedOpen (s : State) (lo n : Nat) : List Nat :=
  let used := s.translations.filter (fun t => rangesMeet t.base (2 ^ t.log2) lo n && t.leaf.extractLsb' 60 2 == 2)
  (s.fabric.filter (fun r => r.isAccess && r.answer.isNone && used.any (fun t =>
    r.packet.ddev == t.leaf.extractLsb' 52 8 && (packetPlaces r.packet).any (fun pa =>
      decide (leafFrame t.leaf ≤ pa) && decide (pa < leafFrame t.leaf + 2 ^ t.log2))))).map (fun r => r.xtag)

/-- R313: the AMOs and Steep words of the range that wait in combining queues (R349). -/
def State.combiningOpen (s : State) (lo n : Nat) : List Nat :=
  let meets := fun (q : CombQueue) => !q.phys && rangesMeet q.addr q.width lo n
  (s.waiters meets).map Prod.fst ++
    ((s.combining.filter (fun q => meets q.2)).flatMap (fun q => q.2.ops.filterMap CombOp.steep)).map (fun e => e.num)

/-- R313: the size of an OP 00 range; none for every translation. -/
def htinvSize (v : Word) : Option Nat :=
  match (v.extractLsb' 2 2).toNat with
  | 0 => some (2 ^ 16)
  | 1 => some (2 ^ 26)
  | 2 => some (2 ^ 36)
  | _ => none

/-- HTINV with OP 00 after its checks: the strand's earlier accesses are performed first; then the translations of the range
are dropped, and it completes once every access that used one has been performed. -/
def State.htinvRange (s : State) (lo n : Nat) : Result :=
  let s0 := s.flushAll s.cur
  if !s0.ownPerformed then .next (s0.waiting .hold)
  else .next ((s0.dropTranslations lo n).finishInval (s0.translatedOpen lo n) (s0.combiningOpen lo n))

/-- R313, R367: PLBINV's and HTINV's own checks stop them: a trap, or a wait in which no event meets them. -/
def State.heldBack (s : State) (e : Stop) (a : Word) : State :=
  match e with
  | .trap _ => s.trap (addrTrap causeDomainRights a)
  | _ => s.waiting .hold

/-- HTINV with OP 00 (R313) by a strand in S-mode. (log entry 53, DEDUCED.) -/
def State.htinvInvalidate (s : State) (word : InstrWord) (v : Word) : Result :=
  let page := (v &&& ~~~(0xFFFF : Word)).toNat
  if v.extractLsb' 4 12 ≠ 0 then .next (s.trap (wordTrap causeIllegal word))
  else
    match htinvSize v with
    | none =>
      if page ≠ 0 then .next (s.trap (wordTrap causeIllegal word))
      else if s.me.plbCtl.extractLsb' 12 52 ≠ 0 then .next (s.trap (addrTrap causeDomainRights 0))
      else s.htinvRange 0 (2 ^ 64)
    | some n =>
      if page % n ≠ 0 then .next (s.trap (wordTrap causeIllegal word))
      else
        match s.plbRange s.actor 8 page (page + n) 32770 with
        | .error (e, s1) => .next (s1.heldBack e (BitVec.ofNat 64 page))
        | .ok (_, s1) => s1.htinvRange page n

/-! ### HTINV, OP 01 (R316) -/

/-- A field of 8 bytes of a descriptor written by the device, by the page table as it stands: to another device's memory it is
sent (R75); with no link, or no page that takes it, it is lost. (log entry 74, DESIGN CHOICE.) -/
def State.writeField (s : State) (desc : Word) (at_ x : Nat) : State :=
  match s.translate .store (desc.toNat + at_) with
  | none => s
  | some (.fabric dev pa, s1) => ((s1.sendRequest dev .descriptor (writePacket 0 pa 8 x)).map Prod.snd).getD s1
  | some (p, s1) => s1.writePlace p 8 x

/-- R316: the bits a new entry may change: FRAME, KEY, A and D. -/
def leafChangeable : BitVec 64 := 0x000FFFFFFFFFF060

/-- R316: what a descriptor comes to: refused, or the leaf's address with the old and the new entry.
(log entry 54, DEDUCED.) -/
def State.migrationOf (s : State) (va new rsv : Nat) : Option (Nat × BitVec 64 × BitVec 64) :=
  let e' := BitVec.ofNat 64 new
  if rsv ≠ 0 ∨ va % 65536 ≠ 0 ∨ 2 ^ 56 ≤ va then none
  else
    match s.walk va with
    | some (e, at_, 3) =>
      if e.extractLsb' 60 2 ≠ 0 ∨ e.getLsbD 10 then none
      else if !e'.getLsbD 0 || !e'.getLsbD 7 || !s.leafOk e' 3 || e'.extractLsb' 60 2 != 0 then none
      else if (e ^^^ e') &&& ~~~leafChangeable ≠ 0 then none
      else if e'.extractLsb' 20 32 = e.extractLsb' 20 32 then none
      else some (at_, e, e')
    | _ => none

/-- The migrations that are still copying. -/
def State.inFlight (s : State) : List Migration := s.migrations.filter (fun m => !m.lingering)

/-- R316: a descriptor's 64 bytes, read as a class-0 load; what keeps it from being read, or STATUS from being written (R65, R75,
R303). (log entry 54, DEDUCED.) -/
def State.readDescriptor (s : State) (desc : Word) : Checked Nat :=
  let stored := fun (s1 : State) (x : Nat) => match s1.translate .store desc.toNat with
    | none => .error (.trap (addrTrap causeFaultWrite desc), s1)
    | some (_, s2) => .ok (x, s2)
  if classOf desc ≠ .ordinary then .error (.trap (addrTrap causeFaultRead desc), s)
  else if s.ownWaits desc 64 then .error (.busy, s)
  else
    match s.translate .load desc.toNat with
    | none => .error (.trap (addrTrap causeFaultRead desc), s)
    | some (p, s1) =>
      match s1.loadPlace s.cur 0 p desc 64 with
      | .error e => .error (e, s1)
      | .ok x => stored s1 x

/-- R316: a descriptor that has been read is refused, or its migration started. -/
def State.startMigration (s : State) (desc : Word) (x : Nat) : State :=
  let va := cardField x 0 8
  match s.migrationOf va (cardField x 8 8) (cardField x 32 32) with
  | none => ((s.writeField desc 24 0).writeField desc 16 3).retire
  | some (at_, e, e') =>
    let m : Migration :=
      { desc := desc, va := va, leafAt := at_, oldLeaf := e, newLeaf := e', inTransit := e ||| 0x400,
        pointer := 0, lingering := false }
    (State.writeField { s.writeMem at_ 8 (e ||| 0x400).toNat with migrations := s.migrations ++ [m] } desc 16 1).retire

/-- R349: the leaf that a descriptor's migration would set TRANSIT in stands behind a combining queue. -/
def State.leafQueued (s : State) (x : Nat) : Bool :=
  !s.combining.isEmpty &&
    (s.migrationOf (cardField x 0 8) (cardField x 8 8) (cardField x 32 32)).any (fun r => s.agentBusy (plainSpan r.1) 8)

/-- R313: as `State.stopped`, but no event meets the instruction before it completes. -/
def State.stoppedHeld (s : State) (e : Stop) : State :=
  let s1 := s.stopped e
  if s1.me.wait = .poll then s1.waiting .hold else s1

/-- HTINV with OP 01 (R316) by a strand in S-mode: it waits for one of the 4 slots, and for the service cores when they are to
walk (R367), reads the descriptor, and starts the copy or refuses it. -/
def State.htinvMigrate (s : State) (word : InstrWord) (v : Word) : Result :=
  let desc := v &&& ~~~(0x3F : Word)
  let page := desc.toNat / 65536 * 65536
  if v.extractLsb' 2 4 ≠ 0 then .next (s.trap (wordTrap causeIllegal word))
  else
    match s.plbRange s.actor 8 page (page + 65536) 2 with
    | .error (e, s1) => .next (s1.heldBack e desc)
    | .ok (_, s1) =>
      if 4 ≤ s1.inFlight.length ∨ s1.assistedWaits 0 then .next (s1.waiting .hold)
      else
        match s1.readDescriptor desc with
        | .error (e, s2) => .next (s2.stoppedHeld e)
        | .ok (x, s2) => if s2.leafQueued x then .next (s2.waiting .hold) else .next (s2.startMigration desc x)

/-- HTINV (R313): PRIVILEGED from U-mode, then the operation g(a)[1:0] selects. -/
def execHtinv (a : BitVec 5) (s : State) : Result :=
  let word := encRri 0x20 7 a 0
  let v := s.g a
  if s.me.mode = .u then .next (s.trap (wordTrap causePrivileged word))
  else
    match (v.extractLsb' 0 2).toNat with
    | 0 => s.htinvInvalidate word v
    | 1 => s.htinvMigrate word v
    | _ => .next (s.trap (wordTrap causeIllegal word))

/-- HTINV_MIGRATE (R316): the same word with OP 01 in g(a); any other OP is not this step and traps. -/
def execHtinvMigrate (a : BitVec 5) (s : State) : Result :=
  let word := encRri 0x20 7 a 0
  let v := s.g a
  if s.me.mode = .u then .next (s.trap (wordTrap causePrivileged word))
  else if v.extractLsb' 0 2 = 1 then s.htinvMigrate word v
  else .next (s.trap (wordTrap causeIllegal word))

/-! ### The engine's steps (R317, R318) -/

/-- A migration replaced by its place in the list. -/
def State.setMigration (s : State) (slot : Nat) (m : Migration) : State := { s with migrations := s.migrations.set slot m }

/-- R349: the copy of a migration's next sector, or its end, waits: for the combining queue of a location it reads or writes, for
an alighting store that is on its way to a frame (R239), or for the service cores that are to walk for its descriptor (R367). -/
def State.copyWaits (s : State) (m : Migration) : Bool :=
  s.alightsQueued ||
    (if m.pointer < 2048 then
      s.agentBusy (plainSpan (leafFrame m.oldLeaf + 32 * m.pointer)) 32 || s.agentBusy (plainSpan (leafFrame m.newLeaf + 32 * m.pointer)) 32
    else s.agentBusy (plainSpan m.leafAt) 8 || s.ownWaits m.desc 64)

/-- MIGRATION_SECTOR_COPY (R317): the sector at the pointer goes to the new frame, its poison mark with it. -/
def execMigrationSectorCopy (slot : Nat) (s : State) : Result :=
  match s.migrations[slot]? with
  | none => .next s
  | some m =>
    if m.lingering ∨ 2048 ≤ m.pointer ∨ s.copyWaits m then .next s
    else
      let src := leafFrame m.oldLeaf + 32 * m.pointer
      let dst := leafFrame m.newLeaf + 32 * m.pointer
      let s1 := s.writeUnder (s.leafKey m.newLeaf) dst 32 (s.readUnder (s.leafKey m.oldLeaf) src 32)
      let rest := s.poison.filter (fun k => k != dst / 32)
      .next ({ s1 with poison := if s.poison.contains (src / 32) then dst / 32 :: rest else rest }.setMigration slot
        { m with pointer := m.pointer + 1 })

/-- R318: the entry to install: NEW with A and D each ORed with the old bit, TRANSIT 0. -/
def installedLeaf (now new : BitVec 64) : BitVec 64 := (new ||| (now &&& 0x60)) &&& ~~~(0x400 : BitVec 64)

/-- MIGRATION_COMPLETE (R318): with the pointer at the end the entry is installed by CAS, A and D as the walkers have set
them, and the units switch to the new frame; PROG and STATUS follow. When software has stored to the entry, in any bit, STATUS
is 4 and accesses stay on the new frame. -/
def execMigrationComplete (slot : Nat) (s : State) : Result :=
  match s.migrations[slot]? with
  | none => .next s
  | some m =>
    if m.lingering ∨ m.pointer < 2048 ∨ s.copyWaits m then .next s
    else
      let now := BitVec.ofNat 64 (s.readMem m.leafAt 8)
      if now = m.inTransit then
        let e := installedLeaf now m.newLeaf
        let s1 := { s.writeMem m.leafAt 8 e.toNat with
          migrations := s.migrations.eraseIdx slot
          translations := s.translations.map (fun (t : Translation) => if t.at_ = m.leafAt then { t with leaf := e } else t) }
        .next ((s1.writeField m.desc 24 65536).writeField m.desc 16 2)
      else
        let s1 := s.setMigration slot { m with lingering := true, inTransit := now }
        .next ((s1.writeField m.desc 24 65536).writeField m.desc 16 4)

/-! ### Fills and walks as steps of their own -/

/-- PLB_FILL (R306): a miss of a strand at an address fills an entry, if the lists grant one. -/
def execPlbFill (sid : Nat) (va : Word) (s : State) : Result :=
  if s.assistedWaits 1 then .next s else .next (s.plbLookup (s.actorOf sid) va.toNat).2

/-- TRANSLATION_WALK (R311, R312): a miss is walked, A and D are set as the access needs, and the translation is kept; a
walk that faults keeps nothing. -/
def execTranslationWalk (kind : AccessKind) (va : Word) (s : State) : Result :=
  match (if s.assistedWaits 0 then none else s.translation kind va.toNat) with
  | none => .next s
  | some (_, s1) => .next s1

end Sys2Proof.Machine
end

