-- ==== Sys2Proof/Machine/Csr.lean ====
section
/-! DEFINITION. The CSRs a strand reaches (R2, R41, R43, R44, R46, R140, R141, R283, R284, R293): reads, writes under each
register's rules, the four CSR instructions, and the table's steps for single CSR writes. -/
namespace Sys2Proof.Machine

/-! ### Reading -/

/-- A word of byte-wide tags, the first lowest (R293). -/
def tagWord (tags : List (BitVec 8)) : Word := tags.foldr (fun t acc => (acc <<< 8) ||| t.setWidth 64) 0

/-- GANG_CTL as it reads: CMD reads 00 (R297). -/
def Strand.gangCtl (x : Strand) : Word := x.gangId ++ (x.gangRank ++ (x.gangSize ++ (0 : BitVec 16)))

/-- STRAND_CTL as it reads (R284). -/
def State.strandCtl (s : State) (sid : Nat) : Word :=
  let x := s.strand sid
  (0 : BitVec 47) ++ (BitVec.ofBool x.parked ++ ((0 : BitVec 4) ++ (s.ipendNow sid ++ ((0 : BitVec 4) ++ (x.ien ||| 8)))))

/-- PIN_USED of a domain (R44, R79). -/
def State.pinUsed (s : State) (domain : BitVec 12) : Nat := (s.pins.filter (fun p => p.domain == domain)).length

/-- The value of a user CSR (R44); none for a number that is not in the table. -/
def State.userCsr (s : State) (sid n : Nat) : Option Word :=
  let x := s.strand sid
  let c := s.core (coreOf sid)
  match n with
  | 0x0001 => some (x.fflags.setWidth 64)
  | 0x0002 => some (x.frm.setWidth 64)
  | 0x0010 => some (BitVec.ofNat 64 x.vl)
  | 0x0011 => some (BitVec.ofNat 64 c.vlcap)
  | 0x0012 => some (BitVec.ofNat 64 x.vstart)
  | 0x0013 => some (BitVec.ofNat 64 x.share)
  | 0x0020 => some (BitVec.ofNat 64 (c.seSeq x.domain))
  | 0x0021 => some (BitVec.ofNat 64 c.seIssued)
  | 0x0030 => some (BitVec.ofNat 64 x.steepAge)
  | 0x0031 => some x.steepFlog
  | 0x0032 => some (BitVec.ofNat 64 x.steepFcount)
  | 0x0040 => some (c.rcmask.setWidth 64)
  | 0x0050 => some (x.gangId.setWidth 64)
  | 0x0051 => some (x.gangRank.setWidth 64)
  | 0x0052 => some (x.gangSize.setWidth 64)
  | 0x0060 => some x.workId
  | 0x0061 => some x.launchId
  | 0x0070 => some (BitVec.ofNat 64 s.cycle)
  | 0x0071 => some (BitVec.ofNat 64 s.time)
  | 0x0080 => some (BitVec.ofNat 64 sid)
  | 0x0081 => some (BitVec.ofNat 64 (coreOf sid))
  | 0x0082 => some (BitVec.ofNat 64 (clusterOf sid))
  | 0x0083 => some (BitVec.ofNat 64 Config.packageId)
  | 0x0090 => some (BitVec.ofNat 64 c.mcap)
  | 0x00A0 => some (BitVec.ofNat 64 (s.domainOf x.domain).samQuota)
  | 0x00A1 => some (BitVec.ofNat 64 (s.domainOf x.domain).pinQuota)
  | 0x00A2 => some (BitVec.ofNat 64 (s.pinUsed x.domain))
  | n => if h : 0x0100 ≤ n ∧ n < 0x0120 then some (BitVec.ofNat 64 (x.v[n - 0x100]'(by omega)).vhwe) else none

/-- The value of an S-mode CSR (R284); none for a number that is not in the table. -/
def State.superCsr (s : State) (sid n : Nat) : Option Word :=
  let x := s.strand sid
  let c := s.core (coreOf sid)
  match n with
  | 0x1000 => some x.status
  | 0x1001 => some (x.trapCause.setWidth 64)
  | 0x1002 => some x.trapPc
  | 0x1003 => some x.trapAddr
  | 0x1004 => some (x.trapElem.setWidth 64)
  | 0x1005 => some x.trapInfo
  | 0x1006 => some x.tvec
  | 0x1007 => some x.sscratch
  | 0x1010 => some (c.tileOwner.setWidth 64)
  | 0x1011 => some (c.tdirty.setWidth 64)
  | 0x1012 => some (tagWord c.tileTags.toList)
  | 0x1013 => some (tagWord c.accTags.toList)
  | 0x1020 => some (x.domain.setWidth 64)
  | 0x1021 => some x.plbCtl
  | 0x1030 => some (BitVec.ofNat 64 (s.domainOf x.domain).steepAgeMax)
  | 0x1040 => some x.groupBudget
  | 0x1041 => some (BitVec.ofNat 64 c.reassignDelay)
  | 0x1050 => some c.routeTable
  | 0x1051 => some (BitVec.ofNat 64 c.handlerBudget)
  | 0x1060 => some (s.strandCtl sid)
  | 0x1061 => some x.timecmp
  | 0x1070 => some x.gangCtl
  | _ => none

/-- R285: the F-mode CSR numbers. -/
def isServiceCsr (n : Nat) : Bool :=
  [0x2000, 0x2001, 0x2002, 0x2010, 0x2020, 0x2021, 0x2030, 0x2031, 0x2032].contains n

/-- The value of a CSR a strand may name, the service cores' excepted. -/
def State.csrRead (s : State) (sid n : Nat) : Option Word :=
  if n < 0x1000 then s.userCsr sid n
  else if n < 0x2000 then s.superCsr sid n
  else if n = 0x3000 then some s.caps
  else if n = 0x3001 then some 0x00010100
  else none

/-! ### Access (R44, R140, R284, R285) -/

/-- How a user CSR may be written. -/
inductive Access where
  | ro
  | rw
  | rwS
deriving DecidableEq, Repr

/-- R44: the access column. -/
def userAccess (n : Nat) : Access :=
  if n = 0x0001 ∨ n = 0x0002 ∨ n = 0x0012 ∨ n = 0x0030 ∨ n = 0x0031 then .rw
  else if n = 0x0010 ∨ (0x0100 ≤ n ∧ n < 0x0120) then .rwS
  else .ro

/-- R140: the trap an access meets, if any; it depends on the number, the mode and whether it writes. An unassigned number
in 0x2000 to 0x2FFF is one of R140's unassigned numbers (log entry 79, DEDUCED). -/
def State.csrDenied (s : State) (n : Nat) (mode : Mode) (write : Bool) : Option (BitVec 8) :=
  if 0x2000 ≤ n ∧ n < 0x3000 then (if isServiceCsr n then some causePrivileged else some causeIllegal)
  else
    match s.csrRead s.cur n with
    | none => some causeIllegal
    | some _ =>
      if 0x3000 ≤ n then (if write then some causeIllegal else none)
      else if 0x1000 ≤ n then (if mode = .u then some causePrivileged else none)
      else if !write then none
      else
        match userAccess n with
        | .rw => none
        | .ro => some causeIllegal
        | .rwS => if mode = .u then some causePrivileged else none

/-! ### Writing -/

/-- R40: a tag an accumulator may have. -/
def isAccTag (t : BitVec 8) : Bool := [0x00, 0x03, 0x11].contains t.toNat

/-- Byte i of a word. -/
def byteOf (v : Word) (i : Nat) : BitVec 8 := v.extractLsb' (8 * i) 8

/-- R283: STATUS as a write leaves it: PIE, IE and PMODE taken, MCX cleared by a 0, MODE and PHDLR kept. -/
def statusWritten (old v : BitVec 64) : BitVec 64 :=
  statusWord (old.getLsbD 8 && v.getLsbD 8) (old.getLsbD 7) (v.getLsbD 5) (v.getLsbD 4) (v.extractLsb' 2 2)
    (old.extractLsb' 0 2)

/-- R44: STEEP_AGE clamped to 32 and the domain's limit. -/
def State.steepAgeWritten (s : State) (domain : BitVec 12) (v : Word) : Nat :=
  let a := v.toNat % 65536
  min (max a 32) (s.domainOf domain).steepAgeMax

/-- R284: the strands of a domain whose STEEP_AGE a limit lowers; a strand not yet listed is in domain 0 with 512. -/
def State.agedStrands (s : State) (domain : BitVec 12) (limit : Nat) : List Nat :=
  (if domain = 0 ∧ limit < 512 then (List.range 6144).filter strandExists else s.strandIds).filter
    (fun i => (s.strand i).domain == domain && decide (limit < (s.strand i).steepAge))

/-- R284: STEEP_AGE_MAX written for a domain: at least 32, and every STEEP_AGE above it lowered. -/
def State.writeAgeMax (s : State) (domain : BitVec 12) (v : Word) : State :=
  let limit := max (v.toNat % 65536) 32
  (s.agedStrands domain limit).foldl (fun s i => s.setStrand i { s.strand i with steepAge := limit })
    (s.setDomain domain { s.domainOf domain with steepAgeMax := limit })

/-- R182: whether every issued tile instruction of a core has completed, and every issued GTMCAST from it or into it. -/
def State.tilesQuiet (s : State) (core : Nat) : Bool :=
  (s.core core).matrix.isEmpty &&
    s.strandIds.all (fun i => match (s.strand i).wait with
      | .gtmcast _ _ cores _ => coreOf i != core && !cores.contains core
      | .gather _ => coreOf i != core || i == s.cur
      | _ => true)

/-- The VHWE count of a register written (R43): the count only; the progress index follows it at a boundary (R42). -/
def Strand.writeVhwe (x : Strand) (n : Nat) (v : Word) : Strand :=
  if h : n < 32 then
    let k := min v.toNat 2048
    { x with v := x.v.set n { x.v[n] with vhwe := k, progress := k } }
  else x

/-- A write of a CSR under its own rules by a strand (R44, R284). Numbers that cannot be written are left as they are. ROUTE_TABLE
keeps a value off its alignment (log entry 109, DESIGN CHOICE). -/
def State.csrStore (s : State) (sid n : Nat) (v : Word) : WriteEffect :=
  let x := s.strand sid
  let core := coreOf sid
  let c := s.core core
  match n with
  | 0x0001 => .done (s.setStrand sid { x with fflags := v.extractLsb' 0 5 })
  | 0x0002 => .done (s.setStrand sid { x with frm := v.extractLsb' 0 13 &&& 0x1F07 })
  | 0x0010 => .done (s.setStrand sid { x with vl := min v.toNat 2048 })
  | 0x0012 => .done (s.setStrand sid { x with vstart := v.toNat % 2048 })
  | 0x0030 => .done (s.setStrand sid { x with steepAge := s.steepAgeWritten x.domain v })
  | 0x0031 =>
    .done (s.setStrand sid { x with
      steepFlog := (v &&& 0xFFFFFFFFFFFFF010) ||| BitVec.ofNat 64 (min (v.toNat % 16) 7) })
  | 0x1000 => .done (s.setStrand sid { x with status := statusWritten x.status v })
  | 0x1001 => .done (s.setStrand sid { x with trapCause := v.extractLsb' 0 8 })
  | 0x1002 => .done (s.setStrand sid { x with trapPc := v &&& ~~~(3 : Word) })
  | 0x1003 => .done (s.setStrand sid { x with trapAddr := v })
  | 0x1004 => .done (s.setStrand sid { x with trapElem := v.extractLsb' 0 11 })
  | 0x1005 => .done (s.setStrand sid { x with trapInfo := v &&& 0xBF0FFFFFFFFFFFFF })
  | 0x1006 => .done (s.setStrand sid { x with tvec := v &&& ~~~(3 : Word) })
  | 0x1007 => .done (s.setStrand sid { x with sscratch := v })
  | 0x1010 => if s.tilesQuiet core then .done (s.setCore core { c with tileOwner := v.extractLsb' 0 3 }) else .wait s
  | 0x1011 => .done (s.setCore core { c with tdirty := v.extractLsb' 0 12 })
  | 0x1012 =>
    .done (s.setCore core { c with
      tileTags := Vector.ofFn (fun i => if isTileTag (byteOf v i.val) then byteOf v i.val else 0) })
  | 0x1013 =>
    .done (s.setCore core { c with
      accTags := Vector.ofFn (fun i => if isAccTag (byteOf v i.val) then byteOf v i.val else 0) })
  | 0x1020 => .done (s.setStrand sid { x with domain := v.extractLsb' 0 12 })
  | 0x1021 => .done (s.setStrand sid { x with plbCtl := v &&& ~~~(0xFFF : Word) })
  | 0x1030 => .done (s.writeAgeMax x.domain v)
  | 0x1040 => .done (s.setStrand sid { x with groupBudget := v })
  | 0x1041 => .done (s.setCore core { c with reassignDelay := v.toNat % 2 ^ 32 })
  | 0x1050 => .done (s.setCore core { c with routeTable := v })
  | 0x1051 => .done (s.setCore core { c with handlerBudget := max (v.toNat % 65536) 64 })
  | 0x1060 => .done (s.setStrand sid { x with ien := (v.extractLsb' 0 4 &&& 7) ||| 8 })
  | 0x1061 => .done (s.setStrand sid { x with timecmp := v })
  | 0x1070 => s.writeGangCtl sid v
  | n => .done (if 0x0100 ≤ n ∧ n < 0x0120 then s.setStrand sid (x.writeVhwe (n - 0x100) v) else s)

/-- R141: an access to FFLAGS waits for every earlier instruction that can raise flags: an MMA still in the unit; a write
that changes accumulator tags waits as a tile instruction would (R182). (log entry 51, DEDUCED.) -/
def State.csrMustWait (s : State) (n : Nat) : Bool :=
  match n with
  | 0x0001 => s.myCore.matrix.any (fun j => j.sid == s.cur)
  | 0x1011 => !s.myCore.matrix.isEmpty
  | 0x1013 => !s.myCore.matrix.isEmpty
  | _ => false

/-- A CSR instruction (R140): the checks, then read and write as one step; `f` gives the written value from the old one,
none for CSRRD. -/
def csrOp (op : BitVec 2) (f : Option (Word → Word → Word)) (d a : BitVec 5) (n : BitVec 14) (s : State) : Result :=
  let k := n.toNat
  let word := encRri 0x1F d a (op ++ n)
  match s.csrDenied k s.me.mode f.isSome with
  | some cause => .next (s.trap (wordTrap cause word))
  | none =>
    if s.csrMustWait k then .next (s.waiting .poll)
    else
      let old := (s.csrRead s.cur k).getD 0
      match f with
      | none => .next (s.writeG d old)
      | some f =>
        match s.csrStore s.cur k (f old (s.g a)) with
        | .done s1 => .next (s1.writeG d old)
        | .wait s1 => .next (s1.waiting .poll)
        | .illegal => .next (s.trap (wordTrap causeIllegal word))

/-- CSRRW (R140). -/
def execCsrrw (d a : BitVec 5) (n : BitVec 14) (s : State) : Result := csrOp 0 (some (fun _ v => v)) d a n s
/-- CSRRS (R140). -/
def execCsrrs (d a : BitVec 5) (n : BitVec 14) (s : State) : Result := csrOp 1 (some (fun old v => old ||| v)) d a n s
/-- CSRRC (R140). -/
def execCsrrc (d a : BitVec 5) (n : BitVec 14) (s : State) : Result := csrOp 2 (some (fun old v => old &&& ~~~v)) d a n s
/-- CSRRD (R140). -/
def execCsrrd (d : BitVec 5) (n : BitVec 14) (s : State) : Result := csrOp 3 none d 0 n s

/-! ### The table's CSR writes: an S-mode write by the running strand, taken alone -/

/-- STATUS (R283). -/
def execStatus (v : Word) (s : State) : Result := .next ((s.csrStore s.cur 0x1000 v).state s)
/-- TILE_OWNER (R293, R182): nothing changes while a tile instruction is in flight. -/
def execTileOwner (v : Word) (s : State) : Result := .next ((s.csrStore s.cur 0x1010 v).state s)
/-- TTAGS (R293). -/
def execTtags (v : Word) (s : State) : Result := .next ((s.csrStore s.cur 0x1012 v).state s)
/-- ATAGS (R293). -/
def execAtags (v : Word) (s : State) : Result :=
  if s.csrMustWait 0x1013 then .next s else .next ((s.csrStore s.cur 0x1013 v).state s)
/-- STEEP_AGE_MAX (R284). -/
def execSteepAgeMax (v : Word) (s : State) : Result := .next ((s.csrStore s.cur 0x1030 v).state s)
/-- VL (R41). -/
def execVl (v : Word) (s : State) : Result := .next ((s.csrStore s.cur 0x0010 v).state s)
/-- VHWE (R43). -/
def execVhwe (n : BitVec 5) (v : Word) (s : State) : Result :=
  .next ((s.csrStore s.cur (0x0100 + n.toNat) v).state s)

/-- FFLAGS (R141): a CSR access by its op 00 write, 01 set, 10 clear, 11 read; it waits for flags still to come. -/
def execFflags (op : BitVec 2) (v : Word) (s : State) : Result :=
  if s.csrMustWait 1 then .next s
  else
    let old : Word := s.me.fflags.setWidth 64
    match op.toNat with
    | 0 => .next ((s.csrStore s.cur 1 v).state s)
    | 1 => .next ((s.csrStore s.cur 1 (old ||| v)).state s)
    | 2 => .next ((s.csrStore s.cur 1 (old &&& ~~~v)).state s)
    | _ => .next s

/-- R299: DBG_CTL written by a service core: EBRK and HALT of the core it names. -/
def State.writeDbgCtl (s : State) (v : Word) : State :=
  let core := (v.extractLsb' 16 11).toNat
  let s1 := { s with dbgCtl := v &&& 0x07FF0005 }
  if coreExists core then
    let s2 := s1.setCore core { s1.core core with ebrk := v.getLsbD 2 }
    if v.getLsbD 0 then s2.haltCore core else if (s2.core core).halted then s2.resumeCore core else s2
  else s1

/-- DBG_CTL as it reads (R299): HALTED says whether the core it names has come to rest. -/
def State.dbgCtlRead (s : State) : Word :=
  s.dbgCtl ||| (if s.haltedNow (s.dbgCtl.extractLsb' 16 11).toNat then 2 else 0)

/-- CSR_WRITE (R140): a write the rules let S-mode make, by the running strand, or, for DBG_CTL and DBG_SEL, by a service
core (R299); other numbers are left as they are. -/
def execCsrWrite (csr : BitVec 14) (v : Word) (s : State) : Result :=
  let n := csr.toNat
  if n = 0x2030 then .next (s.writeDbgCtl v)
  else if n = 0x2031 then .next { s with dbgSel := v &&& 0xFFFFFFFF }
  else if (s.csrDenied n .s true).isSome ∨ s.csrMustWait n then .next s
  else .next ((s.csrStore s.cur n v).state s)

end Sys2Proof.Machine
end

