-- ==== Sys2Proof/Machine/Errors.lean ====
section
/-! DEFINITION. Soft errors, poison and machine checks (R301, R302, R364, R375): MACHINE_CHECK, POISON_MARK,
SOFT_ERROR_CORRECTED and THERMAL_TRIP. -/
namespace Sys2Proof.Machine

/-! ### The error log (R364) -/

/-- R364: a record joins the log; a repeat of the newest merges into it (log entry 16, DEDUCED); 4,096 are kept. -/
def addError (l : List ErrRecord) (r : ErrRecord) : List ErrRecord :=
  match l with
  | [] => [r]
  | h :: t =>
    if h.unit_ = r.unit_ ∧ h.event = r.event ∧ h.place = r.place then { r with count := h.count + 1 } :: t
    else (r :: l).take 4096

/-- An event counted in the service cores' error log, newest first. -/
def State.logError (s : State) (unit event : BitVec 16) (place : BitVec 64) : State :=
  { s with errors := addError s.errors ⟨BitVec.ofNat 64 s.time, unit, event, place, 1⟩ }

/-! ### MACHINE_CHECK (R302) -/

/-- R302: the syndrome. -/
def syndromeOf (unit index : BitVec 8) : BitVec 48 := unit ++ (index ++ (0 : BitVec 32))

/-- MACHINE_CHECK pending on one strand. -/
def State.raiseCheck (s : State) (unit index : BitVec 8) (sid : Nat) : State :=
  s.setStrand sid { s.strand sid with ipend := (s.strand sid).ipend ||| 8, syndrome := syndromeOf unit index }

/-- Every strand of a cluster (R9). -/
def clusterStrands (cluster : Nat) : List Nat := ((List.range 128).map (fun i => 128 * cluster + i)).filter strandExists

/-- Every strand of the package (R9). -/
def allStrands : List Nat := (List.range 6144).filter strandExists

/-- A vector register of undefined contents. -/
def State.spoilV (s : State) (sid : Nat) (n : BitVec 5) : State :=
  let x := s.strand sid
  let r := x.v[n.toNat]'(n.isLt)
  s.drawn.setStrand sid { x with v := x.v.set n.toNat { r with bits := s.freeValue 8192 } n.isLt }

/-- A capture slot with undefined payload words. -/
def State.spoilCapture (s : State) (sid : Nat) : State :=
  match s.captureOf sid with
  | none => s
  | some c =>
    let w := Vector.ofFn (fun i : Fin 6 => (Config.freeBits (s.fresh + i.val) 64))
    { s with
      fresh := s.fresh + 6
      captures := mapSet s.captures sid (some { c with rec_ := { c.rec_ with words := w } }) }

/-- The core's CSRs an error of UNIT 7 may have spoilt (R302; log entry 38, DEDUCED). -/
def coreCsrs : List Nat := [0x0011, 0x0040, 0x0090, 0x1011, 0x1012, 0x1013, 0x1041, 0x1051]

/-- The CSRs an error of UNIT 7 may have spoilt: a strand's own and its core's, and none that says whose data it reaches
(R8, R302; log entry 38, DEDUCED). -/
def spoilableCsrs : List Nat :=
  [0x0001, 0x0002, 0x0010, 0x0012, 0x0030, 0x0031, 0x0032, 0x0060, 0x0061, 0x1001, 0x1002, 0x1003, 0x1004, 0x1005, 0x1006,
    0x1007, 0x1040, 0x1060, 0x1061] ++ coreCsrs ++ (List.range 32).map (fun n => 0x0100 + n)

/-- The CSR an error of UNIT 7 spoils now: a free choice, since INDEX does not tell which (R302). -/
def State.spoiltCsr (s : State) : Nat := spoilableCsrs.getD (Config.freeChoice s.fresh % spoilableCsrs.length) 0

/-- A CSR of undefined contents: every field holds some value it can hold, those no strand writes too (R302). -/
def State.spoilNamed (s : State) (sid n : Nat) (v : Word) : State :=
  let x := s.strand sid
  let c := s.core (coreOf sid)
  match n with
  | 0x0011 => s.setCore (coreOf sid) { c with vlcap := v.toNat % 8 + 1 }
  | 0x0032 => s.setStrand sid { x with steepFcount := v.toNat }
  | 0x0040 => s.setCore (coreOf sid) { c with rcmask := v.setWidth 16 }
  | 0x0060 => s.setStrand sid { x with workId := v }
  | 0x0061 => s.setStrand sid { x with launchId := v }
  | 0x0090 => s.setCore (coreOf sid) { c with mcap := v.toNat % 8 + 1 }
  | n => (s.csrStore sid n v).state s

/-- The chosen CSR spoilt. -/
def State.spoilCsr (s : State) (sid : Nat) : State := s.drawn.drawn.spoilNamed sid s.spoiltCsr (s.drawn.freeValue 64)

/-- R302: the state a syndrome names holds an undefined value. Units without a register of their own name none.
(log entry 38, DEDUCED.) -/
def State.spoil (s : State) (sid : Nat) (unit index : BitVec 8) : State :=
  let x := s.strand sid
  let c := s.core (coreOf sid)
  let i := index.toNat
  match unit.toNat with
  | 1 => s.drawn.setStrand sid (x.setG (index.extractLsb' 0 5) (s.freeValue 64))
  | 2 => s.spoilV sid (index.extractLsb' 0 5)
  | 3 => if h : 0 < i ∧ i < 8 then s.drawn.setStrand sid { x with p := x.p.set i (s.freeValue 2048) h.2 } else s
  | 4 => if h : i < 16 then s.drawn.setStrand sid { x with e := x.e.set i (s.freeValue 2048) h } else s
  | 5 => if h : i < 8 then s.drawn.setCore (coreOf sid) { c with tiles := c.tiles.set i (s.freeValue 32768) h } else s
  | 6 => if h : i < 4 then s.drawn.setCore (coreOf sid) { c with accs := c.accs.set i (s.freeValue 131072) h } else s
  | 7 => s.spoilCsr sid
  | 12 => s.spoilCapture sid
  | _ => s

/-- R302: the strands whose state an error of a unit touched, at a strand's core: for a directory or cluster structure every
strand of the cluster; for a CSR of the core its four strands; for a tile or an accumulator the tile owner as well (R293).
(log entry 38, DEDUCED.) -/
def State.touchedBy (s : State) (sid : Nat) (unit : BitVec 8) : List Nat :=
  if 9 ≤ unit.toNat ∧ unit.toNat ≤ 11 then clusterStrands (clusterOf sid)
  else if unit = 7 ∧ coreCsrs.contains s.spoiltCsr then (List.range 4).map (fun i => 4 * coreOf sid + i)
  else
    let owner := (s.core (coreOf sid)).tileOwner
    let other := 4 * coreOf sid + (owner.extractLsb' 0 2).toNat
    if (unit = 5 ∨ unit = 6) ∧ owner.getLsbD 2 ∧ other ≠ sid then [sid, other] else [sid]

/-- MACHINE_CHECK (R302): raised on each strand the error touched. An error in an instruction-cache line is recovered by
refetch and raises nothing. -/
def execMachineCheck (sid : Nat) (unit index : BitVec 8) (s : State) : Result :=
  if !strandExists sid then .next s
  else if unit = 8 then .next (s.setCore (coreOf sid) { s.core (coreOf sid) with icache := [] })
  else .next ((s.touchedBy sid unit).foldl (fun s i => s.raiseCheck unit index i) (s.spoil sid unit index))

/-- THERMAL_TRIP (R375): MACHINE_CHECK on every strand with UNIT 10, then power-off. -/
def execThermalTrip (s : State) : Result :=
  .next { allStrands.foldl (fun s i => s.raiseCheck 10 0 i) s with powered := false }

/-! ### POISON_MARK (R301) -/

/-- A Steep entry marked when it has the number. -/
def SteepEntry.markIf (e : SteepEntry) (n : Nat) : SteepEntry := if e.num = n then { e with poisoned := true } else e

/-- A Steep entry marked wherever it waits in the package. -/
def State.markEntry (s : State) (n : Nat) : State :=
  { s with
    steepBufs := s.steepBufs.map (fun b =>
      (b.1, b.2.map (fun x => { x with entries := x.entries.map (fun e => e.markIf n) })))
    steepSent := s.steepSent.map (fun p => (p.1, p.2.map (fun e => e.markIf n))) }

/-- Where the Steep entry with a number is bound for; 0 when none waits. -/
def State.entryAddr (s : State) (n : Nat) : Word :=
  let l := s.steepBufs.flatMap (fun b => b.2.flatMap (fun x => x.entries)) ++ s.steepSent.flatMap Prod.snd
  ((l.find? (fun e => e.num == n)).map (fun e => e.addr)).getD 0

/-- A record's payload word marked. -/
def Record.mark (r : Record) (word : Nat) : Record := { r with marks := r.marks ||| BitVec.ofNat 6 (2 ^ word) }

/-- The record of a name marked, on its ring, in a capture slot or waiting to re-enter. -/
def State.markRecord (s : State) (domain tag word : Nat) : State :=
  let hit := fun (r : Record) => !r.capturedMark && r.domain.toNat == domain && r.tag == tag
  { s with
    records := s.records.map (fun r => if hit r then r.mark word else r)
    captures := s.captures.map (fun x => (x.1, x.2.map (fun c =>
      if c.rec_.domain.toNat = domain ∧ c.rec_.tag = tag then { c with rec_ := c.rec_.mark word } else c)))
    reentries := s.reentries.map (fun e =>
      if e.rec_.domain.toNat = domain ∧ e.rec_.tag = tag then { e with rec_ := e.rec_.mark word } else e) }

/-- The shadow address of the record of a name; 0 when there is none. -/
def State.shadowOf (s : State) (domain tag : Nat) : Word :=
  let l := s.records ++ s.captures.filterMap (fun x => x.2.map (fun c => c.rec_)) ++ s.reentries.map (fun e => e.rec_)
  ((l.find? (fun r => r.domain.toNat == domain && r.tag == tag)).map (fun r => r.shadow)).getD 0

/-- A message marked: one on its way will be refused on arrival; one in its mailbox and not yet being handled is
refused now, so that its sender sees status 1 (log entry 17, DEDUCED). -/
def State.markMessage (s : State) (core num : Nat) : State :=
  let c := s.core core
  if c.mailbox.any (fun m => m.num == num) && !(s.handledNow core).contains num then
    let s1 := s.setCore core { c with mailbox := c.mailbox.filter (fun m => m.num != num) }
    let s2 := { s1 with
      messages := s1.messages.map (fun f => if f.msg.num = num then { f with answer := some 1 } else f)
      handling := s1.handling.filter (fun x => x.1 != num) }
    match s.handling.find? (fun x => x.1 == num) with
    | none => s2
    | some (_, sid) =>
      match (s2.strand sid).wait with
      | .amdone d n => if n = num then s2.asStrand sid (fun s => s.writeG d 1) else s2
      | _ => s2
  else
    { s with messages := s.messages.map (fun f =>
        if f.msg.num = num ∧ f.answer.isNone then { f with msg := { f.msg with poisoned := true } } else f) }

/-- A list with an element, once. -/
def addOnce (l : List Nat) (n : Nat) : List Nat := if l.contains n then l else l ++ [n]

/-- POISON_MARK (R301): an uncorrectable data error marks its sector, payload word, entry or message; the log's WHERE is an
address or a CORE_ID (R364). -/
def execPoisonMark (where_ : PoisonPlace) (s : State) : Result :=
  match where_ with
  | .sector n => .next ({ s with poison := addOnce s.poison n }.logError 0 2 (BitVec.ofNat 64 (32 * n)))
  | .scratch core n =>
    .next ({ s with spadPoison := addOnce s.spadPoison (spadKey core 0 / 32 + n % 2 ^ 14) }.logError 0 2 (BitVec.ofNat 64 core))
  | .samovar domain tag word => .next ((s.markRecord domain tag word).logError 11 2 (s.shadowOf domain tag))
  | .steepEntry n => .next ((s.markEntry n).logError 0 2 (s.entryAddr n))
  | .message core n => .next ((s.markMessage core n).logError 0 2 (BitVec.ofNat 64 core))

/-- SOFT_ERROR_CORRECTED (R301): corrected in place and counted; no other effect. -/
def execSoftErrorCorrected (unit : BitVec 16) (place : BitVec 64) (s : State) : Result := .next (s.logError unit 1 place)

end Sys2Proof.Machine
end

