-- ==== Sys2Proof/Machine/Group.lean ====
section
/-! DEFINITION. Launches and groups (R19 to R28, R106, R225 to R231, R322, R324 to R331): the header and its checks, the
scoreboard, assignment, the footprint fetch, dispatch and retirement, and the instructions of major 0x3C. -/
namespace Sys2Proof.Machine

/-! ### The grid (R19, R22, R24) -/

/-- O_i: the sum of the widths below field i. -/
def fieldOffset (widths : List Nat) (i : Nat) : Nat := (widths.take i).foldl (· + ·) 0

/-- Field i of an identifier. -/
def Header.field (h : Header) (w i : Nat) : Nat := w / 2 ^ fieldOffset h.widths i % 2 ^ h.widths.getD i 0

/-- The identifier of six fields. -/
def Header.ident (h : Header) (f : Nat → Nat) : Nat :=
  (List.range 6).foldl (fun acc i => acc + f i * 2 ^ fieldOffset h.widths i) 0

/-- The groups of the grid. -/
def Header.total (h : Header) : Nat := h.extents.foldl (· * ·) 1

/-- The field values of a place in sweep order: the sweep's last field varies fastest. -/
def sweepFields (extents : List Nat) : List Nat → Nat → List (Nat × Nat)
  | [], _ => []
  | f :: t, n =>
    let below := t.foldl (fun acc g => acc * extents.getD g 1) 1
    (f, n / below % extents.getD f 1) :: sweepFields extents t n

/-- The identifier at a place in sweep order (R24). -/
def Header.workAt (h : Header) (n : Nat) : Nat :=
  let fs := sweepFields h.extents h.sweep n
  h.ident (fun i => ((fs.find? (fun p => p.1 == i)).map Prod.snd).getD 0)

/-- The place of an identifier in sweep order. -/
def Header.placeOf (h : Header) (w : Nat) : Nat :=
  h.sweep.foldl (fun acc f => acc * h.extents.getD f 1 + h.field w f) 0

/-- R22: a vector is used when some component is not 0. -/
def usedVector (d : List Int) : Bool := d.any (fun x => x != 0)

/-- R22: the predecessor of a group by a vector, if it lies in the grid. -/
def Header.predecessor (h : Header) (w : Nat) (d : List Int) : Option Nat :=
  let f := fun i => (h.field w i : Int) - d.getD i 0
  if (List.range 6).all (fun i => decide (0 ≤ f i) && decide (f i < h.extents.getD i 1)) then
    some (h.ident (fun i => (f i).toNat))
  else none

/-- R22: the predecessors of a group. -/
def Header.predecessors (h : Header) (w : Nat) : List Nat :=
  (h.deps.filter usedVector).filterMap (h.predecessor w)

/-- R21: groups of one placement set agree in this. -/
def Header.placeKey (h : Header) (w : Nat) : Nat := w / 2 ^ fieldOffset h.widths h.place

/-! ### The header (R225, R228) -/

/-- A signed number of `bits` bits. -/
def signedField (bits x : Nat) : Int := (BitVec.ofNat bits x).toInt

/-- A footprint region from its 64 bytes. -/
def regionOf (x : Nat) : Region :=
  { base := BitVec.ofNat 64 (cardField x 0 8)
    coef := (List.range 6).map (fun i => BitVec.ofNat 32 (cardField x (8 + 4 * i) 4))
    pitch := BitVec.ofNat 32 (cardField x 0x20 4), rows := cardField x 0x24 2, rowBytes := cardField x 0x26 2
    dest := cardField x 0x28 8 }

/-- A header from its 128 bytes and its regions'. -/
def headerOf (x : Nat) (foot : List Nat) : Header :=
  { entry := BitVec.ofNat 64 (cardField x 0 8), args := BitVec.ofNat 64 (cardField x 8 8)
    extents := (List.range 6).map (fun i => cardField x (0x10 + 8 * i) 8)
    widths := (List.range 6).map (fun i => cardField x (0x40 + i) 1 % 64)
    deps := (List.range 4).map (fun j => (List.range 6).map (fun i => signedField 8 (cardField x (0x48 + 6 * j + i) 1)))
    sweep := (List.range 6).map (fun i => cardField x (0x60 + i) 1)
    place := cardField x 0x66 1, flags := BitVec.ofNat 8 (cardField x 0x67 1), budget := cardField x 0x70 4
    vlceil := cardField x 0x74 2, lanes := cardField x 0x76 1, regions := foot.map regionOf }

/-- R226: Z of a region. -/
def Region.size (r : Region) : Nat := (r.rows * r.rowBytes + 63) / 64 * 64

/-- R225: a region's fields are in range; R228: its eight buffers fit the carve. -/
def Region.ok (r : Region) (carve : Nat) : Bool :=
  decide (1 ≤ r.rows) && decide (16 ≤ r.rowBytes) && r.rowBytes % 16 == 0 && r.dest % 64 == 0 &&
    decide (r.dest + 8 * r.size ≤ carve)

/-- R225: the rsv bits of a header are 0, and FOOT is 0 without regions. -/
def headerRsvOk (x : Nat) : Bool :=
  (List.range 6).all (fun i => decide (cardField x (0x40 + i) 1 < 64)) && cardField x 0x46 2 == 0 &&
    decide (cardField x 0x67 1 < 4) && cardField x 0x78 8 == 0 && (cardField x 0x77 1 != 0 || cardField x 0x68 8 == 0)

/-- R19, and that the grid does not hold the end indication (R228). -/
def Header.gridOk (h : Header) : Bool :=
  let sum := fieldOffset h.widths 6
  decide (sum ≤ 64) &&
    (List.range 6).all (fun i => decide (1 ≤ h.extents.getD i 0) && decide (h.extents.getD i 0 ≤ 2 ^ h.widths.getD i 0)) &&
    !(sum == 64 && (List.range 6).all (fun i => h.extents.getD i 0 == 2 ^ h.widths.getD i 0))

/-- R228: what makes a header malformed, its rsv bits apart. -/
def Header.wellFormed (h : Header) (nfoot carve : Nat) : Bool :=
  h.gridOk && h.deps.all (fun d => (List.range 6).all (fun i => d.getD i 0 == 0 || h.widths.getD i 0 != 0)) &&
    (List.range 6).all (fun i => h.sweep.contains i) && decide (h.place ≤ 6) && decide (h.lanes ≤ 4) &&
    decide (nfoot ≤ 4) && h.regions.all (fun r => r.ok carve)

/-- R23: the first nonzero component in sweep order is positive. -/
def Header.acyclic (h : Header) : Bool :=
  (h.deps.filter usedVector).all (fun d =>
    match (h.sweep.map (fun f => d.getD f 0)).find? (fun x => x != 0) with
    | some x => decide (0 < x)
    | none => true)

/-- R228: the header checks before the package's own: status 2 or 1, or the header. -/
def checkHeader (x : Nat) (foot : List Nat) (carve : Nat) : Except Nat Header :=
  let h := headerOf x foot
  if !headerRsvOk x || (foot.any (fun r => cardField r 0x30 16 != 0)) || !h.wellFormed (cardField x 0x77 1) carve then
    .error 2
  else if !h.acyclic then .error 1
  else .ok h

/-! ### Launch rights (R322) -/

/-- Where the launch-rights entry of a domain stands (R322). -/
def Partition.rightsAt (p : Partition) (domain : BitVec 12) : Word := p.lrt + BitVec.ofNat 64 (8 * domain.toNat)

/-- The state after a read of that entry: the A bits its translation sets (R312). -/
def State.touchRights (s : State) (p : Partition) (domain : BitVec 12) : State := (s.loadOwn none 0 (p.rightsAt domain) 8).2

/-- The launch-rights entry of a domain in a partition; 0, which grants nothing, when it cannot be read or has an rsv
bit. -/
def State.launchRights (s : State) (p : Partition) (domain : BitVec 12) : BitVec 64 :=
  match (s.loadOwn none 0 (p.rightsAt domain) 8).1.value with
  | none => 0
  | some x => if x / 2 ^ 13 ≠ 0 ∨ x / 2 ^ 7 % 2 ≠ 0 then 0 else BitVec.ofNat 64 x

/-- Launches of a domain that are active. -/
def State.activeOf (s : State) (domain : BitVec 12) : Nat :=
  (s.launches.filter (fun l => !l.done && l.domain == domain)).length

/-- R322: the domain may hold one more launch: its MAXL. -/
def State.belowMaxl (s : State) (p : Partition) (domain : BitVec 12) : Bool :=
  decide (s.activeOf domain < min ((s.launchRights p domain).extractLsb' 8 5).toNat 16)

/-- R322: KINDS bit k − 1 of the domain. -/
def State.kindAllowed (s : State) (p : Partition) (domain : BitVec 12) (kind : Nat) : Bool :=
  (s.launchRights p domain).getLsbD (kind - 1)

/-- Active launches of the package. -/
def State.activeLaunches (s : State) : Nat := (s.launches.filter (fun l => !l.done)).length

/-! ### Making a launch active (R228, R231) -/

/-- R231: the launches with a slot free for one more: when all 16 are taken, that of the launch that ended first. Nothing is
known of it any more; one whose end is still to be reported to its frame or replay is kept for that alone. -/
def freeSlot (l : List Launch) : List Launch :=
  let known := l.filter (fun x => !x.forgotten)
  if known.length < 16 then l
  else
    match (known.filter (fun x => x.done)).foldl (fun best x =>
        match best with
        | some b => if x.endedAt < b.endedAt then some x else some b
        | none => some x) (none : Option Launch) with
    | some b =>
      if b.owner = .strand then l.filter (fun x => x.id != b.id)
      else l.map (fun x => if x.id = b.id then { x with forgotten := true } else x)
    | none => l

/-- R227: the next identifier, 32 bits and never 0. -/
def nextId (n : Nat) : Nat := if 2 ^ 32 ≤ n + 1 then 1 else n + 1

/-- A new active launch, with its identifier. -/
def State.addLaunch (s : State) (gang : Nat) (domain : BitVec 12) (h : Header) (owner : LaunchOwner) : Nat × State :=
  let id := s.nextLaunch
  (id, { s with
    nextLaunch := nextId id
    launches := freeSlot s.launches ++ [{
      id := id, gang := gang, domain := domain, header := h, owner := owner, base := 0, retired := [], assigned := []
      homes := [], aborted := false, done := false, endedAt := 0, forgotten := false }] })

/-- The launch with an identifier, if its slot is still its own (R231). -/
def State.launchOf (s : State) (id : Nat) : Option Launch := s.launches.find? (fun l => l.id == id && !l.forgotten)

/-- A launch replaced. -/
def State.setLaunch (s : State) (l : Launch) : State :=
  { s with launches := s.launches.map (fun x => if x.id = l.id then l else x) }

/-- `n` blocks of 64 bytes from an address on. -/
def State.readBlocks (s : State) (who : Actor) (a : Word) : Nat → Checked (List Nat)
  | 0 => .ok ([], s)
  | n + 1 =>
    match s.readBlock who a 64 with
    | .error t => .error t
    | .ok (x, s1) =>
      match s1.readBlocks who (a + 64) n with
      | .error t => .error t
      | .ok (xs, s2) => .ok (x :: xs, s2)

/-- The word of a GRP instruction. -/
def grpWord (d a : BitVec 5) (fn : BitVec 11) : InstrWord := encRrr 0x3C d a 0 fn

/-- R228 step 3: the status of a header that passed the reads, or the launch. -/
def State.present (s : State) (x : Nat) (foot : List Nat) : Word × State :=
  let domain := s.me.domain
  match checkHeader x foot (carveBytes s.myCore) with
  | .error st => (BitVec.ofNat 64 st, s)
  | .ok h =>
    match s.partitionOf (clusterOf s.cur) with
    | none => (4, s)
    | some p =>
      let s1 := s.touchRights p domain
      if !s.kindAllowed p domain 2 || !s.belowMaxl p domain then (4, s1)
      else if 16 ≤ s.activeLaunches then (3, s1)
      else
        let r := s1.addLaunch s.me.gangId.toNat domain h .strand
        (BitVec.ofNat 64 (r.1 * 2 ^ 32), r.2)

/-- LAUNCH (R228). -/
def execLaunch (d a : BitVec 5) (s : State) : Result :=
  let at_ := s.g a
  if s.me.gangId = 0 then .next (s.trap (wordTrap causeIllegal (grpWord d a 3)))
  else if !(s.openEntries s.cur).isEmpty then .next ((s.flushAll s.cur).waiting .poll)
  else if !aligned at_ 128 then .next (s.trap (addrTrap causeMisaligned at_))
  else
    match s.readBlock s.actor at_ 128 with
    | .error (e, s1) => .next (s1.stopped e)
    | .ok (x, s1) =>
      let nfoot := cardField x 0x77 1
      let foot := BitVec.ofNat 64 (cardField x 0x68 8)
      if nfoot ≠ 0 ∧ !aligned foot 64 then .next (s1.trap (addrTrap causeMisaligned foot))
      else
        match s1.readBlocks s1.actor foot nfoot with
        | .error (e, s2) => .next (s2.stopped e)
        | .ok (regions, s2) =>
          let r := s2.present x regions
          .next (r.2.writeG d r.1)

/-! ### The scoreboard (R24, R325) -/

/-- Whether the group at a place in sweep order has retired. -/
def Launch.hasRetired (l : Launch) (n : Nat) : Bool := decide (n < l.base) || l.retired.contains n

/-- The groups not yet retired nor assigned. -/
def Launch.left (l : Launch) : Nat := l.header.total - l.base - l.retired.length - l.assigned.length

/-- R325: the group at a place may be assigned. -/
def Launch.assignable (l : Launch) (n : Nat) : Bool :=
  let w := l.header.workAt n
  !l.hasRetired n && !l.assigned.any (fun a => a.1 == w) &&
    (l.header.predecessors w).all (fun p => l.hasRetired (l.header.placeOf p))

/-- The earliest assignable place from one on, inside the window of 2^20 (R24). -/
def Launch.firstAssignable (l : Launch) : Nat → Nat → Option Nat
  | 0, _ => none
  | fuel + 1, n =>
    if l.header.total ≤ n then none
    else if l.assignable n then some n
    else l.firstAssignable fuel (n + 1)

/-- R325: a strand eligible for a launch: it waits in GNEXT on it or runs a group of it, and holds none ahead. -/
def State.eligible (s : State) (l : Launch) (sid : Nat) : Bool :=
  let x := s.strand sid
  x.ahead.isNone && !x.stopped &&
    (x.wait == .gnext l.id || (match x.running with | some (id, _) => id == l.id | none => false))

/-- A strand that waits in GNEXT on the launch. -/
def State.idleFor (s : State) (l : Launch) (sid : Nat) : Bool := (s.strand sid).wait == .gnext l.id

/-- One of a list by preference (R31; log entry 5, DESIGN CHOICE). -/
def pickOne (choice : Nat) (l : List Nat) : Option Nat := l[choice % (max l.length 1)]?

/-- R21: the strands a group may go to: idle ones in the home cluster, else idle ones, else eligible ones. -/
def State.candidates (s : State) (l : Launch) (w : Nat) : List Nat :=
  let all := (s.gang l.gang).strands.filter (s.eligible l)
  let idle := all.filter (s.idleFor l)
  let home := (l.homes.find? (fun h => h.1 == l.header.placeKey w)).map Prod.snd
  let near := idle.filter (fun i => home == some (clusterOf i))
  if !near.isEmpty then near else if !idle.isEmpty then idle else all

/-- Groups of a launch that a strand has received: k of R226. -/
def Strand.receivedOf (x : Strand) (id : Nat) : Nat := mapGet x.received id 0

/-- R226: the scratchpad offset of a region's buffer for a strand and a count. -/
def Region.buffer (r : Region) (sid k : Nat) : Nat := r.dest + (2 * (sid % 4) + k % 2) * r.size

/-- R327: whether a noted store reaches a region's buffer for a strand and a count. -/
def Region.noted (r : Region) (sid k : Nat) (x : Nat × Nat) : Bool :=
  let lo := spadKey (coreOf sid) (r.buffer sid k)
  decide (x.1 < lo + r.size) && decide (lo < x.1 + x.2)

/-- R327: what a noted store leaves outside a buffer. -/
def Region.outside (r : Region) (sid k : Nat) (x : Nat × Nat) : List (Nat × Nat) :=
  let lo := spadKey (coreOf sid) (r.buffer sid k)
  if r.noted sid k x then
    [(x.1, lo - x.1), (lo + r.size, x.1 + x.2 - (lo + r.size))].filter (fun y => y.2 != 0)
  else [x]

/-- R327: the notes of stores to a group's buffers gone: its fetch begins or has ended. -/
def State.dropNotes (s : State) (sid k : Nat) (regions : List Region) : State :=
  { s with footStores := regions.foldl (fun l r => l.flatMap (r.outside sid k)) s.footStores }

/-- R327: a buffer that a store reached while its fetch was in flight holds undefined bytes. -/
def State.spoilBuffers (s : State) (sid k : Nat) (regions : List Region) : State :=
  (regions.filter (fun r => s.footStores.any (r.noted sid k))).foldl (fun s r =>
    s.drawn.writeSpad (coreOf sid) (r.buffer sid k) (min r.size (carveBytes (s.core (coreOf sid)) - r.buffer sid k))
      (s.freeValue (8 * r.size)).toNat) s

/-- A group assigned to a strand, its fetch not begun. -/
def State.assign (s : State) (l : Launch) (w sid : Nat) : State :=
  let x := s.strand sid
  let key := l.header.placeKey w
  let homes := if l.homes.any (fun h => h.1 == key) then l.homes else l.homes ++ [(key, clusterOf sid)]
  ((s.setLaunch { l with assigned := l.assigned ++ [(w, sid)], homes := homes }).setStrand sid { x with
    ahead := some ⟨l.id, BitVec.ofNat 64 w, l.header.regions.isEmpty, none, false, x.receivedOf l.id, 0, .reset⟩ }).dropNotes
      sid (x.receivedOf l.id) l.header.regions

/-- GROUP_ASSIGN (R325): the earliest assignable group of a launch goes to an eligible strand; while the service cores that
dispatch are being switched, none goes (R367). -/
def execGroupAssign (launch : Nat) (s : State) : Result :=
  match s.launchOf launch with
  | none => .next s
  | some l =>
    if l.done || l.aborted || s.assistedWaits 2 then .next s
    else
      match l.firstAssignable (2 ^ 20) l.base with
      | none => .next s
      | some n =>
        let w := l.header.workAt n
        match pickOne (Config.freeChoice s.fresh) (s.candidates l w) with
        | none => .next s
        | some sid => .next (s.drawn.assign l w sid)

/-! ### The footprint (R226, R326) -/

/-- A raw window address of the issuing core (R69). -/
def ownWindow (off : Nat) : Word := BitVec.ofNat 64 (0xFEF0000000000000 + 31 * 2 ^ 19 + off)

/-- R226: the address of row i of a region for a group. -/
def Header.rowFrom (h : Header) (r : Region) (w i : Nat) : Word :=
  let shift := (List.range 6).foldl (fun acc j => acc + (r.coef.getD j 0).toInt * (h.field w j : Int)) (0 : Int)
  addrAdd r.base (shift + pitchInt r.pitch * i)

/-- Rows of a region from row i on, `left` of them; rows done before count in `done`, and `m` stands in the first. A row that
does not fit the carve is not received (R228). (log entry 33, DEDUCED.) -/
def State.fetchRows (s : State) (sid : Nat) (h : Header) (w k : Nat) (r : Region) (done : Nat) (m : Mover) :
    Nat → State × Nat × Mover × Option Stop
  | 0 => (s, done, m, none)
  | left + 1 =>
    let i := r.rows - (left + 1)
    let off := r.buffer sid k + i * r.rowBytes
    if carveBytes (s.core (coreOf sid)) < off + r.rowBytes then s.fetchRows sid h w k r (done + 1) .reset left
    else
      match s.moveRow { s.actorOf sid with unit_ := true } none (fun p => addrAdd (h.rowFrom r w i) p)
          (fun p => addrAdd (ownWindow off) p) r.rowBytes r.rowBytes m with
      | (s1, m1, some e) => (s1, done, m1, some e)
      | (s1, m1, none) => s1.fetchRows sid h w k r (done + 1) m1 left

/-- The regions of a footprint from a number of rows done on, the fetch standing at `m` in the next one. -/
def State.fetchRegions (s : State) (sid : Nat) (h : Header) (w k : Nat) :
    List Region → Nat → Nat → Mover → State × Nat × Mover × Option Stop
  | [], _, done, m => (s, done, m, none)
  | r :: t, skip, done, m =>
    if r.rows ≤ skip then s.fetchRegions sid h w k t (skip - r.rows) done m
    else
      match s.fetchRows sid h w k r done m (r.rows - skip) with
      | (s1, n, m1, some f) => (s1, n, m1, some f)
      | (s1, n, m1, none) => s1.fetchRegions sid h w k t 0 n m1

/-- The group a strand holds ahead replaced. -/
def State.setAhead (s : State) (sid : Nat) (a : Ahead) : State := s.setStrand sid { s.strand sid with ahead := some a }

/-- A fetch that needs bytes of another device sends the READ for them. -/
def State.askFoot (s : State) (sid : Nat) (a : Ahead) (dev pa n : Nat) : State :=
  match s.sendRequest dev (.footRead sid) (readPacket 0 pa n) with
  | some (xtag, s1) => s1.setAhead sid { a with mover := { a.mover with asked := some xtag } }
  | none => s.setAhead sid a

/-- FOOTPRINT_FETCH_COMPLETE (R326): the fetch of the group a strand holds ahead finishes, stops at a row's fault, or goes as
far as the bytes of another device it reads are here. -/
def execFootprintFetchComplete (sid : Nat) (s : State) : Result :=
  let x := s.strand sid
  match x.ahead with
  | none => .next s
  | some a =>
    match s.launchOf a.launch with
    | none => .next s
    | some l =>
      if a.ready || a.fault.isSome || a.mover.asked.isSome || !s.fetchRuns sid then .next s
      else
        match s.fetchRegions sid l.header a.work.toNat a.count l.header.regions a.rows a.rows a.mover with
        | (s1, _, _, none) =>
          .next (((s1.spoilBuffers sid a.count l.header.regions).setAhead sid { a with
            ready := true, mover := .reset }).dropNotes sid a.count l.header.regions)
        | (s1, n, _, some (.trap t)) => .next (s1.setAhead sid { a with rows := n, mover := .reset, fault := some t })
        | (s1, n, m, some .busy) => .next (s1.setAhead sid { a with rows := n, mover := m })
        | (s1, n, m, some (.need _ dev pa k)) => .next (s1.askFoot sid { a with rows := n, mover := m } dev pa k)

/-! ### GNEXT, GFIELD (R229) -/

/-- The smaller of a limit and a header's, when the header's is not 0 (R324). -/
def headerLimit (own header : Nat) : Option Nat := if header = 0 then none else some (min own header)

/-- R229, R292, R324: the strand at the dispatch of the group it holds ahead. -/
def Strand.dispatched (x : Strand) (l : Launch) (w : Word) (issued : Nat) : Strand :=
  let h := l.header
  let lanes := headerLimit x.laneLimit h.lanes
  { x with
    running := some (l.id, w)
    ahead := none
    cardsBefore := issued
    received := mapSet x.received l.id (x.receivedOf l.id + 1)
    workId := w
    launchId := BitVec.ofNat 64 (l.id * 2 ^ 32)
    groupBudget := if h.budget = 0 then BitVec.allOnes 64 else BitVec.ofNat 64 h.budget
    groupLaneLimit := lanes
    groupVlCeil := headerLimit x.vlCeil h.vlceil
    share := min x.share (lanes.getD x.share) }

/-- The end indication of GNEXT. -/
def noGroup : Word := BitVec.allOnes 64

/-- GNEXT (R28, R229, R326). -/
def execGnext (d a : BitVec 5) (s : State) : Result :=
  let x := s.me
  if x.running.isSome then .next (s.trap (wordTrap causeIllegal (grpWord d a 0)))
  else
    match s.launchOf ((s.g a).toNat / 2 ^ 32) with
    | none => .next (s.writeG d noGroup)
    | some l =>
      if l.done || l.aborted || l.gang != x.gangId.toNat then .next (s.writeG d noGroup)
      else
        match x.ahead with
        | some h =>
          if h.launch = l.id then
            match h.fault with
            | some t =>
              if h.told then
                .next ((s.setMe { x with ahead := some { h with fault := none, told := false } }).waiting (.gnext l.id))
              else
                .next ((s.setMe { x with ahead := some { h with told := true } }).trap (addrTrap t.cause t.addr))
            | none =>
              if h.ready then .next ((s.setMe (x.dispatched l h.work s.myCore.seIssued)).writeG d h.work)
              else .next (s.waiting (.gnext l.id))
          else if l.left = 0 then .next (s.writeG d noGroup)
          else .next (s.waiting (.gnext l.id))
        | none => if l.left = 0 then .next (s.writeG d noGroup) else .next (s.waiting (.gnext l.id))

/-- GFIELD (R229). -/
def execGfield (d : BitVec 5) (f : BitVec 3) (s : State) : Result :=
  match s.me.running with
  | none => .next (s.writeG d 0)
  | some (id, w) =>
    match s.launchOf id with
    | none => .next (s.writeG d 0)
    | some l => .next (s.writeG d (BitVec.ofNat 64 (l.header.field w.toNat f.toNat)))

/-! ### GDONE and retirement (R230) -/

/-- The scoreboard's base moved past the groups that have retired. -/
def advanceBase (base : Nat) (retired : List Nat) : Nat → Nat × List Nat
  | 0 => (base, retired)
  | fuel + 1 =>
    if retired.contains base then advanceBase (base + 1) (retired.filter (fun n => n != base)) fuel
    else (base, retired)

/-- Whether a launch is over: every group retired, or aborted with none running. -/
def Launch.over (l : Launch) : Bool :=
  decide (l.header.total ≤ l.base) || (l.aborted && l.assigned.isEmpty)

/-- A launch marked as over when it is. -/
def Launch.settleEnd (l : Launch) (now : Nat) : Launch :=
  if l.over && !l.done then { l with done := true, endedAt := now } else l

/-- A group retires from its launch. -/
def Launch.retireGroup (l : Launch) (w now : Nat) : Launch :=
  let r := advanceBase l.base (l.header.placeOf w :: l.retired) (l.retired.length + 1)
  ({ l with base := r.1, retired := r.2, assigned := l.assigned.filter (fun a => a.1 != w) }).settleEnd now

/-- R230: the running group retires and GDONE completes. -/
def State.retireMine (s : State) (id : Nat) (w : Word) : State :=
  let s1 := match s.launchOf id with
    | some l => s.setLaunch (l.retireGroup w.toNat s.cycle)
    | none => s
  (s1.setMe { s1.me with
    running := none, workId := 0, launchId := 0, groupLaneLimit := none, groupVlCeil := none }).retire

/-- The cards a strand has issued since its group's dispatch. -/
def Strand.groupCard (x : Strand) (sid : Nat) (c : Card) : Bool := c.sid == sid && decide (x.cardsBefore < c.num)

/-- R230: the group's work is complete; its stores on other devices are answered, since the launch's completion comes behind
them (R106, R362). -/
def State.groupWorkDone (s : State) (sid : Nat) : Bool :=
  (s.openEntries sid).isEmpty && s.storesAnswered sid (BitVec.allOnes 16) && !(s.core (coreOf sid)).openCards.any ((s.strand sid).groupCard sid)

/-- GDONE at its strand: a stopped card of the group traps; the group retires, or the strand waits. -/
def State.tryDone (s : State) (id : Nat) (w : Word) : State :=
  match s.serveStopped (coreOf s.cur) (s.me.groupCard s.cur) with
  | (some t, s1) => s1.trap t
  | (none, s1) =>
    let s2 := s1.flushAll s.cur
    if s2.groupWorkDone s.cur then s2.retireMine id w else s2.waiting .gdone

/-- GDONE (R230). -/
def execGdone (s : State) : Result :=
  match s.me.running with
  | none => .next (s.trap (wordTrap causeIllegal (grpWord 0 0 2)))
  | some (id, w) => .next (s.tryDone id w)

/-- GROUP_RETIRE (R230): the work a waiting GDONE awaits is complete, or a card of the group has stopped. -/
def execGroupRetire (sid : Nat) (s : State) : Result :=
  let x := s.strand sid
  match x.wait, x.running with
  | .gdone, some (id, w) => .next (s.asStrand sid (fun s => s.tryDone id w))
  | _, _ => .next s

/-- LWAIT (R231). -/
def execLwait (d a : BitVec 5) (s : State) : Result :=
  match s.launchOf ((s.g a).toNat / 2 ^ 32) with
  | none => .next (s.writeG d 2)
  | some l =>
    if (s.me.running.map Prod.fst) = some l.id then .next (s.writeG d 3)
    else if l.done then .next (s.writeG d (if l.aborted then 1 else 0))
    else .next (s.waiting .poll)

/-! ### Reassignment (R328) and abort (R330) -/

/-- R327: a store noted in one strand's buffer as it stands in the copy of the buffer of another strand of the core. -/
def Region.copied (r : Region) (src dst k k' : Nat) (x : Nat × Nat) : Nat × Nat :=
  let lo := spadKey (coreOf src) (r.buffer src k)
  let a := max x.1 lo
  (a + r.buffer dst k' - r.buffer src k, min (x.1 + x.2) (lo + r.size) - a)

/-- R327: the notes of a strand's buffers after a group's buffers were copied to them: of a fetch that goes on in the copies, those
of the originals; of one that is complete, none. -/
def State.copyNotes (s : State) (src dst k k' : Nat) (a : Ahead) (regions : List Region) : State :=
  let copies := regions.flatMap (fun r => (s.footStores.filter (r.noted src k)).map (r.copied src dst k k'))
  let s1 := s.dropNotes dst k' regions
  if a.ready then s1 else { s1 with footStores := s1.footStores ++ copies }

/-- The buffers of a group copied from one strand's to another's on a core, raw bytes with their marks. -/
def State.copyBuffers (s : State) (src dst k k' : Nat) (regions : List Region) : State :=
  regions.foldl (fun s r =>
    let from_ := r.buffer src k
    let to_ := r.buffer dst k'
    let limit := carveBytes (s.core (coreOf src))
    let n := min r.size (min (limit - from_) (limit - to_))
    let base := spadKey (coreOf src) 0
    let marked := s.spadPoison.filter (fun q => decide ((base + from_) / 32 ≤ q) && decide (q < (base + from_ + n) / 32))
    let kept := s.spadPoison.filter (fun q => !(decide ((base + to_) / 32 ≤ q) && decide (q < (base + to_ + n) / 32)))
    { s.writeSpad (coreOf src) to_ n (s.readSpad (coreOf src) from_ n) with
      spadPoison := kept ++ marked.map (fun q => q + (base + to_) / 32 - (base + from_) / 32) }) s

/-- A group taken from the strand it was assigned ahead to: assignable again. -/
def State.unassign (s : State) (sid : Nat) (a : Ahead) : State :=
  let s1 := s.setStrand sid { s.strand sid with ahead := none }
  match s1.launchOf a.launch with
  | some l => s1.setLaunch { l with assigned := l.assigned.filter (fun y => !(y.2 == sid && y.1 == a.work.toNat)) }
  | none => s1

/-- R328: the group ahead of a strand goes to a strand of its core, or to another of the gang, or back. -/
def State.reassignAhead (s : State) (sid : Nat) (a : Ahead) (l : Launch) : State :=
  let all := (s.gang l.gang).strands.filter (fun i => i != sid && s.eligible l i)
  let same := all.filter (fun i => coreOf i == coreOf sid)
  let choice := Config.freeChoice s.fresh
  match pickOne choice same, pickOne choice all with
  | some to_, _ =>
    let k := (s.strand to_).receivedOf l.id
    let s0 := (s.drawn.unassign sid a).copyBuffers sid to_ a.count k l.header.regions
    let s1 := s0.copyNotes sid to_ a.count k a l.header.regions
    match s1.launchOf l.id with
    | some l1 =>
      (s1.setLaunch { l1 with assigned := l1.assigned ++ [(a.work.toNat, to_)] }).setStrand to_
        { s1.strand to_ with ahead := some { a with count := k, mover := .reset } }
    | none => s1
  | none, some to_ =>
    let s1 := s.drawn.unassign sid a
    match s1.launchOf l.id with
    | some l1 => s1.assign l1 a.work.toNat to_
    | none => s1
  | none, none => s.unassign sid a

/-- R328: the count of a strand has come to a delay; one that has been acted on stands at 2^32 or more. -/
def Strand.countReached (x : Strand) (delay : Nat) : Bool :=
  x.reassignCount.any (fun n => decide (delay ≤ n) && decide (n < 2 ^ 32))

/-- R328: the count of a strand has reached REASSIGN_DELAY: a group it holds ahead is reassigned. -/
def State.reassignDue (s : State) (sid : Nat) : State :=
  let x := s.strand sid
  if x.countReached (s.core (coreOf sid)).reassignDelay then
    let s1 := s.setStrand sid { x with reassignCount := some (2 ^ 32) }
    match x.ahead.bind (fun a => (s1.launchOf a.launch).map (fun l => (a, l))) with
    | some (a, l) => s1.reassignAhead sid a l
    | none => s1
  else s

/-- REASSIGN (R328): the count of a strand has reached REASSIGN_DELAY. -/
def execReassign (sid : Nat) (s : State) : Result := .next (s.reassignDue sid)

/-- R330: a launch aborted: nothing more is assigned, groups ahead are dropped, running ones go on. -/
def State.abortLaunch (s : State) (l : Launch) : State :=
  let running := l.assigned.filter (fun a => (s.strand a.2).running == some (l.id, BitVec.ofNat 64 a.1))
  let ahead := l.assigned.filter (fun a => !running.contains a)
  let s1 := s.setLaunch ({ l with aborted := true, assigned := running }.settleEnd s.cycle)
  ahead.foldl (fun s a => s.setStrand a.2 { s.strand a.2 with ahead := none }) s1

end Sys2Proof.Machine
end

