-- ==== Sys2Proof/Machine/Queue.lean ====
section
/-! DEFINITION. The queues of request frames (R320, R321, R322, R361, R362, R372): their rings, taking a frame, the checks
every frame meets, and completions; SQ_POLL, COMPLETION_POST, QPD_POST, FUNCTION_LEVEL_RESET and RETRY. -/
namespace Sys2Proof.Machine

/-! ### What the service cores read and write (log entry 8, DESIGN CHOICE) -/

/-- R303, R311: how many of `n` bytes at an address lie in its page of 64 KiB. -/
def inPage (a : Word) (n : Nat) : Nat := min n (65536 - a.toNat % 65536)

/-- `n` bytes of one page of the package at a program address, read by a service core under a list and the page table; else the
state after the checks. -/
def State.svcPart (s : State) (list : SvcList) (a : Word) (n : Nat) : Except State (Nat × State) :=
  if classOf a = .ordinary then
    match s.loadOwn list 0 a n with
    | (.got x, s1) => .ok (x, s1)
    | (_, s1) => .error s1
  else .error s

/-- `n` bytes at a program address, read so page by page. -/
def State.svcRead (s : State) (list : SvcList) (a : Word) (n : Nat) : Except State (Nat × State) :=
  let k := inPage a n
  match s.svcPart list a k with
  | .error s1 => .error s1
  | .ok (x, s1) =>
    if k = n then .ok (x, s1)
    else
      match s1.svcPart list (a + BitVec.ofNat 64 k) (n - k) with
      | .error s2 => .error s2
      | .ok (y, s2) => .ok (x + 256 ^ k * y, s2)

/-- Where a service core writes at a program address, under a list and the page table. -/
def State.svcPlace (s : State) (list : SvcList) (a : Word) : Except State (Span × State) :=
  if classOf a = .ordinary ∧ svcGrants list 2 a then
    match s.translate .store a.toNat with
    | some (.mem f, s1) => .ok (f, s1)
    | some (_, s1) => .error s1
    | none => .error s
  else .error s

/-- `n` bytes written by a service core at a program address: both pages of them are checked before any byte is written. -/
def State.svcWrite (s : State) (list : SvcList) (a : Word) (n x : Nat) : Except State State :=
  let k := inPage a n
  match s.svcPlace list a with
  | .error s1 => .error s1
  | .ok (f, s1) =>
    if k = n then .ok (s1.writeSpan f n x)
    else
      match s1.svcPlace list (a + BitVec.ofNat 64 k) with
      | .error s2 => .error s2
      | .ok (g, s2) => .ok ((s2.writeSpan f k x).writeSpan g (n - k) (x / 256 ^ k))

/-- What serving a frame comes to: a status with its RESULT, or a value; each with the state after the reads it took. -/
abbrev Served (α : Type) := Except (Nat × Word × State) (α × State)

/-- A structure of a frame read: FAULT with its address when that cannot be done (R321). -/
def State.svcNeed (s : State) (list : SvcList) (a : Word) (n : Nat) : Served Nat :=
  match s.svcRead list a n with
  | .error s1 => .error (7, a, s1)
  | .ok r => .ok r

/-- `n` bytes of host memory answer. (log entry 40, DESIGN CHOICE.) -/
def State.hostAnswers (s : State) (a : Word) (n : Nat) : Bool :=
  s.hostHoles.all (fun p => decide (a.toNat + n ≤ 4096 * p) || decide (4096 * p + 4096 ≤ a.toNat))

/-- `n` bytes of host memory, if they can be read. -/
def State.hostRead (s : State) (a : Word) (n : Nat) : Option Nat :=
  if s.hostAnswers a n then some (s.readMem (hostBase + a.toNat) n) else none

/-- Host memory with `n` bytes written, if they can be. -/
def State.hostWrite (s : State) (a : Word) (n x : Nat) : Option State :=
  if s.hostAnswers a n then some (s.writeMem (hostBase + a.toNat) n x) else none

/-! ### Queues -/

/-- R349: memory that a list grants stands behind what a home agent has to perform: the service cores' accesses under the list
wait. (log entry 91, DESIGN CHOICE.) -/
def State.listBusy (s : State) (list : SvcList) : Bool :=
  s.combining.any (fun q => q.2.serving && (q.2.phys || svcGrants list 1 (BitVec.ofNat 64 q.2.addr)))

/-- The number of the host queue pair; the local queue of partition p is 1 + p. -/
def hostQueue : Nat := 0

/-- R320: the fabric peer whose queue has a number: that of device d is 49 + d (log entry 89, DESIGN CHOICE). -/
def peerOf (q : Nat) : Option Nat := if 49 ≤ q ∧ q < 305 then some (q - 49) else none

/-- A queue's record; one that is not set up has no rings and fetches nothing. -/
def State.queue (s : State) (q : Nat) : Queue :=
  mapGet s.queues q ⟨.host, 0, 0, 0, 0, false, 0, 0, 0, 0, 0, none, 0, [], [], 0, false⟩

/-- A queue replaced. -/
def State.setQueue (s : State) (q : Nat) (x : Queue) : State := { s with queues := mapSet s.queues q x }

/-- R363: the rights list of the partition with a number; an unknown one grants nothing. -/
def State.partList (s : State) (num : Nat) : SvcList :=
  some (((s.partitions.find? (fun p => p.num == num)).map (fun p => p.plist)).getD [])

/-- Bytes of a queue's rings and indexes: of host memory for the host's queue, of the package for a local one, under the
partition's list (R8; log entry 20, DEDUCED); those of a peer's the spec does not place (log entry 89, DESIGN CHOICE). -/
def State.ringRead (s : State) (o : QueueOwner) (a : Word) (n : Nat) : Except State (Nat × State) :=
  match o with
  | .host => match s.hostRead a n with | some x => .ok (x, s) | none => .error s
  | .part num => s.svcRead (s.partList num) a n
  | .peer _ => .error s

/-- Such bytes written. -/
def State.ringWrite (s : State) (o : QueueOwner) (a : Word) (n x : Nat) : Except State State :=
  match o with
  | .host => match s.hostWrite a n x with | some s1 => .ok s1 | none => .error s
  | .part num => s.svcWrite (s.partList num) a n x
  | .peer _ => .error s

/-- The rings of a queue lie in memory that stands behind combining queues. -/
def State.ringBusy (s : State) (o : QueueOwner) : Bool :=
  match o with
  | .part num => s.listBusy (s.partList num)
  | _ => false

/-- R362: a ring size: a power of two from 16 to 4,096. -/
def ringSizeOk (n : Nat) : Bool := [16, 32, 64, 128, 256, 512, 1024, 2048, 4096].contains n

/-- R362: a descriptor's fields are in range. -/
def descriptorOk (x : Nat) : Bool :=
  cardField x 0 8 % 4096 == 0 && cardField x 8 8 % 4096 == 0 && ringSizeOk (cardField x 0x10 2) &&
    ringSizeOk (cardField x 0x12 2) && decide (cardField x 0x14 4 < 2) && cardField x 0x30 16 == 0

/-- A queue from its 64-byte descriptor. -/
def queueOf (owner : QueueOwner) (x now : Nat) : Queue :=
  { owner := owner, sq := cardField x 0 8, cq := cardField x 8 8, sqn := cardField x 0x10 2, cqn := cardField x 0x12 2
    msi := cardField x 0x14 4 % 2 == 1, sqTailAt := cardField x 0x18 8, cqHeadAt := cardField x 0x20 8
    cqTailAt := cardField x 0x28 8, sqHead := 0, cqTail := 0, lastDelivery := none, nextPoll := now, held := []
    pending := [], msiSent := 0, fetching := true }

/-- R320: a frame from its 64 bytes. -/
def frameOf (x : Nat) : ReqFrame :=
  { kind := BitVec.ofNat 16 (cardField x 0 2), rsv0 := BitVec.ofNat 16 (cardField x 2 2)
    tenant := BitVec.ofNat 16 (cardField x 4 2), rsv1 := BitVec.ofNat 16 (cardField x 6 2)
    tag := BitVec.ofNat 64 (cardField x 8 8), args := BitVec.ofNat 384 (cardField x 16 48) }

/-- R320: the 64 bytes of a frame. -/
def frameBytes (f : ReqFrame) : BitVec 512 := f.args ++ (f.tag ++ (f.rsv1 ++ (f.tenant ++ (f.rsv0 ++ f.kind))))

/-- Bytes of a frame's ARGS. -/
def frameArg (f : ReqFrame) (lo n : Nat) : Nat := cardField f.args.toNat lo n

/-- R320: TENANT's domain. -/
def frameDomain (f : ReqFrame) : BitVec 12 := f.tenant.extractLsb' 0 12

/-! ### SQ_POLL (R362) -/

/-- `n` frames of a submission ring from an index on; one that cannot be read ends them. -/
def State.fetchFrames (s : State) (x : Queue) (at_ : Nat) : Nat → List ReqFrame × State
  | 0 => ([], s)
  | n + 1 =>
    match s.ringRead x.owner (BitVec.ofNat 64 (x.sq + 64 * (at_ % x.sqn))) 64 with
    | .error s1 => ([], s1)
    | .ok (b, s1) =>
      let r := s1.fetchFrames x (at_ + 1) n
      (frameOf b :: r.1, r.2)

/-- R320: the queue of a fabric peer presents a frame. The spec says neither how a peer sets a queue up nor how its frames come:
which frame comes is free, and it comes when SQ_POLL is taken for the queue (log entry 89, DESIGN CHOICE). -/
def State.peerFrame (s : State) (q dev : Nat) : State :=
  let x := s.queue q
  s.drawn.setQueue q { x with
    owner := .peer dev, fetching := true
    held := x.held ++ [(frameOf (s.freeValue 512).toNat, s.cycle)], lastDelivery := some s.cycle }

/-- R362: the interval to the next poll: 4,200 cycles within 10 ms of a delivery, else 210,000. -/
def pollInterval (now : Nat) (last : Option Nat) : Nat :=
  if last.any (fun t => decide (now < t + 21000000)) then 4200 else 210000

/-- SQ_POLL (R362): the interval has run out: SQTAIL is read and the new frames are fetched, each once. -/
def execSqPoll (q : Nat) (s : State) : Result :=
  match peerOf q with
  | some dev => .next (if dev = s.device then s else s.peerFrame q dev)
  | none =>
    let x := s.queue q
    if !x.fetching ∨ s.cycle < x.nextPoll ∨ s.ringBusy x.owner then .next s
    else
      let t := match s.ringRead x.owner (BitVec.ofNat 64 x.sqTailAt) 4 with | .ok r => r | .error s1 => (x.sqHead, s1)
      let (got, s1) := t.2.fetchFrames x x.sqHead ((t.1 % x.sqn + x.sqn - x.sqHead) % x.sqn)
      let last := if got.isEmpty then x.lastDelivery else some s.cycle
      .next (s1.setQueue q { x with
        sqHead := (x.sqHead + got.length) % x.sqn
        held := x.held ++ got.map (fun f => (f, s.cycle))
        lastDelivery := last
        nextPoll := s.cycle + pollInterval s.cycle last })

/-! ### Completions (R321, R362) -/

/-- R321: the 32 bytes of a completion. -/
def completionBytes (c : Completion) : BitVec 256 :=
  (0 : BitVec 64) ++ (c.result ++ ((0 : BitVec 16) ++ (c.kind ++ (BitVec.ofNat 32 c.status ++ c.tag))))

/-- A completion waits for its ring; one for a queue that has been reset is discarded (R361). -/
def State.complete (s : State) (q : Nat) (c : Completion) : State :=
  let x := s.queue q
  if x.fetching then s.setQueue q { x with pending := x.pending ++ [c] } else s

/-- R362: the ring has a free entry: the state after CQHEAD is read, else that after the read. -/
def State.ringRoom (s : State) (x : Queue) : Except State State :=
  match s.ringRead x.owner (BitVec.ofNat 64 x.cqHeadAt) 4 with
  | .error s1 => .error s1
  | .ok (head, s1) => if (x.cqTail + 1) % x.cqn = head % x.cqn then .error s1 else .ok s1

/-- A completion written into its ring, with CQTAIL, when there is room and both can be written. -/
def State.ringPost (s : State) (x : Queue) (c : Completion) : Except State State :=
  match s.ringRoom x with
  | .error s1 => .error s1
  | .ok s1 =>
    match s1.ringWrite x.owner (BitVec.ofNat 64 (x.cq + 32 * x.cqTail)) 32 (completionBytes c).toNat with
    | .error s2 => .error s2
    | .ok s2 => s2.ringWrite x.owner (BitVec.ofNat 64 x.cqTailAt) 4 ((x.cqTail + 1) % x.cqn)

/-- The oldest pending completion of a queue written into its ring, or sent to a fabric peer (log entry 89, DESIGN CHOICE); none
when it waits on, and the reads it took changed nothing (R312). -/
def State.postCompletion (s : State) (q : Nat) : Option State :=
  let x := s.queue q
  match x.pending with
  | [] => none
  | c :: rest =>
    if (peerOf q).isSome then some (s.setQueue q { x with pending := rest })
    else if s.ringBusy x.owner then none
    else
      match s.ringPost x c with
      | .error s1 => if s1.translations = s.translations then none else some s1
      | .ok s2 =>
        some (s2.setQueue q { x with
          cqTail := (x.cqTail + 1) % x.cqn, pending := rest, msiSent := if x.msi then x.msiSent + 1 else x.msiSent })

/-- COMPLETION_POST (R362): the first completion that waits is posted when its ring has room, CQTAIL is written, and the
MSI is sent when CTL asks for it. -/
def execCompletionPost (q : Nat) (s : State) : Result := .next ((s.postCompletion q).getD s)

/-! ### The host link (R361) -/

/-- R361: SIG of the capability, read-only. -/
def capabilitySig : BitVec 32 := 0x53461152

/-- R361: VER of the capability, read-only. -/
def capabilityVer : BitVec 16 := 0x0001

/-- R361: the capability's 64 bytes as the host reads them. -/
def State.capabilityBytes (s : State) : BitVec 512 :=
  (0 : BitVec 352) ++ (BitVec.ofNat 32 s.hostLink.reason ++ (s.hostLink.qpd ++ (BitVec.ofNat 16 s.hostLink.state ++
    (capabilityVer ++ capabilitySig))))

/-- R361: a service core reads the descriptor that the host has posted and sets STATE to 2, or to 3 with its REASON. -/
def State.acceptQpd (s : State) : State :=
  let l := s.hostLink
  let refuse := fun (why : Nat) => { s with hostLink := { l with state := 3, reason := why } }
  if !aligned l.qpd 64 then refuse 1
  else
    match s.hostRead l.qpd 64 with
    | none => refuse 2
    | some x =>
      if !descriptorOk x then refuse 3
      else ({ s with hostLink := { l with state := 2, reason := 0 } }).setQueue hostQueue (queueOf .host x s.cycle)

/-- QPD_POST (R361): the host writes QPD and STATE := 1; once they stand, a service core reads the descriptor. While STATE
is 2 the write is ignored. -/
def execQpdPost (qpd : BitVec 64) (s : State) : Result :=
  if s.hostLink.state = 2 then .next s
  else if s.hostLink.state = 1 ∧ s.hostLink.qpd = qpd then .next s.acceptQpd
  else .next { s with hostLink := ⟨1, qpd, 0, s.cycle⟩ }

/-- Completions of the host queue that are still to come are discarded: their owners no longer name it.
(log entry 39, DEDUCED.) -/
def State.disownHost (s : State) : State :=
  { s with
    launches := s.launches.map (fun l => match l.owner with | .frame 0 _ => { l with owner := .strand } | _ => l)
    replays := s.replays.map (fun r => if r.q = hostQueue then { r with q := 4096 } else r)
    service := s.service.map (fun f => if f.q = hostQueue then { f with q := 4096 } else f)
    pendingImage := s.pendingImage.map (fun p => if p.q = hostQueue then { p with q := 4096 } else p) }

/-- FUNCTION_LEVEL_RESET (R361): STATE returns to 0 and fetching stops; frames in service run on, their completions are
discarded. -/
def execFunctionLevelReset (s : State) : Result :=
  .next { s.disownHost with hostLink := ⟨0, 0, 0, 0⟩, queues := mapDrop s.queues hostQueue }

/-! ### Taking a frame (R320, R321, R322, R372) -/

/-- How the handling of a frame ends. -/
inductive FrameEnd where
  | done (status : Nat) (result : Word) (s : State)
  /-- The completion comes later (R332, R334, R371). -/
  | later (s : State)
  /-- In service until what its fetch waits for has come (R330), or the cards of a carve that is to change (R67). -/
  | waits (rows : Nat) (mover : Mover) (s : State)
  /-- In service until requests and Steep entries have been performed (R307, R363, R366). -/
  | drains (tags entries : List Nat) (result : Word) (s : State)

/-- The partition that a domain belongs to (R363). -/
def State.partitionOfDomain (s : State) (d : BitVec 12) : Option Partition :=
  s.partitions.find? (fun p => decide (p.dfirst ≤ d.toNat) && decide (d.toNat < p.dfirst + p.dcount))

/-- R322: the frame's TENANT may make a request of its KIND by its queue; MEMORY frames are accepted from no fabric peer (R364). A
domain in no partition has no table: MEMORY frames of the host are the firmware's own business, and nothing else is allowed
(log entry 14, DEDUCED). -/
def State.tenantAllowed (s : State) (q : Nat) (f : ReqFrame) : Bool :=
  let own := match (s.queue q).owner with
    | .part n => (s.partitionOfDomain (frameDomain f)).map (fun p => p.num) == some n
    | .peer _ => f.kind != 5
    | .host => true
  own && (match s.partitionOfDomain (frameDomain f) with
    | some p => s.kindAllowed p (frameDomain f) f.kind.toNat
    | none => q == hostQueue && f.kind == 5)

/-- R8: the list under which a frame's structures are read and written: that of its TENANT's partition; a host frame of a
domain in none is the firmware's own (log entries 8 and 14). -/
def State.frameList (s : State) (f : ReqFrame) : SvcList := (s.partitionOfDomain (frameDomain f)).map (fun p => p.plist)

/-- Bytes that a frame names for its service: host memory for the host's frames, else the package's, under the list of the
local queue's partition or of a peer's TENANT's (R8; log entries 20 and 89). -/
def State.frameRead (s : State) (q : Nat) (f : ReqFrame) (a : Word) (n : Nat) : Except State (Nat × State) :=
  match (s.queue q).owner with
  | .peer _ => s.svcRead (some ((s.frameList f).getD [])) a n
  | o => s.ringRead o a n

/-- Such bytes written. -/
def State.frameWrite (s : State) (q : Nat) (f : ReqFrame) (a : Word) (n x : Nat) : Except State State :=
  match (s.queue q).owner with
  | .peer _ => s.svcWrite (some ((s.frameList f).getD [])) a n x
  | o => s.ringWrite o a n x

/-- R322: the rights are read (R312). -/
def State.touchTenant (s : State) (f : ReqFrame) : State :=
  match s.partitionOfDomain (frameDomain f) with
  | some p => s.touchRights p (frameDomain f)
  | none => s

/-- R320: the halves of a frame that are rsv. -/
def frameRsvOk (f : ReqFrame) : Bool := f.rsv0 == 0 && f.rsv1 == 0 && f.tenant.extractLsb' 12 4 == 0

/-- Whether a switch of the firmware holds frames back (R372). -/
def State.switching (s : State) : Bool := s.pendingImage.isSome

/-- MEMORY's service 8. -/
def isFirmware (f : ReqFrame) : Bool := f.kind == 5 && frameArg f 0 2 == 8

/-- The end of a frame's handling, with its completion. -/
def FrameEnd.state (e : FrameEnd) (q : Nat) (f : ReqFrame) (now : Nat) : State :=
  match e with
  | .done st r s => s.complete q ⟨f.tag, st, f.kind, r⟩
  | .later s => s
  | .waits rows m s => { s with service := s.service ++ [⟨q, f, now, rows, m, none⟩] }
  | .drains tags entries r s => { s with service := s.service ++ [⟨q, f, now, 0, .reset, some (tags, entries, r)⟩] }

/-- A frame is handled: the ROM answers all but SVC 8 with DENIED (R370); else KIND, rsv fields and rights are checked in
that order, then the handling of its KIND follows. `argsOk` tells that its ARGS have no rsv bit set. -/
def State.handle (s : State) (q : Nat) (f : ReqFrame) (argsOk : Bool) (body : State → FrameEnd) : FrameEnd :=
  if s.image.isNone && !isFirmware f then .done 4 0 s
  else if f.kind.toNat < 1 ∨ 7 < f.kind.toNat then .done 6 0 s
  else if !frameRsvOk f || !argsOk then .done 2 0 s
  else if !s.tenantAllowed q f then .done 4 0 (s.touchTenant f)
  else body (s.touchTenant f)

/-- The first frame that a queue holds. -/
def State.heldFirst (s : State) (q : Nat) : Option ReqFrame := (s.queue q).held.head?.map Prod.fst

/-- A frame starts (R320): it is its queue's first, no switch of the firmware is pending (R372), and no combining queue stands
before what it may read (R349). The frame leaves the queue and is handled; a frame that is not its queue's first does not start. -/
def State.startFrame (s : State) (q : Nat) (f : ReqFrame) (argsOk : Bool) (body : State → FrameEnd) : State :=
  if s.heldFirst q = some f ∧ !s.switching ∧ !s.listBusy (s.frameList f) then
    let x := s.queue q
    ((s.setQueue q { x with held := x.held.tail }).handle q f argsOk body).state q f s.cycle
  else s

/-- The frame of a queue that is in service with these bytes. -/
def State.serving (s : State) (q : Nat) (f : ReqFrame) : Option InService :=
  s.service.find? (fun x => x.q == q && x.frame == f)

/-- A frame that waits in service goes on. -/
def State.serveAgain (s : State) (w : InService) (go : State → FrameEnd) : State :=
  (go { s with service := s.service.erase w }).state w.q w.frame w.since

/-- RETRY (R372): the first frame held has waited 10 ms for a switch: it and every later one of its queue complete
RETRY. -/
def execRetry (q : Nat) (s : State) : Result :=
  let x := s.queue q
  match x.held with
  | [] => .next s
  | (_, t) :: _ =>
    if s.switching ∧ t + 21000000 ≤ s.cycle then
      .next (x.held.foldl (fun s h => s.complete q ⟨h.1.tag, 5, h.1.kind, 0⟩) (s.setQueue q { x with held := [] }))
    else .next s

end Sys2Proof.Machine
end

