-- ==== Sys2Proof/Machine/Requests.lean ====
section
/-! DEFINITION. Request frames that start, launch, replay, patch, abort, rerun and notify (R323, R324, R330, R332 to R335):
KINDs 1 to 4, 6 and 7. -/
namespace Sys2Proof.Machine

/-! ### START (R67, R323, R324) -/

/-- A start record's strands, in list order (R323). -/
def startList (x : Nat) : List Nat :=
  (List.range (cardField x 0x22 2)).map (fun i => cardField x 0x20 2 + i * cardField x 0x24 2)

/-- R323: the rsv bits of a start record are 0. -/
def startRsvOk (x : Nat) : Bool :=
  cardField x 0x2F 17 == 0 && decide (cardField x 0x28 2 < 4096) && decide (cardField x 0x2D 1 < 8)

/-- R323: the fields of a start record are in range, and its DOMAIN is the frame's TENANT. -/
def startFieldsOk (x : Nat) (tenant : BitVec 12) : Bool :=
  let count := cardField x 0x22 2
  let stride := cardField x 0x24 2
  cardField x 0 8 % 4 == 0 && cardField x 0x18 8 % 512 == 0 && decide (1 ≤ count) && decide (count ≤ 4608) &&
    decide (1 ≤ stride) && decide (stride ≤ 4608) && cardField x 0x28 2 == tenant.toNat &&
    decide (cardField x 0x2A 2 ≤ 2048) && decide (cardField x 0x2C 1 ≤ 1) && decide (cardField x 0x2E 1 ≤ 4) &&
    (startList x).all strandExists

/-- R322: a cluster lies in the partition of a domain. -/
def State.clusterFor (s : State) (domain : BitVec 12) (cluster : Nat) : Bool :=
  match s.partitionOfDomain domain with
  | some p => p.clusters.getLsbD cluster
  | none => false

/-- A core holds a pinned footprint (R327): a buffer of a group assigned to or running on one of its strands. -/
def State.pinsFootprint (s : State) (core : Nat) : Bool :=
  (List.range 4).any (fun i =>
    let x := s.strand (4 * core + i)
    let has := fun (id : Nat) => match s.launchOf id with | some l => !l.header.regions.isEmpty | none => false
    (match x.ahead with | some a => has a.launch | none => false) ||
      (match x.running with | some (id, _) => has id | none => false))

/-- R67, R323: what stands against a start on a core: its carve must change, and a strand beside the list runs in U-mode or a
footprint is pinned. -/
def State.carveHeld (s : State) (list : List Nat) (carve core : Nat) : Bool :=
  (s.core core).carve != carve &&
    ((List.range 4).any (fun i =>
      let sid := 4 * core + i
      !list.contains sid && !(s.strand sid).parked && (s.strand sid).mode == .u) || s.pinsFootprint core)

/-- The cores a list of strands touches. -/
def coresOf (list : List Nat) : List Nat := (list.map coreOf).eraseDups

/-- R323: the CONFLICT conditions of a start record. -/
def State.startConflict (s : State) (x : Nat) : Bool :=
  let list := startList x
  let gang := cardField x 0x26 2
  list.any (fun i => !(s.strand i).parked || (s.strand i).thread) ||
    (gang != 0 && !(s.gang gang).members.isEmpty) ||
    (coresOf list).any (s.carveHeld list (cardField x 0x2D 1))

/-- R67: the Steep entries that passed their checks under a core's present carve and are bound for its scratchpad are
performed. -/
def State.landEntries (s : State) (core : Nat) : State :=
  let hit := fun (e : SteepEntry) => e.dest == 1000 + core
  let l := s.steepSent.flatMap Prod.snd ++ s.steepBufs.flatMap (fun b => b.2.flatMap (fun x => x.entries))
  (l.filter hit).foldl (fun s e => (s.performEntry e).1) { s with
    steepSent := s.steepSent.map (fun p => (p.1, p.2.filter (fun e => !hit e)))
    steepBufs := s.steepBufs.map (fun b => (b.1, b.2.filter (fun x => x.dest != 1000 + core))) }

/-- Cards of a core that do not complete until software acts: the stopped ones, and those behind them (R104, R209); `n` bounds the
steps from card to card. -/
def Core.blockedCards (c : Core) : Nat → List Nat
  | 0 => (c.stoppedCards.filter (fun x => !x.restart)).map (fun x => x.card.num)
  | n + 1 =>
    let b := c.blockedCards n
    b ++ (c.cards.filter (fun k => !b.contains k.num && c.openCards.any (fun e => b.contains e.num && cardEdge e k))).map
      (fun k => k.num)

/-- A card in flight that has met a fault and finds no room among its strand's stopped cards (R209). -/
def State.stuck (s : State) (core : Nat) (k : Card) : Bool :=
  k.inFlight && !(s.core core).stopRoom k.sid &&
    (k.failed.isSome || (match s.cardOutcome k with | (_, _, some (.trap _)) => true | _ => false))

/-- A card accesses scratchpad bytes of a core from an offset on. -/
def Card.beyond (k : Card) (core off : Nat) : Bool :=
  (k.writes :: k.reads).any (fun r =>
    r.inSpad && decide ((spadKey core off : Int) < r.hi) && decide (r.lo < (spadKey (core + 1) 0 : Int)))

/-- R67: a card issued under a core's present carve, on a core of its cluster, that is still to complete and to access bytes that
a new carve would take or give; one that waits for a slot of the queue counts while no card of its core has stopped.
(log entry 99, DEDUCED.) -/
def State.carveBusy (s : State) (carve core : Nat) : Bool :=
  let off := 49152 * min (s.core core).carve carve
  (s.core core).carve != carve &&
    (List.range 24).any (fun i =>
      let c := core / 32 * 32 + i
      (s.core c).cards.any (fun k => k.beyond core off && !((s.core c).blockedCards 16).contains k.num && !s.stuck c k) ||
        (List.range 4).any (fun j =>
          match (s.strand (4 * c + j)).wait with
          | .cardSlot _ k => k.beyond core off && (s.core c).stoppedCards.isEmpty
          | _ => false))

/-- R67: a core's carve changed, after the accesses issued before it: scratchpad bytes that return to the cache are lost, new
ones are undefined. -/
def State.setCarve (s : State) (carve core : Nat) : State :=
  let old := (s.core core).carve
  if old = carve then s
  else
    let s1 := s.landEntries core
    let c := s1.core core
    let keep := fun (k : Nat) => decide (k < spadKey core (49152 * min old carve)) || decide (spadKey (core + 1) 0 ≤ k)
    { s1.setCore core { c with carve := carve, spadEpoch := c.spadEpoch + 1 } with
      spad := s1.spad.filter (fun b => keep b.1)
      spadPoison := s1.spadPoison.filter (fun k => keep (32 * k)) }

/-- R323: one route-table entry that is valid and names domain 0 takes the record's domain; the state after the checks when it
cannot be read or written. -/
def State.claimRoute (s : State) (list : SvcList) (at_ : Word) (domain : BitVec 12) : Except State State :=
  match s.svcRead list (at_ + 16) 8 with
  | .error s1 => .error s1
  | .ok (ctl, s1) =>
    if ctl % 2 = 1 ∧ (BitVec.ofNat 64 ctl).extractLsb' 16 12 = 0 then
      s1.svcWrite list (at_ + 16) 8 (ctl + domain.toNat * 2 ^ 16)
    else .ok s1

/-- R323: the 16 entries of a route table. -/
def State.claimRoutes (s : State) (list : SvcList) (table : Word) (domain : BitVec 12) : Except State State :=
  (List.range 16).foldl (fun o i => match o with
    | .error e => .error e
    | .ok s => s.claimRoute list (table + BitVec.ofNat 64 (32 * i)) domain) (.ok s)

/-- The vector registers of a started strand: DEAD, their bytes undefined. -/
def deadRegisters (fresh : Nat) : Vector VReg 32 := Vector.ofFn (fun i => ⟨Config.freeBits (fresh + i.val) 8192, 0, 0, 0⟩)

/-- R323: the strand as the record sets it up, its share granted, not yet a gang's member.
(log entry 37, DEDUCED.) -/
def Strand.started (x : Strand) (r i share fresh : Nat) (domain : BitVec 12) : Strand :=
  let st := x.status
  let mode : BitVec 2 := if cardField r 0x2C 1 = 1 then 1 else 0
  { x with
    thread := true
    pc := BitVec.ofNat 64 (cardField r 0 8)
    g := ((Vector.replicate 32 (0 : Word)).set 1 (BitVec.ofNat 64 (cardField r 8 8))).set 2 (BitVec.ofNat 64 i)
    v := deadRegisters fresh
    p := Strand.reset.p
    e := Strand.reset.e
    vl := 0
    vstart := 0
    plbCtl := BitVec.ofNat 64 (cardField r 0x10 8) &&& ~~~(0xFFF : Word)
    domain := domain
    status := statusWord (st.getLsbD 8) (st.getLsbD 7) (st.getLsbD 5) false (st.extractLsb' 2 2) mode
    share := share
    laneLimit := cardField r 0x2E 1
    vlCeil := if cardField r 0x2A 2 = 0 then 2048 else cardField r 0x2A 2
    groupLaneLimit := none
    groupVlCeil := none
    wait := .none
    frame := none
    reassignCount := none
    parked := false }

/-- R324: the quarters of a core that no strand but one holds. -/
def State.freeQuarters (s : State) (sid : Nat) : Nat :=
  4 - (List.range 4).foldl (fun t i =>
    if 4 * coreOf sid + i = sid then t else t + (s.strand (4 * coreOf sid + i)).share) 0

/-- R323: strand i of the record set up, and its membership. -/
def State.startStrand (s : State) (r : Nat) (domain : BitVec 12) (i sid : Nat) : State :=
  let share := min (cardField r 0x2E 1) (s.freeQuarters sid)
  let s1 := { s.setStrand sid ((s.strand sid).started r i share s.fresh domain) with fresh := s.fresh + 32 }
  if cardField r 0x26 2 = 0 then s1
  else (s1.leaveGang sid).enterGang sid (cardField r 0x26 2) i (cardField r 0x22 2)

/-- R323: the record takes effect, unless its route table cannot be read or written. -/
def State.startAll (s : State) (plist : SvcList) (r : Nat) (domain : BitVec 12) : Except State State :=
  let list := startList r
  let route := BitVec.ofNat 64 (cardField r 0x18 8)
  match (if route = 0 then .ok s else s.claimRoutes plist route domain) with
  | .error s1 => .error s1
  | .ok s1 =>
    let s2 := (coresOf list).foldl (fun s c =>
      let s' := s.setCarve (cardField r 0x2D 1) c
      if route = 0 then s' else s'.setCore c { s'.core c with routeTable := route }) s1
    .ok (((List.range list.length).zip list).foldl (fun s q => s.startStrand r domain q.1 q.2) s2)

/-- R322: every member of a gang lies in the domain's partition. -/
def State.gangFor (s : State) (domain : BitVec 12) (n : Nat) : Bool :=
  (s.gang n).strands.all (fun i => s.clusterFor domain (clusterOf i))

/-- R322: the strands and the gang a start record names lie in the domain's partition. -/
def State.startAllowed (s : State) (r : Nat) (domain : BitVec 12) : Bool :=
  ((startList r).filter strandExists).all (fun i => s.clusterFor domain (clusterOf i)) &&
    (cardField r 0x26 2 == 0 || s.gangFor domain (cardField r 0x26 2))

/-- START's checks of a record that has been read, and its effect (R323): it waits for the cards that a carve's change meets
(R67). -/
def startGo (f : ReqFrame) (r : Nat) (s : State) : FrameEnd :=
  if !startRsvOk r then .done 2 0 s
  else if !s.startAllowed r (frameDomain f) then .done 4 0 s
  else if !startFieldsOk r (frameDomain f) then .done 2 0 s
  else if s.startConflict r then .done 8 0 s
  else if (coresOf (startList r)).any (s.carveBusy (cardField r 0x2D 1)) then .waits r .reset s
  else
    match s.startAll (s.frameList f) r (frameDomain f) with
    | .error s1 => .done 7 (BitVec.ofNat 64 (cardField r 0x18 8)) s1
    | .ok s1 => .done 0 (BitVec.ofNat 64 (cardField r 0x22 2)) s1

/-- START from its first step on (R323): the record is read once. -/
def startBody (f : ReqFrame) (s : State) : FrameEnd :=
  let at_ := BitVec.ofNat 64 (frameArg f 0 8)
  if !aligned at_ 64 then .done 2 0 s
  else
    match s.svcRead (s.frameList f) at_ 64 with
    | .error s1 => .done 7 at_ s1
    | .ok (r, s1) => startGo f r s1

/-- START (R323): a frame of KIND 1, its queue's first, or in service with its record. -/
def execStart (q : Nat) (f : ReqFrame) (s : State) : Result :=
  if f.kind ≠ 1 then .next s
  else
    match s.serving q f with
    | some w => .next (s.serveAgain w (startGo f w.rows))
    | none => .next (s.startFrame q f (frameArg f 8 40 == 0) (startBody f))

/-! ### LAUNCH frames (R332) -/

/-- The carve of the core of a gang's rank 0; 0 when no strand holds it. -/
def State.rankZeroCarve (s : State) (n : Nat) : Nat :=
  match (s.gang n).holder 0 with
  | some i => carveBytes (s.core (coreOf i))
  | none => 0

/-- `n` 64-byte blocks read by a service core. -/
def State.svcBlocks (s : State) (list : SvcList) (a : Word) : Nat → Served (List Nat)
  | 0 => .ok ([], s)
  | n + 1 =>
    match s.svcNeed list a 64 with
    | .error e => .error e
    | .ok (x, s1) =>
      match s1.svcBlocks list (a + 64) n with
      | .error e => .error e
      | .ok (xs, s2) => .ok (x :: xs, s2)

/-- A header and its footprint table as read. (log entry 36, DEDUCED.) -/
def State.svcHeader (s : State) (list : SvcList) (a : Word) : Served (Nat × List Nat) :=
  if !aligned a 128 then .error (2, 0, s)
  else
    match s.svcNeed list a 128 with
    | .error e => .error e
    | .ok (x, s1) =>
      let foot := BitVec.ofNat 64 (cardField x 0x68 8)
      if cardField x 0x77 1 ≠ 0 ∧ !aligned foot 64 then .error (2, 0, s1)
      else
        match s1.svcBlocks list foot (cardField x 0x77 1) with
        | .error e => .error e
        | .ok (l, s2) => .ok ((x, l), s2)

/-- LAUNCH frames' own checks and effect (R332). -/
def launchFrameBody (q : Nat) (f : ReqFrame) (s : State) : FrameEnd :=
  let gang := frameArg f 8 2
  let domain := frameDomain f
  if !s.gangFor domain gang then .done 4 0 s
  else
    match s.svcHeader (s.frameList f) (BitVec.ofNat 64 (frameArg f 0 8)) with
    | .error (st, a, s1) => .done st a s1
    | .ok ((x, foot), s1) =>
      if gang = 0 then .done 2 0 s1
      else
        match checkHeader x foot (s1.rankZeroCarve gang) with
        | .error st => .done st 0 s1
        | .ok h =>
          match s1.partitionOfDomain domain with
          | none => .done 4 0 s1
          | some p =>
            if !s1.belowMaxl p domain then .done 4 0 s1
            else if 16 ≤ s1.activeLaunches then .done 3 0 s1
            else .later (s1.addLaunch gang domain h (.frame q f.tag)).2

/-- LAUNCH_FRAME (R332): a frame of KIND 2, its queue's first. -/
def execLaunchFrame (q : Nat) (f : ReqFrame) (s : State) : Result :=
  if f.kind = 2 then .next (s.startFrame q f (frameArg f 10 38 == 0) (launchFrameBody q f)) else .next s

/-! ### REPLAY (R333, R334) -/

/-- R333: the record of node j is well-formed. -/
def nodeOk (x j : Nat) : Bool :=
  let np := cardField x 0x10 1
  decide (np ≤ 4) && cardField x 0x11 1 == 0 && cardField x 0x1A 38 == 0 &&
    (List.range np).all (fun i => decide (cardField x (0x12 + 2 * i) 2 < j))

/-- The nodes of a graph from number j on, each with its header and footprint table. -/
def State.readNodes (s : State) (list : SvcList) (at_ : Word) (j : Nat) : Nat → Served (List GraphNode)
  | 0 => .ok ([], s)
  | n + 1 =>
    match s.svcNeed list at_ 64 with
    | .error e => .error e
    | .ok (x, s1) =>
      if !nodeOk x j then .error (2, BitVec.ofNat 64 j, s1)
      else
        match s1.svcHeader list (BitVec.ofNat 64 (cardField x 0 8)) with
        | .error (st, a, s2) => .error (st, if st = 7 then a else BitVec.ofNat 64 j, s2)
        | .ok ((raw, foot), s2) =>
          match s2.readNodes list (at_ + 64) (j + 1) n with
          | .error e => .error e
          | .ok (l, s3) =>
            .ok ({ raw := raw, foot := foot, args := BitVec.ofNat 64 (cardField x 8 8)
                   preds := (List.range (cardField x 0x10 1)).map (fun i => cardField x (0x12 + 2 * i) 2)
                   launch := none, done := false } :: l, s3)

/-- REPLAY's own checks and effect (R334): the snapshot is taken and the replay begins. -/
def replayBody (q : Nat) (f : ReqFrame) (s : State) : FrameEnd :=
  let at_ := BitVec.ofNat 64 (frameArg f 0 8)
  if !aligned at_ 64 then .done 2 0 s
  else
    match s.svcRead (s.frameList f) at_ 64 with
    | .error s1 => .done 7 at_ s1
    | .ok (x, s0) =>
      let nn := cardField x 0 2
      let gang := cardField x 2 2
      if cardField x 4 60 ≠ 0 then .done 2 0 s0
      else if !s0.gangFor (frameDomain f) gang then .done 4 0 s0
      else if nn < 1 ∨ 256 < nn ∨ gang = 0 then .done 2 0 s0
      else
        match s0.readNodes (s.frameList f) (at_ + 64) 0 nn with
        | .error (st, r, s1) => .done st r s1
        | .ok (nodes, s1) =>
          .later { s1 with
            serial := s1.serial + 1
            replays := s1.replays ++ [⟨s1.serial, q, f.tag, frameDomain f, gang, nodes, none⟩] }

/-- REPLAY (R334): a frame of KIND 3, its queue's first. -/
def execReplay (q : Nat) (f : ReqFrame) (s : State) : Result :=
  if f.kind = 3 then .next (s.startFrame q f (frameArg f 8 40 == 0) (replayBody q f)) else .next s

/-- The replay with a number. -/
def State.replayOf (s : State) (id : Nat) : Option Replay := s.replays.find? (fun r => r.id == id)

/-- A replay replaced. -/
def State.setReplay (s : State) (r : Replay) : State :=
  { s with replays := s.replays.map (fun x => if x.id = r.id then r else x) }

/-- R334: a replay is over: every node launched has ended and no other will be. -/
def Replay.over (r : Replay) : Bool :=
  r.nodes.all (fun n => n.done || (r.ended.isSome && n.launch.isNone))

/-- A replay that is over posts its completion and is forgotten. -/
def State.endReplay (s : State) (r : Replay) : State :=
  if r.over then
    let (st, res) := r.ended.getD (0, 0)
    { s.complete r.q ⟨r.tag, st, 3, BitVec.ofNat 64 res⟩ with replays := s.replays.filter (fun x => x.id != r.id) }
  else s.setReplay r

/-- A node of a replay may be launched: it is not yet, the replay goes on, and its predecessors have retired. -/
def Replay.nodeDue (r : Replay) (n : GraphNode) : Bool :=
  r.ended.isNone && n.launch.isNone && !n.done &&
    n.preds.all (fun i => match r.nodes[i]? with | some m => m.done | none => false)

/-- REPLAY_NODE_LAUNCH (R334): a due node is launched from its snapshot; a refusal but BUSY or MAXL ends the replay. -/
def execReplayNodeLaunch (replay node : Nat) (s : State) : Result :=
  match s.replayOf replay with
  | none => .next s
  | some r =>
    match r.nodes[node]? with
    | none => .next s
    | some n =>
      if !r.nodeDue n then .next s
      else
        match checkHeader n.raw n.foot (s.rankZeroCarve r.gang) with
        | .error st => .next (s.endReplay { r with ended := some (st, node) })
        | .ok h =>
          match s.partitionOfDomain r.domain with
          | none => .next (s.endReplay { r with ended := some (4, node) })
          | some p =>
            let s0 := s.touchRights p r.domain
            if !s.kindAllowed p r.domain 2 then .next (s0.endReplay { r with ended := some (4, node) })
            else if !s.belowMaxl p r.domain ∨ 16 ≤ s.activeLaunches then .next s0
            else
              let l := s0.addLaunch r.gang r.domain { h with args := n.args } (.node r.id node)
              .next (l.2.setReplay { r with nodes := r.nodes.set node { n with launch := some l.1 } })

/-! ### The end of a launch that a frame asked for (R330, R332, R334) -/

/-- A node's launch has ended: the node is done; an aborted one ends the replay with RESULT 1 (log entry 19, DEDUCED). -/
def Replay.nodeEnded (r : Replay) (node : Nat) (aborted : Bool) : Replay :=
  match r.nodes[node]? with
  | none => r
  | some n =>
    { r with
      nodes := r.nodes.set node { n with done := true }
      ended := if aborted ∧ r.ended.isNone then some (0, 1) else r.ended }

/-- LAUNCH_FRAME_COMPLETION (R332): every group of a launch that a frame asked for has retired, or it was aborted and none
runs: its completion is posted, and a replay learns that the node has ended. A launch whose slot is another's (R231) is kept
for this alone. -/
def execLaunchFrameCompletion (launch : Nat) (s : State) : Result :=
  match s.launches.find? (fun l => l.id == launch && l.owner != .strand) with
  | none => .next s
  | some l =>
    if !l.done then .next s
    else
      let s1 := if l.forgotten then { s with launches := s.launches.filter (fun x => x != l) }
        else s.setLaunch { l with owner := .strand }
      match l.owner with
      | .strand => .next s
      | .frame q tag =>
        .next (s1.complete q ⟨tag, 0, 2, if l.aborted then 1 else BitVec.ofNat 64 (l.id * 2 ^ 32)⟩)
      | .node r j =>
        match s1.replayOf r with
        | none => .next s1
        | some x => .next (s1.endReplay (x.nodeEnded j l.aborted))

/-! ### PATCH (R335) -/

/-- PATCH's own checks and effect: the named fields of one node record, as one store. -/
def patchBody (f : ReqFrame) (s : State) : FrameEnd :=
  let at_ := BitVec.ofNat 64 (frameArg f 0 8)
  let node := frameArg f 8 2
  let mask := frameArg f 10 1
  if !aligned at_ 64 then .done 2 0 s
  else
    match s.svcRead (s.frameList f) at_ 2 with
    | .error s1 => .done 7 at_ s1
    | .ok (nn, s0) =>
      if nn ≤ node then .done 2 0 s0
      else
        let rec_ := at_ + BitVec.ofNat 64 (64 * (node + 1))
        match s0.svcRead (s.frameList f) rec_ 16 with
        | .error s1 => .done 7 rec_ s1
        | .ok (old, s1) =>
          let hdr := if mask % 2 = 1 then frameArg f 0x10 8 else old % 2 ^ 64
          let args := if mask / 2 % 2 = 1 then frameArg f 0x18 8 else old / 2 ^ 64
          match s1.svcWrite (s.frameList f) rec_ 16 (hdr + args * 2 ^ 64) with
          | .error s2 => .done 7 rec_ s2
          | .ok s2 => .done 0 0 s2

/-- PATCH (R335): a frame of KIND 4, its queue's first. -/
def execPatch (q : Nat) (f : ReqFrame) (s : State) : Result :=
  if f.kind = 4 then
    .next (s.startFrame q f (decide (frameArg f 10 1 < 4) && frameArg f 11 5 == 0 && frameArg f 0x20 16 == 0) (patchBody f))
  else .next s

/-! ### CONTROL (R330) -/

/-- The launch a CONTROL frame names, when it is active. -/
def State.controlled (s : State) (f : ReqFrame) : Option Launch :=
  match s.launchOf (frameArg f 4 4) with
  | some l => if l.done then none else some l
  | none => none

/-- ABORT's own checks and effect. -/
def abortBody (f : ReqFrame) (s : State) : FrameEnd :=
  match s.controlled f with
  | none => .done 2 0 s
  | some l => if !s.gangFor (frameDomain f) l.gang then .done 4 0 s else .done 0 0 (s.abortLaunch l)

/-- ABORT (R330): a CONTROL frame with OP 1, its queue's first. -/
def execAbort (q : Nat) (f : ReqFrame) (s : State) : Result :=
  if f.kind = 6 ∧ frameArg f 0 2 = 1 then
    .next (s.startFrame q f (frameArg f 8 40 == 0 && frameArg f 2 2 == 0) (abortBody f))
  else .next s

/-- A RERUN's fetch that needs bytes of another device sends the READ for them, and waits in service. -/
def State.askRerun (s : State) (sid rows : Nat) (m : Mover) (dev pa n : Nat) : FrameEnd :=
  match s.sendRequest dev (.rerunRead sid) (readPacket 0 pa n) with
  | some (xtag, s1) => .waits rows { m with asked := some xtag } s1
  | none => .waits rows m s

/-- RERUN from its first step on: it waits for the group's cards, refetches from the rows already done on, reloads the
budget. (log entry 35, DEDUCED.) -/
def rerunNow (f : ReqFrame) (l : Launch) (w : Word) (rows : Nat) (m : Mover) (s : State) : FrameEnd :=
  let sid := frameArg f 2 2
  let x := s.strand sid
  let c := s.core (coreOf sid)
  match c.stoppedCards.find? (fun k => x.groupCard sid k.card) with
  | some k => .done 7 k.trap.addr s
  | none =>
    if m.asked.isSome || c.cards.any (x.groupCard sid) then .waits rows m s
    else
      match s.fetchRegions sid l.header w.toNat (x.receivedOf l.id - 1) l.header.regions rows rows m with
      | (s1, _, _, some (.trap t)) => .done 7 t.addr s1
      | (s1, n, m1, some .busy) => .waits n m1 s1
      | (s1, n, m1, some (.need _ dev pa k)) => s1.askRerun sid n m1 dev pa k
      | (s1, _, _, none) =>
        let budget := if l.header.budget = 0 then BitVec.allOnes 64 else BitVec.ofNat 64 l.header.budget
        .done 0 l.header.entry (s1.setStrand sid { s1.strand sid with groupBudget := budget })

/-- RERUN's own checks (R330): the rights first (R321); a known launch; RERUNNABLE, the launch's group running on STRAND, the
strand in S-mode; else DENIED. -/
def rerunBody (f : ReqFrame) (rows : Nat) (m : Mover) (s : State) : FrameEnd :=
  let sid := frameArg f 2 2
  if strandExists sid ∧ !s.clusterFor (frameDomain f) (clusterOf sid) then .done 4 0 s
  else
    match s.controlled f with
    | none => .done 2 0 s
    | some l =>
      if !s.gangFor (frameDomain f) l.gang ∨ !strandExists sid then .done 4 0 s
      else
        match (s.strand sid).running with
        | none => .done 4 0 s
        | some (id, w) =>
          if id ≠ l.id ∨ !l.header.flags.getLsbD 0 ∨ (s.strand sid).mode ≠ .s then .done 4 0 s else rerunNow f l w rows m s

/-- RERUN (R330): a CONTROL frame with OP 2, its queue's first, or in service and waiting for the group's cards or for its
fetch. -/
def execRerun (q : Nat) (f : ReqFrame) (s : State) : Result :=
  if f.kind ≠ 6 ∨ frameArg f 0 2 ≠ 2 then .next s
  else
    match s.serving q f with
    | some w => .next (s.serveAgain w (rerunBody f w.rows w.mover))
    | none => .next (s.startFrame q f (frameArg f 8 40 == 0) (rerunBody f 0 .reset))

/-- A CONTROL frame with another OP is malformed (R330). -/
def State.badControl (s : State) (q : Nat) (f : ReqFrame) : State :=
  s.startFrame q f (frameArg f 8 40 == 0) (fun s => .done 2 0 s)

/-! ### NOTIFY (R332) -/

/-- NOTIFY's own checks and effect. -/
def notifyBody (f : ReqFrame) (s : State) : FrameEnd :=
  let sid := frameArg f 0 2
  if !strandExists sid then .done 2 0 s
  else if !s.clusterFor (frameDomain f) (clusterOf sid) then .done 4 0 s
  else .done 0 0 (s.setStrand sid { s.strand sid with ipend := (s.strand sid).ipend ||| 2 })

/-- NOTIFY (R332): a frame of KIND 7, its queue's first. -/
def execNotify (q : Nat) (f : ReqFrame) (s : State) : Result :=
  if f.kind = 7 then .next (s.startFrame q f (frameArg f 2 46 == 0) (notifyBody f)) else .next s

end Sys2Proof.Machine
end

