-- ==== Sys2Proof/Machine/VecConfig.lean ====
section
/-! DEFINITION. Configuring the vector unit (R14, R15, R35 to R37, R144, R145): VCFG, VSETL, VACQ, VRELEASE, VGETTAG. -/
namespace Sys2Proof.Machine

/-- R35: a vtype word that VCFG accepts. -/
def vtypeOk (v : BitVec 16) : Bool :=
  v.extractLsb' 14 2 == 0 && isTag (vtypeTag v) &&
    (match elemOf (vtypeTag v) with | .bx _ => v.extractLsb' 11 3 == 5 | _ => true)

/-- R35, R144: the vtype a register takes from VCFG's word: all zero for DEAD, BLK 0 for a tag that is not BX. -/
def vtypeStored (v : BitVec 16) : BitVec 16 :=
  match elemOf (vtypeTag v) with
  | .dead => 0
  | .bx _ => v
  | _ => v &&& 0x07FF

/-- A register under VCFG's word: its bits and its VHWE stay, but a DEAD one covers nothing (R144). -/
def VReg.configured (r : VReg) (v : BitVec 16) : VReg :=
  if elemOf (vtypeTag v) = .dead then { r with vtype := 0, vhwe := 0, progress := 0 } else { r with vtype := vtypeStored v }

/-- Registers `first` to `first + n - 1` under VCFG's word. -/
def Strand.configure (x : Strand) (v : BitVec 16) (first : Nat) : Nat → Strand
  | 0 => x
  | n + 1 =>
    let r := BitVec.ofNat 5 (first + n)
    (x.configure v first n).setV r ((x.getV r).configured v)

/-- VCFG (R35, R144): no lanes are needed. VSTART is left alone. (log entry 86, DEDUCED.) -/
def execVcfg (d a : BitVec 5) (i : BitVec 16) (s : State) : Result :=
  if !vtypeOk i ∨ 31 < d.toNat + a.toNat then .next (s.trap (wordTrap causeIllegal (encRri 0x21 d a i)))
  else .next (s.setMe (s.me.configure i d.toNat (a.toNat + 1))).retire

/-- The VL ceiling in force: the start record's and, while a group runs, its header's (R145, R324). -/
def Strand.ceiling (x : Strand) : Nat :=
  match x.groupVlCeil with
  | some c => min x.vlCeil c
  | none => x.vlCeil

/-- The lane limit in force (R145, R324). -/
def Strand.limit (x : Strand) : Nat :=
  match x.groupLaneLimit with
  | some c => min x.laneLimit c
  | none => x.laneLimit

/-- R145: what VSETL grants. -/
def Strand.granted (x : Strand) (request wc vlcap : Nat) : Nat :=
  let vlmax := 2048 / 2 ^ wc
  min (min request vlmax) (min (vlcap * vlmax / 8) x.ceiling)

/-- VSETL (R145). -/
def execVsetl (d a : BitVec 5) (w : BitVec 4) (s : State) : Result :=
  let x := s.me
  if x.share = 0 then .next (s.trap (wordTrap causeVectNolanes (encRri 0x22 d a (w.setWidth 16))))
  else
    let vl := x.granted (s.g a).toNat w.toNat s.myCore.vlcap
    .next (s.setMe ({ x with vl := vl, vstart := 0, issueShare := x.share }.setG d (BitVec.ofNat 64 vl))).retire

/-- The quarters that the other three strands of a core hold. -/
def State.sharesBeside (s : State) (sid : Nat) : Nat :=
  (List.range 4).foldl (fun t i => if 4 * coreOf sid + i = sid then t else t + (s.strand (4 * coreOf sid + i)).share) 0

/-- R145, R14: the share VACQ leaves: it gives quarters back, or takes what is free, never past the core's four. -/
def State.acquired (s : State) (request : Nat) : Nat :=
  let want := min request 4
  if want < s.me.share then want else min want (min (4 - s.sharesBeside s.cur) s.me.limit)

/-- VACQ (R145): no lanes are needed (log entry 60, DEDUCED), and VSTART is left alone. (log entry 86, DEDUCED.) -/
def execVacq (d a : BitVec 5) (s : State) : Result :=
  let q := s.acquired (s.g a).toNat
  .next (s.setMe ({ s.me with share := q }.setG d (BitVec.ofNat 64 q))).retire

/-- VRELEASE's effect (R145): predicates and scale registers are kept. -/
def Strand.released (x : Strand) : Strand :=
  { x with v := x.v.map (fun r => r.configured 0), vl := 0, vstart := 0, share := 0 }

/-- VRELEASE (R145). -/
def execVrelease (s : State) : Result :=
  if s.me.share = 0 then .next (s.trap (wordTrap causeVectNolanes (encRri 0x22 0 0 0x8000)))
  else .next (s.setMe s.me.released).retire

/-- VGETTAG (R145): a DEAD register reads 0. VSTART is left alone. (log entry 86, DEDUCED.) -/
def execVgettag (d a : BitVec 5) (s : State) : Result := .next (s.writeG d ((s.me.getV a).vtype.setWidth 64))

end Sys2Proof.Machine
end

