-- ==== Sys2Proof/Machine/Service.lean ====
section
/-! DEFINITION. What the service cores write (R299, R337, R338, R365, R367): DBG_DATA, KETTLE_CTL, KETTLE_ADJUST, SVC_MODE,
SAM_QUOTA_SET and PIN_QUOTA_SET. -/
namespace Sys2Proof.Machine

/-! ### The debug port (R299, R300) -/

/-- FILE of DBG_SEL. -/
def State.dbgFile (s : State) : Nat := (s.dbgSel.extractLsb' 28 4).toNat

/-- The STRAND_ID that DBG_CTL.CORE and DBG_SEL.STRAND name. -/
def State.dbgStrand (s : State) : Nat := 4 * (s.dbgCtl.extractLsb' 16 11).toNat + (s.dbgSel.extractLsb' 26 2).toNat

/-- INDEX of DBG_SEL. -/
def State.dbgIndex (s : State) : Nat := (s.dbgSel.extractLsb' 0 26).toNat

/-- A 64-bit word of a long register replaced. -/
def wordInto {n : Nat} (x : BitVec n) (k : Nat) (v : Word) : BitVec n :=
  (x &&& ~~~(BitVec.ofNat n ((2 ^ 64 - 1) * 2 ^ (64 * k)))) ||| BitVec.ofNat n (v.toNat * 2 ^ (64 * k))

/-- R300: a vector word written; the progress index becomes VHWE (R42), and VHWE stays: a debugger's write is no
instruction's write of elements (log entry 100, DESIGN CHOICE). -/
def VReg.writeWord (r : VReg) (k : Nat) (v : Word) : VReg := { r with bits := wordInto r.bits k v, progress := r.vhwe }

/-- The vtype a debugger's write stores: DEAD for a word that VCFG would refuse (log entry 18, DESIGN CHOICE). -/
def dbgVtype (v : Word) : BitVec 16 :=
  let t := v.extractLsb' 0 16
  if v.extractLsb' 16 48 = 0 ∧ vtypeOk t then vtypeStored t else 0

/-- A vector register given a vtype by a debugger: DEAD counts its elements anew (R42). -/
def VReg.retyped (r : VReg) (vt : BitVec 16) : VReg :=
  if vtypeTag vt = 0 then { r with vtype := vt, vhwe := 0, progress := 0 } else { r with vtype := vt }

/-- FILE 0 to 8 written (R299); a word out of range is left as it is. A word of a tile or an accumulator sets its TDIRTY bit (R293). A pc written ends the frame in progress: the word at
the new pc runs next (R300; log entry 18, DESIGN CHOICE). -/
def State.dbgWrite (s : State) (sid file i : Nat) (v : Word) : State :=
  let x := s.strand sid
  let core := coreOf sid
  let c := s.core core
  match file with
  | 0 => if i < 32 then s.setStrand sid (x.setG (BitVec.ofNat 5 i) v) else s
  | 1 =>
    if i < 4096 then
      let n := BitVec.ofNat 5 (i / 128)
      s.setStrand sid (x.setV n ((x.getV n).writeWord (i % 128) v))
    else s
  | 2 =>
    if i < 32 then
      let n := BitVec.ofNat 5 i
      s.setStrand sid (x.setV n ((x.getV n).retyped (dbgVtype v)))
    else s
  | 3 => if h : 32 ≤ i ∧ i < 256 then
      s.setStrand sid { x with p := x.p.set (i / 32) (wordInto (x.p[i / 32]'(by omega)) (i % 32) v) (by omega) }
    else s
  | 4 => if h : i < 512 then
      s.setStrand sid { x with e := x.e.set (i / 32) (wordInto (x.e[i / 32]'(by omega)) (i % 32) v) (by omega) }
    else s
  | 5 => if h : i < 4096 then
      s.setCore core { c with
        tiles := c.tiles.set (i / 512) (wordInto (c.tiles[i / 512]'(by omega)) (i % 512) v) (by omega)
        tdirty := c.tdirty ||| (1#12 <<< (i / 512)) }
    else s
  | 6 => if h : i < 8192 then
      s.setCore core { c with
        accs := c.accs.set (i / 2048) (wordInto (c.accs[i / 2048]'(by omega)) (i % 2048) v) (by omega)
        tdirty := c.tdirty ||| (1#12 <<< (8 + i / 2048)) }
    else s
  | 7 =>
    s.asStrand sid (fun s =>
      if i < 2 ^ 14 ∧ (s.csrDenied i .s true).isNone then (s.csrStore sid i v).state s else s)
  | 8 => if i = 0 then s.setStrand sid { x with pc := v &&& ~~~(3 : Word), frame := none } else s
  | _ => s

/-- A 64-bit word of a long register. -/
def longWord {n : Nat} (x : BitVec n) (k : Nat) : Word := x.extractLsb' (64 * k) 64

/-- FILE 0 to 8 read (R299); none for a word out of range and for FILE 9 to 15. -/
def State.dbgWord (s : State) (sid file i : Nat) : Option Word :=
  let x := s.strand sid
  let c := s.core (coreOf sid)
  match file with
  | 0 => if i < 32 then some (x.getG (BitVec.ofNat 5 i)) else none
  | 1 => if i < 4096 then some (longWord (x.getV (BitVec.ofNat 5 (i / 128))).bits (i % 128)) else none
  | 2 => if i < 32 then some ((x.getV (BitVec.ofNat 5 i)).vtype.setWidth 64) else none
  | 3 => if h : i < 256 then some (longWord (x.p[i / 32]'(by omega)) (i % 32)) else none
  | 4 => if h : i < 512 then some (longWord (x.e[i / 32]'(by omega)) (i % 32)) else none
  | 5 => if h : i < 4096 then some (longWord (c.tiles[i / 512]'(by omega)) (i % 512)) else none
  | 6 => if h : i < 8192 then some (longWord (c.accs[i / 2048]'(by omega)) (i % 2048)) else none
  | 7 =>
    let t := { s with cur := sid }
    if i < 2 ^ 14 ∧ (t.csrDenied i .s false).isNone then t.csrRead sid i else none
  | 8 => if i = 0 then some x.pc else none
  | _ => none

/-- What a service core reads from DBG_DATA (R299): the selected word of a halted core, else all ones. -/
def State.dbgRead (s : State) : Word :=
  if coreExists (coreOf s.dbgStrand) ∧ s.haltedNow (coreOf s.dbgStrand) then
    (s.dbgWord s.dbgStrand s.dbgFile s.dbgIndex).getD (BitVec.allOnes 64)
  else BitVec.allOnes 64

/-- DBG_DATA (R299): the selected word of a halted core; otherwise the write is ignored. -/
def execDbgData (v : BitVec 64) (s : State) : Result :=
  if coreExists (coreOf s.dbgStrand) ∧ s.haltedNow (coreOf s.dbgStrand) then
    .next (s.dbgWrite s.dbgStrand s.dbgFile s.dbgIndex v)
  else .next s

/-! ### The Kettle (R337, R338) -/

/-- R337: a written cap: 0 stores 1, above 8 stores 8. -/
def capField (n : Nat) : Nat := min (max n 1) 8

/-- KETTLE_CTL as stored. -/
def kettleStored (v : Word) : Word :=
  let mfix := capField (v.extractLsb' 20 4).toNat
  let vfix := capField (v.extractLsb' 16 4).toNat
  let mmin := min (capField (v.extractLsb' 32 4).toNat) mfix
  let vmin := min (capField (v.extractLsb' 28 4).toNat) vfix
  v.extractLsb' 48 16 ++ ((0 : BitVec 12) ++ (BitVec.ofNat 4 mmin ++ (BitVec.ofNat 4 vmin ++ ((0 : BitVec 4) ++
    (BitVec.ofNat 4 mfix ++ (BitVec.ofNat 4 vfix ++ ((0 : BitVec 15) ++ v.extractLsb' 0 1)))))))

/-- The caps of a core set. -/
def State.setCaps (s : State) (core vl m : Nat) : State := s.setCore core { s.core core with vlcap := vl, mcap := m }

/-- Every core of the package (R9). -/
def allCores : List Nat := (List.range 1536).filter coreExists

/-- The cores of a cluster (R9). -/
def clusterCores (cluster : Nat) : List Nat := (List.range 24).map (fun i => 32 * cluster + i)

/-- KETTLE_CTL (R337): stored under its rules; with AUTO 0 every core holds the FIX values. -/
def execKettleCtl (v : BitVec 64) (s : State) : Result :=
  let k := kettleStored v
  let s1 := { s with kettleCtl := k }
  if k.getLsbD 0 then .next s1
  else
    .next (allCores.foldl (fun s c => s.setCaps c (k.extractLsb' 16 4).toNat (k.extractLsb' 20 4).toNat) s1)

/-- One step of a cap, never below its MIN nor above 8. -/
def stepCap (cap floor : Nat) : CapStep → Nat
  | .down => if floor < cap then cap - 1 else cap
  | .stay => cap
  | .up => if cap < 8 then cap + 1 else cap

/-- R337: 2,100 cycles have passed since the cluster's last change. -/
def State.capsRested (s : State) (cluster : Nat) : Bool :=
  match s.capChanged.find? (fun c => c.1 == cluster) with
  | some x => decide (x.2 + 2100 ≤ s.cycle)
  | none => true

/-- KETTLE_ADJUST (R337): with AUTO 1 and 2,100 cycles since the cluster's last change, each cap moves by its step on every
core of the cluster. -/
def execKettleAdjust (cluster : Nat) (vlStep mStep : CapStep) (s : State) : Result :=
  if cluster < 48 ∧ s.kettleCtl.getLsbD 0 ∧ s.capsRested cluster then
    let s1 := (clusterCores cluster).foldl (fun s c =>
      s.setCaps c (stepCap (s.core c).vlcap (s.kettleCtl.extractLsb' 28 4).toNat vlStep)
        (stepCap (s.core c).mcap (s.kettleCtl.extractLsb' 32 4).toNat mStep)) s
    .next { s1 with capChanged := mapSet s1.capChanged cluster s.cycle }
  else .next s

/-! ### SVC_MODE and the quotas (R365, R367) -/

/-- SVC_MODE (R367): a change governs operations that begin after it; the two modes differ only in time. -/
def execSvcMode (v : BitVec 64) (s : State) : Result := .next { s with svcMode := v &&& 0x3F }

/-- The fields of a quota word (R365), rsv bits 0. -/
def quotaWord (v : Word) : Word := v &&& 0x00000FFF0000FFFF

/-- R365: the Samovar limit in positions. -/
def samLimit : Nat := 2368

/-- R365: the pin limit in units. -/
def pinLimit : Nat := 576

/-- A domain's Samovar quota set, at most the limit. -/
def State.setSamQuota (s : State) (domain : BitVec 12) (v : Nat) : State :=
  s.setDomain domain { s.domainOf domain with samQuota := min v samLimit }

/-- A domain's pin quota set, at most the limit. -/
def State.setPinQuota (s : State) (domain : BitVec 12) (v : Nat) : State :=
  s.setDomain domain { s.domainOf domain with pinQuota := min v pinLimit }

/-- A write of SAM_QUOTA_SET (R365): the word is kept and the quota of its DOMAIN set. -/
def State.writeSamQuota (s : State) (v : Word) : State :=
  { s with samQuotaSet := quotaWord v }.setSamQuota (v.extractLsb' 32 12) (v.extractLsb' 0 16).toNat

/-- A write of PIN_QUOTA_SET (R365). -/
def State.writePinQuota (s : State) (v : Word) : State :=
  { s with pinQuotaSet := quotaWord v }.setPinQuota (v.extractLsb' 32 12) (v.extractLsb' 0 16).toNat

/-- SAM_QUOTA_SET (R365). -/
def execSamQuotaSet (v : BitVec 64) (s : State) : Result := .next (s.writeSamQuota v)

/-- PIN_QUOTA_SET (R365). -/
def execPinQuotaSet (v : BitVec 64) (s : State) : Result := .next (s.writePinQuota v)

end Sys2Proof.Machine
end

