-- ==== Sys2Proof/Machine/Services.lean ====
section
/-! DEFINITION. MEMORY frames (R336, R363, R364, R366, R371, R374): ARENA, KEY, QUOTA, PARTITION, TEARDOWN, ATTEST, ERRLOG and
FIRMWARE. -/
namespace Sys2Proof.Machine

/-! ### What the services share -/

/-- The DOMAIN field of a MEMORY frame at ARGS offset 4. -/
def svcDomain (f : ReqFrame) : BitVec 12 := BitVec.ofNat 12 (frameArg f 4 2)

/-- R364: from a local queue, a DOMAIN outside the partition is refused. -/
def State.domainReachable (s : State) (q : Nat) (d : BitVec 12) : Bool :=
  match (s.queue q).owner with
  | .part n => (s.partitionOfDomain d).map (fun p => p.num) == some n
  | _ => true

/-- R366: of a TEARDOWN's requests, the alighting stores that their devices have refused. -/
def State.refusedAlights (s : State) (tags : List Nat) : List Nat :=
  tags.filter (fun t => (s.fabricReq t).any (fun r => match r.purpose with | .shadow _ _ => r.answer.isSome | _ => false))

/-- R307, R363, R366: a frame completes once what has passed a dropped entry has been performed; the RESULT of TEARDOWN then
leaves out the records whose stores were refused. -/
def State.drained (s : State) (tags entries : List Nat) (result : Word) : FrameEnd :=
  if s.stillOpen tags entries then .drains tags entries result s
  else
    let bad := if result = 0 then [] else s.refusedAlights tags
    .done 0 (result - BitVec.ofNat 64 bad.length) (bad.foldl State.dropReq s)

/-- R307: the PLB entries of the domains picked leave every core; the frame that does so completes once what passed one of
them has been performed. -/
def State.dropRights (s : State) (pick : BitVec 12 → Bool) (result : Word) : FrameEnd :=
  let s1 := (s.dropPlb pick).sendDomains pick
  let passed := s1.passedOpen pick
  s1.drained passed.1 passed.2 result

/-- A MEMORY frame of one service starts, or, in service, goes on (R364); `rsvOk` tells that its unlisted fields are 0. -/
def memoryFrame (svc q : Nat) (f : ReqFrame) (rsvOk : Bool) (body : State → FrameEnd) (s : State) : Result :=
  if f.kind ≠ 5 ∨ frameArg f 0 2 ≠ svc then .next s
  else
    match (s.serving q f).bind (fun w => w.drain.map (fun x => (w, x))) with
    | some (w, tags, entries, r) => .next (s.serveAgain w (fun s => s.drained tags entries r))
    | none => .next (s.startFrame q f rsvOk body)

/-- A MEMORY frame whose SVC is not listed is malformed (R364). -/
def State.badService (s : State) (q : Nat) (f : ReqFrame) : State := s.startFrame q f true (fun s => .done 2 0 s)

/-- A frame of no listed KIND (R321): its queue's first, answered UNKNOWN. -/
def State.badKind (s : State) (q : Nat) (f : ReqFrame) : State := s.startFrame q f true (fun s => .done 6 0 s)

/-! ### ARENA (R81, R336) -/

/-- Every byte of a range lies in ordinary memory of the package, and each of a domain's lists grants R and W over it: page
by page; `fuel` bounds the pages. -/
def State.ownRange (s : State) (lists : List (List (BitVec 128))) (va stop : Nat) : Nat → Bool
  | 0 => decide (stop ≤ va)
  | fuel + 1 =>
    if stop ≤ va then true
    else
      match s.walk va with
      | some (e, _, level) =>
        let next := va / 2 ^ levelBits level * 2 ^ levelBits level + 2 ^ levelBits level
        lists.all (fun l => (firstRights va l).any (fun r => r.2.2 &&& 3 == 3)) && e.extractLsb' 60 2 == 0 &&
          s.ownRange lists (min next ((va / 2 ^ 21 + 1) * 2 ^ 21)) stop fuel
      | none => false

/-- R305, R306: the rights of a domain: its partition's list, and each list its strands name; with the state after they are
read. -/
def State.domainLists (s : State) (p : Partition) (d : BitVec 12) : List (List (BitVec 128)) × State :=
  let mine := s.strandIds.filter (fun i =>
    let x := s.strand i
    p.clusters.getLsbD (clusterOf i) && x.thread && x.domain == d && x.plbCtl.extractLsb' 12 52 != 0)
  mine.foldl (fun acc i =>
    let r := acc.2.readRights (coreOf i) ((acc.2.strand i).plbCtl &&& ~~~(0xFFF : Word)) 256
    (acc.1 ++ [r.1], r.2)) ([p.plist], s)

/-- Two arenas share a byte. -/
def Arena.meets (x y : Arena) : Bool := rangesMeet x.base x.bytes y.base y.bytes

/-- The blocks of an arena. -/
def Arena.blocks (r : Arena) : List BlockTransit :=
  (List.range (r.bytes / blockBytes r.cls)).map (fun i => ⟨r.cluster, r.cls, r.domain, r.base + i * blockBytes r.cls⟩)

/-- ARENA's own checks and effect: the rights first (R321, R322), then the fields, then the DOMAIN's rights over the range
(log entry 90, DEDUCED). -/
def arenaBody (q : Nat) (f : ReqFrame) (s : State) : FrameEnd :=
  let r : Arena := ⟨frameArg f 2 1, frameArg f 3 1, svcDomain f, frameArg f 8 8, frameArg f 16 8⟩
  if (r.cluster < 48 ∧ !s.clusterFor (frameDomain f) r.cluster) ∨ !s.domainReachable q r.domain then .done 4 0 s
  else if 48 ≤ r.cluster ∨ 9 ≤ r.cls ∨ r.base % blockBytes r.cls ≠ 0 ∨ r.bytes = 0 ∨ r.bytes % blockBytes r.cls ≠ 0 then
    .done 2 0 s
  else
    match s.partitionOfDomain r.domain with
    | none => .done 4 0 s
    | some p =>
      let (lists, s1) := s.domainLists p r.domain
      if 2 ^ 56 < r.base + r.bytes ∨ !s1.ownRange lists r.base (r.base + r.bytes) (r.bytes / 65536 + 2) then .done 4 0 s1
      else if s1.arenas.any (fun a => a.meets r) ∨ 64 ≤ (s1.arenas.filter (fun a => a.cluster == r.cluster)).length then
        .done 8 0 s1
      else
        .done 0 (BitVec.ofNat 64 (r.bytes / blockBytes r.cls))
          { s1 with arenas := s1.arenas ++ [r], freeBlocks := s1.freeBlocks ++ r.blocks }

/-- ARENA (R336): a MEMORY frame with SVC 1, its queue's first. -/
def execArena (q : Nat) (f : ReqFrame) (s : State) : Result :=
  memoryFrame 1 q f (frameArg f 6 2 == 0 && frameArg f 0x18 24 == 0 && decide (frameArg f 4 2 < 4096)) (arenaBody q f) s

/-! ### KEY and QUOTA (R315, R364, R365) -/

/-- KEY's own checks and effect: the slot takes the two XTS keys, read once. -/
def keyBody (q : Nat) (f : ReqFrame) (s : State) : FrameEnd :=
  let slot := frameArg f 2 1
  let at_ := BitVec.ofNat 64 (frameArg f 8 8)
  if !s.domainReachable q (svcDomain f) then .done 4 0 s
  else if slot = 0 then .done 2 0 s
  else
    match s.frameRead q f at_ 64 with
    | .error s1 => .done 7 at_ s1
    | .ok (k, s1) => .done 0 0 { s1 with keySlots := mapSet s1.keySlots slot (BitVec.ofNat 512 k) }

/-- KEY (R364): a MEMORY frame with SVC 2, its queue's first. -/
def execKey (q : Nat) (f : ReqFrame) (s : State) : Result :=
  memoryFrame 2 q f (frameArg f 3 1 == 0 && decide (frameArg f 4 2 < 4096) && frameArg f 6 2 == 0 && frameArg f 16 32 == 0)
    (keyBody q f) s

/-- The quota word of a frame (R365). -/
def quotaFrameWord (f : ReqFrame) : Word := BitVec.ofNat 64 (frameArg f 4 2 * 2 ^ 32 + frameArg f 8 8)

/-- QUOTA's own checks and effect: as a write of the quota's CSR (R365). -/
def quotaBody (q : Nat) (f : ReqFrame) (s : State) : FrameEnd :=
  let which := frameArg f 2 1
  let v := frameArg f 8 8
  if !s.domainReachable q (svcDomain f) then .done 4 0 s
  else if 2 ≤ which ∨ (if which = 0 then samLimit else pinLimit) < v then .done 2 0 s
  else if which = 0 then .done 0 0 (s.writeSamQuota (quotaFrameWord f))
  else .done 0 0 (s.writePinQuota (quotaFrameWord f))

/-- QUOTA (R364): a MEMORY frame with SVC 3, its queue's first. -/
def execQuota (q : Nat) (f : ReqFrame) (s : State) : Result :=
  memoryFrame 3 q f (frameArg f 3 1 == 0 && decide (frameArg f 4 2 < 4096) && frameArg f 6 2 == 0 && frameArg f 16 32 == 0)
    (quotaBody q f) s

/-! ### PARTITION (R363) -/

/-- A rights list as a snapshot: up to 256 entries, ended by LOG2SIZE 0; the state after the checks when one cannot be read. -/
def State.readList (s : State) (at_ : Word) : Nat → Except State (List (BitVec 128) × State)
  | 0 => .ok ([], s)
  | n + 1 =>
    match s.svcRead none at_ 16 with
    | .error s1 => .error s1
    | .ok (x, s1) =>
      let e := BitVec.ofNat 128 x
      if e.extractLsb' 72 6 = 0 then .ok ([], s1)
      else
        match s1.readList (at_ + 16) n with
        | .error s2 => .error s2
        | .ok (l, s2) => .ok (e :: l, s2)

/-- The strands of a set of clusters. -/
def strandsIn (clusters : BitVec 48) : List Nat := ((List.range 48).filter (fun c => clusters.getLsbD c)).flatMap clusterStrands

/-- R363: a strand of clusters that a partition would lose is unparked. -/
def State.stillRuns (s : State) (clusters : BitVec 48) : Bool := (strandsIn clusters).any (fun i => !(s.strand i).parked)

/-- R363: two partitions share a cluster or a domain. -/
def Partition.meets (p r : Partition) : Bool := (p.clusters &&& r.clusters) != 0 || rangesMeet p.dfirst p.dcount r.dfirst r.dcount

/-- The domains of a partition. -/
def Partition.owns (p : Partition) (d : BitVec 12) : Bool := decide (p.dfirst ≤ d.toNat) && decide (d.toNat < p.dfirst + p.dcount)

/-- The local queue of a partition from its descriptor, or none for LQP 0. -/
def State.localQueue (s : State) (num : Nat) (lqp : Word) : Served (Option Queue) :=
  if lqp = 0 then .ok (none, s)
  else
    match s.svcNeed none lqp 64 with
    | .error e => .error e
    | .ok (x, s1) =>
      if !aligned lqp 64 || !descriptorOk x then .error (2, 0, s1) else .ok (some (queueOf (.part num) x s.cycle), s1)

/-- A partition defined or replaced. -/
def State.installPartition (s : State) (p : Partition) (lq : Option Queue) : State :=
  let s1 := { s with partitions := s.partitions.filter (fun (r : Partition) => r.num != p.num) ++ [p] }
  match lq with
  | some x => s1.setQueue (1 + p.num) x
  | none => { s1 with queues := mapDrop s1.queues (1 + p.num) }

/-- A partition deleted. -/
def State.deletePartition (s : State) (p : Partition) : State :=
  { s with partitions := s.partitions.filter (fun r => r.num != p.num), queues := mapDrop s.queues (1 + p.num) }

/-- PARTITION's own checks and effect: with a partition replaced or deleted the PLB entries of its domains, old and new, are
invalidated as PLBINV does (R307). -/
def partitionBody (q : Nat) (f : ReqFrame) (s : State) : FrameEnd :=
  let num := frameArg f 2 1
  let dfirst := frameArg f 4 2
  let dcount := frameArg f 6 2
  let clusters := BitVec.ofNat 48 (frameArg f 8 6)
  let plist := BitVec.ofNat 64 (frameArg f 0x10 8)
  let lrt := BitVec.ofNat 64 (frameArg f 0x18 8)
  let lqp := BitVec.ofNat 64 (frameArg f 0x20 8)
  let old := s.partitions.find? (fun p => p.num == num)
  let had := (old.map (fun p => p.clusters)).getD 0
  if q ≠ hostQueue then .done 4 0 s
  else if 48 ≤ num ∨ dfirst < 1 ∨ 4095 < dfirst ∨ dcount < 1 ∨ 4096 < dfirst + dcount ∨ !aligned lrt 4096 ∨
      !aligned plist 4096 then .done 2 0 s
  else if s.stillRuns (had &&& ~~~clusters) then .done 8 0 s
  else if clusters = 0 then
    match old with
    | none => .done 0 0 s
    | some p => (s.deletePartition p).dropRights p.owns 0
  else
    let p : Partition := ⟨num, dfirst, dcount, clusters, [], lrt, lqp, f⟩
    if s.partitions.any (fun r => r.num != num && r.meets p) then .done 8 0 s
    else
      match s.readList plist 256 with
      | .error s1 => .done 7 plist s1
      | .ok (l, s1) =>
        match s1.localQueue num lqp with
        | .error (st, a, s2) => .done st a s2
        | .ok (lq, s2) =>
          (s2.installPartition { p with plist := l } lq).dropRights (fun d => p.owns d || old.any (fun o => o.owns d)) 0

/-- PARTITION (R363): a MEMORY frame with SVC 4, its queue's first. -/
def execPartition (q : Nat) (f : ReqFrame) (s : State) : Result :=
  memoryFrame 4 q f (frameArg f 3 1 == 0 && frameArg f 14 2 == 0 && frameArg f 0x28 8 == 0) (partitionBody q f) s

/-! ### TEARDOWN (R366) -/

/-- R366: the alighting of a record by the service cores: its store under the partition list and the page table, to another
device's memory as a WRITE (R75); one that would fault, or that no link takes, is dropped and logged. -/
def State.alightForced (s : State) (plist : List (BitVec 128)) (r : Record) : State × Nat :=
  let dropped := fun (s1 : State) => (s1.logError 0 4 r.shadow, 0)
  if classOf r.shadow ≠ .ordinary || !svcGrants (some plist) 2 r.shadow then dropped s
  else
    match s.translate .store r.shadow.toNat with
    | some (.mem f, s1) => (s1.storeRecordAt f r, 1)
    | some (.fabric dev pa, s1) =>
      match s1.sendRequest dev (.shadow r.domain r.shadow) (writePacket 0 pa 48 r.payload) with
      | some (_, s2) => (s2, 1)
      | none => dropped s1
    | some (_, s1) => dropped s1
    | none => dropped s

/-- Every record of a domain taken off the ring and out of the stops, and alighted: how many were stored. -/
def State.alightDomain (s : State) (d : BitVec 12) (plist : List (BitVec 128)) : State × Nat :=
  let live := s.records.filter (fun r => r.domain == d && !r.capturedMark)
  let held := s.captures.filterMap (fun x => x.2.bind (fun c => if c.rec_.domain = d then some c.rec_ else none))
  let waiting := (s.reentries.filter (fun e => e.rec_.domain == d)).map (fun e => e.rec_)
  let s1 := { s with
    records := s.records.filter (fun r => r.domain != d)
    captures := s.captures.map (fun x => (x.1, x.2.bind (fun c => if c.rec_.domain = d then none else some c)))
    reentries := s.reentries.filter (fun e => e.rec_.domain != d)
    boarding := s.boarding.filter (fun b => b.2.1 != d) }
  (live ++ held ++ waiting).foldl (fun a r =>
    let b := a.1.alightForced plist r
    (b.1, a.2 + b.2)) (s1, 0)

/-- TEARDOWN's own checks and effect, in the order of R366. The domain's strands, parked, hold no thread afterwards.
(log entry 21, DEDUCED.) -/
def teardownBody (q : Nat) (f : ReqFrame) (s : State) : FrameEnd :=
  let d := svcDomain f
  if !s.domainReachable q d then .done 4 0 s
  else
    let mine := s.strandIds.filter (fun i => (s.strand i).domain == d)
    if mine.any (fun i => !(s.strand i).parked) then .done 8 0 s
    else
      let s1 := (s.launches.filter (fun l => !l.done && l.domain == d)).foldl State.abortLaunch s
      let r := s1.alightDomain d (((s.partitionOfDomain d).map (fun p => p.plist)).getD [])
      let s2 := { r.1 with
        pins := r.1.pins.filter (fun p => p.domain != d)
        arenas := r.1.arenas.filter (fun a => a.domain != d)
        freeBlocks := r.1.freeBlocks.filter (fun b => b.domain != d)
        blocksBack := r.1.blocksBack.filter (fun b => b.domain != d) }
      (mine.foldl (fun s i => s.setStrand i { s.strand i with thread := false }) s2).dropRights (fun e => e == d)
        (BitVec.ofNat 64 r.2)

/-- TEARDOWN (R366): a MEMORY frame with SVC 5, its queue's first. -/
def execTeardown (q : Nat) (f : ReqFrame) (s : State) : Result :=
  memoryFrame 5 q f (frameArg f 2 2 == 0 && decide (frameArg f 4 2 < 4096) && frameArg f 6 42 == 0) (teardownBody q f) s

/-! ### ATTEST (R374) -/

/-- The partition whose local queue has a number. -/
def State.localPartition (s : State) (q : Nat) : Option Partition :=
  match (s.queue q).owner with
  | .part n => s.partitions.find? (fun p => p.num == n)
  | _ => none

/-- R374: PARTDIGEST: of the requester's partition frame and PLIST; zero from the host queue. -/
def State.partDigest (s : State) (q : Nat) : BitVec 256 :=
  match s.localPartition q with
  | none => 0
  | some p =>
    Config.sha3 (64 + 16 * p.plist.length)
      ((frameBytes p.frame).toNat + 2 ^ 512 * p.plist.foldr (fun e acc => e.toNat + 2 ^ 128 * acc) 0)

/-- R374: bytes 0x000 to 0x597 of a report. -/
def State.reportHead (s : State) (q nonce : Nat) (image : Image) : Nat :=
  1 + 2 ^ 32 * image.secver.toNat + 2 ^ 64 * nonce + 2 ^ 320 * image.digest.toNat + 2 ^ 576 * s.svcMode.toNat +
    2 ^ 640 * 0x00010100 + 2 ^ 704 * (s.partDigest q).toNat + 2 ^ 960 * Config.identityPub.toNat

/-- ATTEST's own checks and effect: the report, as one step, written to OUT. -/
def attestBody (q : Nat) (f : ReqFrame) (s : State) : FrameEnd :=
  let out := BitVec.ofNat 64 (frameArg f 0x28 8)
  if !aligned out 4096 then .done 2 0 s
  else
    match s.image with
    | none => .done 4 0 s
    | some image =>
      let head := s.reportHead q (frameArg f 8 32) image
      let report := head + 2 ^ (8 * 0x598) * (Config.identitySign (Config.sha3 0x598 head)).toNat
      match s.frameWrite q f out 3852 report with
      | .error s1 => .done 7 out s1
      | .ok s1 => .done 0 0 s1

/-- ATTEST (R374): a MEMORY frame with SVC 6, its queue's first. -/
def execAttest (q : Nat) (f : ReqFrame) (s : State) : Result :=
  memoryFrame 6 q f (frameArg f 2 6 == 0) (attestBody q f) s

/-! ### ERRLOG (R364) -/

/-- R364: the 32 bytes of a record. -/
def errBytes (r : ErrRecord) : BitVec 256 :=
  r.count ++ (r.place ++ ((0 : BitVec 32) ++ (r.event ++ (r.unit_ ++ r.time))))

/-- ERRLOG's own checks and effect: the newest whole records that fit, the newest first (log entry 16, DEDUCED). -/
def errlogBody (q : Nat) (f : ReqFrame) (s : State) : FrameEnd :=
  let n := min s.errors.length (frameArg f 16 8 / 32)
  if q ≠ hostQueue then .done 4 0 s
  else
    let out := BitVec.ofNat 64 (frameArg f 8 8)
    let bytes := (s.errors.take n).foldr (fun r acc => (errBytes r).toNat + 2 ^ 256 * acc) 0
    match s.hostWrite out (32 * n) bytes with
    | none => .done 7 out s
    | some s1 => .done 0 (BitVec.ofNat 64 n) s1

/-- ERRLOG (R364): a MEMORY frame with SVC 7, its queue's first. -/
def execErrlog (q : Nat) (f : ReqFrame) (s : State) : Result :=
  memoryFrame 7 q f (frameArg f 2 6 == 0 && frameArg f 0x18 24 == 0) (errlogBody q f) s

/-! ### FIRMWARE (R371, R372) -/

/-- R371: an image's form: MAGIC, rsv and length. -/
def imageFormOk (x bytes : Nat) : Bool :=
  cardField x 0 8 == 0x534657494D470001 && cardField x 0x0C 4 == 0 && bytes == 0x1000 + cardField x 0x10 8

/-- R371: what the image's checks come to: RESULT 1 or 2 of a refusal, or the image. -/
def verifyImage (x : Nat) : Except Nat Image :=
  let body := cardField x 0x10 8
  let pub := BitVec.ofNat 10496 (cardField x 0x38 1312)
  let digest := BitVec.ofNat 256 (cardField x 0x18 32)
  let secver := BitVec.ofNat 32 (cardField x 8 4)
  if Config.sha3 1312 pub.toNat ≠ Config.fusedKeyDigest ∨
      !Config.verifySignature pub (Config.sha3 0x558 (x % 256 ^ 0x558)) (BitVec.ofNat 19360 (cardField x 0x558 2420)) ∨
      Config.sha3 body (cardField x 0x1000 body) ≠ digest then .error 1
  else if secver.ult Config.fusedSecver then .error 2
  else .ok ⟨secver, digest⟩

/-- FIRMWARE's own checks and effect: the image is copied and verified, and the switch becomes pending. -/
def firmwareBody (q : Nat) (f : ReqFrame) (s : State) : FrameEnd :=
  let at_ := BitVec.ofNat 64 (frameArg f 8 8)
  let bytes := frameArg f 16 8
  if q ≠ hostQueue then .done 4 0 s
  else if !aligned at_ 4096 then .done 2 0 s
  else
    match s.hostRead at_ bytes with
    | none => .done 7 at_ s
    | some x =>
      if bytes < 0x1000 ∨ !imageFormOk x bytes then .done 2 0 s
      else
        match verifyImage x with
        | .error r => .done 4 (BitVec.ofNat 64 r) s
        | .ok image => .later { s with pendingImage := some ⟨image, q, f.tag⟩ }

/-- FIRMWARE (R371): a MEMORY frame with SVC 8, its queue's first. -/
def execFirmware (q : Nat) (f : ReqFrame) (s : State) : Result :=
  memoryFrame 8 q f (frameArg f 2 6 == 0 && frameArg f 0x18 24 == 0) (firmwareBody q f) s

end Sys2Proof.Machine
end

