-- ==== Sys2Proof/Machine/Boot.lean ====
section
/-! DEFINITION. Reset, bring-up and the switching of the firmware (R308, R368 to R373): RESET and FIRMWARE_TAKEOVER. -/
namespace Sys2Proof.Machine

/-! ### The capability list (R368, R369) -/

/-- The entries of a THR-SF1152-A: ID, whether INACTIVE, data words. -/
def State.capEntries (s : State) : List (Nat × Bool × List Nat) :=
  [(0x0001, false, [1184, 2368]), (0x0002, false, [48, 16, 12]), (0x0004, !s.fabricActive, [32, s.device]),
   (0x0005, false, [256]), (0x0006, false, [0x3F]), (0x0100, false, [48, 24, 2 ^ 24, Config.hbmBytes])]

/-- The bytes of a list from an offset on, as a number with their count. -/
def capBytes (off : Nat) : List (Nat × Bool × List Nat) → Nat × Nat
  | [] => (0, 0)
  | (id, inactive, words) :: t =>
    let len := 8 * words.length
    let here := 16 + len
    let next := if t.isEmpty then 0 else off + here
    let rest := capBytes (off + here) t
    (id + 2 ^ 16 + (if inactive then 2 ^ 24 else 0) + 2 ^ 32 * len + 2 ^ 48 * next +
      2 ^ 128 * words.foldr (fun w acc => w + 2 ^ 64 * acc) 0 + 2 ^ (8 * here) * rest.1, here + rest.2)

/-- The list written where it lies, its flags as they stand. -/
def State.writeCaps (s : State) : State :=
  match s.capsAt with
  | none => s
  | some at_ =>
    let b := capBytes 0 s.capEntries
    s.writeMem at_ b.2 b.1

/-! ### Bring-up (R370) -/

/-- The physical base of the firmware's tables: the spec names no place (log entry 23, DESIGN CHOICE). -/
def firmwareBase (fresh : Nat) : Nat := (Config.freeBits fresh 18).toNat * 2 ^ 18

/-- The program address of the capability list: the spec names no place (log entry 23, DESIGN CHOICE). -/
def capsAddress (fresh : Nat) : Nat := (Config.freeBits fresh 35).toNat * 2 ^ 21

/-- R351: the route table the service cores set: for each device one port and up to three further ones. -/
def bringUpRoutes : Map (List Nat) :=
  (List.range 256).map (fun d => (d, ((Config.cabling d).filter (fun n => decide (n < Config.linkPorts))).take 4))

/-- R308, R351, R368: the firmware builds the root, a read-only page that holds the capability list, and the route table of
the fabric. -/
def State.bringUp (s : State) : State :=
  let base := firmwareBase s.fresh
  let va := capsAddress (s.fresh + 1)
  let page := base + 65536
  let at_ := fun (level : Nat) => base + 8192 * level + 8 * (va / 2 ^ levelBits level % 1024)
  let s1 := { s with
    fresh := s.fresh + 2, root := some base, caps := BitVec.ofNat 64 va, capsAt := some page, routes := bringUpRoutes }
  let s2 := ((s1.writeMem (at_ 0) 8 (base + 8192 + 1)).writeMem (at_ 1) 8 (base + 16384 + 1)).writeMem (at_ 2) 8
    (base + 24576 + 1)
  (s2.writeMem (at_ 3) 8 (page / 65536 * 2 ^ 20 + 0x83)).writeCaps

/-- FIRMWARE_TAKEOVER (R370, R372): with a switch pending and no frame in service the new image takes over and the SVC 8
frame completes with its SECVER; the first image of a package builds the root and the list. -/
def execFirmwareTakeover (s : State) : Result :=
  match s.pendingImage with
  | none => .next s
  | some p =>
    if !s.service.isEmpty then .next s
    else
      let s1 := { s with image := some p.image, pendingImage := none }
      let s2 := if s.image.isNone then s1.bringUp else s1
      .next (s2.complete p.q ⟨p.tag, 0, 5, p.image.secver.setWidth 64⟩)

/-- RESET (R370, steps 1 to 4): the package is as right after reset; host memory is the host's own and stays, and free values
already drawn are not drawn again. -/
def execReset (s : State) : Result :=
  .next { State.reset with
    agenda := s.agenda, fresh := s.fresh, device := s.device, hostHoles := s.hostHoles
    mem := s.mem.filter (fun c => decide (hostBase ≤ c.1)) }

end Sys2Proof.Machine
end

