-- ==== Sys2Proof/Machine/Branch.lean ====
section
/-! DEFINITION. Control transfer (R138, R139): majors 0x1B to 0x1E. -/
namespace Sys2Proof.Machine

/-- R138: a branch on g(a) and g(b). -/
def branchOp (taken : Word → Word → Bool) (a b : BitVec 5) (o : BitVec 13) (s : State) : Result :=
  .next (if taken (s.g a) (s.g b) then s.jump (s.me.pc + o.signExtend 64 * 4) else s.retire)

/-- BEQ (R138). -/
def execBeq (a b : BitVec 5) (o : BitVec 13) (s : State) : Result := branchOp (fun x y => x == y) a b o s
/-- BNE (R138). -/
def execBne (a b : BitVec 5) (o : BitVec 13) (s : State) : Result := branchOp (fun x y => x != y) a b o s
/-- BLT (R138). -/
def execBlt (a b : BitVec 5) (o : BitVec 13) (s : State) : Result := branchOp (fun x y => x.slt y) a b o s
/-- BGE (R138). -/
def execBge (a b : BitVec 5) (o : BitVec 13) (s : State) : Result := branchOp (fun x y => !x.slt y) a b o s
/-- BLTU (R138). -/
def execBltu (a b : BitVec 5) (o : BitVec 13) (s : State) : Result := branchOp (fun x y => x.ult y) a b o s
/-- BGEU (R138). -/
def execBgeu (a b : BitVec 5) (o : BitVec 13) (s : State) : Result := branchOp (fun x y => !x.ult y) a b o s

/-- J (R139). -/
def execJ (o : BitVec 26) (s : State) : Result := .next (s.jump (s.me.pc + o.signExtend 64 * 4))

/-- JAL (R139): the link goes to g31. -/
def execJal (o : BitVec 26) (s : State) : Result :=
  .next ((s.setG 31 (s.me.pc + 4)).jump (s.me.pc + o.signExtend 64 * 4))

/-- JALR (R139): a target that is not a multiple of 4 traps MISALIGNED with g(d) unchanged. -/
def execJalr (d a : BitVec 5) (i : BitVec 16) (s : State) : Result :=
  let target := s.g a + i.signExtend 64
  if target.extractLsb' 0 2 ≠ 0 then .next (s.trap (addrTrap causeMisaligned target))
  else .next ((s.setG d (s.me.pc + 4)).jump target)

end Sys2Proof.Machine
end

