-- ==== Sys2Proof/Machine/Cache.lean ====
section
/-! DEFINITION. Cache control (R78, R79, R210 to R214): major 0x38, PREFETCH and WRITEBACK_COMPLETE. Data caches hold nothing
here that memory does not; what a vault holds for a pinned unit is taken to be dirty until it is written back. -/
namespace Sys2Proof.Machine

/-- The word of a CACHE instruction. -/
def cacheWord (fn : BitVec 4) (d a b : BitVec 5) (c : BitVec 4) : InstrWord := encClass 0x38 d a b c 0 fn

/-- R72: a range that lies in the scratchpad windows, which the PLB does not check. -/
def windowRange (a : Word) (n : Nat) : Bool := isWindow a && decide (a.toNat % 2 ^ 28 + n ≤ 2 ^ 28)

/-- The PLB over a range at issue (R212, R213): the trap names the start address. (log entry 52, DEDUCED.) A fill of it that
the service cores are to make waits while they are being switched (R367). -/
def State.rangeRights (s : State) (need : BitVec 4) (a : Word) (n : Nat) : Checked Unit :=
  if windowRange a n then .ok ((), s)
  else
    match s.plbRange s.actor need a.toNat (a.toNat + n) 65536 with
    | .error (.trap _, s1) => .error (.trap (addrTrap causeDomainRights a), s1)
    | r => r

/-! ### CPREF and PREFETCH (R211) -/

/-- R210: CPREF's operand. (log entry 67, DEDUCED.) -/
def cprefOk (v : Word) : Bool := v.extractLsb' 4 60 == 0 && v.extractLsb' 0 2 != 3

/-- CPREF (R211): the descriptor is read as a class-c load and queued. -/
def execCpref (d a b : BitVec 5) (c : BitVec 4) (s : State) : Result :=
  if !cprefOk (s.g b) then .next (s.writeG d 2)
  else if !aligned (s.g a) 32 then .next (s.trap (addrTrap causeMisaligned (s.g a)))
  else
    match s.readBlockOf s.actor c.toNat (s.g a) 32 with
    | .error (e, s1) => .next (s1.stopped e)
    | .ok (x, s1) =>
      if 8 ≤ s1.myCore.prefetchQ.length then .next (s1.writeG d 1)
      else
        let job : PrefetchJob := ⟨BitVec.ofNat 256 x, (s.g b).extractLsb' 0 4, s.me.domain⟩
        .next ((s1.setMyCore { s1.myCore with prefetchQ := s1.myCore.prefetchQ ++ [job] }).writeG d 0)

/-- PREFETCH (R211): the queue's first descriptor is served. It never traps and brings nothing that a program can tell from
memory. -/
def execPrefetch (core : Nat) (s : State) : Result :=
  let c := s.core core
  .next (s.setCore core { c with prefetchQ := c.prefetchQ.drop 1 })

/-! ### CFLUSH and CINV (R212) -/

/-- Whether some pinned unit holds bytes of a range. -/
def State.pinnedIn (s : State) (lo n : Nat) : Bool := s.pins.any (fun p => rangesMeet (p.unit * 2 ^ 20) (2 ^ 20) lo n)

/-- The range's write-backs: none outstanding, and the instruction completes; else it waits for them.
(log entry 27, DESIGN CHOICE.) -/
def State.writeBack (s : State) (d : BitVec 5) (lo n : Nat) : Result :=
  if s.pinnedIn lo n then .next (s.waiting (.writeback d lo n)) else .next (s.writeG d (BitVec.ofNat 64 n))

/-- CFLUSH (R212). -/
def execCflush (d a b : BitVec 5) (c : BitVec 4) (s : State) : Result :=
  match s.rangeRights 1 (s.g a) (s.g b).toNat with
  | .error (e, s1) => .next (s1.stopped e)
  | .ok (_, s1) =>
    if !s1.mayTarget s.cur c.toNat none then .next (s1.waiting .poll)
    else s1.writeBack d (s.g a).toNat (s.g b).toNat

/-- R212: cached copies of a range leave the caches; of what the model keeps, the instruction words. -/
def State.dropCopies (s : State) (lo n : Nat) : State :=
  { s with cores := s.cores.map (fun c => (c.1, { c.2 with icache := dropCode c.2.icache lo n })) }

/-- The sectors of memory that hold a range of one page; none for a page that is absent or another device's. -/
def State.pageSectors (s : State) (lo n page : Nat) : List Nat :=
  match s.translate .load (65536 * page) with
  | some (.mem f, _) =>
    ((List.range 2048).filter (fun i => rangesMeet (65536 * page + 32 * i) 32 lo n)).map (fun i => f.byte (32 * i) / 32)
  | _ => []

/-- R301: the marks of a range's sectors end with the refill from memory, unless a pinned unit holds them dirty (log entry
27, DESIGN CHOICE). -/
def State.refill (s : State) (lo n : Nat) : State :=
  if s.poison.isEmpty then s
  else
    let pages := (List.range ((lo + n - 1) / 65536 + 1 - lo / 65536)).map (fun i => lo / 65536 + i)
    let gone := (pages.filter (fun p => !s.pinnedIn (65536 * p) 65536)).flatMap (s.pageSectors lo n)
    { s with poison := s.poison.filter (fun k => !gone.contains k) }

/-- CINV (R212). -/
def execCinv (d a b : BitVec 5) (c : BitVec 4) (s : State) : Result :=
  match s.rangeRights 3 (s.g a) (s.g b).toNat with
  | .error (e, s1) => .next (s1.stopped e)
  | .ok (_, s1) =>
    if !s1.mayTarget s.cur c.toNat none then .next (s1.waiting .poll)
    else ((s1.dropCopies (s.g a).toNat (s.g b).toNat).refill (s.g a).toNat (s.g b).toNat).writeBack d (s.g a).toNat (s.g b).toNat

/-- WRITEBACK_COMPLETE (R212): the write-backs of a waiting CFLUSH or CINV are performed. -/
def execWritebackComplete (sid : Nat) (s : State) : Result :=
  match (s.strand sid).wait with
  | .writeback d _ n => .next (s.asStrand sid (fun s => s.writeG d (BitVec.ofNat 64 n)))
  | _ => .next s

/-! ### CPIN and CUNPIN (R78, R79, R213) -/

/-- COUNT of a pin operand. -/
def pinCount (v : Word) : Nat := (v.extractLsb' 8 8).toNat

/-- R210: a pin operand's rsv bits and COUNT. -/
def pinCountOk (v : Word) : Bool :=
  v.extractLsb' 16 48 == 0 && v.extractLsb' 6 2 == 0 && decide (1 ≤ pinCount v) && decide (pinCount v ≤ 12)

/-- The vault an operand names, on a cluster. -/
def pinVault (v : Word) (cluster : Nat) : Option Nat :=
  let n := (v.extractLsb' 0 6).toNat
  if n = 63 then some cluster else if n < 48 then some n else none

/-- The units of a range. -/
def unitsOf (a : Word) (n : Nat) : List Nat := (List.range n).map (fun i => a.toNat / 2 ^ 20 + i)

/-- R213: some page of a unit is a 64 GiB page, or not memory of the own package. -/
def State.unpinnable (s : State) (unit : Nat) : Bool :=
  (List.range 16).any (fun i =>
    match s.walk (unit * 2 ^ 20 + i * 65536) with
    | some (e, _, level) => level == 1 || e.extractLsb' 60 2 != 0
    | none => false)

/-- CPIN (R213): the checks in their order. The spec gives a range of window addresses no outcome: it passes the PLB, and its
units' pages are those of the address without bits [63:56] (log entry 81, DESIGN CHOICE). -/
def execCpin (d a b : BitVec 5) (_c : BitVec 4) (s : State) : Result :=
  let at_ := s.g a
  let v := s.g b
  let n := pinCount v
  if !aligned at_ (2 ^ 20) then .next (s.trap (addrTrap causeMisaligned at_))
  else
    match s.rangeRights 3 at_ (n * 2 ^ 20) with
    | .error (e, s1) => .next (s1.stopped e)
    | .ok (_, s1) =>
      match (if pinCountOk v then pinVault v (clusterOf s.cur) else none) with
      | none => .next (s1.writeG d 4)
      | some vault =>
        let units := unitsOf at_ n
        if (s.domainOf s.me.domain).pinQuota < (s1.pins.filter (fun p => p.domain == s.me.domain)).length + n then
          .next (s1.trap ⟨causePinQuota, at_, 0, BitVec.ofNat 48 n⟩)
        else if units.any s1.unpinnable then .next (s1.writeG d 3)
        else if s1.pins.any (fun p => units.contains p.unit) then .next (s1.writeG d 2)
        else if 12 < (s1.pins.filter (fun p => p.vault == vault)).length + n then .next (s1.writeG d 1)
        else
          .next ({ s1 with pins := s1.pins ++ units.map (fun u => (⟨u, vault, s.me.domain⟩ : Pin)) }.writeG d 0)

/-- CUNPIN (R213): VAULT is ignored. -/
def execCunpin (d a b : BitVec 5) (_c : BitVec 4) (s : State) : Result :=
  let at_ := s.g a
  let v := s.g b
  if !aligned at_ (2 ^ 20) then .next (s.trap (addrTrap causeMisaligned at_))
  else if !pinCountOk v then .next (s.writeG d 4)
  else
    let units := unitsOf at_ (pinCount v)
    let mine := fun (p : Pin) => p.domain == s.me.domain && units.contains p.unit
    .next ({ s with pins := s.pins.filter (fun p => !mine p) }.writeG d
      (BitVec.ofNat 64 (s.pins.filter mine).length))

/-! ### CPRI (R214) -/

/-- CPRI: priorities alter no value; the range needs R. -/
def execCpri (d a b : BitVec 5) (_c : BitVec 4) (s : State) : Result :=
  let v := s.g b
  if v.extractLsb' 34 30 ≠ 0 then .next (s.writeG d 2)
  else
    match s.rangeRights 1 (s.g a) (v.toNat % 2 ^ 32) with
    | .error (e, s1) => .next (s1.stopped e)
    | .ok (_, s1) => .next (s1.writeG d 0)

end Sys2Proof.Machine
end

