-- ==== Sys2Proof/Machine/Message.lean ====
section
/-! DEFINITION. Active messages (R29, R107, R108, R220 to R224, R232, R291): sending, the mailbox, dispatch through the
landing block, AMDONE and the class mask. -/
namespace Sys2Proof.Machine

/-! ### Messages -/

/-- R222: the header word. -/
def msgHeader (sown : Bool) (sdev sstrand : Nat) (reply : Bool) (cls : Nat) : BitVec 64 :=
  (0 : BitVec 23) ++ (BitVec.ofBool sown ++ (BitVec.ofNat 8 sdev ++ (BitVec.ofNat 16 sstrand ++
    ((0 : BitVec 7) ++ (BitVec.ofBool reply ++ ((0 : BitVec 4) ++ BitVec.ofNat 4 cls))))))

/-- R222: the 64 bytes of a message, the header word lowest. -/
def msgBytes (header : BitVec 64) (payload : Nat) : BitVec 512 :=
  BitVec.ofNat 512 (header.toNat + 2 ^ 64 * payload)

/-- `n` 8-byte words read from an address on, each a load of its own. -/
def State.readWords (s : State) (who : Actor) (a : Word) : Nat → Checked Nat
  | 0 => .ok (0, s)
  | n + 1 =>
    match s.readBlock who a 8 with
    | .error t => .error t
    | .ok (x, s1) =>
      match s1.readWords who (a + 8) n with
      | .error t => .error t
      | .ok (y, s2) => .ok (x + 2 ^ 64 * y, s2)

/-- R221: rsv bits of a destination word. -/
def destRsv : Word := 0xFFFFFFFE00FF0000

/-- R221: the CORE of a destination word. -/
def destCore (v : Word) : Nat := (v.extractLsb' 4 12).toNat

/-- R221: a destination that is the issuing package: OWN, or its own device number (log entry 13, DEDUCED). -/
def State.destOwn (s : State) (v : Word) : Bool := v.getLsbD 32 || (v.extractLsb' 24 8).toNat == s.device

/-- A message packet of R352: AUX[0] tells a sender that waits for AMDONE (log entry 9, DESIGN CHOICE). -/
def msgPacket (core cls : Nat) (bytes : BitVec 512) (handled : Bool) : Packet :=
  { emptyPacket with
    kind := 0x07, cls := BitVec.ofNat 4 cls, addr := BitVec.ofNat 64 core
    aux := if handled then 1 else 0, data := bytesOf bytes.toNat 64 }

/-- A message put on its way: to a core of the package, with SDEV 0 (log entry 116, DESIGN CHOICE), or as a packet to another device;
none when no link is up. -/
def State.post (s : State) (own : Bool) (dev core : Nat) (reply handled : Bool) (cls payload : Nat) :
    Option (Nat × State) :=
  let bytes := msgBytes (msgHeader own (if own then 0 else s.device) s.cur reply cls) payload
  let num := s.serial
  let s1 := { s with serial := s.serial + 1 }
  if own then
    let m : Msg := ⟨num, cls, bytes, s.cur, s.device, true, reply, false, none, none⟩
    some (num, { s1 with messages := s1.messages ++ [⟨m, core, dev, true, none, none⟩] })
  else (s1.sendRequest dev (.message num) (msgPacket core cls bytes handled)).map (fun r => (num, r.2))

/-- AMSEND and AMSENDW (R221, R222): the payload is read (first: log entry 115, DEDUCED), an invalid destination is answered at
once, and otherwise the strand waits for the mailbox's answer. -/
def sendOp (handled : Bool) (d a b : BitVec 5) (s : State) : Result :=
  let dest := s.g a
  if !aligned (s.g b) 8 then .next (s.trap (addrTrap causeMisaligned (s.g b)))
  else
    match s.readWords s.actor (s.g b) 7 with
    | .error (e, s1) => .next (s1.stopped e)
    | .ok (payload, s1) =>
      if dest &&& destRsv ≠ 0 ∨ !coreExists (destCore dest) then .next (s1.writeG d 2)
      else
        match s1.post (s1.destOwn dest) (dest.extractLsb' 24 8).toNat (destCore dest) false handled
            (dest.extractLsb' 0 4).toNat payload with
        | none => .next (s1.writeG d 3)
        | some (num, s2) =>
          let s3 := if handled then { s2 with handling := s2.handling ++ [(num, s.cur)] } else s2
          .next (s3.waiting (.amsend d num handled))

/-- AMSEND (R222). -/
def execAmsend (d a b : BitVec 5) (s : State) : Result := sendOp false d a b s

/-- AMSENDW (R222). -/
def execAmsendw (d a b : BitVec 5) (s : State) : Result := sendOp true d a b s

/-- The word of an AM instruction. -/
def amWord (d a b : BitVec 5) (fn : BitVec 11) : InstrWord := encRrr 0x3B d a b fn

/-- A field of a message's header word. -/
def Msg.field (m : Msg) (lo n : Nat) : Nat := (m.bytes.extractLsb' lo n).toNat

/-- The message a handler serves. -/
def State.servedBy (s : State) (sid : Nat) (h : HandlerCtx) : Option Msg :=
  (s.core (coreOf sid)).mailbox.find? (fun m => m.num == h.msg)

/-- AMREPLY (R222): to the sender of the message being handled; it does not wait, and a link that is down discards the
reply. -/
def execAmreply (d a b : BitVec 5) (s : State) : Result :=
  match s.me.handler with
  | none => .next (s.trap (wordTrap causeIllegal (amWord d a b 2)))
  | some h =>
    if !aligned (s.g b) 8 then .next (s.trap (addrTrap causeMisaligned (s.g b)))
    else
      match s.readWords s.actor (s.g b) 7 with
      | .error (e, s1) => .next (s1.stopped e)
      | .ok (payload, s1) =>
        match s1.servedBy s.cur h with
        | none => .next (s1.writeG d 0)
        | some m =>
          match s1.post m.fromOwn m.fromDev (m.fromStrand / 4) true false ((s.g a).extractLsb' 0 4).toNat payload with
          | none => .next (s1.writeG d 0)
          | some (_, s2) => .next (s2.writeG d 0)

/-! ### AMDONE (R223, R291) -/

/-- The handling of a message is over: an AMSENDW that waits for it completes with a status; an acceptance not yet taken
finds it handled, or, when a link has stopped, that status in its place (R359). -/
def State.handled (s : State) (num status : Nat) : State :=
  let s1 := { s with handling := s.handling.filter (fun x => x.1 != num) }
  match s.handling.find? (fun x => x.1 == num) with
  | none => s1
  | some (_, sid) =>
    match (s1.strand sid).wait with
    | .amdone d n => if n = num then s1.asStrand sid (fun s => s.writeG d (BitVec.ofNat 64 status)) else s1
    | _ =>
      { s1 with messages := s1.messages.map (fun f =>
          if f.msg.num = num ∧ f.answer = some 0 then { f with answer := some status } else f) }

/-- R223: the slot of a message is freed and its sender told; a sender on another device by a second response, AUX 1 (log
entry 9). -/
def State.freeMessage (s : State) (core num : Nat) : State :=
  let c := s.core core
  let s1 := s.setCore core { c with mailbox := c.mailbox.filter (fun m => m.num != num) }
  match (c.mailbox.find? (fun m => m.num == num)).bind (fun m => m.notify.map (fun x => (m, x))) with
  | some (m, xtag) =>
    s1.emit { emptyPacket with
      kind := 0x08, ddev := BitVec.ofNat 8 m.fromDev, xtag := BitVec.ofNat 32 xtag, aux := 1 }
  | none => s1.handled num 0

/-- The strand back in the thread its handler interrupted: pc, mode, IE and DOMAIN; on an abort from S-mode IE takes
PIE. (log entry 28, DEDUCED.) -/
def Strand.leaveHandler (x : Strand) (h : HandlerCtx) : Strand :=
  let st := x.status
  let ie := if x.mode = .u then h.ie else st.getLsbD 5
  { x with
    pc := h.pc
    status := statusWord (st.getLsbD 8) (st.getLsbD 7) (st.getLsbD 5) ie (st.extractLsb' 2 2) h.mode.code
    domain := h.domain
    handler := none
    wait := .none
    gathered := []
    reassignCount := if h.mode = .u then none else x.reassignCount }

/-- AMDONE (R223, R291). -/
def execAmdone (s : State) : Result :=
  let x := s.me
  let word := amWord 0 0 0 3
  match x.handler with
  | none => .next (s.trap (wordTrap causeIllegal word))
  | some h =>
    if x.mode ≠ .u ∧ !x.status.getLsbD 7 then .next (s.trap (wordTrap causeIllegal word))
    else .next ((s.setMe (x.leaveHandler h)).freeMessage (coreOf s.cur) h.msg)

/-! ### The class mask (R224) -/

/-- RCMASK. -/
def execRcmask (c : BitVec 4) (s : State) : Result :=
  .next (s.setMyCore { s.myCore with rcmask := s.myCore.rcmask ||| BitVec.ofNat 16 (2 ^ c.toNat) }).retire

/-- RCUNMASK. -/
def execRcunmask (c : BitVec 4) (s : State) : Result :=
  .next (s.setMyCore { s.myCore with rcmask := s.myCore.rcmask &&& ~~~(BitVec.ofNat 16 (2 ^ c.toNat)) }).retire

/-! ### The mailbox (R222) -/

/-- What an arriving message meets: 0 accepted, 1 refused, 2 no route; a poisoned message is refused (R301). -/
def State.arrivalOutcome (s : State) (core : Nat) (m : Msg) : Nat :=
  if m.poisoned then 1
  else if (s.routeOf core m).isNone then 2
  else if 32 ≤ (s.core core).mailbox.length then 1
  else 0

/-- An accepted message in its mailbox. -/
def State.accept (s : State) (core : Nat) (m : Msg) : State :=
  let c := s.core core
  s.setCore core { c with mailbox := c.mailbox ++ [m] }

/-- The READ of a message's route entry that is out or answered. -/
def State.routeAsked (s : State) (num : Nat) : Option FabricReq := s.fabric.find? (fun r => r.purpose == .route num)

/-- Two messages come from one core to one core (R347). -/
def MsgFlight.abreast (x f : MsgFlight) : Bool :=
  x.core == f.core && x.msg.fromStrand / 4 == f.msg.fromStrand / 4 && x.msg.fromDev == f.msg.fromDev

/-- The read of the route entry of a class on a core has to wait (R349, R367). -/
def State.routeWaits (s : State) (core cls : Nat) : Bool := s.ownWaits (s.routeAt core cls) 32

/-- R347: the messages under way that are first from their sending core to their core, and wait for no route entry: any of
them may arrive next. -/
def State.nextArrivals (s : State) : List MsgFlight :=
  let open_ := s.messages.filter (fun f => f.answer.isNone)
  open_.filter (fun f => (open_.find? (fun x => x.abreast f)) == some f &&
    (s.routeAsked f.msg.num).all (fun r => r.answer.isSome) && !s.routeWaits f.core f.msg.cls)

/-- R75, R222: the route entry of a message that has come to its core, when the core's table lies in another device's memory:
with the entry, as it was brought, or no route, when it cannot be; or the state in which a READ is out for it. -/
def State.routeBrought (s : State) (core : Nat) (m : Msg) : Except State (Msg × State) :=
  match (s.routeLoad core m.cls).1, m.entry with
  | .far dev pa, none =>
    let s1 := s.touchRoute core m.cls
    match s1.routeAsked m.num with
    | some r =>
      let (st, data) := r.answer.getD (4, [])
      .ok ({ m with entry := some (if st % 65536 = 0 then readValue r.packet.mask data pa 32 else 0) }, s1.dropReq r.xtag)
    | none =>
      match s1.sendRequest dev (.route m.num) (readPacket 0 pa 32) with
      | some (_, s2) => .error s2
      | none => .ok ({ m with entry := some 0 }, s1)
  | _, _ => .ok (m, s)

/-- MESSAGE_ARRIVAL (R222): a message under way reaches its core; which of several is a free choice (log entry 5, DESIGN
CHOICE). A refused reply is sent again; a reply that finds no route is discarded. -/
def execMessageArrival (s : State) : Result :=
  match (match s.nextArrivals with
    | [] => none
    | [f] => some (f, s)
    | f :: l => some ((f :: l).getD (Config.freeChoice s.fresh % (l.length + 1)) f, s.drawn)) with
  | none => .next s
  | some (f, s) =>
    match s.routeBrought f.core f.msg with
    | .error s1 => .next s1
    | .ok (m, s) =>
      let rest := s.messages.filter (fun x => x.msg.num != m.num)
      let outcome := s.arrivalOutcome f.core m
      let s := s.touchRoute f.core m.cls
      let s1 := if outcome = 0 then s.accept f.core m else s
      match f.packet with
      | some p => .next ({ s1 with messages := rest }.answer p 0x08 outcome [])
      | none =>
        if m.reply then
          let again : List MsgFlight :=
            if outcome = 1 then [{ f with msg := { m with poisoned := false, entry := none } }] else []
          .next { s1 with messages := rest ++ again }
        else
          .next { s1 with messages := s1.messages.map (fun x =>
            if x.msg.num = m.num then { x with answer := some outcome } else x) }

/-- AMSEND_ANSWER (R222): the answer reaches the waiting sender. -/
def execAmsendAnswer (sid : Nat) (s : State) : Result :=
  match (s.strand sid).wait with
  | .amsend d num handled =>
    match (s.messages.find? (fun f => f.msg.num == num)).bind (fun f => f.answer) with
    | none => .next s
    | some status =>
      let s1 := { s with messages := s.messages.filter (fun f => f.msg.num != num) }
      if handled && status == 0 && s1.handling.any (fun x => x.1 == num) then
        .next (s1.setStrand sid { s1.strand sid with wait := .amdone d num })
      else
        .next (({ s1 with handling := s1.handling.filter (fun x => x.1 != num) }).asStrand sid
          (fun s => s.writeG d (BitVec.ofNat 64 status)))
  | _ => .next s

/-! ### Dispatch (R29, R117, R223, R245, R289) -/

/-- A word of the vector memory majors. -/
def vectorAccess (w : InstrWord) : Bool := decide (0x2B ≤ (w.extractLsb' 26 6).toNat ∧ (w.extractLsb' 26 6).toNat ≤ 0x2E)

/-- R171: VSTART is set and may be that of a vector access that is not finished: in U-mode one stands at the pc, to be
reissued there; in S-mode it may be the interrupted thread's. A word still to be fetched may be one. (log entry 108,
DEDUCED.) -/
def State.accessOpen (s : State) (sid : Nat) : Bool :=
  let x := s.strand sid
  x.vstart != 0 && (x.mode != .u ||
    match s.fetchWord sid x.pc with
    | .ok (w, _) => vectorAccess w
    | .error (.trap _, _) => false
    | .error _ => true)

/-- Whether a message may be dispatched to a strand now: nothing else is due, no handler, frame or capture, no vector access
unfinished, no route entry that cannot be read yet. -/
def State.dispatchOpen (s : State) (sid : Nat) : Bool :=
  let x := s.strand sid
  !(s.core (coreOf sid)).mailbox.any (fun m => s.routeWaits (coreOf sid) m.cls) &&
  s.attends sid && x.open_ && x.handler.isNone && x.frame.isNone && (s.captureOf sid).isNone && (s.due sid).isNone &&
    !s.accessOpen sid

/-- R223: the class-0 stores of the landing block: the message at 0 and g1 at 64; the answer has the XTAGs of those that go
to another device. R355 may hold them first. (log entry 31, DEDUCED.) -/
def State.landingStore (s : State) (sid : Nat) (blk : Word) (m : Msg) : Checked (List Nat) :=
  let x := s.strand sid
  if !aligned blk 128 then .error (.trap (addrTrap causeMisaligned blk), s)
  else
    match s.resolve (s.actorOf sid) .store blk 72 with
    | .error e => .error e
    | .ok (.fabric dev pa, s1) =>
      if !s1.mayTarget sid 0 (some dev) then .error (.busy, s1)
      else
        match s1.sendRequest dev (.held sid) (writePacket 0 pa 64 m.bytes.toNat) with
        | none => .error (.trap (addrTrap causeLinkDown blk), s1)
        | some (t1, s2) =>
          match s2.sendRequest dev (.held sid) (writePacket 0 (pa + 64) 8 (x.getG 1).toNat) with
          | none => .error (.trap (addrTrap causeLinkDown blk), s2)
          | some (t2, s3) => .ok ([t1, t2], s3)
    | .ok (p, s1) =>
      if !s1.mayTarget sid 0 none then .error (.busy, s1)
      else .ok ([], s1.writePlace p 72 (m.bytes.toNat + 2 ^ 512 * (x.getG 1).toNat))

/-- R223: the landing stores are performed: g1 names the block, and the handler may begin. -/
def Strand.landedAt (x : Strand) (blk : Word) : Strand :=
  { x.setG 1 blk with wait := .none, handler := x.handler.map (fun h => { h with landed := true }) }

/-- R223: the landing of a dispatched message: the stores and g1, or the trap at ENTRY; one that has to wait is tried again
at the strand's turn. -/
def State.land (s : State) (sid : Nat) (blk : Word) (m : Msg) : State :=
  match s.landingStore sid blk m with
  | .error (.trap t, s1) => s1.trapOn sid t
  | .error (_, s1) => s1
  | .ok ([], s1) => s1.setStrand sid ((s1.strand sid).landedAt blk)
  | .ok (tags, s1) => s1.setStrand sid { s1.strand sid with wait := .landing blk tags }

/-- R223: landing stores that another device has answered: performed, or the trap at ENTRY. -/
def State.finishLanding (s : State) (sid : Nat) (blk : Word) (tags : List Nat) : State :=
  let l := tags.filterMap (fun t => s.fabricReq t)
  if l.any (fun r => r.answer.isNone) then s
  else
    let s1 := tags.foldl State.dropReq s
    match l.findSome? (fun r => statusCause ((r.answer.map Prod.fst).getD 4 % 65536)) with
    | some cause => s1.trapOn sid (addrTrap cause blk)
    | none => s1.setStrand sid ((s1.strand sid).landedAt blk)

/-- R223: the strand at the handler's entry, the interrupted thread kept; in U-mode the count of R328 is at 0.
(log entry 29, DEDUCED.) -/
def Strand.enterHandler (x : Strand) (m : Msg) (r : RouteEntry) (budget : Nat) : Strand :=
  { x with
    handler := some ⟨x.pc, x.mode, x.ie, x.domain, m.cls, budget, m.num, false⟩
    status := x.status &&& ~~~(3 : BitVec 64)
    domain := r.domain
    pc := r.entry
    wait := .none
    gathered := []
    reassignCount := x.reassignCount.map (fun _ => 0) }

/-- A landing that trapped is tried again once the handler is back in U-mode (R223). -/
def State.landAgain (s : State) (sid : Nat) (h : HandlerCtx) : State :=
  match s.servedBy sid h with
  | some m =>
    if s.routeWaits (coreOf sid) h.cls then s else
    match s.routeOf (coreOf sid) m with
    | some r => (s.touchRoute (coreOf sid) h.cls).land sid r.land m
    | none => s
  | none => s

/-- R223: the route entry of a message in a core's mailbox asked for, or, once it is here, kept with the message. -/
def State.routeFetched (s : State) (core : Nat) (m : Msg) : State :=
  match s.routeBrought core m with
  | .error s1 => s1
  | .ok (m1, s1) =>
    s1.setCore core { s1.core core with
      mailbox := (s1.core core).mailbox.map (fun x => if x.num = m.num then m1 else x) }

/-- Whether a strand stands before a landing still to be done. -/
def Strand.landingDue (x : Strand) : Bool :=
  x.mode == .u && x.wait == .none && (match x.handler with | some h => !h.landed | none => false)

/-- The dispatch of the oldest message for a strand, if one may be dispatched and no route entry is still on its way. -/
def State.dispatch (s : State) (sid : Nat) : Option State :=
  if !s.dispatchOpen sid then none
  else
    match s.routeUnread (coreOf sid), s.messageFor sid with
    | some m, _ => if (s.routeAsked m.num).any (fun r => r.answer.isNone) then none else some (s.routeFetched (coreOf sid) m)
    | none, none => none
    | none, some (m, r) =>
      match s.settle sid .handler with
      | none => none
      | some s1 =>
        let s2 := s1.setStrand sid ((s1.strand sid).enterHandler m r (s1.core (coreOf sid)).handlerBudget)
        some ((s2.touchRoute (coreOf sid) m.cls).land sid r.land m)

/-- MESSAGE_DISPATCH (R223). -/
def execMessageDispatch (sid : Nat) (s : State) : Result :=
  match (s.strand sid).handler with
  | some h => if (s.strand sid).landingDue ∧ s.attends sid then .next (s.landAgain sid h) else .next s
  | none => .next ((s.dispatch sid).getD s)

end Sys2Proof.Machine
end

