-- ==== Sys2Proof/Machine/Links.lean ====
section
/-! DEFINITION. The Rininori ports and their keys (R351, R357 to R359): stops, training, rotation, the LINK_KEY registers, and
the end of requests whose port stops. -/
namespace Sys2Proof.Machine

/-! ### Requests that end (R356, R359) -/

/-- What waits for a device goes on as far as it may. -/
def State.goOn (s : State) (dev : Nat) : State := s.releaseQueued dev (s.queuedFor dev)

/-- A strand still waits for a request. -/
def State.awaits (s : State) (xtag sid : Nat) : Bool :=
  match (s.strand sid).wait with
  | .load x _ _ _ _ => x == xtag
  | .amo x _ _ _ _ => x == xtag
  | .vector x _ _ => x == some xtag
  | .scatter _ _ _ _ _ _ x _ _ => x == some xtag
  | .ordered _ _ _ _ _ _ _ x _ _ _ => x == some xtag
  | .fetch x => x == xtag
  | .gather l => l.contains xtag
  | .landing _ l => l.contains xtag
  | _ => false

/-- The answer of a request set. -/
def State.setAnswer (s : State) (xtag status : Nat) (data : List Byte) : State :=
  { s with fabric := s.fabric.map (fun (x : FabricReq) => if x.xtag = xtag then { x with answer := some (status, data) } else x) }

/-- The answer of a request kept for its strand; one whose access was cancelled is dropped.
(log entry 72, DEDUCED.) -/
def State.keepAnswer (s : State) (r : FabricReq) (sid status : Nat) (data : List Byte) : State :=
  if s.awaits r.xtag sid then s.setAnswer r.xtag status data else s.dropReq r.xtag

/-- What the READ of a mover brought. -/
def Mover.took (m : Mover) (r : FabricReq) (status : Nat) (data : List Byte) : Mover :=
  if m.asked = some r.xtag then
    let n := (List.range 128).countP (fun i => r.packet.mask.getLsbD i)
    let pa := r.packet.addr.toNat + ((List.range 128).find? (fun i => r.packet.mask.getLsbD i)).getD 0
    { m with
      asked := none
      brought := some ⟨r.packet.ddev.toNat, pa, n, status, readValue r.packet.mask data pa n⟩ }
  else m

/-- A write of a card's row was answered: one that was not performed fails the card at the lowest such row (R209). -/
def Card.wrote (k : Card) (row : Nat) (addr : Word) (status : Nat) : Card :=
  match statusCause status with
  | none => k
  | some cause =>
    match k.failed with
    | some (r, _) => if r ≤ row then k else { k with failed := some (row, addrTrap cause addr) }
    | none => { k with failed := some (row, addrTrap cause addr) }

/-- The card of a core with a number, changed. -/
def State.onCard (s : State) (core num : Nat) (f : Card → Card) : State :=
  match (s.core core).card num with
  | some k => s.setCard core (f k)
  | none => s

/-- The cause a Steep entry's status carries (R219). -/
def entryCause (status : Nat) : BitVec 8 :=
  if status = 3 then causeMemPoison else if status = 4 then causeLinkDown else causeFaultWrite

/-- The status AMSEND reports for a message's response (R222). -/
def sendStatus (status : Nat) : Nat := if status = 4 then 3 else min status 2

/-- The answer to a message to another device: the sender's AMSEND learns it; a refused reply is sent again; of an accepted
AMSENDW the request stays until AMDONE's own response (log entry 9, DESIGN CHOICE). -/
def State.messageAnswered (s : State) (r : FabricReq) (num status : Nat) (handled : Bool) : State :=
  if handled then (s.dropReq r.xtag).handled num (sendStatus status)
  else if cardField (numOf r.packet.data) 1 1 % 2 = 1 then
    let s1 := s.dropReq r.xtag
    if status = 1 then ((s1.sendRequest r.packet.ddev.toNat r.purpose r.packet).map Prod.snd).getD s1 else s1
  else
    let m : Msg := ⟨num, 0, 0, 0, 0, false, false, false, none, none⟩
    let s1 := if status = 0 ∧ r.packet.aux = 1 then s.setAnswer r.xtag 0 [] else s.dropReq r.xtag
    { s1 with messages := s1.messages ++ [⟨m, 0, r.packet.ddev.toNat, false, some (sendStatus status), none⟩] }

/-- A Steep entry's own answer in the response to its packet: its status and its flags, two bytes (log entry 9, DESIGN
CHOICE). -/
def State.entryAnswered (s : State) (status : Nat) (data : List Byte) (i : Nat) (e : SteepEntry) : State :=
  let st := if status = 0 then numOf ((data.drop (2 * i)).take 1) else status
  if st = 0 then s.entryDone e (BitVec.ofNat 5 (numOf ((data.drop (2 * i + 1)).take 1))) else s.entryFault e (entryCause st)

/-- What a request was made for learns its answer (R352, R353, R359): a strand's access, a refused store for its fence, the
entries of a Steep packet, a card's row, a fetch, a message's route entry, a teardown's record (R366). -/
def State.concluded (s : State) (r : FabricReq) (status : Nat) (data : List Byte) (aux : Word) : State :=
  match r.purpose with
  | .load sid => s.keepAnswer r sid status data
  | .amo sid => s.keepAnswer r sid status data
  | .held sid => s.keepAnswer r sid status data
  | .vector sid _ => s.keepAnswer r sid status data
  | .store sid addr cls order =>
    let s1 := s.dropReq r.xtag
    if status = 4 then s1.setStrand sid ((s1.strand sid).refuse ⟨addr, cls, order⟩) else s1
  | .steep l =>
    ((List.range l.length).zip l).foldl (fun s x => s.entryAnswered status data x.1 x.2) (s.dropReq r.xtag)
  | .record _ => s.dropReq r.xtag
  | .descriptor => s.dropReq r.xtag
  | .message num => s.messageAnswered r num status (aux == 1)
  | .card core num row addr => (s.dropReq r.xtag).onCard core num (fun k => k.wrote row addr status)
  | .cardRead core num => (s.dropReq r.xtag).onCard core num (fun k => { k with mover := k.mover.took r status data })
  | .footRead sid =>
    let s1 := s.dropReq r.xtag
    match (s1.strand sid).ahead with
    | some a => s1.setStrand sid { s1.strand sid with ahead := some { a with mover := a.mover.took r status data } }
    | none => s1
  | .route num =>
    if s.messages.any (fun f => f.msg.num == num) then s.setAnswer r.xtag status data else s.dropReq r.xtag
  | .shadow _ addr =>
    if (statusCause status).isSome then (s.setAnswer r.xtag status []).logError 0 4 addr else s.dropReq r.xtag
  | .rerunRead _ =>
    { s.dropReq r.xtag with service := s.service.map (fun w => { w with mover := w.mover.took r status data }) }

/-- A request has its answer, or its port has stopped; what waited for its flits goes on (R356). -/
def State.endRequest (s : State) (r : FabricReq) (status : Nat) (data : List Byte) (aux : Word) : State :=
  (s.concluded r status data aux).goOn r.packet.ddev.toNat

/-! ### Ports that stop and train (R350, R358, R359) -/

/-- R359: the requests over a port that its stop ends: those not yet answered, and the AMSENDWs that wait for AMDONE. -/
def State.endedBy (s : State) (port : Nat) : List FabricReq :=
  s.fabric.filter (fun r => r.port == port &&
    (r.answer.isNone || (match r.purpose with | .message _ => true | _ => false)))

/-- R359: every request sent or queued over a port that has stopped and not yet answered completes with status 4; so does an
AMSENDW that waits for AMDONE over it. -/
def State.endOver (s : State) (port : Nat) : State :=
  (s.endedBy port).foldl (fun s r => s.endRequest r 4 [] (if r.answer.isSome then 1 else 0)) s

/-- A port stopped (R359): its devices' traffic goes by their next ports, and the requests over it end. -/
def State.stopPort (s : State) (port : Nat) (exhausted : Bool) : State :=
  let l := s.port port
  (State.reroute (s.setPort port { l with
    down := true, exhausted := l.exhausted || exhausted, needKey := l.needKey || exhausted })).endOver port

/-- R359: a port that has lost its training, or trains again (R358): it carries nothing, and the capability list follows
(R369). -/
def State.untrain (s : State) (port : Nat) : State :=
  (s.setPort port { s.port port with trained := false }).writeCaps

/-- R359, R369: a port loses its training: it stops, unless it has stopped before, and the capability list follows. -/
def State.loseTraining (s : State) (port : Nat) : State :=
  (if (s.port port).down then s else s.stopPort port false).untrain port

/-- R359: the peer of a port has stopped: the receive side raises its own DOWN, and the port is trained as it was. -/
def State.hearStop (s : State) (port : Nat) : State := if (s.port port).down then s else s.stopPort port false

/-- PORT_STOP (R359) of event `n`: for 0 to 35 that port has lost its training, and stops; one that had stopped is no longer
trained either (R369). For 64 to 99 the peer of port n − 64 has stopped. (log entry 119, DESIGN CHOICE.) -/
def execPortStop (n : Nat) (s : State) : Result :=
  if n < 36 then .next (s.loseTraining n)
  else if 64 ≤ n ∧ n < 100 then .next (s.hearStop (n - 64))
  else .next s

/-- LINK_TRAINED (R358, R368, R369): the port carries traffic again, unless it still needs a key; the fabric's capability
entry is active while a port is trained. Requests that the port's last block left open have ended first (R359). -/
def execLinkTrained (port : Nat) (s : State) : Result :=
  if port < 36 ∧ !(s.port port).needKey then
    let s0 := if (s.port port).down then s.endOver port else s
    let l := s0.port port
    .next ((s0.setPort port { l with
      trained := true, down := false, exhausted := false, failures := 0, retrainBy := none }).reroute).writeCaps
  else .next s

/-! ### Blocks, counters and keys (R357) -/

/-- R357, R350: the eighth failure of a block in a row: a Rininori port stops; a bridge link is retrained, for which its traffic
waits up to 1 ms (2,100,000 cycles). -/
def State.linkFails (s : State) (port : Nat) : State :=
  if port < 32 then s.stopPort port false
  else s.setPort port { s.port port with trained := false, retrainBy := some (s.cycle + 2100000) }

/-- R357: a receiver has discarded a block of a number of flits: it takes the block's counter values all the same, and under
hardware rotation it has derived its next key first. -/
def LinkPort.discard (l : LinkPort) (rotates : Bool) (flits : Nat) : LinkPort :=
  { l with rx := (if rotates then l.rx.rotate else l.rx).pass (flits + 1), failures := l.failures + 1 }

/-- BLOCK_REPLAY (R357): a receiver discards a block with a bad tag or counter and asks for it again; a sender sends a block of
its replay buffer again as a new block with new counters. Which of the four is asked for, and how many flits a discarded block
had, is a free choice (log entry 5, DESIGN CHOICE). -/
def execBlockReplay (port : Nat) (receive : Bool) (s : State) : Result :=
  if 36 ≤ port then .next s
  else
    let l := s.port port
    if receive then
      let s1 := s.drawn.setPort port (l.discard (s.hwRotation port) (Config.freeChoice s.fresh % 31 + 1))
      if 8 ≤ l.failures + 1 then .next (s1.linkFails port) else .next s1
    else if l.down || l.exhausted then .next s
    else
      match (match l.replay with
        | [] => none
        | [b] => some (b, s)
        | b :: t => some ((b :: t).getD (Config.freeChoice s.fresh % (t.length + 1)) b, s.drawn)) with
      | none => .next s
      | some (b, s1) => .next (s1.portSent port (l.sendBlock (s.hwRotation port) port b.packet b.first).1)

/-- KEY_ROTATION (R357): under hardware rotation a direction at counter 2^47 takes its next key and flips its epoch. -/
def execKeyRotation (port : Nat) (s : State) : Result :=
  if port < 36 ∧ s.hwRotation port then
    .next (s.setPort port { s.port port with tx := (s.port port).tx.rotate, rx := (s.port port).rx.rotate })
  else .next s

/-- R359: a port's transmitter has come to the last counter value of its key and no new key is installed: it has still to stop,
or, stopped where its last block ended, to end the requests over it. -/
def State.keyEnds (s : State) (port : Nat) : Bool :=
  let l := s.port port
  (!l.down && l.tx.counter == BitVec.allOnes 48) || (l.exhausted && !(s.endedBy port).isEmpty)

/-- KEY_EXHAUSTED (R359): the transmitter's next counter is the last and no new key is installed: it has sent its tag flit with
that value, and stops. -/
def execKeyExhausted (port : Nat) (s : State) : Result :=
  if port < 36 ∧ s.keyEnds port then .next (s.stopPort port true) else .next s

/-! ### LINK_KEY_CTL and LINK_KEY_DATA (R358) -/

/-- PORT of a LINK_KEY_CTL word. -/
def keyPort (v : Word) : Nat := (v.extractLsb' 40 8).toNat

/-- DIR of a LINK_KEY_CTL word: 0 transmit, 1 receive. -/
def keyDir (v : Word) : Nat := (v.extractLsb' 32 2).toNat

/-- R358: a write with a CMD is not ignored. -/
def keyWrite (v : Word) (cmd : Nat) : Bool :=
  (v.extractLsb' 16 4).toNat == cmd && decide (keyPort v < 36) && decide (keyDir v < 2)

/-- The selection a write leaves. -/
def State.keySelected (s : State) (v : Word) : State := { s with linkKeySel := v &&& 0x0000FF0300000300 }

/-- The direction a word selects. -/
def State.keyDirOf (s : State) (v : Word) : LinkDir :=
  if keyDir v = 0 then (s.port (keyPort v)).tx else (s.port (keyPort v)).rx

/-- The selected direction replaced. -/
def State.setKeyDir (s : State) (v : Word) (d : LinkDir) : State :=
  let l := s.port (keyPort v)
  s.setPort (keyPort v) (if keyDir v = 0 then { l with tx := d } else { l with rx := d })

/-- LINK_KEY_SELECT (R358): CMD 0. -/
def execLinkKeySelect (v : BitVec 64) (s : State) : Result :=
  if keyWrite v 0 then .next (s.keySelected v) else .next s

/-- LINK_KEY_STAGE (R358): CMD 1 stages LINK_KEY_DATA as key word WORD, under host-assisted rotation. -/
def execLinkKeyStage (v : BitVec 64) (s : State) : Result :=
  if keyWrite v 1 ∧ !s.hwRotation (keyPort v) then
    let d := s.keyDirOf v
    .next ((s.keySelected v).setKeyDir v
      { d with staged := d.staged.set (v.extractLsb' 8 2).toNat (some s.linkKeyData) (v.extractLsb' 8 2).isLt })
  else .next s

/-- A staged key, when all four words are here. -/
def LinkDir.stagedKey (d : LinkDir) : Option (BitVec 256) :=
  match d.staged[3], d.staged[2], d.staged[1], d.staged[0] with
  | some w3, some w2, some w1, some w0 => some (w3 ++ (w2 ++ (w1 ++ w0)))
  | _, _, _, _ => none

/-- LINK_KEY_INSTALL (R358): CMD 2 installs the staged key; the counter restarts at 0 (every state is a
block boundary here). The transmit key lets a port that was exhausted train again. -/
def execLinkKeyInstall (v : BitVec 64) (s : State) : Result :=
  if keyWrite v 2 ∧ !s.hwRotation (keyPort v) then
    match (s.keyDirOf v).stagedKey with
    | none => .next s
    | some k =>
      let s1 := (s.keySelected v).setKeyDir v { s.keyDirOf v with
        key := k, counter := 0, staged := Vector.replicate 4 none }
      .next (if keyDir v = 0 then s1.setPort (keyPort v) { s1.port (keyPort v) with needKey := false } else s1)
  else .next s

/-- LINK_PORT_STOP (R358): CMD 3. -/
def execLinkPortStop (v : BitVec 64) (s : State) : Result :=
  if keyWrite v 3 then
    let s1 := s.keySelected v
    if (s.port (keyPort v)).down then .next s1 else .next (s1.stopPort (keyPort v) false)
  else .next s

/-- LINK_RETRAIN (R358): CMD 4: the port trains again, which it stops for when it was up (R359); LINK_TRAINED ends it. -/
def execLinkRetrain (v : BitVec 64) (s : State) : Result :=
  if keyWrite v 4 then .next ((s.keySelected v).loseTraining (keyPort v)) else .next s

/-- LINK_KEY_CTL as the firmware reads it (R358): the selection, and the selected port's and direction's state; CMD reads 0. -/
def State.linkKeyCtlRead (s : State) : Word :=
  let p := s.port (keyPort s.linkKeySel)
  s.linkKeySel |||
    ((if (s.keyDirOf s.linkKeySel).staged.toList.all Option.isSome then 16 else 0) |||
      ((if p.exhausted then 8 else 0) ||| ((if p.down then 4 else 0) ||| ((if p.trained then 2 else 0) |||
        (if s.hwRotation (keyPort s.linkKeySel) then 1 else 0)))))

/-- What a read of LINK_KEY_DATA gives the firmware (R358): the counter of the direction LINK_KEY_CTL selects.
(log entry 70, DEDUCED.) -/
def State.linkKeyDataRead (s : State) : Word := (s.keyDirOf s.linkKeySel).counter.setWidth 64

/-- LINK_KEY_DATA (R358): a key word for staging. -/
def execLinkKeyData (v : BitVec 64) (s : State) : Result := .next { s with linkKeyData := v }

end Sys2Proof.Machine
end

