-- ==== Sys2Proof/Machine/VecArith.lean ====
section
/-! DEFINITION. Element-wise vector instructions in general (R146, R147, R151), and majors 0x23 (R152), 0x24 (R153) and
0x25 (R154, R155). -/
namespace Sys2Proof.Machine

/-! ### The element-wise scheme (R146) -/

/-- What an operation may consult beside its operands: the integer domain (R147), the destination's rounding mode and,
when it is an integer, its type. -/
structure VCtx where
  w : Nat
  signed : Bool
  mode : RMode
  dest : Elem
deriving DecidableEq, Repr

/-- An operation in the integer domain on x, y and the old vd element. -/
abbrev IntOp := VCtx → Int → Int → Int → Int

/-- An operation in the floating domain on x, y and the old vd element. -/
abbrev FpOp := VCtx → FVal → FVal → FVal → FVal × Flags

/-- The domain's width and signedness as a context. -/
def VDom.ctx (dom : VDom) (mode : RMode) (dest : Elem) : VCtx :=
  match dom with
  | .int w sg => ⟨w, sg, mode, dest⟩
  | .float => ⟨0, false, mode, dest⟩

/-- One element's exact result (R146). -/
def elementResult (dom : VDom) (ctx : VCtx) (ifn : Option IntOp) (ffn : Option FpOp) (x y d : EVal) : EVal × Flags :=
  match dom with
  | .int _ _ => match ifn with | some f => (.int (f ctx x.toI y.toI d.toI), 0) | none => (.int 0, 0)
  | .float =>
    match ffn with
    | some f => let r := f ctx x.toF y.toF d.toF; (.fl r.1, r.2)
    | none => (.int 0, 0)

/-- Whether the operation has no meaning in a domain (R147). -/
def VDom.lacks (dom : VDom) (ifn : Option IntOp) (ffn : Option FpOp) : Bool :=
  match dom with
  | .int _ _ => ifn.isNone
  | .float => ffn.isNone

/-- ILLEGAL_INSTR of an element-wise instruction from the tags of its live registers and from FRM (R45, R147). -/
def Strand.elementIllegal (x : Strand) (res : Resolution) (ifn : Option IntOp) (ffn : Option FpOp) (rounds : Bool)
    (d : BitVec 5) (rtag : Option (BitVec 8)) : Bool :=
  match res with
  | .none => true
  | .dead => rounds && (x.getV d).elemType != .dead && x.badRounding (x.getV d).vtype false
  | .ok dom tag => dom.lacks ifn ffn || (rounds && x.badRounding (x.destVtype d (rtag.getD tag)) (dom == .float))

/-- The type the destination has once the instruction writes it. -/
def Strand.destType (x : Strand) (d : BitVec 5) (res : Resolution) (rtag : Option (BitVec 8)) : Elem :=
  match res with
  | .ok _ tag => elemOf (vtypeTag (x.destVtype d (rtag.getD tag)))
  | _ => (x.getV d).elemType

/-- The effect of an element-wise instruction that passed its checks. Where no mode is named, which R45 lets through for
the shifts and counts alone, it rounds to nearest even. (log entry 83, DESIGN CHOICE.) -/
def Strand.elementEffect (x : Strand) (dom : VDom) (tag : BitVec 8) (ifn : Option IntOp) (ffn : Option FpOp)
    (d a : BitVec 5) (y : Second) (p : BitVec 3) : Strand × Flags :=
  let vt := x.destVtype d tag
  let mode := (x.roundingOf vt).getD .rne
  let ctx := dom.ctx mode (elemOf (vtypeTag vt))
  let out := (x.active p).map (fun i =>
    (i, elementResult dom ctx ifn ffn (x.value a i) (x.secondAt y i) (x.value d i)))
  let r := x.deliver d tag mode (out.map (fun q => (q.1, q.2.1)))
  (r.1, r.2 ||| orFlags (out.map (fun q => q.2.2)))

/-- An element-wise instruction (R146): `regs` are the registers the domain is resolved over, `reads` whether vd is among
them, `rtag` a result tag that overrides R147's. -/
def elementwise (word : InstrWord) (ifn : Option IntOp) (ffn : Option FpOp) (reads rounds : Bool)
    (rtag : Option (BitVec 8)) (d a : BitVec 5) (y : Second) (resolveY : Bool) (p : BitVec 3) (s : State) : Result :=
  let x := s.me
  let own := if reads then [d] else []
  let res := x.resolveWith (a :: own) (if resolveY then y else .none)
  let read := [a] ++ y.regs ++ own
  let held := (x.destType d res rtag, x.vl) :: ([a] ++ y.regs).map (fun n => ((x.getV n).elemType, x.vl))
  match x.vectorTrap word (x.elementIllegal res ifn ffn rounds d rtag) read held with
  | some t => .next (s.trap t)
  | none =>
    match res with
    | .ok dom tag =>
      let r := x.elementEffect dom (rtag.getD tag) ifn ffn d a y p
      .next (s.endFrom r.1 r.2)
    | _ => .next (s.trap (wordTrap causeIllegal word))

/-- A binary or ternary function of a major, its second operand by the form (R148). -/
def vBinary (major : BitVec 6) (fn : BitVec 6) (ifn : Option IntOp) (ffn : Option FpOp) (reads rounds : Bool)
    (d a b : BitVec 5) (f : BitVec 2) (p : BitVec 3) (s : State) : Result :=
  elementwise (encV major d a b f p fn) ifn ffn reads rounds none d a
    (s.me.second f (s.me.getV a).elemType b) true p s

/-- A unary function of a major. -/
def vUnary (major : BitVec 6) (fn : BitVec 6) (ifn : Option IntOp) (ffn : Option FpOp) (rounds : Bool)
    (rtag : Option (BitVec 8)) (d a : BitVec 5) (p : BitVec 3) (s : State) : Result :=
  elementwise (encV major d a 0 0 p fn) ifn ffn false rounds rtag d a .none true p s

/-! ### VARITH (R152) -/

/-- A sum or difference in the floating domain. -/
def fpSum (terms : FVal → FVal → List FVal) : FpOp := fun c x y _ => sumExact c.mode (terms x y)

/-- R48: a borderline result, which SAT does not alter: it is taken modulo the destination's width. -/
def VCtx.wrapped (c : VCtx) (v : Int) : Int :=
  match c.dest with
  | .int w sg => intOfBits w sg (v % 2 ^ w).toNat
  | _ => v

/-- R48: whether a division is one of the borderline cases. (log entry 57, DEDUCED.) -/
def VCtx.borderline (c : VCtx) (x y : Int) : Bool := y == 0 || (c.signed && x == -(2 ^ (c.w - 1)) && y == -1)

/-- R48: the quotient at the domain width. -/
def divOp : IntOp := fun c x y _ =>
  if y = 0 then c.wrapped (if c.signed then -1 else 2 ^ c.w - 1)
  else if c.borderline x y then c.wrapped x
  else Int.tdiv x y

/-- R48: the remainder. -/
def remOp : IntOp := fun c x y _ => if y = 0 then c.wrapped x else if c.borderline x y then 0 else Int.tmod x y

/-- R52: minimum or maximum of values. -/
def minMaxVal (wantMax : Bool) (x y : FVal) : FVal × Flags :=
  let fl := flagIf (x.isSignalling || y.isSignalling) flagNV
  if x.isNan && y.isNan then (.nan false, fl)
  else if x.isNan then (y, fl)
  else if y.isNan then (x, fl)
  else if wantMax then (if x.before y then y else x, fl)
  else (if y.before x then y else x, fl)

/-- The low bits of an integer, read in the domain (R147). -/
def VCtx.read (c : VCtx) (n : Nat) : Int := intOfBits c.w c.signed (n % 2 ^ c.w)

/-- The w-bit two's-complement form of an integer (R153). -/
def VCtx.form (c : VCtx) (x : Int) : Nat := (x % 2 ^ c.w).toNat

/-- The greatest finite value of a format, which is an integer. -/
def FFmt.maxInt (f : FFmt) : Int :=
  match f.decode f.maxBits with
  | .fin _ m e => m * 2 ^ e.toNat
  | _ => 0

/-- A value clamped to the destination's range (R152); a BX destination scales to any integer (R55). -/
def VCtx.clamp (c : VCtx) (v : Int) : Int :=
  match c.dest with
  | .int w sg => max (intRange w sg).1 (min (intRange w sg).2 v)
  | .fp f => max (-f.maxInt) (min f.maxInt v)
  | _ => v

/-- An arithmetic result with NaN made the default one, a signalling one raising NV (R51). -/
def quieted (x : FVal) : FVal × Flags := (if x.isNan then .nan false else x, flagIf x.isSignalling flagNV)

/-- VADD (R152). -/
def execVadd (d a b : BitVec 5) (f : BitVec 2) (p : BitVec 3) (s : State) : Result :=
  vBinary 0x23 0 (some (fun _ x y _ => x + y)) (some (fpSum (fun x y => [x, y]))) false true d a b f p s
/-- VSUB (R152). -/
def execVsub (d a b : BitVec 5) (f : BitVec 2) (p : BitVec 3) (s : State) : Result :=
  vBinary 0x23 1 (some (fun _ x y _ => x - y)) (some (fpSum (fun x y => [x, y.neg]))) false true d a b f p s
/-- VRSUB (R152). -/
def execVrsub (d a b : BitVec 5) (f : BitVec 2) (p : BitVec 3) (s : State) : Result :=
  vBinary 0x23 2 (some (fun _ x y _ => y - x)) (some (fpSum (fun x y => [y, x.neg]))) false true d a b f p s
/-- VMUL (R152). -/
def execVmul (d a b : BitVec 5) (f : BitVec 2) (p : BitVec 3) (s : State) : Result :=
  vBinary 0x23 3 (some (fun _ x y _ => x * y)) (some (fun _ x y _ => x.mul y)) false true d a b f p s
/-- VMULH (R152). -/
def execVmulh (d a b : BitVec 5) (f : BitVec 2) (p : BitVec 3) (s : State) : Result :=
  vBinary 0x23 4 (some (fun c x y _ => c.read (x * y % 2 ^ (2 * c.w) / 2 ^ c.w).toNat)) none false true d a b f p s
/-- VDIV (R152, R48). -/
def execVdiv (d a b : BitVec 5) (f : BitVec 2) (p : BitVec 3) (s : State) : Result :=
  vBinary 0x23 5 (some divOp) (some (fun _ x y _ => x.div y)) false true d a b f p s
/-- VREM (R152, R48). -/
def execVrem (d a b : BitVec 5) (f : BitVec 2) (p : BitVec 3) (s : State) : Result :=
  vBinary 0x23 6 (some remOp) none false true d a b f p s
/-- VMIN (R152, R52). -/
def execVmin (d a b : BitVec 5) (f : BitVec 2) (p : BitVec 3) (s : State) : Result :=
  vBinary 0x23 7 (some (fun _ x y _ => min x y)) (some (fun _ x y _ => minMaxVal false x y)) false true d a b f p s
/-- VMAX (R152, R52). -/
def execVmax (d a b : BitVec 5) (f : BitVec 2) (p : BitVec 3) (s : State) : Result :=
  vBinary 0x23 8 (some (fun _ x y _ => max x y)) (some (fun _ x y _ => minMaxVal true x y)) false true d a b f p s
/-- VABS (R152). -/
def execVabs (d a : BitVec 5) (p : BitVec 3) (s : State) : Result :=
  vUnary 0x23 9 (some (fun _ x _ _ => x.natAbs)) (some (fun _ x _ _ => ((quieted x).1.abs, (quieted x).2))) true none d a p s
/-- VNEG (R152). -/
def execVneg (d a : BitVec 5) (p : BitVec 3) (s : State) : Result :=
  vUnary 0x23 10 (some (fun _ x _ _ => -x)) (some (fun _ x _ _ => ((quieted x).1.neg, (quieted x).2))) true none d a p s
/-- VABSD (R152). -/
def execVabsd (d a b : BitVec 5) (f : BitVec 2) (p : BitVec 3) (s : State) : Result :=
  vBinary 0x23 11 (some (fun _ x y _ => (x - y).natAbs))
    (some (fun c x y _ => let r := sumExact c.mode [x, y.neg]; (r.1.abs, r.2))) false true d a b f p s
/-- VSADD (R152). -/
def execVsadd (d a b : BitVec 5) (f : BitVec 2) (p : BitVec 3) (s : State) : Result :=
  vBinary 0x23 12 (some (fun c x y _ => c.clamp (x + y))) none false true d a b f p s
/-- VSSUB (R152). -/
def execVssub (d a b : BitVec 5) (f : BitVec 2) (p : BitVec 3) (s : State) : Result :=
  vBinary 0x23 13 (some (fun c x y _ => c.clamp (x - y))) none false true d a b f p s
/-- VSQRT (R152). -/
def execVsqrt (d a : BitVec 5) (p : BitVec 3) (s : State) : Result :=
  vUnary 0x23 14 none (some (fun _ x _ _ => x.sqrt)) true none d a p s

/-! ### VLOGIC: the bitwise functions (R153) -/

/-- The second operand of a bitwise function as raw bits: an element, the low bits of g(b), or the immediate. -/
def Strand.rawSecond (x : Strand) (f : BitVec 2) (b : BitVec 5) (w i : Nat) : Nat :=
  match f.toNat with
  | 0 => (x.getV b).raw i
  | 1 => (x.getG b).toNat % 2 ^ w
  | 2 => (viImm b % 2 ^ w).toNat
  | _ => (x.getV ((x.getG b).extractLsb' 0 5)).raw i

/-- The registers a form's second operand names. -/
def Strand.formRegs (x : Strand) (f : BitVec 2) (b : BitVec 5) : List (BitVec 5) :=
  match f.toNat with
  | 0 => [b]
  | 3 => [(x.getG b).extractLsb' 0 5]
  | _ => []

/-- R153: the live registers among a list do not share one width (R115). -/
def Strand.widthsDiffer (x : Strand) (srcs : List (BitVec 5)) (d : BitVec 5) : Bool :=
  let ts := srcs.map (fun n => (x.getV n).elemType)
  let t := (x.getV d).elemType
  let live := (t :: ts).filter (fun u => u != .dead)
  live.any (fun u => live.any (fun v => u.width != v.width))

/-- A bitwise function (R153): x, y and the old vd element as raw bits. -/
def bitwiseOp (word : InstrWord) (op : Nat → Nat → Nat → Nat) (unary reads : Bool)
    (d a b : BitVec 5) (f : BitVec 2) (p : BitVec 3) (s : State) : Result :=
  let x := s.me
  let srcs := [a] ++ if unary then [] else x.formRegs f b
  let ta := (x.getV a).elemType
  let td := if (x.getV d).elemType = .dead then ta else (x.getV d).elemType
  let w := ta.width
  match x.vectorTrap word (x.widthsDiffer srcs d) (srcs ++ if reads then [d] else [])
      ((td, x.vl) :: srcs.map (fun n => ((x.getV n).elemType, x.vl))) with
  | some t => .next (s.trap t)
  | none =>
    let out := (x.active p).map (fun i =>
      (i, op ((x.getV a).raw i) (if unary then 0 else x.rawSecond f b w i) ((x.getV d).raw i) % 2 ^ w))
    .next (s.endFrom (x.deliverRaw d (x.getV a).vtype out) 0)

/-- The complement of w bits. -/
def notBits (x : Nat) : Nat := (2 ^ 64 - 1) - x % 2 ^ 64

/-- VAND (R153). -/
def execVand (d a b : BitVec 5) (f : BitVec 2) (p : BitVec 3) (s : State) : Result :=
  bitwiseOp (encV 0x24 d a b f p 0) (fun x y _ => x &&& y) false false d a b f p s
/-- VOR (R153). -/
def execVor (d a b : BitVec 5) (f : BitVec 2) (p : BitVec 3) (s : State) : Result :=
  bitwiseOp (encV 0x24 d a b f p 1) (fun x y _ => x ||| y) false false d a b f p s
/-- VXOR (R153). -/
def execVxor (d a b : BitVec 5) (f : BitVec 2) (p : BitVec 3) (s : State) : Result :=
  bitwiseOp (encV 0x24 d a b f p 2) (fun x y _ => x ^^^ y) false false d a b f p s
/-- VNOT (R153). -/
def execVnot (d a : BitVec 5) (p : BitVec 3) (s : State) : Result :=
  bitwiseOp (encV 0x24 d a 0 0 p 3) (fun x _ _ => notBits x) true false d a 0 0 p s
/-- VMERGE (R153): vd is read. -/
def execVmerge (d a b : BitVec 5) (f : BitVec 2) (p : BitVec 3) (s : State) : Result :=
  bitwiseOp (encV 0x24 d a b f p 10) (fun x y o => (x &&& y) ||| (o &&& notBits y)) false true d a b f p s
/-- VMOV (R153). -/
def execVmov (d a : BitVec 5) (p : BitVec 3) (s : State) : Result :=
  bitwiseOp (encV 0x24 d a 0 0 p 11) (fun x _ _ => x) true false d a 0 0 p s

/-! ### VLOGIC: shifts and counts (R153) -/

/-- R153: a live source whose tag is no integer, which makes a shift or VROL illegal beside a DEAD source too (R115). -/
def Strand.floatSource (x : Strand) (srcs : List (BitVec 5)) : Bool :=
  srcs.any (fun n => (x.getV n).elemType != .dead && !(x.getV n).elemType.isInt)

/-- A shift or rotation (R153). -/
def shiftOp (fn : BitVec 6) (ifn : IntOp) (d a b : BitVec 5) (f : BitVec 2) (p : BitVec 3) (s : State) : Result :=
  if s.me.floatSource (a :: s.me.formRegs f b) then .next (s.trap (wordTrap causeIllegal (encV 0x24 d a b f p fn)))
  else vBinary 0x24 fn (some ifn) none false false d a b f p s

/-- The shift amount y mod w. -/
def VCtx.amount (c : VCtx) (y : Int) : Nat := (y % (c.w : Int)).toNat

/-- Leading zero bits of a w-bit form. -/
def clzBits (w x : Nat) : Nat := if x = 0 then w else w - 1 - Nat.log2 x

/-- One bits of a number below 2^w. -/
def popBits (x : Nat) : Nat → Nat
  | 0 => 0
  | w + 1 => x % 2 + popBits (x / 2) w

/-- VSLL (R153). -/
def execVsll (d a b : BitVec 5) (f : BitVec 2) (p : BitVec 3) (s : State) : Result :=
  shiftOp 4 (fun c x y _ => c.read (c.form x * 2 ^ c.amount y)) d a b f p s
/-- VSRL (R153). -/
def execVsrl (d a b : BitVec 5) (f : BitVec 2) (p : BitVec 3) (s : State) : Result :=
  shiftOp 5 (fun c x y _ => c.read (c.form x / 2 ^ c.amount y)) d a b f p s
/-- VSRA (R153): filled from bit w − 1 of the form. -/
def execVsra (d a b : BitVec 5) (f : BitVec 2) (p : BitVec 3) (s : State) : Result :=
  shiftOp 6 (fun c x y _ => c.read (c.form (intOfBits c.w true (c.form x) / 2 ^ c.amount y))) d a b f p s
/-- VROL (R153). -/
def execVrol (d a b : BitVec 5) (f : BitVec 2) (p : BitVec 3) (s : State) : Result :=
  shiftOp 7 (fun c x y _ => c.read (c.form x * 2 ^ c.amount y % 2 ^ c.w + c.form x / 2 ^ (c.w - c.amount y)))
    d a b f p s
/-- VCLZ (R153). -/
def execVclz (d a : BitVec 5) (p : BitVec 3) (s : State) : Result :=
  vUnary 0x24 8 (some (fun c x _ _ => clzBits c.w (c.form x))) none false none d a p s
/-- VPOPC (R153). -/
def execVpopc (d a : BitVec 5) (p : BitVec 3) (s : State) : Result :=
  vUnary 0x24 9 (some (fun c x _ _ => popBits (c.form x) c.w)) none false none d a p s

/-! ### VFMA (R154) -/

/-- VMACC (R154). -/
def execVmacc (d a b : BitVec 5) (f : BitVec 2) (p : BitVec 3) (s : State) : Result :=
  vBinary 0x25 0 (some (fun _ x y o => o + x * y)) (some (fun c x y o => FVal.fma c.mode x y o)) true true d a b f p s
/-- VNMSAC (R154). -/
def execVnmsac (d a b : BitVec 5) (f : BitVec 2) (p : BitVec 3) (s : State) : Result :=
  vBinary 0x25 1 (some (fun _ x y o => o - x * y)) (some (fun c x y o => FVal.fma c.mode x.neg y o)) true true d a b f p s
/-- VMADD (R154). -/
def execVmadd (d a b : BitVec 5) (f : BitVec 2) (p : BitVec 3) (s : State) : Result :=
  vBinary 0x25 2 (some (fun _ x y o => x * o + y)) (some (fun c x y o => FVal.fma c.mode x o y)) true true d a b f p s
/-- VNMSUB (R154). -/
def execVnmsub (d a b : BitVec 5) (f : BitVec 2) (p : BitVec 3) (s : State) : Result :=
  vBinary 0x25 3 (some (fun _ x y o => -(x * o) + y)) (some (fun c x y o => FVal.fma c.mode x.neg o y)) true true
    d a b f p s

/-! ### VDOT4 (R155, R62) -/

/-- R155: an integer 8-bit type. -/
def isInt8 (t : Elem) : Bool := t == .int 8 true || t == .int 8 false

/-- R155: a floating 8-bit or 4-bit type. -/
def isFloat8 (t : Elem) : Bool := t == .fp .e4m3 || t == .fp .e5m2 || t == .bx .bx8 || t == .bx .bx4

/-- R155: the combinations of live tags that VDOT4 refuses. -/
def dotIllegal (ta tb td : Elem) : Bool :=
  let srcs := ta != .dead && tb != .dead
  let ints := isInt8 ta && isInt8 tb
  let floats := isFloat8 ta && isFloat8 tb
  (ta != .dead && !isInt8 ta && !isFloat8 ta) || (tb != .dead && !isInt8 tb && !isFloat8 tb) ||
    (srcs && !ints && !floats) ||
    (td != .dead &&
      (!(td == .int 32 true || td == .int 32 false || td == .fp .fp32 || td == .fp .bf16) ||
        ((isInt8 ta || isInt8 tb) && !td.isInt) || ((isFloat8 ta || isFloat8 tb) && td.isInt)))

/-- R62: one destination element: its old value and four products, summed exactly. -/
def dotElement (mode : RMode) (isInt : Bool) (old : EVal) (xs ys : List EVal) : EVal × Flags :=
  if isInt then (.int ((xs.zip ys).foldl (fun t p => t + p.1.toI * p.2.toI) old.toI), 0)
  else
    let prods := (xs.zip ys).map (fun p => p.1.toF.mul p.2.toF)
    let r := sumExact mode (old.toF :: prods.map Prod.fst)
    (.fl r.1, r.2 ||| orFlags (prods.map Prod.snd))

/-- VDOT4 (R155). -/
def execVdot4 (d a b : BitVec 5) (f : BitVec 2) (p : BitVec 3) (s : State) : Result :=
  let x := s.me
  let vb := (x.formRegs f b).headD b
  let ta := (x.getV a).elemType
  let tb := (x.getV vb).elemType
  let td := (x.getV d).elemType
  let vt := (x.getV d).vtype
  let word := encV 0x25 d a b f p 4
  match x.vectorTrap word (dotIllegal ta tb td || (td != .dead && x.badRounding vt (isFloat8 ta || isFloat8 tb))) [a, vb, d]
      [(td, x.vl), (ta, 4 * x.vl), (tb, 4 * x.vl)] with
  | some t => .next (s.trap t)
  | none =>
    let mode := (x.roundingOf vt).getD .rne
    let out := (x.active p).map (fun i =>
      let idx := (List.range 4).map (fun j => 4 * i + j)
      (i, dotElement mode ta.isInt (x.value d i) (idx.map (x.value a)) (idx.map (x.value vb))))
    let r := x.deliver d (vtypeTag vt) mode (out.map (fun q => (q.1, q.2.1)))
    .next (s.endFrom r.1 (r.2 ||| orFlags (out.map (fun q => q.2.2))))

end Sys2Proof.Machine
end

