-- ==== Sys2Proof/Machine/VecMem.lean ====
section
/-! DEFINITION. Vector loads and stores (R93, R97, R165 to R176, R354): majors 0x2B to 0x2E, and TICKET_SERVED. -/
namespace Sys2Proof.Machine

/-- How the elements' addresses are formed (R165). -/
inductive VmShape where
  | unit_
  | strided
  | indexed
deriving DecidableEq, Repr

/-- A vector memory instruction's fields. -/
structure VmOp where
  store : Bool
  faultFirst : Bool
  shape : VmShape
  d : BitVec 5
  base : BitVec 5
  b : BitVec 5
  cls : BitVec 4
  p : BitVec 3
deriving DecidableEq, Repr

/-- The element bytes of vd's tag; 0 for 4-bit elements. -/
def Strand.elemBytes (x : Strand) (o : VmOp) : Nat := (x.getV o.d).elemType.width / 8

/-- The index of an element, as its byte offset (R165). -/
def Strand.byteIndex (x : Strand) (o : VmOp) (i : Nat) : Int := (x.value o.b i).toI

/-- The address of element i (R165, R167). -/
def Strand.elemAddr (x : Strand) (o : VmOp) (i : Nat) : Word :=
  match o.shape with
  | .unit_ => x.getG o.base + BitVec.ofNat 64 (if x.elemBytes o = 0 then i / 2 else i * x.elemBytes o)
  | .strided => x.getG o.base + BitVec.ofNat 64 i * x.getG o.b
  | .indexed => x.getG o.base + BitVec.ofInt 64 (x.byteIndex o i)

/-- The access kind of an instruction. -/
def VmOp.kind (o : VmOp) : AccessKind := if o.store then .store else .load

/-- The index registers of an instruction. -/
def VmOp.indexRegs (o : VmOp) : List (BitVec 5) := if o.shape = .indexed then [o.b] else []

/-- R354: an index that a fabric request can carry. -/
def indexFits (i : Int) : Bool := decide (-(2 ^ 31) ≤ i) && decide (i < 2 ^ 31)

/-- One element checked (R168, R170, R354): its place. -/
def State.elemCheck (s : State) (x : Strand) (o : VmOp) (i : Nat) : Checked Place :=
  let n := x.elemBytes o
  let a := x.elemAddr o i
  if n ≠ 0 ∧ !aligned a n then .error (.trap (addrTrap causeMisaligned a), s)
  else
    match s.resolve s.actor o.kind a (max n 1) with
    | .error e => .error e
    | .ok (.fabric dev pa, s1) =>
      if o.shape = .indexed ∧ !indexFits (x.byteIndex o i) then .error (.trap (addrTrap (faultOf o.kind) a), s1)
      else if !o.store && (s1.routeTo dev).isNone then .error (.trap (addrTrap causeLinkDown a), s1)
      else .ok (.fabric dev pa, s1)
    | .ok (p, s1) =>
      if !o.store && s1.placePoisoned p (max n 1) then .error (.trap (addrTrap causeMemPoison a), s1) else .ok (p, s1)

/-- One nibble of a byte. -/
def nibble (byte i : Nat) : Nat := if i % 2 = 0 then byte % 16 else byte / 16 % 16

/-- A byte with one nibble replaced (R167). -/
def withNibble (byte i x : Nat) : Nat := if i % 2 = 0 then byte / 16 * 16 + x % 16 else byte % 16 + x % 16 * 16

/-- A loaded element of vd written. -/
def State.putElem (s : State) (d : BitVec 5) (i x : Nat) : State := s.setMe (s.me.setV d ((s.me.getV d).put i x))

/-- One element of the own package performed (R167, R169). -/
def State.elemPerform (s : State) (x : Strand) (o : VmOp) (i : Nat) (p : Place) : State :=
  let n := x.elemBytes o
  if o.store then
    let v := (x.getV o.d).raw i
    if n = 0 then s.writePlace p 1 (withNibble (s.readPlace p 1) i v) else s.writePlace p n v
  else if n = 0 then s.putElem o.d i (nibble (s.readPlace p 1) i)
  else s.putElem o.d i (s.readPlace p n)

/-! ### Requests for fabric-remote elements (R353, R354) -/

/-- One element of a request: its index, its program address, its physical address at the device. -/
structure RunElem where
  i : Nat
  addr : Word
  pa : Nat
deriving DecidableEq, Repr

/-- Whether an element may follow another in one request: the request's addresses are affine in the program's; a unit-stride
one stays in its 32-byte sector and moves whole bytes; a strided one either leaves no element out, `dense`, or can be
given by 32-bit offsets. (log entry 12, DESIGN CHOICE.) -/
def joins (shape : VmShape) (n : Nat) (dense : Bool) (head prev next : RunElem) : Bool :=
  ((next.pa : Int) - head.pa == (next.addr.toNat : Int) - head.addr.toNat) &&
    (match shape with
      | .unit_ => n != 0 && next.pa / 32 == head.pa / 32
      | .strided => (dense && next.i == prev.i + 1) || indexFits ((next.pa : Int) - head.pa)
      | .indexed => true)

/-- The elements that travel with a first one on the same device. -/
def State.takeRun (s : State) (x : Strand) (o : VmOp) (dev : Nat) (dense : Bool) (head prev : RunElem) :
    List Nat → List RunElem × State
  | [] => ([], s)
  | i :: t =>
    match s.elemCheck x o i with
    | .ok (.fabric dev' pa, s1) =>
      let e : RunElem := ⟨i, x.elemAddr o i, pa⟩
      if dev' = dev ∧ joins o.shape (x.elemBytes o) dense head prev e then
        let r := s1.takeRun x o dev (dense && e.i == prev.i + 1) head e t
        (e :: r.1, r.2)
      else ([], s)
    | _ => ([], s)

/-- Whether a run leaves no element out. -/
def denseRun : List RunElem → Bool
  | [] => true
  | [_] => true
  | e :: f :: t => f.i == e.i + 1 && denseRun (f :: t)

/-- The packet of a run of elements (R352 to R354); a 4-bit element's nibble is named in AUX (log entry 12, DESIGN CHOICE). -/
def Strand.runPacket (x : Strand) (o : VmOp) (run : List RunElem) : Packet :=
  let n := x.elemBytes o
  let head := run.headD ⟨0, 0, 0⟩
  let raw := fun (e : RunElem) => (x.getV o.d).raw e.i
  let p := { emptyPacket with cls := o.cls }
  match o.shape with
  | .unit_ =>
    let mask := run.foldl (fun m e => m ||| lineMask e.pa (max n 1)) 0
    let image := run.foldl (fun t e =>
      t + (if n = 0 then withNibble 0 e.i (raw e) else raw e) * 256 ^ (e.pa % 128)) 0
    let p := { p with addr := BitVec.ofNat 64 (head.pa / 128 * 128), mask := mask }
    if o.store then
      { p with
        kind := 0x02, nmerge := 1, data := lineFlits mask image
        aux := if n = 0 then BitVec.ofNat 64 (1 + head.i % 2) else 0 }
    else { p with kind := 0x01 }
  | shape =>
    let data := if o.store then run.flatMap (fun e => bytesOf (raw e) n) else []
    let p := { p with
      kind := if o.store then 0x05 else 0x04, nelem := BitVec.ofNat 16 run.length
      esz := BitVec.ofNat 2 (Nat.log2 n), data := data }
    if shape = .strided ∧ denseRun run then { p with addr := BitVec.ofNat 64 head.pa, aux := x.getG o.b }
    else if shape = .strided then { p with
      addr := BitVec.ofNat 64 head.pa
      index := run.map (fun e => BitVec.ofInt 32 ((e.pa : Int) - head.pa)) }
    else { p with
      addr := BitVec.ofInt 64 ((head.pa : Int) - x.byteIndex o head.i)
      index := run.map (fun e => BitVec.ofInt 32 (x.byteIndex o e.i)) }

/-! ### Performing the elements (R169, R170, R172) -/

/-- vd's progress index set (R42). -/
def Strand.setProgress (x : Strand) (d : BitVec 5) (k : Nat) : Strand := x.setV d { x.getV d with progress := k }

/-- The instruction ends with every element performed; an ordered one gives its ticket back. -/
def State.vmDone (s : State) (o : VmOp) (sc : Option Nat) : State :=
  let x := s.me
  let x := if o.store then x else x.setProgress o.d (x.getV o.d).vhwe
  { (s.setMe { x with vstart := 0 }).retire with
    tickets := match sc with | some n => s.tickets.filter (fun m => m != n) | none => s.tickets }

/-- Element k faults (R170, R172). -/
def State.vmFault (s : State) (o : VmOp) (first k : Nat) (t : Trap) : State :=
  if o.faultFirst && decide (first < k) && t.cause != causeMisaligned then (s.setMe { s.me with vl := k }).vmDone o none
  else
    let x := if o.store then s.me else s.me.setProgress o.d k
    (s.setMe { x with vstart := k }).trap { t with elem := BitVec.ofNat 11 k }

/-- The instruction waits at element k. -/
def State.vmWait (s : State) (o : VmOp) (k : Nat) (w : Wait) : State :=
  let x := if o.store then s.me else s.me.setProgress o.d k
  s.setMe { x with vstart := k, wait := w }

/-- The elements performed in ascending order (R93), those of the own package at once, a run of another device's by a
request. `x` holds the operands. (log entry 87, DEDUCED.) -/
def State.vmLoop (s : State) (x : Strand) (o : VmOp) (first : Nat) : List Nat → State
  | [] => s.vmDone o none
  | i :: t =>
    match s.elemCheck x o i with
    | .error (.trap tr, s1) => s1.vmFault o first i tr
    | .error (_, s1) => s1.vmWait o i (.vector none first [])
    | .ok (.fabric dev pa, s1) =>
      if !s1.mayTarget s.cur o.cls.toNat (some dev) then s1.vmWait o i (.vector none first [])
      else
        let head : RunElem := ⟨i, x.elemAddr o i, pa⟩
        let r := s1.takeRun x o dev true head head t
        let run := head :: r.1
        match r.2.sendRequest dev (.vector s.cur o.cls.toNat) (x.runPacket o run) with
        | none => (s1.refuseNow head.addr o.cls.toNat).vmLoop x o first t
        | some (xtag, s2) => s2.vmWait o i (.vector (some xtag) first (run.map (fun e => (e.i, e.addr))))
    | .ok (p, s1) =>
      if !s1.mayTarget s.cur o.cls.toNat none then s1.vmWait o i (.vector none first [])
      else (s1.elemPerform x o i p).vmLoop x o first t

/-- The elements still to do behind a run. -/
def Strand.behind (x : Strand) (o : VmOp) (run : List (Nat × Word)) : List Nat :=
  (x.active o.p).filter (fun i => run.all (fun e => decide (e.1 < i)))

/-- The values a request brought for the elements of its run. -/
def runValues (shape : VmShape) (n : Nat) (mask : BitVec 128) (data : List Byte) (run : List (Nat × Word)) :
    List (Nat × Nat) :=
  ((List.range run.length).zip run).map (fun q =>
    let i := q.2.1
    let v :=
      match shape with
      | .unit_ => lineImage mask data / 256 ^ (q.2.2.toNat % 128) % 256 ^ (max n 1)
      | _ => numOf ((data.drop (q.1 * n)).take n)
    (i, if n = 0 then nibble v i else v))

/-- Elements loaded into vd. -/
def State.putElems (s : State) (d : BitVec 5) (l : List (Nat × Nat)) : State := l.foldl (fun s q => s.putElem d q.1 q.2) s

/-- Elements of a store that another device did not perform join the refused stores, lowest first (R176). -/
def State.refuseRun (s : State) (cls : Nat) (run : List (Nat × Word)) : State :=
  run.foldl (fun s e => s.refuseNow e.2 cls) s

/-- A run has been answered: what stands behind it follows. Behind a run of a store an event may be taken first (R171). -/
def State.vmNext (s : State) (x : Strand) (o : VmOp) (first : Nat) (run : List (Nat × Word)) : State :=
  match x.behind o run with
  | i :: t => if o.store then s.vmWait o i (.vector none first []) else s.vmLoop x o first (i :: t)
  | [] => s.vmLoop x o first []

/-- A waiting access goes on: its answer, if one is due, is taken first (R354, R170, R176). -/
def State.vmResume (s : State) (o : VmOp) (xtag : Option Nat) (first : Nat) (run : List (Nat × Word)) : State :=
  let x := s.me
  match xtag with
  | none => s.vmLoop x o first (x.behind o run)
  | some tag =>
    match s.fabricReq tag with
    | none => s.vmLoop x o first (x.behind o run)
    | some r =>
      match r.answer with
      | none => s
      | some (status, data) =>
        let s1 := s.dropReq tag
        let bad := statusCause (status % 65536)
        let k := if o.shape = .unit_ then 0 else status / 65536
        let good := if bad.isNone then run else run.take k
        let s2 := if o.store then s1 else s1.putElems o.d (runValues o.shape (x.elemBytes o) r.packet.mask data good)
        match bad with
        | none => s2.vmNext x o first run
        | some cause =>
          if o.store ∧ cause = causeLinkDown then (s2.refuseRun o.cls.toNat run).vmNext x o first run
          else
            let e := run.getD k (0, 0)
            s2.vmFault o first e.1 (addrTrap cause e.2)

/-- The checks at issue (R166). -/
def Strand.vmTrap (x : Strand) (o : VmOp) (w : InstrWord) : Option Trap :=
  let regs := o.d :: o.indexRegs
  let td := (x.getV o.d).elemType
  let ti := (x.getV o.b).elemType
  x.vectorTrap w ((o.shape == .indexed && ti != .dead && !ti.isInt) || (td == .bx .bx4 && o.shape != .unit_)) regs
    (regs.map (fun n => ((x.getV n).elemType, x.vl)))

/-- A vector load or store that takes no ticket. -/
def vmemOp (w : InstrWord) (o : VmOp) (s : State) : Result :=
  let x := s.me
  match x.wait with
  | .vector xtag first run => .next (s.vmResume o xtag first run)
  | _ =>
    match x.vmTrap o w with
    | some t => .next (s.trap t)
    | none =>
      if s.drainHolds s.cur o.cls.toNat then .next (s.waiting .poll)
      else
        let els := x.active o.p
        .next (s.vmLoop x o (els.headD 0) els)

/-- The word of a vector memory instruction. -/
def vmWord (major : BitVec 6) (fn : BitVec 2) (o : VmOp) (h : BitVec 2) : InstrWord :=
  encVm major o.d o.base (if o.shape = .unit_ then 0 else o.b) o.cls h o.p fn

/-- VLD. -/
def execVld (d base : BitVec 5) (c : BitVec 4) (h : BitVec 2) (p : BitVec 3) (s : State) : Result :=
  let o : VmOp := ⟨false, false, .unit_, d, base, 0, c, p⟩
  vmemOp (vmWord 0x2B 0 o h) o s
/-- VST. -/
def execVst (d base : BitVec 5) (c : BitVec 4) (h : BitVec 2) (p : BitVec 3) (s : State) : Result :=
  let o : VmOp := ⟨true, false, .unit_, d, base, 0, c, p⟩
  vmemOp (vmWord 0x2B 1 o h) o s
/-- VLDFF (R172). -/
def execVldff (d base : BitVec 5) (c : BitVec 4) (h : BitVec 2) (p : BitVec 3) (s : State) : Result :=
  let o : VmOp := ⟨false, true, .unit_, d, base, 0, c, p⟩
  vmemOp (vmWord 0x2B 2 o h) o s
/-- VLDS. -/
def execVlds (d base b : BitVec 5) (c : BitVec 4) (h : BitVec 2) (p : BitVec 3) (s : State) : Result :=
  let o : VmOp := ⟨false, false, .strided, d, base, b, c, p⟩
  vmemOp (vmWord 0x2C 0 o h) o s
/-- VSTS. -/
def execVsts (d base b : BitVec 5) (c : BitVec 4) (h : BitVec 2) (p : BitVec 3) (s : State) : Result :=
  let o : VmOp := ⟨true, false, .strided, d, base, b, c, p⟩
  vmemOp (vmWord 0x2C 1 o h) o s
/-- VLDX. -/
def execVldx (d base b : BitVec 5) (c : BitVec 4) (h : BitVec 2) (p : BitVec 3) (s : State) : Result :=
  let o : VmOp := ⟨false, false, .indexed, d, base, b, c, p⟩
  vmemOp (vmWord 0x2D 0 o h) o s
/-- VSTX. -/
def execVstx (d base b : BitVec 5) (c : BitVec 4) (h : BitVec 2) (p : BitVec 3) (s : State) : Result :=
  let o : VmOp := ⟨true, false, .indexed, d, base, b, c, p⟩
  vmemOp (vmWord 0x2D 1 o h) o s
/-- VSTXO (R173): the model performs every store in ascending element order. -/
def execVstxo (d base b : BitVec 5) (c : BitVec 4) (h : BitVec 2) (p : BitVec 3) (s : State) : Result :=
  let o : VmOp := ⟨true, false, .indexed, d, base, b, c, p⟩
  vmemOp (vmWord 0x2D 2 o h) o s

/-! ### Tickets (R97, R174) -/

/-- Every active element checked: the places, or what the lowest that cannot be accessed meets. -/
def State.elemCheckAll (s : State) (x : Strand) (o : VmOp) :
    List Nat → Except (Nat × Stop × State) (List (Nat × Place) × State)
  | [] => .ok ([], s)
  | i :: t =>
    match s.elemCheck x o i with
    | .error e => .error (i, e)
    | .ok (p, s1) =>
      match s1.elemCheckAll x o t with
      | .error e => .error e
      | .ok (l, s2) => .ok ((i, p) :: l, s2)

/-- A wait of an ordered access. -/
def VmOp.ordered (o : VmOp) (n : Nat) (xtag : Option Nat) (run : List (Nat × Word)) (upto : Nat) (got : List (Nat × Nat)) :
    Wait := .ordered n o.store o.d o.base o.b o.cls o.p xtag run upto got

/-- R174: an element of an ordered access faults: its ticket is given up, nothing has been performed, VSTART stays. -/
def State.giveUp (s : State) (n k : Nat) (t : Trap) : State :=
  ({ s with tickets := s.tickets.filter (fun m => m != n) }).trap { t with elem := BitVec.ofNat 11 k }

/-- A wait of an ordered store whose own package's elements are performed. -/
def VmOp.scatter (o : VmOp) (n : Nat) (xtag : Option Nat) (run : List (Nat × Word)) (left : List (Nat × Nat × Nat)) : Wait :=
  .scatter n o.d o.base o.b o.cls o.p xtag run left

/-- The elements that travel with a first one, of those that passed their checks. -/
def Strand.followRun (x : Strand) (o : VmOp) (dev : Nat) (dense : Bool) (head prev : RunElem) :
    List (Nat × Nat × Nat) → List RunElem
  | [] => []
  | (i, dev', pa) :: t =>
    let e : RunElem := ⟨i, x.elemAddr o i, pa⟩
    if dev' = dev ∧ joins o.shape (x.elemBytes o) dense head prev e then
      e :: x.followRun o dev (dense && e.i == prev.i + 1) head e t
    else []

/-- R97, R174, R176: the elements of an ordered store on other devices, in ascending order, at the places that passed their
checks, a run by a request; one that no link carries is a refused store. -/
def State.scatterGo (s : State) (o : VmOp) (n : Nat) : List (Nat × Nat × Nat) → State
  | [] => s.vmDone o (some n)
  | (i, dev, pa) :: t =>
    let x := s.me
    if !s.mayTarget s.cur o.cls.toNat (some dev) then s.waiting (o.scatter n none [] ((i, dev, pa) :: t))
    else
      let head : RunElem := ⟨i, x.elemAddr o i, pa⟩
      let follow := x.followRun o dev true head head t
      let run := head :: follow
      match s.sendRequest dev (.vector s.cur o.cls.toNat) (x.runPacket o run) with
      | none => (s.refuseNow head.addr o.cls.toNat).scatterGo o n t
      | some (xtag, s1) =>
        s1.waiting (o.scatter n (some xtag) (run.map (fun e => (e.i, e.addr))) (t.drop follow.length))

/-- An ordered store on other devices goes on: the answer to its request, if one is out, is taken first. Its elements had passed
their checks, and one another device refuses all the same counts as a refused store (log entry 69, DEDUCED). -/
def State.scatterResume (s : State) (o : VmOp) (n : Nat) (xtag : Option Nat) (run : List (Nat × Word))
    (left : List (Nat × Nat × Nat)) : State :=
  match xtag.bind s.fabricReq with
  | none => s.scatterGo o n left
  | some r =>
    match r.answer with
    | none => s
    | some (status, _) =>
      let s1 := s.dropReq r.xtag
      if (statusCause (status % 65536)).isNone then s1.scatterGo o n left
      else (s1.refuseRun o.cls.toNat (run.drop (status / 65536))).scatterGo o n left

/-- The element of another device, as a store's request needs it. -/
def remoteElem (q : Nat × Place) : Option (Nat × Nat × Nat) :=
  match q.2 with
  | .fabric dev pa => some (q.1, dev, pa)
  | _ => none

/-- R174: every check of an ordered access has passed: the own package's elements are performed as one step, loads of other
devices' with the values that came; a store's on other devices follow while the ticket is held. -/
def State.orderedPerform (s : State) (o : VmOp) (n : Nat) (got : List (Nat × Nat)) : State :=
  let x := s.me
  match s.elemCheckAll x o (x.active o.p) with
  | .error (k, .trap t, s1) => s1.giveUp n k t
  | .error (_, _, s1) => s1.waiting (o.ordered n none [] 2048 got)
  | .ok (l, s1) =>
    let s2 := (l.filter (fun q => !q.2.remote)).foldl (fun s q => s.elemPerform x o q.1 q.2) s1
    if o.store then s2.scatterGo o n (l.filterMap remoteElem) else (s2.putElems o.d got).vmDone o (some n)

/-- R97, R174: the elements of an ordered access from one on, in ascending order: those of the own package are checked, and
those of another device read, a store's to have them checked there. (log entry 69, DEDUCED.) -/
def State.orderedGo (s : State) (o : VmOp) (n : Nat) (got : List (Nat × Nat)) : List Nat → State
  | [] => s.orderedPerform o n got
  | i :: t =>
    let x := s.me
    match s.elemCheck x o i with
    | .error (.trap tr, s1) => s1.giveUp n i tr
    | .error (_, s1) => s1.waiting (o.ordered n none [] i got)
    | .ok (.fabric dev pa, s1) =>
      if !s1.mayTarget s.cur o.cls.toNat (some dev) then s1.waiting (o.ordered n none [] i got)
      else
        let head : RunElem := ⟨i, x.elemAddr o i, pa⟩
        let r := s1.takeRun x o dev true head head t
        let run := head :: r.1
        match r.2.sendRequest dev (.vector s.cur o.cls.toNat) (x.runPacket { o with store := false } run) with
        | none => s1.orderedGo o n got t
        | some (xtag, s2) => s2.waiting (o.ordered n (some xtag) (run.map (fun e => (e.i, e.addr))) i got)
    | .ok (_, s1) => s1.orderedGo o n got t

/-- The active elements from a number on. -/
def Strand.elemsFrom (x : Strand) (o : VmOp) (k : Nat) : List Nat := (x.active o.p).filter (fun i => decide (k ≤ i))

/-- A served access goes on: the answer to its request, if one is out, is taken first. A store is not held by a link that is
down, nor by poison it would write over (R170, R176). -/
def State.orderedResume (s : State) (o : VmOp) (n : Nat) (xtag : Option Nat) (run : List (Nat × Word)) (upto : Nat)
    (got : List (Nat × Nat)) : State :=
  let x := s.me
  let next := ((run.getLast?).map (fun e => e.1 + 1)).getD upto
  match xtag.bind s.fabricReq with
  | none => s.orderedGo o n got (x.elemsFrom o upto)
  | some r =>
    match r.answer with
    | none => s
    | some (status, data) =>
      let s1 := s.dropReq r.xtag
      match statusCause (status % 65536) with
      | none =>
        s1.orderedGo o n (got ++ runValues o.shape (x.elemBytes o) r.packet.mask data run) (x.elemsFrom o next)
      | some cause =>
        let e := run.getD (status / 65536) (0, 0)
        if o.store ∧ cause = causeLinkDown then s1.orderedGo o n got (x.elemsFrom o next)
        else if o.store ∧ cause = causeMemPoison then s1.orderedGo o n got (x.elemsFrom o (e.1 + 1))
        else s1.giveUp n e.1 (addrTrap (if o.store ∧ cause = causeFaultRead then causeFaultWrite else cause) e.2)

/-- VLDSC or VSTSC issues: it takes a ticket and sends what the fence before it must. -/
def ticketOp (w : InstrWord) (o : VmOp) (s : State) : Result :=
  let x := s.me
  match x.wait with
  | .scatter n _ _ _ _ _ xtag run left => .next (s.scatterResume o n xtag run left)
  | .ordered n _ _ _ _ _ _ xtag run upto got => .next (s.orderedResume o n xtag run upto got)
  | .ticket .. => .next s
  | _ =>
    match x.vmTrap o w with
    | some t => .next (s.trap t)
    | none =>
      if s.drainHolds s.cur o.cls.toNat then .next (s.waiting .poll)
      else if x.vl ≤ x.vstart then .next (s.vmDone o none)
      else
        let s1 := s.flushCovered s.cur 3 (BitVec.ofNat 16 (2 ^ o.cls.toNat))
        .next ({ s1 with tickets := s1.tickets ++ [s1.nextTicket], nextTicket := s1.nextTicket + 1 }.waiting
          (.ticket s1.nextTicket o.store o.d o.base o.b o.cls o.p))

/-- VLDSC. -/
def execVldsc (d base b : BitVec 5) (c : BitVec 4) (h : BitVec 2) (p : BitVec 3) (s : State) : Result :=
  let o : VmOp := ⟨false, false, .indexed, d, base, b, c, p⟩
  ticketOp (vmWord 0x2E 0 o h) o s
/-- VSTSC. -/
def execVstsc (d base b : BitVec 5) (c : BitVec 4) (h : BitVec 2) (p : BitVec 3) (s : State) : Result :=
  let o : VmOp := ⟨true, false, .indexed, d, base, b, c, p⟩
  ticketOp (vmWord 0x2E 1 o h) o s

/-- The strand that holds a ticket. -/
def State.ticketHolder (s : State) (n : Nat) : Option Nat :=
  s.strandIds.find? (fun sid =>
    match (s.strand sid).wait with
    | .ticket m _ _ _ _ _ _ => m == n
    | .ordered m _ _ _ _ _ _ _ _ _ _ => m == n
    | .scatter m _ _ _ _ _ _ _ _ => m == n
    | _ => false)

/-- TICKET_SERVED (R97, R174): the ticket taken first is served when the fence before its instruction is complete; it is
held until its instruction has ended. -/
def execTicketServed (s : State) : Result :=
  match s.tickets with
  | [] => .next s
  | n :: rest =>
    match s.ticketHolder n with
    | none => .next { s with tickets := rest }
    | some sid =>
      match (s.strand sid).wait with
      | .ticket _ store d base b c p =>
        if s.fenceDone sid 0 3 (BitVec.ofNat 16 (2 ^ c.toNat)) then
          .next (s.asStrand sid (fun s =>
            let o : VmOp := ⟨store, false, .indexed, d, base, b, c, p⟩
            s.orderedGo o n [] (s.me.active o.p)))
        else .next s
      | _ => .next s

end Sys2Proof.Machine
end

