-- ==== Sys2Proof/Machine/Rininori.lean ====
section
/-! DEFINITION. Packets of the fabric load-store domain as this package receives them (R352 to R356): requests performed and
answered as a target, responses and acknowledgements of its own requests, pacing, and packets it cannot take. -/
namespace Sys2Proof.Machine

/-! ### Receiving -/

/-- A packet for this device of the kind of its row, with no rsv field set (R352). -/
def State.receives (s : State) (p : Packet) (kind : BitVec 8) : Bool :=
  p.kind == kind && p.ddev.toNat == s.device && !p.rsv

/-- A packet that has come ends the failures of its port in a row, and the receiver takes its blocks (R357). -/
def State.heard (s : State) (p : Packet) : State :=
  match s.routeTo p.sdev.toNat with
  | some port =>
    let l := s.port port
    s.setPort port { l with rx := l.rx.take (s.hwRotation port) p, failures := 0 }
  | none => s

/-- Bytes at a physical address lie in the package's memory, as a device of the fabric may name it: the spec does not say which
addresses the 512 GB of HBM occupies; the lowest are taken (log entry 82, DESIGN CHOICE). -/
def inMemory (pa n : Nat) : Bool := decide (pa + n ≤ Config.hbmBytes)

/-- The line of a READ or WRITE. -/
def lineOf (p : Packet) : Nat := p.addr.toNat / 128 * 128

/-- A byte that a mask enables lies in a poisoned sector. -/
def State.maskPoisoned (s : State) (p : Packet) : Bool :=
  (List.range 4).any (fun k =>
    s.poison.contains (lineOf p / 32 + k) && p.mask.extractLsb' (32 * k) 32 != 0)

/-- The enabled bytes of a line. -/
def State.lineBytes (s : State) (p : Packet) : Nat :=
  readBytes (fun i => if p.mask.getLsbD i then s.byteAt (lineOf p + i) else 0) 0 128

/-! ### READ, WRITE, ATOMIC (R352, R353) -/

/-- READ (R353): the enabled bytes of a line, in the flits a WRITE would carry. -/
def State.serveRead (s : State) (p : Packet) : State :=
  if !inMemory (lineOf p) 128 then s.answer p 0x08 1 []
  else if s.maskPoisoned p then s.answer p 0x08 3 []
  else s.answer p 0x08 0 (lineFlits p.mask (s.lineBytes p))

/-- The enabled bytes of a line written from its image. -/
def State.writeLine (s : State) (p : Packet) (image : Nat) : State :=
  (List.range 128).foldl (fun s i =>
    if p.mask.getLsbD i then s.writeMem (lineOf p + i) 1 (image / 256 ^ i % 256) else s) s

/-- One nibble of the enabled byte written (log entry 12, DESIGN CHOICE): the half AUX names. -/
def State.writeNibble (s : State) (p : Packet) (image half : Nat) : State :=
  (List.range 128).foldl (fun s i =>
    if p.mask.getLsbD i then
      s.writeMem (lineOf p + i) 1 (withNibble (s.readMem (lineOf p + i) 1) half (nibble (image / 256 ^ i % 256) half))
    else s) s

/-- WRITE (R353): the enabled bytes are performed and one ACK carries NMERGE. -/
def State.serveWrite (s : State) (p : Packet) : State :=
  let image := lineImage p.mask p.data
  if !inMemory (lineOf p) 128 then s.answer p 0x09 2 []
  else (if p.aux = 0 then s.writeLine p image else s.writeNibble p image (p.aux.toNat - 1)).answer p 0x09 0 []

/-- ATOMIC (R352): performed by the owning device and answered with the old value and FADD's flags (log entry 9, DESIGN CHOICE). -/
def State.serveAtomic (s : State) (p : Packet) : State :=
  let n := if p.aux.getLsbD 4 then 8 else 4
  let op := p.aux.toNat % 16
  let pa := p.addr.toNat
  if !inMemory pa n ∨ pa % n ≠ 0 ∨ (9 < op ∧ op ≠ 15) then s.answer p 0x08 2 []
  else if s.poisonedAt pa n then s.answer p 0x08 3 []
  else
    let m := s.readMem pa n
    let y := numOf (p.data.take n)
    let r := atomicNew n op (numOf ((p.data.drop n).take n)) m y
    let s1 := match r.1 with | some x => s.writeMem pa n x | none => s
    s1.answer p 0x08 0 (bytesOf m n ++ [r.2.setWidth 8])

/-! ### VREAD and VWRITE (R354) -/

/-- The status of element i, checked before any is performed. -/
def State.elemStatus (s : State) (p : Packet) (n : Nat) (write : Bool) (i : Nat) : Nat :=
  let a := elemPa p i
  if a < 0 ∨ !inMemory a.toNat n ∨ a.toNat % n ≠ 0 then (if write then 2 else 1)
  else if !write && s.poisonedAt a.toNat n then 3
  else 0

/-- The lowest faulting element with its status; the count of elements when none faults. -/
def State.lowestFault (s : State) (p : Packet) (n : Nat) (write : Bool) : Nat × Nat :=
  match (List.range p.nelem.toNat).find? (fun i => s.elemStatus p n write i != 0) with
  | some i => (i, s.elemStatus p n write i)
  | none => (p.nelem.toNat, 0)

/-- A vector request's form: 1 to 2,048 elements, an index for each when it is indexed. -/
def vectorFormOk (p : Packet) : Bool :=
  decide (1 ≤ p.nelem.toNat) && decide (p.nelem.toNat ≤ 2048) && (p.index.isEmpty || p.index.length == p.nelem.toNat)

/-- STATUS of a vector response. -/
def vectorStatus (r : Nat × Nat) : Nat := if r.2 = 0 then 0 else r.1 * 65536 + r.2

/-- VREAD (R354): every element is checked; those below the lowest fault are read and returned. -/
def State.serveVread (s : State) (p : Packet) : State :=
  let n := 2 ^ p.esz.toNat
  if !vectorFormOk p then s.answer p 0x08 2 []
  else
    let r := s.lowestFault p n false
    s.answer p 0x08 (vectorStatus r) ((List.range r.1).flatMap (fun i => bytesOf (s.readMem (elemPa p i).toNat n) n))

/-- VWRITE (R354): every element is checked; those below the lowest fault are written, in ascending order.
(log entry 41, DEDUCED.) -/
def State.serveVwrite (s : State) (p : Packet) : State :=
  let n := 2 ^ p.esz.toNat
  if !vectorFormOk p then s.answer p 0x08 2 []
  else
    let r := s.lowestFault p n true
    ((List.range r.1).foldl (fun s i =>
      s.writeMem (elemPa p i).toNat n (numOf ((p.data.drop (i * n)).take n))) s).answer p 0x08 (vectorStatus r) []

/-! ### WORDS (R352) -/

/-- The 24 bytes of an entry of a WORDS packet (log entry 9, DESIGN CHOICE), as `wordsData` lays them out. -/
def wordsEntry (x : Nat) : SteepEntry :=
  let ctl := cardField x 16 1
  ⟨0, 0, 0, ctl / 32 % 4, if ctl / 16 % 2 = 1 then 8 else 4, ctl % 16, cardField x 17 1 % 16, BitVec.ofNat 64 (cardField x 0 8),
    BitVec.ofNat 64 (cardField x 8 8), 0, false, 0, 0⟩

/-- The entry of a WORDS packet with a number. -/
def packetWord (p : Packet) (i : Nat) : SteepEntry := wordsEntry (numOf ((p.data.drop (24 * i)).take 24))

/-- A Steep word names aligned bytes of the package's memory, and an operation there is. -/
def wordOk (e : SteepEntry) : Bool :=
  inMemory e.addr.toNat e.width && e.addr.toNat % e.width == 0 && (decide (e.kind < 2) || decide (e.op ≤ 9))

/-- One Steep word performed at the target: the state and the two bytes of its answer, status and flags (log entry 9, DESIGN
CHOICE). -/
def State.targetWord (s : State) (e : SteepEntry) : State × List Byte :=
  let pa := e.addr.toNat
  let n := e.width
  if !wordOk e then (s, [2, 0])
  else if 2 ≤ e.kind ∧ s.poisonedAt pa n then (s, [3, 0])
  else
    let r := e.newValue (s.readMem pa n)
    (s.writeMem pa n r.1, [0, r.2.setWidth 8])

/-! ### Requests in their turn (R349) -/

/-- The bytes of memory a request touches: their addresses and counts. -/
def packetRanges (p : Packet) : List (Nat × Nat) :=
  match p.kind.toNat with
  | 1 => ((List.range 128).filter (fun i => p.mask.getLsbD i)).map (fun i => (lineOf p + i, 1))
  | 2 => ((List.range 128).filter (fun i => p.mask.getLsbD i)).map (fun i => (lineOf p + i, 1))
  | 3 => [(p.addr.toNat, if p.aux.getLsbD 4 then 8 else 4)]
  | _ => (packetPlaces p).map (fun pa => (pa, 2 ^ p.esz.toNat))

/-- R349: the combining queue with operations waiting whose location a request touches. -/
def State.packetQueue (s : State) (p : Packet) : Option (Nat × CombQueue) :=
  s.combining.find? (fun q => !q.2.ops.isEmpty && (packetRanges p).any (fun r => s.queueMeets q.2 r.1 r.2))

/-- A request of another device performed and answered; WORDS are performed word by word (`State.wordsCome`). -/
def State.servePacket (s : State) (p : Packet) : State :=
  match p.kind.toNat with
  | 1 => s.serveRead p
  | 2 => s.serveWrite p
  | 3 => s.serveAtomic p
  | 4 => s.serveVread p
  | _ => s.serveVwrite p

/-- R349: the location and width of an ATOMIC that is an integer ADD in the package's memory. -/
def packetAdd (p : Packet) : Option (Nat × Nat) :=
  let n := if p.aux.getLsbD 4 then 8 else 4
  if p.kind = 0x03 ∧ p.aux.toNat % 16 = 1 ∧ inMemory p.addr.toNat n ∧ p.addr.toNat % n = 0 then some (p.addr.toNat, n) else none

/-- R349: a request received joins the combining queue of a location it touches; an integer ADD may open one, and is counted as
come when it does not; else it is performed. -/
def State.takePacket (s : State) (p : Packet) : State :=
  match s.packetQueue p, packetAdd p with
  | some (k, q), _ => s.joinQueue k q (.packet p)
  | none, none => s.servePacket p
  | none, some (pa, n) => (s.combine none pa n (.packet p)).getD ((s.addCame pa n).servePacket p)

/-! ### The words of a packet, in their order (R98, R217, R349, R352) -/

/-- A job replaced by its number. -/
def State.setJob (s : State) (j : WordsJob) : State :=
  { s with wordsOpen := s.wordsOpen.map (fun x => if x.num = j.num then j else x) }

/-- R349: the combining queue a word joins or opens, with the state in which it has; none when it is performed by itself. -/
def State.wordJoins (s : State) (num : Nat) (e : SteepEntry) : Option (Nat × State) :=
  if wordOk e then
    (s.combine none e.addr.toNat e.width (.word num e)).bind (fun s1 =>
      (s1.combining.find? (fun q => q.2.ops.contains (.word num e))).map (fun q => (q.1, s1)))
  else none

/-- R98: a job stands behind an earlier one of the same device and class. -/
def State.jobBehind (s : State) (j : WordsJob) : Bool :=
  (s.wordsOpen.takeWhile (fun x => x.num != j.num)).any (fun x => x.packet.sdev == j.packet.sdev && x.packet.cls == j.packet.cls)

/-- The next word of a job: into a combining queue, the one its earlier words wait in or, when none waits, any; or performed, when
none waits. None when it has to wait. -/
def State.nextWord (s : State) (j : WordsJob) : Option State :=
  let e := packetWord j.packet j.next
  if s.jobBehind j then none
  else
    match s.wordJoins j.num e with
    | some (k, s1) =>
      if j.waiting = 0 ∨ j.queue = k then some (s1.setJob { j with next := j.next + 1, waiting := j.waiting + 1, queue := k })
      else none
    | none =>
      if j.waiting ≠ 0 then none
      else
        let s1 := if wordOk e && decide (2 ≤ e.kind) && e.op == 1 then s.addCame e.addr.toNat e.width else s
        let r := s1.targetWord e
        some (r.1.setJob { j with next := j.next + 1, answers := j.answers ++ r.2 })

/-- What a job comes to next: its answer, when every word has been performed, or its next word. -/
def State.jobStep (s : State) (j : WordsJob) : Option State :=
  if j.next < j.packet.nelem.toNat then s.nextWord j
  else if j.waiting ≠ 0 then none
  else some ({ s with wordsOpen := s.wordsOpen.filter (fun x => x.num != j.num) }.answer j.packet 0x08 0 j.answers)

/-- The jobs go on as far as they can, `n` steps at most. -/
def State.runJobs (s : State) : Nat → State
  | 0 => s
  | n + 1 =>
    match s.wordsOpen.findSome? s.jobStep with
    | none => s
    | some s1 => s1.runJobs n

/-- The steps the open jobs may still take. -/
def State.jobsLeft (s : State) : Nat := s.wordsOpen.foldl (fun n j => n + (j.packet.nelem.toNat - j.next) + 1) 0

/-- WORDS (R352, R217): the Steep words of the packet are performed at the target in their order, and each is answered. -/
def State.wordsCome (s : State) (p : Packet) : State :=
  let n := p.nelem.toNat
  if n = 0 ∨ p.data.length ≠ 24 * n then s.answer p 0x08 2 []
  else
    let s1 : State := { s with serial := s.serial + 1, wordsOpen := s.wordsOpen ++ [⟨s.serial, p, 0, 0, 0, []⟩] }
    s1.runJobs s1.jobsLeft

/-- A word of a job that waited in a combining queue has been performed, with its answer. -/
def State.wordDone (s : State) (num : Nat) (answer : List Byte) : State :=
  match s.wordsOpen.find? (fun j => j.num == num) with
  | none => s
  | some j =>
    let s1 := s.setJob { j with waiting := j.waiting - 1, answers := j.answers ++ answer }
    s1.runJobs s1.jobsLeft

/-- A request of a kind received (R352). -/
def State.request (s : State) (p : Packet) (kind : BitVec 8) : Result :=
  if s.receives p kind then .next ((s.heard p).takePacket p) else .next s

/-- READ (R353). -/
def execRead (p : Packet) (s : State) : Result := s.request p 0x01
/-- WRITE (R353). -/
def execWrite (p : Packet) (s : State) : Result := s.request p 0x02
/-- ATOMIC (R352). -/
def execAtomic (p : Packet) (s : State) : Result := s.request p 0x03
/-- VREAD (R354). -/
def execVread (p : Packet) (s : State) : Result := s.request p 0x04
/-- VWRITE (R354). -/
def execVwrite (p : Packet) (s : State) : Result := s.request p 0x05
/-- WORDS (R352, R217). -/
def execWords (p : Packet) (s : State) : Result :=
  if s.receives p 0x06 then .next ((s.heard p).wordsCome p) else .next s

/-! ### MSG (R222, R352) -/

/-- The message a packet carries, under a number. -/
def packetMsg (p : Packet) (num : Nat) : Msg :=
  let bytes := BitVec.ofNat 512 (numOf (p.data.take 64))
  { num := num, cls := (bytes.extractLsb' 0 4).toNat, bytes := bytes
    fromStrand := (bytes.extractLsb' 16 16).toNat, fromDev := p.sdev.toNat, fromOwn := false
    reply := bytes.getLsbD 8, poisoned := false, notify := if p.aux = 1 then some p.xtag.toNat else none, entry := none }

/-- A message of another device has to stand with those under way: its route entry is to be read of another device (R75) or
cannot be read yet (R349, R367), or an earlier one from its sender to its core is not there yet (R347). -/
def State.msgWaits (s : State) (f : MsgFlight) : Bool :=
  s.routeFar f.core f.msg.cls || s.routeWaits f.core f.msg.cls ||
    s.messages.any (fun x => x.answer.isNone && x.abreast f)

/-- MSG (R222, R352): a message is delivered to a core's mailbox and answered 0 accepted, 1 refused, 2 no route. -/
def execMsg (p : Packet) (s : State) : Result :=
  if !s.receives p 0x07 then .next s
  else
    let s1 := s.heard p
    let core := p.addr.toNat
    let m := packetMsg p s1.serial
    if !coreExists core then .next (s1.answer p 0x08 2 [])
    else
      let s2 := { s1 with serial := s1.serial + 1 }
      let f : MsgFlight := ⟨m, core, p.sdev.toNat, false, none, some p⟩
      if s1.msgWaits f then .next { s2 with messages := s2.messages ++ [f] }
      else
        let outcome := s1.arrivalOutcome core m
        let s3 := s2.touchRoute core m.cls
        .next ((if outcome = 0 then s3.accept core m else s3).answer p 0x08 outcome [])

/-! ### RSP and ACK (R352, R353) -/

/-- The open request a response is for: its tag, sent to the device that answers. -/
def State.requestFor (s : State) (p : Packet) : Option FabricReq :=
  s.fabric.find? (fun r => r.xtag == p.xtag.toNat && r.packet.ddev == p.sdev && !r.queued &&
    (r.answer.isNone || (p.aux == 1 && (match r.purpose with | .message _ => true | _ => false))))

/-- RSP (R352): data and status of a request. -/
def execRsp (p : Packet) (s : State) : Result :=
  if !s.receives p 0x08 then .next s
  else
    let s1 := s.heard p
    match s1.requestFor p with
    | none => .next s1
    | some r => .next (s1.endRequest r p.status.toNat p.data p.aux)

/-- The writes that one acknowledgement covers (R353): the one named, and the ones merged with it: the next of its line and
class to the device. -/
def State.mergedWith (s : State) (r : FabricReq) (n : Nat) : List FabricReq :=
  ((s.fabric.dropWhile (fun x => x.xtag != r.xtag)).filter (fun x => x.answer.isNone && !x.queued && x.packet.kind == 0x02 &&
    x.packet.ddev == r.packet.ddev && x.packet.addr == r.packet.addr && x.packet.cls == r.packet.cls)).take n

/-- ACK (R353): an acknowledgement of NMERGE writes. -/
def execAck (p : Packet) (s : State) : Result :=
  if !s.receives p 0x09 then .next s
  else
    let s1 := s.heard p
    match s1.requestFor p with
    | none => .next s1
    | some r =>
      if p.nmerge.toNat ≤ 1 then .next (s1.endRequest r p.status.toNat p.data p.aux)
      else .next ((s1.mergedWith r p.nmerge.toNat).foldl (fun s x => s.endRequest x p.status.toNat p.data p.aux) s1)

/-! ### Pacing (R356) -/

/-- DEMAND (R356): a source announces the flits it has queued. -/
def execDemand (p : Packet) (s : State) : Result :=
  if !s.receives p 0x0A then .next s
  else
    let s1 := s.heard p
    let dev := p.sdev.toNat
    let n := p.aux.toNat
    if s1.demands.any (fun d => d.1 == dev) then
      .next { s1 with demands := s1.demands.map (fun d => if d.1 = dev then (dev, n) else d) }
    else .next { s1 with demands := s1.demands ++ [(dev, n)] }

/-- GRANT (R356): as a source, a chunk of flits granted to this package, whose queued requests go on; as a receiver (the
packet names this package as its source), a chunk of 32 to the next source in rotation. -/
def execGrant (p : Packet) (s : State) : Result :=
  if s.receives p 0x0B then
    let s1 := s.heard p
    let dev := p.sdev.toNat
    .next (({ s1 with grants := mapSet s1.grants dev (mapGet s1.grants dev [] ++ [(⟨p.aux.toNat, s1.cycle⟩ : Grant)]) }).goOn dev)
  else if p.kind = 0x0B ∧ p.sdev.toNat = s.device then
    match s.demands with
    | [] => .next s
    | (dev, n) :: rest =>
      if dev ≠ p.ddev.toNat then .next s
      else
        let s1 := { s with demands := if n ≤ 32 then rest else rest ++ [(dev, n - 32)] }
        .next (s1.emit { emptyPacket with kind := 0x0B, ddev := p.ddev, aux := 32 })
  else .next s

/-- GRANT_LAPSE (R356): a grant not used within 8,192 cycles lapses; what is still queued is announced again. -/
def execGrantLapse (dev : Nat) (s : State) : Result :=
  let l := mapGet s.grants dev []
  let kept := l.filter (fun g => decide (s.cycle < g.at_ + 8192))
  if kept.length < l.length then
    let s1 : State := { s with grants := mapSet s.grants dev kept }
    if s1.queuedTo dev = 0 then .next s1 else .next (s1.announce dev)
  else .next s

/-! ### BAD_PACKET (R352) -/

/-- Kinds 0x01 to 0x07 are requests. -/
def isRequest (p : Packet) : Bool := decide (1 ≤ p.kind.toNat) && decide (p.kind.toNat ≤ 7)

/-- BAD_PACKET (R352): an unlisted KIND or a set rsv field: a request is answered with status 2, anything else is dropped;
the event is counted, with the packet's address (R364). -/
def execBadPacket (p : Packet) (s : State) : Result :=
  if p.ddev.toNat = s.device ∧ (p.rsv ∨ p.kind = 0 ∨ 0x0B < p.kind.toNat) then
    let s1 := (s.heard p).logError 0 3 p.addr
    if isRequest p then .next (s1.answer p 0x08 2 []) else .next s1
  else .next s

end Sys2Proof.Machine
end

