-- ==== Sys2Proof/Machine/Mesh.lean ====
section
/-! DEFINITION. The mesh, the combining queues and the bridge (R95, R346, R349, R350): STARVATION_TOKEN, COMBINE_BATCH,
COMBINING_QUEUE_CLOSE and BRIDGE_LINK_FAILURE. -/
namespace Sys2Proof.Machine

/-! ### Router outputs (R346) -/

/-- The key of a router's output. -/
def portKey (router port : Nat) : Nat := router * 16 + port

/-- Two flits wait in the same queue of an output (R347). -/
def MeshFlit.behind (f x : MeshFlit) : Bool := f.express == x.express && f.cls == x.cls

/-- The heads of the queues of an output. -/
def queueHeads (l : List MeshFlit) : List MeshFlit := l.filter (fun f => l.find? f.behind == some f)

/-- A flit leaves: the one behind it is its queue's head from now on. -/
def RouterPort.leave (o : RouterPort) (f : MeshFlit) (now : Nat) : RouterPort :=
  let rest := o.queue.erase f
  { queue := rest.map (fun x => if f.behind x && rest.find? f.behind == some x then { x with since := max x.since now } else x)
    token := o.token.filter (fun t => t.2 != f) }

/-- R346: the flit whose token's grant has come. -/
def RouterPort.granted (o : RouterPort) (now : Nat) : Option MeshFlit := (o.token.find? (fun t => decide (t.1 ≤ now))).map Prod.snd

/-- R346: the flit an output sends: the one a token grants it to; else an express head before the others, the classes in the
order of R347's table, the last first. -/
def RouterPort.pick (o : RouterPort) (now : Nat) : Option MeshFlit :=
  let heads := queueHeads o.queue
  let byClass := fun (l : List MeshFlit) => [NetClass.msg, .rsp, .fwd, .req].findSome? (fun c => l.find? (fun f => f.cls == c))
  match o.granted now, byClass (heads.filter (fun f => f.express)) with
  | some f, _ => some f
  | none, some f => some f
  | none, none => byClass heads

/-- R346: every flit that has waited 16 cycles at the head of its queue raises a token; the output is granted to it in the next
cycle. -/
def RouterPort.starve (o : RouterPort) (now : Nat) : RouterPort :=
  let due := (queueHeads o.queue).filter (fun f => decide (f.since + 16 ≤ now) && o.token.all (fun t => t.2 != f))
  { o with token := o.token ++ due.map (fun f => (now + 1, f)) }

/-- R346: one cycle of an output: those that have waited raise their tokens, and a flit leaves. -/
def RouterPort.turn (o : RouterPort) (now : Nat) : RouterPort :=
  let o1 := o.starve now
  match o1.pick now with
  | some f => o1.leave f now
  | none => o1

/-- STARVATION_TOKEN (R346): a flit that has waited 16 cycles at the head of an output's queue raises the token; the output
is granted to it in the next cycle, and it leaves. (log entry 45, DESIGN CHOICE.) -/
def execStarvationToken (router port : Nat) (s : State) : Result :=
  let k := portKey router port
  let o := mapGet s.routers k ⟨[], []⟩
  match o.granted s.cycle with
  | some f => .next { s with routers := mapSet s.routers k (o.leave f s.cycle) }
  | none => .next { s with routers := mapSet s.routers k (o.starve s.cycle) }

/-! ### Combining queues (R349) -/

/-- The old value of each ADD of a batch at a location, by prefix sums, and the final sum (R95). -/
def prefixSums (c : CombQueue) (m : Nat) : List CombOp → List (CombOp × Nat) × Nat
  | [] => ([], m)
  | o :: t =>
    let r := prefixSums c ((m + (o.addend c).getD 0) % 2 ^ (8 * c.width)) t
    ((o, m) :: r.1, r.2)

/-- The old value of an ADD delivered: to a Steep entry, to the strand whose AMO waits for it, to another device (R349). -/
def State.deliverOld (s : State) (o : CombOp) (width old : Nat) : State :=
  match o with
  | .entry e => s.entryDone e 0
  | .amo num sid _ _ =>
    match (s.strand sid).wait with
    | .amo tag d n _ _ => if tag = combineTag num then s.asStrand sid (fun s => s.writeG d (amoResult n 1 old)) else s
    | _ => s
  | .packet p => s.answer p 0x08 0 (bytesOf old width ++ [0])
  | .word num _ => s.wordDone num [0, 0]
  | .turn .. => s

/-- A word of another device performed alone, in its turn. -/
def State.performWord (s : State) (num : Nat) (e : SteepEntry) : State :=
  let r := s.targetWord e
  r.1.wordDone num r.2

/-- A fault of the location delivered to an ADD that waits there (R132, R219); another device names the bytes by their physical
address, and meets its own checks. -/
def State.deliverFault (s : State) (o : CombOp) (cause : BitVec 8) : State :=
  match o with
  | .entry e => s.entryFault e cause
  | .amo num sid _ _ =>
    match (s.strand sid).wait with
    | .amo tag _ _ _ a => if tag = combineTag num then s.asStrand sid (fun s => s.trap (addrTrap cause a)) else s
    | _ => s
  | .packet p => s.servePacket p
  | .word num e => s.performWord num e
  | .turn .. => s

/-- R349, R95: a batch performed at its location: each ADD has its own old value, and the final sum is written. -/
def State.performBatch (s : State) (c : CombQueue) (b : List CombOp) : State :=
  let done := fun (s : State) (r : List (CombOp × Nat) × Nat) => r.1.foldl (fun s x => s.deliverOld x.1 c.width x.2) s
  if c.phys then
    if s.poisonedAt c.addr c.width then b.foldl (fun s o => s.deliverFault o causeMemPoison) s
    else
      let r := prefixSums c (s.readMem c.addr c.width) b
      done (s.writeMem c.addr c.width r.2) r
  else
    match s.translate .atomic c.addr with
    | some (.mem f, s1) =>
      if s1.placePoisoned (.mem f) c.width then b.foldl (fun s o => s.deliverFault o causeMemPoison) s1
      else
        let r := prefixSums c (s1.readSpan f c.width) b
        done (s1.writeSpan f c.width r.2) r
    | _ => b.foldl (fun s o => s.deliverFault o causeFaultWrite) s

/-- R349: the batch at a queue's head: up to 8 consecutive integer ADDs of its location. -/
def CombQueue.batch (c : CombQueue) : List CombOp := (c.ops.takeWhile (fun o => (o.addend c).isSome)).take 8

/-- R349: an operation of another kind is performed alone, in its turn; the turn of an access that is no longer tried passes. -/
def State.performAlone (s : State) (o : CombOp) : State :=
  match o with
  | .entry e => s.deliverEntry e
  | .packet p => s.servePacket p
  | .word num e => s.performWord num e
  | _ => s

/-- Whether the access whose turn stands in a queue is still tried: its strand stands at the instruction and waits to go on with
it, or a unit works for the strand. -/
def State.turnLive (s : State) (sid : Nat) (pc : Option Word) : Bool :=
  let x := s.strand sid
  match pc with
  | some a => x.pc == a && (x.wait.retries || x.wait.holdsTurn) && (x.wait != .none || s.attends sid)
  | none =>
    (s.core (coreOf sid)).cards.any (fun k => k.inFlight && k.sid == sid) || x.fetching || !s.service.isEmpty ||
      s.recordsDue.any (fun d => d.1.sid == sid)

/-- The head of a queue has to wait: the turn of an access still to be tried, or for a walk of the service cores (R367). -/
def State.headWaits (s : State) (c : CombQueue) (o : CombOp) : Bool :=
  match o with
  | .turn sid pc => s.turnLive sid pc
  | _ => !c.phys && s.walkAssisted c.addr

/-- COMBINE_BATCH (R349): the batch at a queue's head is combined, or its first operation performed alone. -/
def execCombineBatch (cluster queue : Nat) (s : State) : Result :=
  let k := combKey cluster queue
  match s.combining.find? (fun x => x.1 == k) with
  | none => .next s
  | some (_, c) =>
    match c.ops with
    | [] => .next s
    | o :: _ =>
      if s.headWaits c o then .next s
      else
        match c.batch with
        | [] => .next ((s.popQueue k c 1).performAlone o)
        | b => .next ((s.popQueue k c b.length).performBatch c b)

/-- COMBINING_QUEUE_CLOSE (R349): a queue empty for 64 cycles is freed. -/
def execCombiningQueueClose (cluster queue : Nat) (s : State) : Result :=
  let k := combKey cluster queue
  match s.combining.find? (fun x => x.1 == k) with
  | none => .next s
  | some (_, c) =>
    if c.ops.isEmpty ∧ c.emptySince + 64 ≤ s.cycle then .next { s with combining := mapDrop s.combining k } else .next s

/-! ### The bridge (R350) -/

/-- R350: the port of a bridge link. -/
def bridgePort (link : Nat) : Nat := 32 + link

/-- R350: the bridge link of the traffic whose home is a cluster of the other package. -/
def bridgeLink (cluster : Nat) : Nat := cluster % 4

/-- BRIDGE_LINK_FAILURE (R350): a link that failed its retries has been retrained and its traffic goes on; when that fails,
MACHINE_CHECK with UNIT 10 is raised on every strand. -/
def execBridgeLinkFailure (link : Nat) (retrained : Bool) (s : State) : Result :=
  if 4 ≤ link then .next s
  else
    let l := s.port (bridgePort link)
    if retrained then .next (s.setPort (bridgePort link) { l with trained := true, failures := 0, retrainBy := none })
    else
      .next (allStrands.foldl (fun s i => s.raiseCheck 10 0 i)
        (s.setPort (bridgePort link) { l with trained := false, down := true, retrainBy := none }))

end Sys2Proof.Machine
end

