-- ==== Sys2Proof/Machine/Mma.lean ====
section
/-! DEFINITION. Matrix multiply (R61, R183 to R189): major 0x31, and MMA_COMPLETION. -/
namespace Sys2Proof.Machine

/-! ### Operands -/

/-- An operand of an MMA: a tile, or a descriptor. -/
inductive MatSrc where
  | tile (t : BitVec 3)
  | desc (d : Desc)
deriving DecidableEq, Repr

/-- The operand a field and its src bit name (R183). -/
def Strand.matSrc (x : Strand) (field : BitVec 5) (src : BitVec 1) : MatSrc :=
  if src = 1 then .desc (x.desc field) else .tile (field.extractLsb' 0 3)

/-- Whether a descriptor's rsv bits are set. -/
def MatSrc.rsv : MatSrc → Bool
  | .tile _ => false
  | .desc d => d.rsv

/-- The format an operand has of itself; none through the raw window (R191). A DEAD tile has DEAD. -/
def Core.ownFormat (c : Core) (m : MatSrc) : Option (BitVec 8) :=
  match m with
  | .tile t => some (c.tileTag t)
  | .desc d => d.windowTag

/-- R191: both operands' formats. -/
def Core.formats (c : Core) (x : BitVec 2) (a b : MatSrc) : BitVec 8 × BitVec 8 :=
  match c.ownFormat a, c.ownFormat b with
  | some f, some g => (f, g)
  | some f, none => (f, f)
  | none, some g => (g, g)
  | none, none => if c.accTag x = 0x03 then (0x01, 0x01) else (0x13, 0x13)

/-- An operand's K (R184). -/
def MatSrc.kOf (m : MatSrc) (fmt : BitVec 8) : Nat :=
  match m with
  | .tile _ => rowElems fmt
  | .desc d => d.k

/-- R184: the accumulator's tag, eighths of k-steps per cycle at MCAP = 8, and the group; none for an integer format
with a floating one. -/
def matRate (fa fb : BitVec 8) : Option (BitVec 8 × Nat × Nat) :=
  let ints := fun (f : BitVec 8) => isInt8 (elemOf f)
  if ints fa && ints fb then some (0x03, 8, 4)
  else if ints fa || ints fb then none
  else if fa = 0x11 ∨ fb = 0x11 then some (0x11, 1, 1)
  else if fa = 0x12 ∨ fa = 0x13 ∨ fb = 0x12 ∨ fb = 0x13 then some (0x11, 4, 2)
  else if fa = 0x19 ∧ fb = 0x19 then some (0x11, 16, 4)
  else some (0x11, 8, 4)

/-- Whether a tag is BX. -/
def isBxTag (f : BitVec 8) : Bool := f == 0x18 || f == 0x19

/-- R185: a BX operand of K elements with base register s needs a register above 15. -/
def scaleTooHigh (f : BitVec 8) (s k : Nat) : Bool := isBxTag f && decide (15 < s + (if 64 < k then 8 else 0))

/-- R184, R185: ILLEGAL_INSTR from es and the operand and accumulator tags, judged over live tags. -/
def mmaIllegal (fa fb at_ : BitVec 8) (es ka kb : Nat) : Bool :=
  scaleTooHigh fa es ka || scaleTooHigh fb (es + 1) kb ||
    (fa != 0 && fb != 0 &&
      ((match matRate fa fb with | none => true | some (r, _, _) => at_ != 0 && at_ != r) ||
        (!isBxTag fa && !isBxTag fb && es != 0)))

/-- R191: a descriptor's K. (log entry 66, DEDUCED.) -/
def MatSrc.badK (m : MatSrc) (f : BitVec 8) (group : Nat) : Bool :=
  match m with
  | .tile _ => false
  | .desc d =>
    let bits := d.k * (elemOf f).width
    d.k == 0 || d.k % group != 0 || bits % 128 != 0 || decide (2048 < bits) || (isBxTag f && decide (128 < d.k))

/-- R190: the segments of an operand row. -/
def segsOf (f : BitVec 8) (k : Nat) : Nat := (k * (elemOf f).width + 511) / 512

/-- The alignment trap of an operand. -/
def MatSrc.alignTrap : MatSrc → Option Trap
  | .tile _ => none
  | .desc d => d.alignTrap

/-- The range trap of an operand, or the core its bytes lie in. -/
def State.matCore (s : State) (m : MatSrc) (f : BitVec 8) : Except Trap Nat :=
  match m with
  | .tile _ => .ok (coreOf s.cur)
  | .desc d => s.descCore (coreOf s.cur) d (segsOf f d.k)

/-- The row r of an operand as a number, its elements from the lowest bits up. -/
def State.matRow (s : State) (m : MatSrc) (core : Nat) (f : BitVec 8) (r : Nat) : Nat :=
  match m with
  | .tile t => (((s.core (coreOf s.cur)).tile t).extractLsb' (512 * r) 512).toNat
  | .desc d => packElems 512 ((List.range (segsOf f d.k)).map (fun g => s.readSegment core d r g))

/-- The poisoned byte of an operand's rows, if one is read (R189). (log entry 65, DEDUCED.) -/
def State.matPoison (s : State) (m : MatSrc) (core : Nat) (f : BitVec 8) (rows : List Nat) : Option Word :=
  match m with
  | .tile _ => none
  | .desc d => s.descPoison core d (rows.flatMap (fun r => (List.range (segsOf f d.k)).map (fun g => (r, g))))

/-- R185: the values of a row, a BX element under its exponents from scale register `base` on. -/
def Strand.matValues (x : Strand) (f : BitVec 8) (base r k row : Nat) : List EVal :=
  let t := elemOf f
  (numberedElems (elemsOf row t.width k)).map (fun q =>
    let e := x.e[(base + 8 * (q.1 / 64)) % 16]'(by omega)
    let n := 2 * r + q.1 / 32 % 2
    t.value (scaleByte e (2 * n)) (scaleByte e (2 * n + 1)) q.2)
where
  numberedElems (l : List Nat) : List (Nat × Nat) := (List.range l.length).zip l

/-! ### The product (R61, R186) -/

/-- One group: the exact sum of its products, subtracted by MMAS, and one rounding. The accumulator joins the finished
sum, so an infinite one beside a NaN sum raises no NV. (log entry 85, DESIGN CHOICE.) -/
def mmaStep (sub : Bool) (acc : FVal) (xs ys : List EVal) : FVal × Flags :=
  let prods := (xs.zip ys).map (fun p => p.1.toF.mul p.2.toF)
  let t := sumExact .rne (prods.map Prod.fst)
  let r := sumExact .rne [acc, if sub then t.1.neg else t.1]
  let b := FFmt.fp32.deliver .rne false r.1
  (FFmt.fp32.decode b.1, orFlags (prods.map Prod.snd) ||| t.2 ||| r.2 ||| b.2)

/-- R61: an element of an FP32 accumulator over the groups in ascending k; fuel bounds the groups.
(log entry 63, DEDUCED.) -/
def mmaFloat (sub : Bool) (group : Nat) (acc : FVal) (xs ys : List EVal) : Nat → FVal × Flags
  | 0 => (acc, 0)
  | n + 1 =>
    if xs.isEmpty then (acc, 0)
    else
      let r := mmaStep sub acc (xs.take group) (ys.take group)
      let rest := mmaFloat sub group r.1 (xs.drop group) (ys.drop group) n
      (rest.1, r.2 ||| rest.2)

/-- R61: an element of an INT32 accumulator, modulo 2^32. -/
def mmaInt (sub : Bool) (acc : Nat) (xs ys : List EVal) : Nat :=
  let t : Int := (xs.zip ys).foldl (fun t p => t + p.1.toI * p.2.toI) 0
  (((acc : Int) + if sub then -t else t) % 2 ^ 32).toNat

/-- One element of the accumulator from its old bits. -/
def mmaElem (sub isInt : Bool) (group old : Nat) (xs ys : List EVal) : Nat × Flags :=
  if isInt then (mmaInt sub old xs ys, 0)
  else
    let r := mmaFloat sub group (FFmt.fp32.decode old) xs ys xs.length
    ((FFmt.fp32.deliver .rne false r.1).1, r.2)

/-- R187: the cycles until the accumulator is readable. -/
def mmaLatency (k rate mcap : Nat) : Nat := (64 * k + rate * mcap - 1) / (rate * mcap) + 8

/-- An MMA's outcome written to its core: the accumulator, its tag and its mark. -/
def MmaJob.write (j : MmaJob) (c : Core) : Core := c.setAcc (BitVec.ofNat 2 j.acc) j.bits j.tag j.mark

/-- What an MMA that passed its checks will write. A poisoned operand leaves every element a free value, and rows that
hold poisoned bytes raise no flag (R189). -/
def State.mmaJob (s : State) (x : BitVec 2) (clear sub : Bool) (a b : MatSrc) (ca cb : Nat) (fa fb tag : BitVec 8)
    (group es k rate : Nat) : MmaJob × State :=
  let me := s.me
  let c := s.myCore
  let rows := List.range 64
  let ra := rows.map (fun r => (me.matValues fa es r k (s.matRow a ca fa r), (s.matPoison a ca fa [r]).isNone))
  let rb := rows.map (fun r => (me.matValues fb (es + 1) r k (s.matRow b cb fb r), (s.matPoison b cb fb [r]).isNone))
  let old := if clear then 0 else (c.acc x).toNat
  let pairs := ra.flatMap (fun u => rb.map (fun v => (u, v)))
  let out := (pairs.zip (elemsOf old 32 4096)).map (fun q =>
    let r := mmaElem sub (tag == 0x03) group q.2 q.1.1.1 q.1.2.1
    (r.1, if q.1.1.2 && q.1.2.2 then r.2 else 0))
  let marks := ((s.matPoison a ca fa rows).toList ++ (s.matPoison b cb fb rows).toList).map BitVec.toNat
  let mark := (leastOf marks).map (BitVec.ofNat 64)
  let bits := if mark.isSome then s.freeValue 131072 else BitVec.ofNat 131072 (packElems 32 (out.map Prod.fst))
  (⟨s.cur, x.toNat, bits, tag, orFlags (out.map Prod.snd), mark, s.cycle + mmaLatency k rate c.mcap⟩,
    if mark.isSome then s.drawn else s)

/-- MMA, MMAZ and MMAS (R183 to R189). With an FFLAGS enable set the strand holds until completion, which the model makes
at once; otherwise the unit completes it later (MMA_COMPLETION). (log entry 64, DEDUCED.) Where both descriptors fail one
check of R191, A's failure is reported (log entry 105, DESIGN CHOICE). -/
def mmaOp (fn : BitVec 5) (x : BitVec 2) (y z : BitVec 5) (e : BitVec 4) (sa sb : BitVec 1) (s : State) : Result :=
  let w := encT 0x31 (x.setWidth 5) y z e sa sb fn
  tileOp w [x] (fun s =>
    let c := s.myCore
    let a := s.me.matSrc y sa
    let b := s.me.matSrc z sb
    let (fa, fb) := c.formats x a b
    let ka := a.kOf fa
    let kb := b.kOf fb
    let (tag, rate, group) := (matRate fa fb).getD (0x11, 8, 4)
    let dead := fa == 0 || fb == 0 || (fn != 1 && c.accTag x == 0)
    if a.rsv || b.rsv || mmaIllegal fa fb (c.accTag x) e.toNat ka kb then .next (s.trap (wordTrap causeIllegal w))
    else if dead then .next (s.trap (wordTrap causeVectDead w))
    else if a.badK fa group || b.badK fb group || ka != kb then .next (s.trap (wordTrap causeVlRange w))
    else
      match a.alignTrap, b.alignTrap with
      | some t, _ => .next (s.trap t)
      | none, some t => .next (s.trap t)
      | none, none =>
        match s.matCore a fa, s.matCore b fb with
        | .error t, _ => .next (s.trap t)
        | .ok _, .error t => .next (s.trap t)
        | .ok ca, .ok cb =>
          match (if fn = 1 then none else c.accMark x) with
          | some m => .next (s.trap (addrTrap causeMemPoison m))
          | none =>
            if !s.mayTarget s.cur 0 none then .next (s.waiting .poll)
            else
              let r := s.mmaJob x (fn == 1) (fn == 2) a b ca cb fa fb tag group e.toNat ka rate
              let job := r.1
              let s1 := r.2
              if s.me.frm.extractLsb' 8 5 = 0 then
                .next (s1.setMyCore { s1.myCore with matrix := s1.myCore.matrix ++ [job] }).retire
              else .next ((s1.setMyCore (job.write s1.myCore)).finish job.flags)) s

/-- MMA. -/
def execMma (x : BitVec 2) (y z : BitVec 5) (e : BitVec 4) (a b : BitVec 1) (s : State) : Result := mmaOp 0 x y z e a b s
/-- MMAZ. -/
def execMmaz (x : BitVec 2) (y z : BitVec 5) (e : BitVec 4) (a b : BitVec 1) (s : State) : Result := mmaOp 1 x y z e a b s
/-- MMAS. -/
def execMmas (x : BitVec 2) (y z : BitVec 5) (e : BitVec 4) (a b : BitVec 1) (s : State) : Result := mmaOp 2 x y z e a b s

/-- MMA_COMPLETION (R188): the MMA issued first by a core completes: the accumulator is written and its flags are ORed
into the FFLAGS of its strand. -/
def execMmaCompletion (core : Nat) (s : State) : Result :=
  let c := s.core core
  match c.matrix with
  | [] => .next s
  | j :: rest =>
    let s1 := s.setCore core (j.write { c with matrix := rest })
    let x := s1.strand j.sid
    .next (s1.setStrand j.sid { x with fflags := x.fflags ||| j.flags })

end Sys2Proof.Machine
end

