-- ==== Sys2Proof/Machine/VecCmp.lean ====
section
/-! DEFINITION. Vector comparisons (R156): major 0x26. -/
namespace Sys2Proof.Machine

/-- The active elements as a mask (R34, R125): below VL, from VSTART on, selected by the governing predicate. -/
def Strand.activeMask (x : Strand) (p : BitVec 3) : BitVec 2048 :=
  x.getP p &&& BitVec.ofNat 2048 (2 ^ x.vl - 1) &&& ~~~(BitVec.ofNat 2048 (2 ^ x.vstart - 1))

/-- A predicate written under a mask; the other bits are kept (R34). -/
def Strand.putP (x : Strand) (d : BitVec 3) (mask bits : BitVec 2048) : Strand :=
  x.setP d ((x.getP d &&& ~~~mask) ||| (bits &&& mask))

/-- A set of bit positions as a mask. -/
def maskOf (l : List Nat) : BitVec 2048 := l.foldl (fun m i => m ||| (1#2048 <<< i)) 0

/-- A comparison of integers and of floating values with its flags. -/
structure Comparison where
  onInt : Option (Int → Int → Bool)
  onFp : FVal → FVal → Bool
  /-- NV for any NaN, not only a signalling one. -/
  loud : Bool

/-- One element compared. -/
def Comparison.at_ (c : Comparison) (dom : VDom) (x y : EVal) : Bool × Flags :=
  match dom with
  | .int _ _ => ((c.onInt.map (fun f => f x.toI y.toI)).getD false, 0)
  | .float =>
    let u := x.toF
    let v := y.toF
    (c.onFp u v, flagIf (u.isSignalling || v.isSignalling || (c.loud && (u.isNan || v.isNan))) flagNV)

/-- ILLEGAL_INSTR of a comparison. -/
def Comparison.illegal (c : Comparison) (res : Resolution) : Bool :=
  match res with
  | .none => true
  | .dead => false
  | .ok (.int _ _) _ => c.onInt.isNone
  | .ok .float _ => false

/-- A VCMP instruction (R156). -/
def compareOp (fn : BitVec 6) (c : Comparison) (d : BitVec 3) (a b : BitVec 5) (f : BitVec 2) (p : BitVec 3) (s : State) :
    Result :=
  let x := s.me
  let y := x.second f (x.getV a).elemType b
  let res := x.resolveWith [a] y
  match x.vectorTrap (encV 0x26 (d.setWidth 5) a b f p fn) (c.illegal res) ([a] ++ y.regs)
      (([a] ++ y.regs).map (fun n => ((x.getV n).elemType, x.vl))) with
  | some t => .next (s.trap t)
  | none =>
    match res with
    | .ok dom _ =>
      let out := (x.active p).map (fun i => (i, c.at_ dom (x.value a i) (x.secondAt y i)))
      let bits := maskOf ((out.filter (fun q => q.2.1)).map Prod.fst)
      .next (s.endVector (x.putP d (x.activeMask p) bits) (orFlags (out.map (fun q => q.2.2))))
    | _ => .next (s.trap (wordTrap causeIllegal (encV 0x26 (d.setWidth 5) a b f p fn)))

/-- VCEQ. -/
def execVceq (d : BitVec 3) (a b : BitVec 5) (f : BitVec 2) (p : BitVec 3) (s : State) : Result :=
  compareOp 0 ⟨some (fun x y => x == y), FVal.eq, false⟩ d a b f p s
/-- VCNE: 1 with a NaN. -/
def execVcne (d : BitVec 3) (a b : BitVec 5) (f : BitVec 2) (p : BitVec 3) (s : State) : Result :=
  compareOp 1 ⟨some (fun x y => x != y), fun x y => !x.eq y, false⟩ d a b f p s
/-- VCLT. -/
def execVclt (d : BitVec 3) (a b : BitVec 5) (f : BitVec 2) (p : BitVec 3) (s : State) : Result :=
  compareOp 2 ⟨some (fun x y => decide (x < y)), FVal.lt, true⟩ d a b f p s
/-- VCLE. -/
def execVcle (d : BitVec 3) (a b : BitVec 5) (f : BitVec 2) (p : BitVec 3) (s : State) : Result :=
  compareOp 3 ⟨some (fun x y => decide (x ≤ y)), fun x y => x.lt y || x.eq y, true⟩ d a b f p s
/-- VCGT. -/
def execVcgt (d : BitVec 3) (a b : BitVec 5) (f : BitVec 2) (p : BitVec 3) (s : State) : Result :=
  compareOp 4 ⟨some (fun x y => decide (y < x)), fun x y => y.lt x, true⟩ d a b f p s
/-- VCGE. -/
def execVcge (d : BitVec 3) (a b : BitVec 5) (f : BitVec 2) (p : BitVec 3) (s : State) : Result :=
  compareOp 5 ⟨some (fun x y => decide (y ≤ x)), fun x y => y.lt x || x.eq y, true⟩ d a b f p s
/-- VCUN: the floating domain only. -/
def execVcun (d : BitVec 3) (a b : BitVec 5) (f : BitVec 2) (p : BitVec 3) (s : State) : Result :=
  compareOp 6 ⟨none, fun x y => x.isNan || y.isNan, false⟩ d a b f p s

end Sys2Proof.Machine
end

