-- ==== Sys2Proof/Machine/Pred.lean ====
section
/-! DEFINITION. Predicate instructions (R34, R164): major 0x2A. -/
namespace Sys2Proof.Machine

/-- The word of a VPRED function. -/
def predWord (fn : BitVec 6) (d a b : BitVec 5) (p : BitVec 3) : InstrWord := encV 0x2A d a b 0 p fn

/-- A function that writes a predicate from two others, under the active elements. -/
def predOp (fn : BitVec 6) (op : BitVec 2048 → BitVec 2048 → BitVec 2048) (d a b p : BitVec 3) (s : State) : Result :=
  let x := s.me
  match x.vectorTrap (predWord fn (d.setWidth 5) (a.setWidth 5) (b.setWidth 5) p) false [] [] with
  | some t => .next (s.trap t)
  | none => .next (s.endVector (x.putP d (x.activeMask p) (op (x.getP a) (x.getP b))) 0)

/-- PAND. -/
def execPand (d a b p : BitVec 3) (s : State) : Result := predOp 0 (· &&& ·) d a b p s
/-- POR. -/
def execPor (d a b p : BitVec 3) (s : State) : Result := predOp 1 (· ||| ·) d a b p s
/-- PXOR. -/
def execPxor (d a b p : BitVec 3) (s : State) : Result := predOp 2 (· ^^^ ·) d a b p s
/-- PANDN. -/
def execPandn (d a b p : BitVec 3) (s : State) : Result := predOp 3 (fun x y => x &&& ~~~y) d a b p s
/-- PNOT. -/
def execPnot (d a p : BitVec 3) (s : State) : Result := predOp 4 (fun x _ => ~~~x) d a 0 p s
/-- PSET. -/
def execPset (d p : BitVec 3) (s : State) : Result := predOp 5 (fun _ _ => BitVec.allOnes 2048) d 0 0 p s
/-- PCLR. -/
def execPclr (d p : BitVec 3) (s : State) : Result := predOp 6 (fun _ _ => 0) d 0 0 p s

/-- The active elements whose bit of a predicate is 1. -/
def Strand.activeOnes (x : Strand) (a p : BitVec 3) : List Nat := (x.active p).filter (fun i => (x.getP a).getLsbD i)

/-- A function that writes g(d) from the active ones of a predicate; with VSTART at or beyond VL it writes nothing (R41). -/
def predScalar (fn : BitVec 6) (f : List Nat → Word) (d : BitVec 5) (a p : BitVec 3) (s : State) : Result :=
  let x := s.me
  match x.vectorTrap (predWord fn d (a.setWidth 5) 0 p) false [] [] with
  | some t => .next (s.trap t)
  | none => .next (s.endFrom (x.setG d (f (x.activeOnes a p))) 0)

/-- PCNT. -/
def execPcnt (d : BitVec 5) (a p : BitVec 3) (s : State) : Result :=
  predScalar 7 (fun l => BitVec.ofNat 64 l.length) d a p s
/-- PFIRST. -/
def execPfirst (d : BitVec 5) (a p : BitVec 3) (s : State) : Result :=
  predScalar 8 (fun l => match l with | [] => BitVec.allOnes 64 | i :: _ => BitVec.ofNat 64 i) d a p s

/-- R164: a nonzero element; a NaN counts. -/
def EVal.nonzero : EVal → Bool
  | .int v => v != 0
  | .fl (.fin _ m _) => m != 0
  | .fl _ => true

/-- PFROMV. -/
def execPfromv (d : BitVec 3) (a : BitVec 5) (p : BitVec 3) (s : State) : Result :=
  let x := s.me
  match x.vectorTrap (predWord 9 (d.setWidth 5) a 0 p) false [a] [((x.getV a).elemType, x.vl)] with
  | some t => .next (s.trap t)
  | none =>
    .next (s.endVector (x.putP d (x.activeMask p) (maskOf ((x.active p).filter (fun i => (x.value a i).nonzero)))) 0)

/-- PTOV: 1 or 0 delivered at vd's tag; a DEAD vd takes UINT8. -/
def execPtov (d : BitVec 5) (a p : BitVec 3) (s : State) : Result :=
  let x := s.me
  let vt := x.destVtype d 0x09
  match x.vectorTrap (predWord 10 d (a.setWidth 5) 0 p) (x.badRounding vt false) [] [(elemOf (vtypeTag vt), x.vl)] with
  | some t => .next (s.trap t)
  | none =>
    let r := x.deliver d 0x09 ((x.roundingOf vt).getD .rne)
      ((x.active p).map (fun i => (i, .int (if (x.getP a).getLsbD i then 1 else 0))))
    .next (s.endFrom r.1 r.2)

end Sys2Proof.Machine
end

