-- ==== Sys2Proof/Machine/Sys.lean ====
section
/-! DEFINITION. System instructions of major 0x20 (R142, R143, R283, R290, R296): ECALL, EBREAK, ERET, WFI, YIELD, PAUSE,
STRANDPARK and STRANDWAKE. -/
namespace Sys2Proof.Machine

/-- The word of a SYS instruction. -/
def sysWord (d a : BitVec 5) : InstrWord := encRri 0x20 d a 0

/-- ECALL (R142). -/
def execEcall (s : State) : Result := .next (s.trap (plainTrap causeEcall))

/-- EBREAK (R142, R299): with EBRK set it halts the core in place of trapping. (log entry 48, DEDUCED.) -/
def execEbreak (s : State) : Result :=
  if s.myCore.ebrk then .next (s.haltCore (coreOf s.cur)) else .next (s.trap (plainTrap causeEbreak))

/-- The frame fields of a REPF word (R116): n, replays and the staggers; none for another word. -/
def repfFields (w : InstrWord) : Option (Nat × Nat × Nat × Nat × Nat) :=
  if w.extractLsb' 26 6 = 0x30 ∧ w.extractLsb' 0 7 = 0 then
    some ((w.extractLsb' 22 4).toNat + 1, (w.extractLsb' 16 6).toNat + 1, (w.extractLsb' 13 3).toNat,
      (w.extractLsb' 10 3).toNat, (w.extractLsb' 7 3).toNat)
  else none

/-- The trap of an illegal word (R114). -/
def illegalTrap (w : InstrWord) : Trap := wordTrap causeIllegal w

/-- R290: the frame an ERET resumes: none when TRAP_INFO records none or the word at TRAP_PC is no REPF; an ILLEGAL_INSTR when
the recorded point lies outside the frame. The frame's words are captured before its next execution (R117), with the capture
checks of R118. (log entry 49, DEDUCED.) -/
def State.resumePoint (s : State) : Checked (Option Frame) :=
  let x := s.me
  if !x.trapInfo.getLsbD 63 then .ok (none, s)
  else
    match s.fetchWord s.cur x.trapPc with
    | .error (.trap _, s1) => .ok (none, s1)
    | .error e => .error e
    | .ok (w, s1) =>
      match repfFields w with
      | none => .ok (none, s1)
      | some (n, replays, sd, sa, sb) =>
        let k := (x.trapInfo.extractLsb' 56 6).toNat
        let j := (x.trapInfo.extractLsb' 48 4).toNat
        if replays ≤ k ∨ n ≤ j then .error (.trap (illegalTrap (sysWord 2 0)), s1)
        else .ok (some ⟨List.replicate n 0, replays, sd, sa, sb, k, j, true⟩, s1)

/-- ERET (R290). -/
def execEret (s : State) : Result :=
  let word := sysWord 2 0
  if s.me.mode = .u then .next (s.trap (wordTrap causePrivileged word))
  else if 2 ≤ (s.me.status.extractLsb' 2 2).toNat then .next (s.trap (wordTrap causeIllegal word))
  else
    match s.resumePoint with
    | .error (e, s1) => .next (s1.stopped e)
    | .ok (frame, s1) => .next (s1.setMe (s1.me.leave frame s1.myCore.handlerBudget))

/-- WFI (R142, R143): it completes at once if a wake condition holds. -/
def execWfi (s : State) : Result := if s.wakeHolds s.cur then .next s.retire else .next (s.waiting .wfi)

/-- YIELD (R142): out of both rotations for 8 cycles. -/
def execYield (s : State) : Result := .next (s.waiting (.pause (s.cycle + 8) false))

/-- PAUSE (R142): nothing issues for 64 cycles or until a wake condition. -/
def execPause (s : State) : Result :=
  if s.wakeHolds s.cur then .next s.retire else .next (s.waiting (.pause (s.cycle + 64) true))

/-- R296: the strand an operand names, when it exists and lies in the issuing strand's partition. -/
def State.parkTarget (s : State) (v : Word) : Option Nat :=
  let sid := (v.extractLsb' 0 13).toNat
  if strandExists sid && s.samePartition (clusterOf s.cur) (clusterOf sid) then some sid else none

/-- STRANDPARK (R296): the target is parked at its next boundary; the instruction completes when it has parked. A strand
that parks itself stops after it. -/
def execStrandpark (a : BitVec 5) (s : State) : Result :=
  if s.me.mode = .u then .next (s.trap (wordTrap causePrivileged (sysWord 8 a)))
  else
    match s.parkTarget (s.g a) with
    | none => .next (s.trap (addrTrap causeDomainRights (s.g a)))
    | some sid =>
      if sid = s.cur then .next (s.retire.park sid)
      else
        let s1 := s.park sid
        if s1.atRest sid then .next s1.retire else .next (s1.waiting .poll)

/-- STRANDWAKE (R296). -/
def execStrandwake (a : BitVec 5) (s : State) : Result :=
  if s.me.mode = .u then .next (s.trap (wordTrap causePrivileged (sysWord 9 a)))
  else
    match s.parkTarget (s.g a) with
    | none => .next (s.trap (addrTrap causeDomainRights (s.g a)))
    | some sid =>
      let x := s.strand sid
      if x.parked then .next (s.setStrand sid { x with parked := false }).retire
      else
        let s1 := s.setStrand sid { x with ipend := x.ipend ||| 4, lastWaker := BitVec.ofNat 13 s.cur }
        .next (s1.endSleep sid).retire

end Sys2Proof.Machine
end

