-- ==== Sys2Proof/Machine/Repf.lean ====
section
/-! DEFINITION. Repeat frames (R116 to R118): REPF's capture, the word of each execution, and illegal words (R114). -/
namespace Sys2Proof.Machine

/-- ILLEGAL_INSTR (R114): the running strand has issued a word that is no instruction. -/
def execIllegalInstr (w : InstrWord) (s : State) : Result := .next (s.trap (illegalTrap w))

/-- R116, R118: the first captured word that a frame may not hold. -/
def badCapture (ws : List InstrWord) : Option InstrWord := ws.find? (fun w => !legalCapture w)

/-- REPF (R116, R118): the words are captured and checked; the executions follow at the strand's next turns. The word an
ILLEGAL_INSTR of the capture names in TRAP_INFO is the captured one (log entry 80, DESIGN CHOICE). -/
def execRepf (c : BitVec 4) (r : BitVec 6) (x y z : BitVec 3) (s : State) : Result :=
  match s.fetchWords s.cur (s.me.pc + 4) (c.toNat + 1) with
  | .error (e, s1) => .next (s1.stopped e)
  | .ok (ws, s1) =>
    match badCapture ws with
    | some w => .next (s1.trap (illegalTrap w))
    | none =>
      if s1.me.share = 0 then
        .next (s1.trap (wordTrap causeVectNolanes (encJ 0x30 (c ++ r ++ x ++ y ++ z ++ (0 : BitVec 7)))))
      else
        .next (s1.setMe { s1.me with
          wait := .none, frame := some ⟨ws, r.toNat + 1, x.toNat, y.toNat, z.toNat, 0, 0, false⟩ })

/-- R116: a register field after k replays of a stagger. -/
def stagger (f : BitVec 5) (k s : Nat) : BitVec 5 := f + BitVec.ofNat 5 (k * s)

/-- R116: the word an execution of a frame issues. -/
def Frame.word (f : Frame) : InstrWord :=
  let w := f.words.getD f.j 0
  w.extractLsb' 26 6 ++ (stagger (w.extractLsb' 21 5) f.k f.sd ++ (stagger (w.extractLsb' 16 5) f.k f.sa ++
    (stagger (w.extractLsb' 11 5) f.k f.sb ++ w.extractLsb' 0 11)))

/-- R117, R300, R118: the next execution of a strand's frame, its words captured afresh first when they are stale; with the
capture checks, whose trap is the REPF's own. -/
def State.frameWord (s : State) (sid : Nat) (f : Frame) : Checked InstrWord :=
  if f.stale then
    match s.fetchWords sid ((s.strand sid).pc + 4) f.words.length with
    | .error e => .error e
    | .ok (ws, s1) =>
      match badCapture ws with
      | some w => .error (.trap (illegalTrap w), s1)
      | none =>
        let f' := { f with words := ws, stale := false }
        .ok (f'.word, s1.setStrand sid { s1.strand sid with frame := some f' })
  else .ok (f.word, s)

/-- A frame whose words are stale is no frame for the trap of its capture (R118: FRAME = 0). -/
def Strand.dropStale (x : Strand) : Strand := { x with frame := x.frame.filter (fun f => !f.stale) }

end Sys2Proof.Machine
end

