-- ==== Sys2Proof/Machine/Scale.lean ====
section
/-! DEFINITION. Scale-register instructions (R39, R177, R178): major 0x2F. -/
namespace Sys2Proof.Machine

/-- The word of ELDS (0), ESTS (1) or EZERO (2). -/
def scaleWord (sel : BitVec 2) (e : BitVec 4) (a : BitVec 5) : InstrWord :=
  encRri 0x2F (e.setWidth 5) a (sel ++ (0 : BitVec 14))

/-- A scale register replaced. -/
def Strand.setE (x : Strand) (e : BitVec 4) (v : BitVec 2048) : Strand := { x with e := x.e.set e.toNat v e.isLt }

/-- A scale register. -/
def Strand.getE (x : Strand) (e : BitVec 4) : BitVec 2048 := x.e[e.toNat]'(e.isLt)

/-- The addresses of the 32 accesses of 8 bytes (R177). -/
def scaleAddrs (a : Word) : List Word := (List.range 32).map (fun i => a + BitVec.ofNat 64 (8 * i))

/-- The traps at issue of ELDS and ESTS: lanes, then alignment. -/
def State.scaleTrap (s : State) (w : InstrWord) (a : BitVec 5) : Option Trap :=
  if s.me.share = 0 then some (wordTrap causeVectNolanes w)
  else if !aligned (s.g a) 256 then some (addrTrap causeMisaligned (s.g a))
  else none

/-- ELDS (R177): 32 class-0 loads, those of another device's bytes by READs. (log entry 62, DEDUCED.) -/
def execElds (e : BitVec 4) (a : BitVec 5) (s : State) : Result :=
  match s.scaleTrap (scaleWord 0 e a) a with
  | some t => .next (s.trap t)
  | none =>
    match s.takePieces .load 0 8 (scaleAddrs (s.g a)) with
    | .error s1 => .next s1
    | .ok (l, s1) => .next (s1.setMe (s1.me.setE e (BitVec.ofNat 2048 (joinValues 64 l.values)))).retire

/-- ESTS (R177). -/
def execEsts (e : BitVec 4) (a : BitVec 5) (s : State) : Result :=
  match s.scaleTrap (scaleWord 1 e a) a with
  | some t => .next (s.trap t)
  | none =>
    match s.takePieces .store 0 8 (scaleAddrs (s.g a)) with
    | .error s1 => .next s1
    | .ok (l, s1) =>
      .next (s1.writePieces 8 (s.me.getE e).toNat ((scaleAddrs (s.g a)).zip l.places)).retire

/-- EZERO (R177). -/
def execEzero (e : BitVec 4) (s : State) : Result :=
  if s.me.share = 0 then .next (s.trap (wordTrap causeVectNolanes (scaleWord 2 e 0)))
  else .next (s.setMe (s.me.setE e 0)).retire

end Sys2Proof.Machine
end

