-- ==== Sys2Proof/Machine/VecForm.lean ====
section
/-! DEFINITION. Conversions and special functions (R157 to R159, R55, R59): major 0x27. -/
namespace Sys2Proof.Machine

/-- The word of a unary VXFORM function. -/
def formWord (fn : BitVec 6) (d a : BitVec 5) (p : BitVec 3) : InstrWord := encV 0x27 d a 0 0 p fn

/-- A unary function of major 0x27. -/
def vForm (fn : BitVec 6) (ifn : Option IntOp) (ffn : FVal → VCtx → FVal × Flags) (rtag : Option (BitVec 8))
    (d a : BitVec 5) (p : BitVec 3) (s : State) : Result :=
  vUnary 0x27 fn ifn (some (fun c x _ _ => ffn x c)) true rtag d a p s

/-- The same, ILLEGAL_INSTR first for a live tag the function does not accept. -/
def vFormIf (bad : Bool) (fn : BitVec 6) (ffn : FVal → VCtx → FVal × Flags) (rtag : Option (BitVec 8))
    (d a : BitVec 5) (p : BitVec 3) (s : State) : Result :=
  if bad then .next (s.trap (wordTrap causeIllegal (formWord fn d a p))) else vForm fn none ffn rtag d a p s

/-- R59: an integer converted to a wider or equal integer is extended, whatever SAT holds; a narrower one goes through
SAT on delivery. -/
def VCtx.widen (c : VCtx) (x : Int) : Int := if c.w ≤ c.dest.width then c.wrapped x else x

/-- VCVT (R157, R59): both domains. -/
def execVcvt (d a : BitVec 5) (p : BitVec 3) (s : State) : Result :=
  vForm 0 (some (fun c x _ _ => c.widen x)) (fun x _ => (x, 0)) none d a p s

/-- VFRINT's value (R157): an integer value of the same sign. -/
def roundInt (mode : RMode) (x : FVal) : FVal × Flags :=
  match x with
  | .fin n m e =>
    let r := roundAt mode n m e 0
    (.fin n r.1 0, flagIf r.2 flagNX)
  | x => quieted x

/-- VFRINT (R157): rounded by vd's RND. -/
def execVfrint (d a : BitVec 5) (p : BitVec 3) (s : State) : Result :=
  vForm 1 none (fun x c => roundInt c.mode x) none d a p s

/-! ### VFEXP2F (R158) -/

/-- ln 2 as a multiple of 2^-200, rounded down. -/
def ln2Fixed : Nat := 1113844574712631719546256151097547306333272293549090750737802

/-- The series of e^y from its k-th term on, in multiples of 2^-200, for `n` more terms. -/
def expSeries (y term k : Nat) : Nat → Nat
  | 0 => 0
  | n + 1 => term + expSeries y (term * y / 2 ^ 200 / k) (k + 1) n

/-- 2^t for 0 ≤ t < 1, t in multiples of 2^-200; within 2^-190 below the exact value. -/
def exp2Fixed (t : Nat) : Nat := expSeries (t * ln2Fixed / 2 ^ 200) (2 ^ 200) 1 64

/-- 2^x for a number not integral with |x| < 1, its tail folded into a sticky bit far below any rounding: such a power
is irrational, so it is never exact and never a tie. -/
def exp2Value (neg : Bool) (m : Nat) (e : Int) : FVal :=
  let t := m * 2 ^ (e + 200).toNat
  let x := if neg then 2 ^ 200 - t else t
  .fin false (2 * exp2Fixed x + 1) ((if neg then -1 else 0) - 201)

/-- R158: whether |x| ≤ 1, and whether |x| = 1. -/
def cmpOne (m : Nat) (e : Int) : Ordering :=
  if 0 ≤ e then compare (m * 2 ^ e.toNat) 1 else compare m (2 ^ (-e).toNat)

/-- R158: 2^x rounded to nearest even in a format. -/
def exp2Result (fm : FFmt) (x : FVal) : FVal × Flags :=
  match x with
  | .nan _ => quieted x
  | .inf n => (if n then .fin false 0 0 else .inf false, 0)
  | .fin n m e =>
    if m = 0 then (.fin false 1 0, 0)
    else
      match cmpOne m e with
      | .gt => (.nan false, flagNV)
      | .eq => (.fin false 1 (if n then -1 else 1), 0)
      | .lt =>
        let r := fm.deliver .rne false (exp2Value n m e)
        (fm.decode r.1, r.2)

/-- R158: the format VFEXP2F computes in for a source type. -/
def exp2Format (t : Elem) : FFmt :=
  match t with
  | .fp .fp32 => .fp32
  | .fp .fp16 => .fp16
  | _ => .bf16

/-- R158: the result tag where it is not va's. -/
def exp2Tag (t : Elem) : Option (BitVec 8) :=
  match t with
  | .fp .e4m3 => some 0x13
  | .fp .e5m2 => some 0x13
  | .bx _ => some 0x13
  | _ => none

/-- VFEXP2F (R157, R158). -/
def execVfexp2f (d a : BitVec 5) (p : BitVec 3) (s : State) : Result :=
  let t := (s.me.getV a).elemType
  vFormIf (t == .fp .fp64) 2 (fun x _ => exp2Result (exp2Format t) x) (exp2Tag t) d a p s

/-! ### VFSCALE (R159) -/

/-- x × 2^n for a finite n: beyond ±10,000 every format overflows or vanishes alike. -/
def scaleBy (x : FVal) (n : Int) : FVal :=
  match x with
  | .fin s m e => .fin s m (e + max (-10000) (min 10000 n))
  | x => x

/-- R159. -/
def scaleOp (x n : FVal) : FVal × Flags :=
  let q := quieted x
  match n with
  | .nan _ => (.nan false, flagNV)
  | .inf down =>
    match x with
    | .nan _ => q
    | .inf neg => if down then (.nan false, flagNV) else (.inf neg, 0)
    | .fin neg m _ =>
      if down then (.fin neg 0 0, 0) else if m = 0 then (.nan false, flagNV) else (.inf neg, 0)
  | .fin neg m e =>
    if x.isNan then q else (scaleBy x (roundToInt .rtz neg m e).1, 0)

/-- R159: VFSCALE's second operand: in the VS form the signed 64-bit number of g(b). -/
def Strand.scaleSecond (x : Strand) (f : BitVec 2) (t : Elem) (b : BitVec 5) : Second :=
  if f = 1 then .one (.int (x.getG b).toInt) else x.second f t b

/-- VFSCALE (R157, R159): the domain is va's, which must be floating. -/
def execVfscale (d a b : BitVec 5) (f : BitVec 2) (p : BitVec 3) (s : State) : Result :=
  elementwise (encV 0x27 d a b f p 3) none (some (fun _ x y _ => scaleOp x y)) false true none d a
    (s.me.scaleSecond f (s.me.getV a).elemType b) false p s

/-! ### Exponent and mantissa, estimates (R157) -/

/-- VFREXP's value. -/
def frexpOp (x : FVal) (c : VCtx) : FVal × Flags :=
  match x with
  | .nan _ => (match c.dest with | .int _ _ => .fin false 0 0 | _ => .nan false, flagNV)
  | .inf _ => (match c.dest with | .int w sg => FVal.ofInt (intRange w sg).2 | _ => .inf false, 0)
  | .fin _ m e =>
    if m = 0 then (match c.dest with | .int w sg => FVal.ofInt (intRange w sg).1 | _ => .inf true, flagDZ)
    else (FVal.ofInt (e + Nat.log2 m), 0)

/-- VFREXP. -/
def execVfrexp (d a : BitVec 5) (p : BitVec 3) (s : State) : Result := vForm 4 none frexpOp none d a p s

/-- VFMANT's value. -/
def mantOp (x : FVal) : FVal × Flags :=
  match x with
  | .fin n m _ => (if m = 0 then x else .fin n m (-(Nat.log2 m : Int)), 0)
  | x => quieted x

/-- VFMANT. -/
def execVfmant (d a : BitVec 5) (p : BitVec 3) (s : State) : Result := vForm 5 none (fun x _ => mantOp x) none d a p s

/-- trunc8 of q × 2^e: the 8 most significant bits of q. -/
def trunc8 (neg : Bool) (q : Nat) (e : Int) : FVal :=
  let k := Nat.log2 q - 7
  .fin neg (q / 2 ^ k) (e + k)

/-- VRECIPE's value: at least 8 bits of the quotient are kept, the rest is cut. -/
def recipOp (x : FVal) : FVal × Flags :=
  match x with
  | .nan _ => quieted x
  | .inf n => (.fin n 0 0, 0)
  | .fin n m e =>
    if m = 0 then (.inf n, flagDZ)
    else
      let k := Nat.log2 m + 8
      (trunc8 n (2 ^ k / m) (-e - k), 0)

/-- VRECIPE. -/
def execVrecipe (d a : BitVec 5) (p : BitVec 3) (s : State) : Result := vForm 6 none (fun x _ => recipOp x) none d a p s

/-- VRSQRTE's value. -/
def rsqrtOp (x : FVal) : FVal × Flags :=
  match x with
  | .nan _ => quieted x
  | .inf n => if n then (.nan false, flagNV) else (.fin false 0 0, 0)
  | .fin n m e =>
    if m = 0 then (.inf n, flagDZ)
    else if n then (.nan false, flagNV)
    else
      let odd := e % 2 != 0
      let m1 := if odd then 2 * m else m
      let e1 := if odd then e - 1 else e
      let k := Nat.log2 m1 / 2 + 10
      (trunc8 false (isqrt (2 ^ (2 * k) / m1)) (-(e1 / 2) - k), 0)

/-- VRSQRTE. -/
def execVrsqrte (d a : BitVec 5) (p : BitVec 3) (s : State) : Result := vForm 7 none (fun x _ => rsqrtOp x) none d a p s

/-! ### VCLASS (R157, R129) -/

/-- The bit of the class mask for an element of a type. -/
def classOfVal (t : Elem) (x : FVal) : Nat :=
  match x with
  | .nan sig => if sig then 8 else 9
  | .inf neg => if neg then 0 else 7
  | .fin neg m _ =>
    let sub := match t with | .fp f => decide (m < 2 ^ f.fbits) | _ => false
    if m = 0 then (if neg then 3 else 4) else if sub then (if neg then 2 else 5) else (if neg then 1 else 6)

/-- R157: the destination types VCLASS accepts. -/
def classDest (t : Elem) : Bool :=
  match t with
  | .dead => true
  | .int w _ => decide (16 ≤ w)
  | _ => false

/-- VCLASS. -/
def execVclass (d a : BitVec 5) (p : BitVec 3) (s : State) : Result :=
  let t := (s.me.getV a).elemType
  vFormIf (!classDest (s.me.getV d).elemType) 8 (fun x _ => (.fin false (2 ^ classOfVal t x) 0, 0)) (some 0x0A) d a p s

/-! ### VBXPACK (R157, R55) -/

/-- R157: the vtype VBXPACK gives its destination. -/
def packVtype (v : BitVec 16) : BitVec 16 :=
  match elemOf (vtypeTag v) with
  | .bx _ => v
  | .dead => vtypeOf 5 0 false 0x18
  | _ => vtypeOf 5 (v.extractLsb' 9 2) (v.getLsbD 8) 0x18

/-- VBXPACK (R157): a source of either domain. -/
def execVbxpack (d a : BitVec 5) (p : BitVec 3) (s : State) : Result :=
  let x := s.me
  let vt := packVtype (x.getV d).vtype
  match x.vectorTrap (formWord 9 d a p) (x.badRounding vt true) [a]
      [(elemOf (vtypeTag vt), x.vl), ((x.getV a).elemType, x.vl)] with
  | some t => .next (s.trap t)
  | none =>
    let out := (x.active p).map (fun i => (i, x.value a i))
    let r := (x.setV d { x.getV d with vtype := vt }).deliver d (vtypeTag vt) ((x.roundingOf vt).getD .rne) out
    .next (s.endFrom r.1 r.2)

end Sys2Proof.Machine
end

