-- ==== Sys2Proof/Machine/VecPerm.lean ====
section
/-! DEFINITION. Permutes (R160 to R162): major 0x28. They begin at element 0 (R161). -/
namespace Sys2Proof.Machine

/-- The word of a VPERM function. -/
def permWord (fn : BitVec 6) (d a b : BitVec 5) (f : BitVec 2) (p : BitVec 3) : InstrWord := encV 0x28 d a b f p fn

/-- R162: the signed 64-bit operand of the VS and VI forms. -/
def Strand.slideBy (x : Strand) (f : BitVec 2) (b : BitVec 5) : Int := if f = 1 then (x.getG b).toInt else viImm b

/-- R162: the sources and vd, as far as they are live (R115), do not share one tag. -/
def Strand.tagsDiffer (x : Strand) (srcs : List (BitVec 5)) (d : BitVec 5) : Bool :=
  let live := (srcs ++ [d]).filter (fun n => (x.getV n).elemType != .dead)
  live.any (fun n => live.any (fun m => x.tag n != x.tag m))

/-- A permute that copies bits (R162): `same` are the sources that share va's tag, `other` a source that need not,
`bad` its own reason to be illegal, and `out` what it writes. -/
def permuteOp (word : InstrWord) (bad : Bool) (same other : List (BitVec 5)) (d a : BitVec 5)
    (out : Strand → List (Nat × Nat)) (s : State) : Result :=
  let x := s.me
  let td := if (x.getV d).elemType = .dead then (x.getV a).elemType else (x.getV d).elemType
  match x.vectorTrap word (bad || x.tagsDiffer same d) (same ++ other)
      ((td, x.vl) :: (same ++ other).map (fun n => ((x.getV n).elemType, x.vl))) with
  | some t => .next (s.trap t)
  | none => .next (s.endVector (x.deliverRaw d (x.getV a).vtype (out x)) 0)

/-- Each active element i takes an element of va that i names. -/
def Strand.gatherFrom (x : Strand) (a : BitVec 5) (p : BitVec 3) (index : Nat → Int) : List (Nat × Nat) :=
  (x.activeFrom 0 p).map (fun i => (i, x.readElem (x.getV a) p (index i)))

/-- VSLIDEUP. -/
def execVslideup (d a b : BitVec 5) (f : BitVec 2) (p : BitVec 3) (s : State) : Result :=
  permuteOp (permWord 0 d a b f p) false [a] [] d a (fun x => x.gatherFrom a p (fun i => i - x.slideBy f b)) s

/-- VSLIDEDN. -/
def execVslidedn (d a b : BitVec 5) (f : BitVec 2) (p : BitVec 3) (s : State) : Result :=
  permuteOp (permWord 1 d a b f p) false [a] [] d a (fun x => x.gatherFrom a p (fun i => i + x.slideBy f b)) s

/-- The register vb of the VV and VX forms (R149). -/
def Strand.vb (x : Strand) (f : BitVec 2) (b : BitVec 5) : BitVec 5 := (x.formRegs f b).headD b

/-- An element of an integer register as an index. -/
def Strand.indexAt (x : Strand) (n : BitVec 5) (i : Nat) : Int := (x.value n i).toI

/-- VPERMUTE: vb needs an integer tag. -/
def execVpermute (d a b : BitVec 5) (f : BitVec 2) (p : BitVec 3) (s : State) : Result :=
  let vb := s.me.vb f b
  let tb := (s.me.getV vb).elemType
  permuteOp (permWord 2 d a b f p) (tb != .dead && !tb.isInt) [a] [vb] d a
    (fun x => x.gatherFrom a p (fun i => x.indexAt vb i)) s

/-- A list numbered from 0. -/
def numbered {α : Type} (l : List α) : List (Nat × α) := (List.range l.length).zip l

/-- VCOMPRESS: the predicate selects. -/
def execVcompress (d a : BitVec 5) (p : BitVec 3) (s : State) : Result :=
  permuteOp (permWord 3 d a 0 0 p) false [a] [] d a
    (fun x => (numbered (x.activeFrom 0 p)).map (fun q => (q.1, (x.getV a).raw q.2))) s

/-- VEXPAND: element c is read as it stands (R160). -/
def execVexpand (d a : BitVec 5) (p : BitVec 3) (s : State) : Result :=
  permuteOp (permWord 4 d a 0 0 p) false [a] [] d a
    (fun x => (numbered (x.activeFrom 0 p)).map (fun q => (q.2, (x.getV a).raw q.1))) s

/-- R59: a signed integer extended into a type that is at least as wide: an integer type takes its low bits. -/
def Elem.extended (t : Elem) (v : Int) : Int :=
  match t with
  | .int w sg => intOfBits w sg (v % 2 ^ w).toNat
  | _ => v

/-- VBCAST: raw bits of g(b), or the immediate, a signed number of five bits that R59 extends into every integer type,
whatever SAT holds; a DEAD vd takes INT64. (log entry 92, DEDUCED.) -/
def execVbcast (d b : BitVec 5) (f : BitVec 2) (p : BitVec 3) (s : State) : Result :=
  let x := s.me
  let vt := x.destVtype d 0x04
  let t := elemOf (vtypeTag vt)
  match x.vectorTrap (permWord 5 d 0 b f p) (f == 2 && x.badRounding vt false) [] [(t, x.vl)] with
  | some t => .next (s.trap t)
  | none =>
    let act := x.activeFrom 0 p
    if f = 2 then
      let r := x.deliver d 0x04 ((x.roundingOf vt).getD .rne) (act.map (fun i => (i, .int (t.extended (viImm b)))))
      .next (s.endVector r.1 r.2)
    else .next (s.endVector (x.deliverRaw d vt (act.map (fun i => (i, (x.getG b).toNat % 2 ^ t.width)))) 0)

/-- VEXTR: one read, sign-extended for signed integer tags. -/
def execVextr (d a b : BitVec 5) (f : BitVec 2) (p : BitVec 3) (s : State) : Result :=
  let x := s.me
  let t := (x.getV a).elemType
  match x.vectorTrap (permWord 6 d a b f p) false [a] [(t, x.vl)] with
  | some t => .next (s.trap t)
  | none =>
    let e := x.readElem (x.getV a) p (x.slideBy f b)
    let v : Int := match t with | .int w sg => intOfBits w sg e | _ => e
    .next (s.endVector (x.setG d (BitVec.ofInt 64 v)) 0)

/-- VINS: one element, when its index is below VL and its predicate bit is 1; a DEAD vd takes INT64. -/
def execVins (d a b : BitVec 5) (f : BitVec 2) (p : BitVec 3) (s : State) : Result :=
  let x := s.me
  let vt := x.destVtype d 0x04
  let t := elemOf (vtypeTag vt)
  match x.vectorTrap (permWord 7 d a b f p) false [] [(t, x.vl)] with
  | some t => .next (s.trap t)
  | none =>
    let k := x.slideBy f b
    let here := decide (0 ≤ k) && decide (k < x.vl) && (x.getP p).getLsbD k.toNat
    .next (s.endVector (x.deliverRaw d vt (if here then [(k.toNat, (x.getG a).toNat % 2 ^ t.width)] else [])) 0)

/-- VREV. -/
def execVrev (d a : BitVec 5) (p : BitVec 3) (s : State) : Result :=
  permuteOp (permWord 8 d a 0 0 p) false [a] [] d a (fun x => x.gatherFrom a p (fun i => (x.vl : Int) - 1 - i)) s

/-- VZIP. -/
def execVzip (d a b : BitVec 5) (f : BitVec 2) (p : BitVec 3) (s : State) : Result :=
  let vb := s.me.vb f b
  permuteOp (permWord 9 d a b f p) false [a, vb] [] d a (fun x =>
    (x.activeFrom 0 p).map (fun i => (i, x.readElem (x.getV (if i % 2 = 0 then a else vb)) p (i / 2 : Nat)))) s

/-- VUNZIP: the even elements of both sources, one behind the other. -/
def execVunzip (d a b : BitVec 5) (f : BitVec 2) (p : BitVec 3) (s : State) : Result :=
  let vb := s.me.vb f b
  permuteOp (permWord 10 d a b f p) false [a, vb] [] d a (fun x =>
    (x.activeFrom 0 p).map (fun i =>
      (i, if 2 * i < x.vl then x.readElem (x.getV a) p (2 * i : Nat)
        else x.readElem (x.getV vb) p (2 * i - x.vl : Nat)))) s

/-- VID: i delivered by R146; a DEAD vd takes UINT16. -/
def execVid (d : BitVec 5) (p : BitVec 3) (s : State) : Result :=
  let x := s.me
  let vt := x.destVtype d 0x0A
  match x.vectorTrap (permWord 11 d 0 0 0 p) (x.badRounding vt false) [] [(elemOf (vtypeTag vt), x.vl)] with
  | some t => .next (s.trap t)
  | none =>
    let r := x.deliver d 0x0A ((x.roundingOf vt).getD .rne) ((x.activeFrom 0 p).map (fun i => (i, .int i)))
    .next (s.endVector r.1 r.2)

/-- VMVIX (R149, R162): va copied into v(g(d)[4:0]) as VMOV does: one element width, raw bits. -/
def execVmvix (d a : BitVec 5) (p : BitVec 3) (s : State) : Result :=
  let x := s.me
  let vd := (x.getG d).extractLsb' 0 5
  let ta := (x.getV a).elemType
  let td := if (x.getV vd).elemType = .dead then ta else (x.getV vd).elemType
  match x.vectorTrap (permWord 12 d a 0 0 p) (x.widthsDiffer [a] vd) [a] [(td, x.vl), (ta, x.vl)] with
  | some t => .next (s.trap t)
  | none =>
    .next (s.endVector (x.deliverRaw vd (x.getV a).vtype
      ((x.activeFrom 0 p).map (fun i => (i, (x.getV a).raw i)))) 0)

end Sys2Proof.Machine
end

