-- ==== Sys2Proof/Machine/VecRed.lean ====
section
/-! DEFINITION. Reductions, scans and recurrences (R63, R161, R163): major 0x29. -/
namespace Sys2Proof.Machine

/-- How an instruction of the major combines values. -/
structure Combine where
  /-- Integers: the running value and the element. -/
  onInt : Option (Int → Int → Int)
  /-- Floating: the rounding mode, the running value and the element; not yet rounded to vd's format. -/
  onFp : Option (RMode → FVal → FVal → FVal × Flags)
  /-- Whether floating results are rounded to vd's format at each node and carry; minimum and maximum need no rounding. -/
  rounds : Bool

/-- A floating value rounded to a format and read back. -/
def roundTo (f : FFmt) (mode : RMode) (sat : Bool) (v : FVal × Flags) : FVal × Flags :=
  let r := f.deliver mode sat v.1
  (f.decode r.1, v.2 ||| r.2)

/-- One floating node or carry. -/
def Combine.node (c : Combine) (f : FFmt) (mode : RMode) (sat : Bool) (x y : FVal) : FVal × Flags :=
  match c.onFp with
  | none => (x, 0)
  | some op => if c.rounds then roundTo f mode sat (op mode x y) else op mode x y

/-- R63: one level of the fixed tree. -/
def treeLevel (node : FVal → FVal → FVal × Flags) : List (Option FVal) → List (Option FVal) × Flags
  | some x :: some y :: t =>
    let r := node x y
    let rest := treeLevel node t
    (some r.1 :: rest.1, r.2 ||| rest.2)
  | none :: y :: t => let rest := treeLevel node t; (y :: rest.1, rest.2)
  | x :: none :: t => let rest := treeLevel node t; (x :: rest.1, rest.2)
  | l => (l, 0)

/-- R63: the tree over element positions, level by level; 2,048 positions need 11. -/
def treeSum (node : FVal → FVal → FVal × Flags) (l : List (Option FVal)) : Nat → Option FVal × Flags
  | 0 => (l.headD none, 0)
  | n + 1 =>
    let r := treeLevel node l
    let t := treeSum node r.1 n
    (t.1, r.2 ||| t.2)

/-- The running value over a list, every value it passes through, and the flags. (log entry 61, DEDUCED.) -/
def runCarry (step : EVal → Nat → EVal × Flags) (c : EVal) : List Nat → EVal × List (Nat × EVal) × Flags
  | [] => (c, [], 0)
  | i :: t =>
    let r := step c i
    let rest := runCarry step r.1 t
    (rest.1, (i, r.1) :: rest.2.1, r.2 ||| rest.2.2)

/-- R163: the result tag of a floating destination: FP32 in place of an 8-bit or BX tag. -/
def redTag (tag : BitVec 8) : BitVec 8 :=
  if tag = 0x10 ∨ tag = 0x11 ∨ tag = 0x12 ∨ tag = 0x13 then tag else 0x11

/-- R163: the format of a floating reduction's destination. -/
def redFormat (t : Elem) : Option FFmt :=
  match t with
  | .fp .fp64 => some .fp64
  | .fp .fp32 => some .fp32
  | .fp .fp16 => some .fp16
  | .fp .bf16 => some .bf16
  | _ => none

/-- The kinds of function of the major. -/
inductive RedKind where
  | reduce
  | scan
deriving DecidableEq, Repr

/-- The result tag for a DEAD destination. -/
def redResult (dom : VDom) (tag : BitVec 8) : BitVec 8 :=
  match dom with
  | .int _ _ => tag
  | .float => redTag tag

/-- ILLEGAL_INSTR of the major from live tags and FRM (R45, R147, R163). A DEAD source leaves the domain unresolved; a
floating-only function still asks the format of a live vd (R115). -/
def Strand.redIllegal (x : Strand) (c : Combine) (res : Resolution) (d : BitVec 5) : Bool :=
  match res with
  | .none => true
  | .dead =>
    let t := (x.getV d).elemType
    t != .dead && ((c.onInt.isNone && (redFormat t).isNone) || x.badRounding (x.getV d).vtype false)
  | .ok (.int _ _) tag => c.onInt.isNone || x.badRounding (x.destVtype d tag) false
  | .ok .float tag =>
    let vt := x.destVtype d (redTag tag)
    c.onFp.isNone || (redFormat (elemOf (vtypeTag vt))).isNone || x.badRounding vt true

/-- R163: the initial value: element 0 of vb as it stands, the scalar or the immediate. -/
def Strand.seed (x : Strand) (y : Second) : EVal := x.secondAt y 0

/-- What a reduction or scan writes, before delivery, with its flags. `tree` is VREDSUM's order in floating point. -/
def Strand.redValues (x : Strand) (c : Combine) (kind : RedKind) (tree : Bool) (dom : VDom) (vt : BitVec 16)
    (a : BitVec 5) (y : Second) (p : BitVec 3) : List (Nat × EVal) × Flags :=
  let part := x.activeFrom 0 p
  let s0 := x.seed y
  let mode := (x.roundingOf vt).getD .rne
  let f := (redFormat (elemOf (vtypeTag vt))).getD .fp32
  let node := c.node f mode (vt.getLsbD 8)
  match dom, tree with
  | .float, true =>
    let leaves := (List.range x.vl).map (fun i => if part.contains i then some (x.value a i).toF else none)
    let t := treeSum node leaves 11
    let r := match t.1 with | some v => node s0.toF v | none => (s0.toF, 0)
    (if x.vl = 0 then [] else [(0, .fl r.1)], t.2 ||| r.2)
  | dom, _ =>
    let step : EVal → Nat → EVal × Flags := fun acc i =>
      match dom with
      | .int _ _ => (.int ((c.onInt.getD (fun u _ => u)) acc.toI (x.value a i).toI), 0)
      | .float => let r := node acc.toF (x.value a i).toF; (.fl r.1, r.2)
    let r := runCarry step s0 part
    match kind with
    | .reduce => (if x.vl = 0 then [] else [(0, r.1)], r.2.2)
    | .scan => (r.2.1, r.2.2)

/-- A reduction or scan (R163). -/
def reduceOp (fn : BitVec 6) (c : Combine) (kind : RedKind) (tree : Bool) (d a b : BitVec 5) (f : BitVec 2) (p : BitVec 3)
    (s : State) : Result :=
  let x := s.me
  let word := encV 0x29 d a b f p fn
  let y := x.second f (x.getV a).elemType b
  let res := x.resolveWith [a] y
  let td := match res with
    | .ok dom tag => elemOf (vtypeTag (x.destVtype d (redResult dom tag)))
    | _ => (x.getV d).elemType
  match x.vectorTrap word (x.redIllegal c res d) ([a] ++ y.regs)
      ((td, x.vl) :: ([a] ++ y.regs).map (fun n => ((x.getV n).elemType, x.vl))) with
  | some t => .next (s.trap t)
  | none =>
    match res with
    | .ok dom tag =>
      let vt := x.destVtype d (redResult dom tag)
      let out := x.redValues c kind tree dom vt a y p
      let r := x.deliver d (vtypeTag vt) ((x.roundingOf vt).getD .rne) out.1
      .next (s.endVector r.1 (out.2 ||| r.2))
    | _ => .next (s.trap (wordTrap causeIllegal word))

/-- Addition. -/
def combineAdd (int_ : Bool) : Combine :=
  ⟨if int_ then some (fun c x => c + x) else none, some (fun m c x => sumExact m [c, x]), true⟩

/-- Minimum or maximum (R52). -/
def combineMinMax (wantMax : Bool) : Combine :=
  ⟨some (fun c x => if wantMax then max c x else min c x), some (fun _ c x => minMaxVal wantMax c x), false⟩

/-- A bitwise combination on two's complement forms: the integer itself, read at 128 bits, so that no sign is lost. -/
def bitsCombine (op : BitVec 128 → BitVec 128 → BitVec 128) : Combine :=
  ⟨some (fun c x => (op (BitVec.ofInt 128 c) (BitVec.ofInt 128 x)).toInt), none, false⟩

/-- VREDSUM. -/
def execVredsum (d a b : BitVec 5) (f : BitVec 2) (p : BitVec 3) (s : State) : Result :=
  reduceOp 0 (combineAdd true) .reduce true d a b f p s
/-- VREDMIN. -/
def execVredmin (d a b : BitVec 5) (f : BitVec 2) (p : BitVec 3) (s : State) : Result :=
  reduceOp 1 (combineMinMax false) .reduce false d a b f p s
/-- VREDMAX. -/
def execVredmax (d a b : BitVec 5) (f : BitVec 2) (p : BitVec 3) (s : State) : Result :=
  reduceOp 2 (combineMinMax true) .reduce false d a b f p s
/-- VREDAND. -/
def execVredand (d a b : BitVec 5) (f : BitVec 2) (p : BitVec 3) (s : State) : Result :=
  reduceOp 3 (bitsCombine (· &&& ·)) .reduce false d a b f p s
/-- VREDOR. -/
def execVredor (d a b : BitVec 5) (f : BitVec 2) (p : BitVec 3) (s : State) : Result :=
  reduceOp 4 (bitsCombine (· ||| ·)) .reduce false d a b f p s
/-- VREDXOR. -/
def execVredxor (d a b : BitVec 5) (f : BitVec 2) (p : BitVec 3) (s : State) : Result :=
  reduceOp 5 (bitsCombine (· ^^^ ·)) .reduce false d a b f p s
/-- VFREDOSUM: in ascending order. -/
def execVfredosum (d a b : BitVec 5) (f : BitVec 2) (p : BitVec 3) (s : State) : Result :=
  reduceOp 6 (combineAdd false) .reduce false d a b f p s
/-- VSCANADD. -/
def execVscanadd (d a b : BitVec 5) (f : BitVec 2) (p : BitVec 3) (s : State) : Result :=
  reduceOp 7 (combineAdd true) .scan false d a b f p s
/-- VSCANMAX. -/
def execVscanmax (d a b : BitVec 5) (f : BitVec 2) (p : BitVec 3) (s : State) : Result :=
  reduceOp 8 (combineMinMax true) .scan false d a b f p s
/-- VSCANMIN. -/
def execVscanmin (d a b : BitVec 5) (f : BitVec 2) (p : BitVec 3) (s : State) : Result :=
  reduceOp 9 (combineMinMax false) .scan false d a b f p s

/-- VRECUR (R63, R163): vd is read; c := round(va_i × c + old vd_i), fused. -/
def execVrecur (d a b : BitVec 5) (f : BitVec 2) (p : BitVec 3) (s : State) : Result :=
  let x := s.me
  let word := encV 0x29 d a b f p 10
  let y := x.second f (x.getV a).elemType b
  let regs := [a] ++ y.regs ++ [d]
  let vt := (x.getV d).vtype
  let fmt := redFormat (elemOf (vtypeTag vt))
  let bad := match x.resolveWith [a, d] y with
    | .none => true
    | .dead => (x.getV d).elemType != .dead && (fmt.isNone || x.badRounding vt false)
    | .ok (.int _ _) _ => true
    | .ok .float _ => fmt.isNone || x.badRounding vt true
  match x.vectorTrap word bad regs (regs.map (fun n => ((x.getV n).elemType, x.vl))) with
  | some t => .next (s.trap t)
  | none =>
    let mode := (x.roundingOf vt).getD .rne
    let step : EVal → Nat → EVal × Flags := fun c i =>
      let r := roundTo (fmt.getD .fp32) mode (vt.getLsbD 8) (FVal.fma mode (x.value a i).toF c.toF (x.value d i).toF)
      (.fl r.1, r.2)
    let out := runCarry step (x.seed y) (x.activeFrom 0 p)
    let r := x.deliver d (vtypeTag vt) mode out.2.1
    .next (s.endVector r.1 (out.2.2 ||| r.2))

end Sys2Proof.Machine
end

