-- ==== Sys2Proof/Machine/Dispatch.lean ====
section
/-! DEFINITION. One arm per constructor of Instr: the meaning of each instruction and step. -/
namespace Sys2Proof.Machine

def exec (i : Instr) (s : State) : Host.Outcome State Fault Refusal :=
  match i with
  | .add d a b => Sys2Proof.Machine.execAdd d a b s
  | .sub d a b => Sys2Proof.Machine.execSub d a b s
  | .and d a b => Sys2Proof.Machine.execAnd d a b s
  | .or d a b => Sys2Proof.Machine.execOr d a b s
  | .xor d a b => Sys2Proof.Machine.execXor d a b s
  | .andn d a b => Sys2Proof.Machine.execAndn d a b s
  | .orn d a b => Sys2Proof.Machine.execOrn d a b s
  | .sll d a b => Sys2Proof.Machine.execSll d a b s
  | .srl d a b => Sys2Proof.Machine.execSrl d a b s
  | .sra d a b => Sys2Proof.Machine.execSra d a b s
  | .rol d a b => Sys2Proof.Machine.execRol d a b s
  | .ror d a b => Sys2Proof.Machine.execRor d a b s
  | .slt d a b => Sys2Proof.Machine.execSlt d a b s
  | .sltu d a b => Sys2Proof.Machine.execSltu d a b s
  | .min d a b => Sys2Proof.Machine.execMin d a b s
  | .max d a b => Sys2Proof.Machine.execMax d a b s
  | .minu d a b => Sys2Proof.Machine.execMinu d a b s
  | .maxu d a b => Sys2Proof.Machine.execMaxu d a b s
  | .sel d a b => Sys2Proof.Machine.execSel d a b s
  | .mul d a b => Sys2Proof.Machine.execMul d a b s
  | .mulh d a b => Sys2Proof.Machine.execMulh d a b s
  | .mulhu d a b => Sys2Proof.Machine.execMulhu d a b s
  | .mulhsu d a b => Sys2Proof.Machine.execMulhsu d a b s
  | .div d a b => Sys2Proof.Machine.execDiv d a b s
  | .divu d a b => Sys2Proof.Machine.execDivu d a b s
  | .rem d a b => Sys2Proof.Machine.execRem d a b s
  | .remu d a b => Sys2Proof.Machine.execRemu d a b s
  | .clz d a => Sys2Proof.Machine.execClz d a s
  | .ctz d a => Sys2Proof.Machine.execCtz d a s
  | .popc d a => Sys2Proof.Machine.execPopc d a s
  | .bswap d a => Sys2Proof.Machine.execBswap d a s
  | .sextb d a => Sys2Proof.Machine.execSextb d a s
  | .sexth d a => Sys2Proof.Machine.execSexth d a s
  | .sextw d a => Sys2Proof.Machine.execSextw d a s
  | .zextw d a => Sys2Proof.Machine.execZextw d a s
  | .addi d a i_ => Sys2Proof.Machine.execAddi d a i_ s
  | .andi d a i_ => Sys2Proof.Machine.execAndi d a i_ s
  | .ori d a i_ => Sys2Proof.Machine.execOri d a i_ s
  | .xori d a i_ => Sys2Proof.Machine.execXori d a i_ s
  | .slli d a s_ => Sys2Proof.Machine.execSlli d a s_ s
  | .srli d a s_ => Sys2Proof.Machine.execSrli d a s_ s
  | .srai d a s_ => Sys2Proof.Machine.execSrai d a s_ s
  | .rori d a s_ => Sys2Proof.Machine.execRori d a s_ s
  | .ldi d i_ => Sys2Proof.Machine.execLdi d i_ s
  | .ldis d i_ => Sys2Proof.Machine.execLdis d i_ s
  | .slti d a i_ => Sys2Proof.Machine.execSlti d a i_ s
  | .sltiu d a i_ => Sys2Proof.Machine.execSltiu d a i_ s
  | .fadd d a b f => Sys2Proof.Machine.execFadd d a b f s
  | .fsub d a b f => Sys2Proof.Machine.execFsub d a b f s
  | .fmul d a b f => Sys2Proof.Machine.execFmul d a b f s
  | .fdiv d a b f => Sys2Proof.Machine.execFdiv d a b f s
  | .fsqrt d a f => Sys2Proof.Machine.execFsqrt d a f s
  | .fmin d a b f => Sys2Proof.Machine.execFmin d a b f s
  | .fmax d a b f => Sys2Proof.Machine.execFmax d a b f s
  | .fsgnj d a b f => Sys2Proof.Machine.execFsgnj d a b f s
  | .fsgnjn d a b f => Sys2Proof.Machine.execFsgnjn d a b f s
  | .fsgnjx d a b f => Sys2Proof.Machine.execFsgnjx d a b f s
  | .feq d a b f => Sys2Proof.Machine.execFeq d a b f s
  | .flt d a b f => Sys2Proof.Machine.execFlt d a b f s
  | .fle d a b f => Sys2Proof.Machine.execFle d a b f s
  | .fclass d a f => Sys2Proof.Machine.execFclass d a f s
  | .fcvti d a f => Sys2Proof.Machine.execFcvti d a f s
  | .fcvtu d a f => Sys2Proof.Machine.execFcvtu d a f s
  | .fcvtf d a f => Sys2Proof.Machine.execFcvtf d a f s
  | .fcvtfu d a f => Sys2Proof.Machine.execFcvtfu d a f s
  | .fcvtff d a s_ f => Sys2Proof.Machine.execFcvtff d a s_ f s
  | .fmadd d a b c f => Sys2Proof.Machine.execFmadd d a b c f s
  | .fmsub d a b c f => Sys2Proof.Machine.execFmsub d a b c f s
  | .fnmadd d a b c f => Sys2Proof.Machine.execFnmadd d a b c f s
  | .fnmsub d a b c f => Sys2Proof.Machine.execFnmsub d a b c f s
  | .lb d s_ c h o => Sys2Proof.Machine.execLb d s_ c h o s
  | .lbu d s_ c h o => Sys2Proof.Machine.execLbu d s_ c h o s
  | .lh d s_ c h o => Sys2Proof.Machine.execLh d s_ c h o s
  | .lhu d s_ c h o => Sys2Proof.Machine.execLhu d s_ c h o s
  | .lw d s_ c h o => Sys2Proof.Machine.execLw d s_ c h o s
  | .lwu d s_ c h o => Sys2Proof.Machine.execLwu d s_ c h o s
  | .ld d s_ c h o => Sys2Proof.Machine.execLd d s_ c h o s
  | .sb d s_ c h o => Sys2Proof.Machine.execSb d s_ c h o s
  | .sh d s_ c h o => Sys2Proof.Machine.execSh d s_ c h o s
  | .sw d s_ c h o => Sys2Proof.Machine.execSw d s_ c h o s
  | .sd d s_ c h o => Sys2Proof.Machine.execSd d s_ c h o s
  | .loadDataReturn sid => Sys2Proof.Machine.execLoadDataReturn sid s
  | .amoSwap d a b c q r w => Sys2Proof.Machine.execAmoSwap d a b c q r w s
  | .amoAdd d a b c q r w => Sys2Proof.Machine.execAmoAdd d a b c q r w s
  | .amoAnd d a b c q r w => Sys2Proof.Machine.execAmoAnd d a b c q r w s
  | .amoOr d a b c q r w => Sys2Proof.Machine.execAmoOr d a b c q r w s
  | .amoXor d a b c q r w => Sys2Proof.Machine.execAmoXor d a b c q r w s
  | .amoMin d a b c q r w => Sys2Proof.Machine.execAmoMin d a b c q r w s
  | .amoMax d a b c q r w => Sys2Proof.Machine.execAmoMax d a b c q r w s
  | .amoMinu d a b c q r w => Sys2Proof.Machine.execAmoMinu d a b c q r w s
  | .amoMaxu d a b c q r w => Sys2Proof.Machine.execAmoMaxu d a b c q r w s
  | .amoFadd d a b c q r w => Sys2Proof.Machine.execAmoFadd d a b c q r w s
  | .cas d a b c q r w => Sys2Proof.Machine.execCas d a b c q r w s
  | .amoResponse sid => Sys2Proof.Machine.execAmoResponse sid s
  | .fence k s_ m => Sys2Proof.Machine.execFence k s_ m s
  | .fenceCompletion sid => Sys2Proof.Machine.execFenceCompletion sid s
  | .vdrain m => Sys2Proof.Machine.execVdrain m s
  | .ifence => Sys2Proof.Machine.execIfence s
  | .beq a b o => Sys2Proof.Machine.execBeq a b o s
  | .bne a b o => Sys2Proof.Machine.execBne a b o s
  | .blt a b o => Sys2Proof.Machine.execBlt a b o s
  | .bge a b o => Sys2Proof.Machine.execBge a b o s
  | .bltu a b o => Sys2Proof.Machine.execBltu a b o s
  | .bgeu a b o => Sys2Proof.Machine.execBgeu a b o s
  | .j o => Sys2Proof.Machine.execJ o s
  | .jal o => Sys2Proof.Machine.execJal o s
  | .jalr d a i_ => Sys2Proof.Machine.execJalr d a i_ s
  | .csrrw d a n => Sys2Proof.Machine.execCsrrw d a n s
  | .csrrs d a n => Sys2Proof.Machine.execCsrrs d a n s
  | .csrrc d a n => Sys2Proof.Machine.execCsrrc d a n s
  | .csrrd d n => Sys2Proof.Machine.execCsrrd d n s
  | .ecall => Sys2Proof.Machine.execEcall s
  | .ebreak => Sys2Proof.Machine.execEbreak s
  | .eret => Sys2Proof.Machine.execEret s
  | .wfi => Sys2Proof.Machine.execWfi s
  | .wakeCondition sid => Sys2Proof.Machine.execWakeCondition sid s
  | .yield => Sys2Proof.Machine.execYield s
  | .pause => Sys2Proof.Machine.execPause s
  | .plbinv a => Sys2Proof.Machine.execPlbinv a s
  | .htinv a => Sys2Proof.Machine.execHtinv a s
  | .htinvMigrate a => Sys2Proof.Machine.execHtinvMigrate a s
  | .strandpark a => Sys2Proof.Machine.execStrandpark a s
  | .strandwake a => Sys2Proof.Machine.execStrandwake a s
  | .vcfg d a i_ => Sys2Proof.Machine.execVcfg d a i_ s
  | .vsetl d a w => Sys2Proof.Machine.execVsetl d a w s
  | .vacq d a => Sys2Proof.Machine.execVacq d a s
  | .vrelease => Sys2Proof.Machine.execVrelease s
  | .vgettag d a => Sys2Proof.Machine.execVgettag d a s
  | .vadd d a b f p => Sys2Proof.Machine.execVadd d a b f p s
  | .vsub d a b f p => Sys2Proof.Machine.execVsub d a b f p s
  | .vrsub d a b f p => Sys2Proof.Machine.execVrsub d a b f p s
  | .vmul d a b f p => Sys2Proof.Machine.execVmul d a b f p s
  | .vmulh d a b f p => Sys2Proof.Machine.execVmulh d a b f p s
  | .vdiv d a b f p => Sys2Proof.Machine.execVdiv d a b f p s
  | .vrem d a b f p => Sys2Proof.Machine.execVrem d a b f p s
  | .vmin d a b f p => Sys2Proof.Machine.execVmin d a b f p s
  | .vmax d a b f p => Sys2Proof.Machine.execVmax d a b f p s
  | .vabs d a p => Sys2Proof.Machine.execVabs d a p s
  | .vneg d a p => Sys2Proof.Machine.execVneg d a p s
  | .vabsd d a b f p => Sys2Proof.Machine.execVabsd d a b f p s
  | .vsadd d a b f p => Sys2Proof.Machine.execVsadd d a b f p s
  | .vssub d a b f p => Sys2Proof.Machine.execVssub d a b f p s
  | .vsqrt d a p => Sys2Proof.Machine.execVsqrt d a p s
  | .vand d a b f p => Sys2Proof.Machine.execVand d a b f p s
  | .vor d a b f p => Sys2Proof.Machine.execVor d a b f p s
  | .vxor d a b f p => Sys2Proof.Machine.execVxor d a b f p s
  | .vnot d a p => Sys2Proof.Machine.execVnot d a p s
  | .vsll d a b f p => Sys2Proof.Machine.execVsll d a b f p s
  | .vsrl d a b f p => Sys2Proof.Machine.execVsrl d a b f p s
  | .vsra d a b f p => Sys2Proof.Machine.execVsra d a b f p s
  | .vrol d a b f p => Sys2Proof.Machine.execVrol d a b f p s
  | .vclz d a p => Sys2Proof.Machine.execVclz d a p s
  | .vpopc d a p => Sys2Proof.Machine.execVpopc d a p s
  | .vmerge d a b f p => Sys2Proof.Machine.execVmerge d a b f p s
  | .vmov d a p => Sys2Proof.Machine.execVmov d a p s
  | .vmacc d a b f p => Sys2Proof.Machine.execVmacc d a b f p s
  | .vnmsac d a b f p => Sys2Proof.Machine.execVnmsac d a b f p s
  | .vmadd d a b f p => Sys2Proof.Machine.execVmadd d a b f p s
  | .vnmsub d a b f p => Sys2Proof.Machine.execVnmsub d a b f p s
  | .vdot4 d a b f p => Sys2Proof.Machine.execVdot4 d a b f p s
  | .vceq d a b f p => Sys2Proof.Machine.execVceq d a b f p s
  | .vcne d a b f p => Sys2Proof.Machine.execVcne d a b f p s
  | .vclt d a b f p => Sys2Proof.Machine.execVclt d a b f p s
  | .vcle d a b f p => Sys2Proof.Machine.execVcle d a b f p s
  | .vcgt d a b f p => Sys2Proof.Machine.execVcgt d a b f p s
  | .vcge d a b f p => Sys2Proof.Machine.execVcge d a b f p s
  | .vcun d a b f p => Sys2Proof.Machine.execVcun d a b f p s
  | .vcvt d a p => Sys2Proof.Machine.execVcvt d a p s
  | .vfrint d a p => Sys2Proof.Machine.execVfrint d a p s
  | .vfexp2f d a p => Sys2Proof.Machine.execVfexp2f d a p s
  | .vfscale d a b f p => Sys2Proof.Machine.execVfscale d a b f p s
  | .vfrexp d a p => Sys2Proof.Machine.execVfrexp d a p s
  | .vfmant d a p => Sys2Proof.Machine.execVfmant d a p s
  | .vrecipe d a p => Sys2Proof.Machine.execVrecipe d a p s
  | .vrsqrte d a p => Sys2Proof.Machine.execVrsqrte d a p s
  | .vclass d a p => Sys2Proof.Machine.execVclass d a p s
  | .vbxpack d a p => Sys2Proof.Machine.execVbxpack d a p s
  | .vslideup d a b f p => Sys2Proof.Machine.execVslideup d a b f p s
  | .vslidedn d a b f p => Sys2Proof.Machine.execVslidedn d a b f p s
  | .vpermute d a b f p => Sys2Proof.Machine.execVpermute d a b f p s
  | .vcompress d a p => Sys2Proof.Machine.execVcompress d a p s
  | .vexpand d a p => Sys2Proof.Machine.execVexpand d a p s
  | .vbcast d b f p => Sys2Proof.Machine.execVbcast d b f p s
  | .vextr d a b f p => Sys2Proof.Machine.execVextr d a b f p s
  | .vins d a b f p => Sys2Proof.Machine.execVins d a b f p s
  | .vrev d a p => Sys2Proof.Machine.execVrev d a p s
  | .vzip d a b f p => Sys2Proof.Machine.execVzip d a b f p s
  | .vunzip d a b f p => Sys2Proof.Machine.execVunzip d a b f p s
  | .vid d p => Sys2Proof.Machine.execVid d p s
  | .vmvix d a p => Sys2Proof.Machine.execVmvix d a p s
  | .vredsum d a b f p => Sys2Proof.Machine.execVredsum d a b f p s
  | .vredmin d a b f p => Sys2Proof.Machine.execVredmin d a b f p s
  | .vredmax d a b f p => Sys2Proof.Machine.execVredmax d a b f p s
  | .vredand d a b f p => Sys2Proof.Machine.execVredand d a b f p s
  | .vredor d a b f p => Sys2Proof.Machine.execVredor d a b f p s
  | .vredxor d a b f p => Sys2Proof.Machine.execVredxor d a b f p s
  | .vfredosum d a b f p => Sys2Proof.Machine.execVfredosum d a b f p s
  | .vscanadd d a b f p => Sys2Proof.Machine.execVscanadd d a b f p s
  | .vscanmax d a b f p => Sys2Proof.Machine.execVscanmax d a b f p s
  | .vscanmin d a b f p => Sys2Proof.Machine.execVscanmin d a b f p s
  | .vrecur d a b f p => Sys2Proof.Machine.execVrecur d a b f p s
  | .pand d a b p => Sys2Proof.Machine.execPand d a b p s
  | .por d a b p => Sys2Proof.Machine.execPor d a b p s
  | .pxor d a b p => Sys2Proof.Machine.execPxor d a b p s
  | .pandn d a b p => Sys2Proof.Machine.execPandn d a b p s
  | .pnot d a p => Sys2Proof.Machine.execPnot d a p s
  | .pset d p => Sys2Proof.Machine.execPset d p s
  | .pclr d p => Sys2Proof.Machine.execPclr d p s
  | .pcnt d a p => Sys2Proof.Machine.execPcnt d a p s
  | .pfirst d a p => Sys2Proof.Machine.execPfirst d a p s
  | .pfromv d a p => Sys2Proof.Machine.execPfromv d a p s
  | .ptov d a p => Sys2Proof.Machine.execPtov d a p s
  | .vld d s_ c h p => Sys2Proof.Machine.execVld d s_ c h p s
  | .vst d s_ c h p => Sys2Proof.Machine.execVst d s_ c h p s
  | .vldff d s_ c h p => Sys2Proof.Machine.execVldff d s_ c h p s
  | .vlds d s_ b c h p => Sys2Proof.Machine.execVlds d s_ b c h p s
  | .vsts d s_ b c h p => Sys2Proof.Machine.execVsts d s_ b c h p s
  | .vldx d s_ b c h p => Sys2Proof.Machine.execVldx d s_ b c h p s
  | .vstx d s_ b c h p => Sys2Proof.Machine.execVstx d s_ b c h p s
  | .vstxo d s_ b c h p => Sys2Proof.Machine.execVstxo d s_ b c h p s
  | .vldsc d s_ b c h p => Sys2Proof.Machine.execVldsc d s_ b c h p s
  | .vstsc d s_ b c h p => Sys2Proof.Machine.execVstsc d s_ b c h p s
  | .ticketServed => Sys2Proof.Machine.execTicketServed s
  | .elds e a => Sys2Proof.Machine.execElds e a s
  | .ests e a => Sys2Proof.Machine.execEsts e a s
  | .ezero e => Sys2Proof.Machine.execEzero e s
  | .repf c r x y z => Sys2Proof.Machine.execRepf c r x y z s
  | .mma x y z e a b => Sys2Proof.Machine.execMma x y z e a b s
  | .mmaz x y z e a b => Sys2Proof.Machine.execMmaz x y z e a b s
  | .mmas x y z e a b => Sys2Proof.Machine.execMmas x y z e a b s
  | .mmaCompletion core => Sys2Proof.Machine.execMmaCompletion core s
  | .tld t y z => Sys2Proof.Machine.execTld t y z s
  | .tst t y z => Sys2Proof.Machine.execTst t y z s
  | .tldm t y => Sys2Proof.Machine.execTldm t y s
  | .tstm t y => Sys2Proof.Machine.execTstm t y s
  | .tzero t => Sys2Proof.Machine.execTzero t s
  | .tmov t s_ => Sys2Proof.Machine.execTmov t s_ s
  | .ttrans t s_ => Sys2Proof.Machine.execTtrans t s_ s
  | .tcfg t y => Sys2Proof.Machine.execTcfg t y s
  | .trowv x t z => Sys2Proof.Machine.execTrowv x t z s
  | .vtrow t y z => Sys2Proof.Machine.execVtrow t y z s
  | .tcolv x t z => Sys2Proof.Machine.execTcolv x t z s
  | .accz x => Sys2Proof.Machine.execAccz x s
  | .accst x y z e => Sys2Proof.Machine.execAccst x y z e s
  | .accrd x y z => Sys2Proof.Machine.execAccrd x y z s
  | .accwr x y z => Sys2Proof.Machine.execAccwr x y z s
  | .accadd x y => Sys2Proof.Machine.execAccadd x y s
  | .accscl x y => Sys2Proof.Machine.execAccscl x y s
  | .gbar d a => Sys2Proof.Machine.execGbar d a s
  | .barrierPhaseComplete gang => Sys2Proof.Machine.execBarrierPhaseComplete gang s
  | .gbarTimeout sid => Sys2Proof.Machine.execGbarTimeout sid s
  | .gtmcast d a => Sys2Proof.Machine.execGtmcast d a s
  | .grank d a => Sys2Proof.Machine.execGrank d a s
  | .sempost s_ => Sys2Proof.Machine.execSempost s_ s
  | .semwait s_ => Sys2Proof.Machine.execSemwait s_ s
  | .semtry d s_ => Sys2Proof.Machine.execSemtry d s_ s
  | .secopy d a => Sys2Proof.Machine.execSecopy d a s
  | .seload2d d a => Sys2Proof.Machine.execSeload2d d a s
  | .sestore2d d a => Sys2Proof.Machine.execSestore2d d a s
  | .segather d a => Sys2Proof.Machine.execSegather d a s
  | .sefoot d a => Sys2Proof.Machine.execSefoot d a s
  | .sewait a => Sys2Proof.Machine.execSewait a s
  | .cardStart core => Sys2Proof.Machine.execCardStart core s
  | .cardComplete core card => Sys2Proof.Machine.execCardComplete core card s
  | .cardStop core card => Sys2Proof.Machine.execCardStop core card s
  | .cpref d a b c => Sys2Proof.Machine.execCpref d a b c s
  | .prefetch core => Sys2Proof.Machine.execPrefetch core s
  | .cflush d a b c => Sys2Proof.Machine.execCflush d a b c s
  | .cinv d a b c => Sys2Proof.Machine.execCinv d a b c s
  | .cpin d a b c => Sys2Proof.Machine.execCpin d a b c s
  | .cunpin d a b c => Sys2Proof.Machine.execCunpin d a b c s
  | .cpri d a b c => Sys2Proof.Machine.execCpri d a b c s
  | .samBoard d a b c => Sys2Proof.Machine.execSamBoard d a b c s
  | .boardFill sid => Sys2Proof.Machine.execBoardFill sid s
  | .samAlight d a c => Sys2Proof.Machine.execSamAlight d a c s
  | .samLd d a c w => Sys2Proof.Machine.execSamLd d a c w s
  | .samSt d a b c w => Sys2Proof.Machine.execSamSt d a b c w s
  | .samAdd d a b c w => Sys2Proof.Machine.execSamAdd d a b c w s
  | .samMin d a b c w => Sys2Proof.Machine.execSamMin d a b c w s
  | .samMax d a b c w => Sys2Proof.Machine.execSamMax d a b c w s
  | .samCas d a b c w => Sys2Proof.Machine.execSamCas d a b c w s
  | .samCapture d a b c => Sys2Proof.Machine.execSamCapture d a b c s
  | .samCld d a c w => Sys2Proof.Machine.execSamCld d a c w s
  | .samCst d a b c w => Sys2Proof.Machine.execSamCst d a b c w s
  | .samRelease d a c => Sys2Proof.Machine.execSamRelease d a c s
  | .samWaitrev d a c => Sys2Proof.Machine.execSamWaitrev d a c s
  | .samovarPassage sid => Sys2Proof.Machine.execSamovarPassage sid s
  | .recordReentry sid => Sys2Proof.Machine.execRecordReentry sid s
  | .captureHoldExpiry sid => Sys2Proof.Machine.execCaptureHoldExpiry sid s
  | .samNotag sid => Sys2Proof.Machine.execSamNotag sid s
  | .rstw a b c => Sys2Proof.Machine.execRstw a b c s
  | .rstd a b c => Sys2Proof.Machine.execRstd a b c s
  | .ramo d a b c => Sys2Proof.Machine.execRamo d a b c s
  | .ramow d a b c => Sys2Proof.Machine.execRamow d a b c s
  | .sflush => Sys2Proof.Machine.execSflush s
  | .sflushw d => Sys2Proof.Machine.execSflushw d s
  | .sfrec d a => Sys2Proof.Machine.execSfrec d a s
  | .steepAgeTrigger cluster => Sys2Proof.Machine.execSteepAgeTrigger cluster s
  | .steepAck => Sys2Proof.Machine.execSteepAck s
  | .steepAsync sid => Sys2Proof.Machine.execSteepAsync sid s
  | .amsend d a b => Sys2Proof.Machine.execAmsend d a b s
  | .amsendw d a b => Sys2Proof.Machine.execAmsendw d a b s
  | .amreply d a b => Sys2Proof.Machine.execAmreply d a b s
  | .amdone => Sys2Proof.Machine.execAmdone s
  | .rcmask c => Sys2Proof.Machine.execRcmask c s
  | .rcunmask c => Sys2Proof.Machine.execRcunmask c s
  | .messageArrival => Sys2Proof.Machine.execMessageArrival s
  | .amsendAnswer sid => Sys2Proof.Machine.execAmsendAnswer sid s
  | .messageDispatch sid => Sys2Proof.Machine.execMessageDispatch sid s
  | .handlerOverrun sid => Sys2Proof.Machine.execHandlerOverrun sid s
  | .gnext d a => Sys2Proof.Machine.execGnext d a s
  | .gfield d f => Sys2Proof.Machine.execGfield d f s
  | .gdone => Sys2Proof.Machine.execGdone s
  | .groupRetire sid => Sys2Proof.Machine.execGroupRetire sid s
  | .launch d a => Sys2Proof.Machine.execLaunch d a s
  | .lwait d a => Sys2Proof.Machine.execLwait d a s
  | .groupAssign launch => Sys2Proof.Machine.execGroupAssign launch s
  | .footprintFetchComplete sid => Sys2Proof.Machine.execFootprintFetchComplete sid s
  | .reassign sid => Sys2Proof.Machine.execReassign sid s
  | .groupBudget sid => Sys2Proof.Machine.execGroupBudget sid s
  | .balloc d s_ => Sys2Proof.Machine.execBalloc d s_ s
  | .bfree a => Sys2Proof.Machine.execBfree a s
  | .blockReturn => Sys2Proof.Machine.execBlockReturn s
  | .illegalInstr word => Sys2Proof.Machine.execIllegalInstr word s
  | .trapEntry sid => Sys2Proof.Machine.execTrapEntry sid s
  | .timer sid => Sys2Proof.Machine.execTimer sid s
  | .machineCheck sid unit index => Sys2Proof.Machine.execMachineCheck sid unit index s
  | .poisonMark where_ => Sys2Proof.Machine.execPoisonMark where_ s
  | .softErrorCorrected unit place => Sys2Proof.Machine.execSoftErrorCorrected unit place s
  | .thermalTrip => Sys2Proof.Machine.execThermalTrip s
  | .status v => Sys2Proof.Machine.execStatus v s
  | .tileOwner v => Sys2Proof.Machine.execTileOwner v s
  | .ttags v => Sys2Proof.Machine.execTtags v s
  | .atags v => Sys2Proof.Machine.execAtags v s
  | .steepAgeMax v => Sys2Proof.Machine.execSteepAgeMax v s
  | .vl v => Sys2Proof.Machine.execVl v s
  | .vhwe n v => Sys2Proof.Machine.execVhwe n v s
  | .fflags op v => Sys2Proof.Machine.execFflags op v s
  | .csrWrite csr v => Sys2Proof.Machine.execCsrWrite csr v s
  | .gangSetMembership v => Sys2Proof.Machine.execGangSetMembership v s
  | .gangStop v => Sys2Proof.Machine.execGangStop v s
  | .gangResume v => Sys2Proof.Machine.execGangResume v s
  | .debugHalt core => Sys2Proof.Machine.execDebugHalt core s
  | .debugResume core => Sys2Proof.Machine.execDebugResume core s
  | .dbgData v => Sys2Proof.Machine.execDbgData v s
  | .kettleCtl v => Sys2Proof.Machine.execKettleCtl v s
  | .kettleAdjust cluster vlStep mStep => Sys2Proof.Machine.execKettleAdjust cluster vlStep mStep s
  | .svcMode v => Sys2Proof.Machine.execSvcMode v s
  | .samQuotaSet v => Sys2Proof.Machine.execSamQuotaSet v s
  | .pinQuotaSet v => Sys2Proof.Machine.execPinQuotaSet v s
  | .plbFill sid va => Sys2Proof.Machine.execPlbFill sid va s
  | .translationWalk kind va => Sys2Proof.Machine.execTranslationWalk kind va s
  | .migrationSectorCopy slot => Sys2Proof.Machine.execMigrationSectorCopy slot s
  | .migrationComplete slot => Sys2Proof.Machine.execMigrationComplete slot s
  | .start q f => Sys2Proof.Machine.execStart q f s
  | .launchFrame q f => Sys2Proof.Machine.execLaunchFrame q f s
  | .launchFrameCompletion launch => Sys2Proof.Machine.execLaunchFrameCompletion launch s
  | .replay q f => Sys2Proof.Machine.execReplay q f s
  | .replayNodeLaunch replay node => Sys2Proof.Machine.execReplayNodeLaunch replay node s
  | .patch q f => Sys2Proof.Machine.execPatch q f s
  | .abort q f => Sys2Proof.Machine.execAbort q f s
  | .rerun q f => Sys2Proof.Machine.execRerun q f s
  | .notify q f => Sys2Proof.Machine.execNotify q f s
  | .arena q f => Sys2Proof.Machine.execArena q f s
  | .key q f => Sys2Proof.Machine.execKey q f s
  | .quota q f => Sys2Proof.Machine.execQuota q f s
  | .partition q f => Sys2Proof.Machine.execPartition q f s
  | .teardown q f => Sys2Proof.Machine.execTeardown q f s
  | .attest q f => Sys2Proof.Machine.execAttest q f s
  | .errlog q f => Sys2Proof.Machine.execErrlog q f s
  | .firmware q f => Sys2Proof.Machine.execFirmware q f s
  | .firmwareTakeover => Sys2Proof.Machine.execFirmwareTakeover s
  | .retry q => Sys2Proof.Machine.execRetry q s
  | .completionPost q => Sys2Proof.Machine.execCompletionPost q s
  | .sqPoll q => Sys2Proof.Machine.execSqPoll q s
  | .qpdPost qpd => Sys2Proof.Machine.execQpdPost qpd s
  | .functionLevelReset => Sys2Proof.Machine.execFunctionLevelReset s
  | .reset => Sys2Proof.Machine.execReset s
  | .starvationToken router port => Sys2Proof.Machine.execStarvationToken router port s
  | .combineBatch cluster queue => Sys2Proof.Machine.execCombineBatch cluster queue s
  | .combiningQueueClose cluster queue => Sys2Proof.Machine.execCombiningQueueClose cluster queue s
  | .bridgeLinkFailure link retrained => Sys2Proof.Machine.execBridgeLinkFailure link retrained s
  | .read p => Sys2Proof.Machine.execRead p s
  | .write p => Sys2Proof.Machine.execWrite p s
  | .atomic p => Sys2Proof.Machine.execAtomic p s
  | .vread p => Sys2Proof.Machine.execVread p s
  | .vwrite p => Sys2Proof.Machine.execVwrite p s
  | .words p => Sys2Proof.Machine.execWords p s
  | .msg p => Sys2Proof.Machine.execMsg p s
  | .rsp p => Sys2Proof.Machine.execRsp p s
  | .ack p => Sys2Proof.Machine.execAck p s
  | .demand p => Sys2Proof.Machine.execDemand p s
  | .grant p => Sys2Proof.Machine.execGrant p s
  | .grantLapse dev => Sys2Proof.Machine.execGrantLapse dev s
  | .blockReplay port receive => Sys2Proof.Machine.execBlockReplay port receive s
  | .keyRotation port => Sys2Proof.Machine.execKeyRotation port s
  | .keyExhausted port => Sys2Proof.Machine.execKeyExhausted port s
  | .portStop port => Sys2Proof.Machine.execPortStop port s
  | .linkKeySelect v => Sys2Proof.Machine.execLinkKeySelect v s
  | .linkKeyStage v => Sys2Proof.Machine.execLinkKeyStage v s
  | .linkKeyInstall v => Sys2Proof.Machine.execLinkKeyInstall v s
  | .linkPortStop v => Sys2Proof.Machine.execLinkPortStop v s
  | .linkRetrain v => Sys2Proof.Machine.execLinkRetrain v s
  | .linkKeyData v => Sys2Proof.Machine.execLinkKeyData v s
  | .ramowResponse sid => Sys2Proof.Machine.execRamowResponse sid s
  | .gtmcastCopiesWritten sid => Sys2Proof.Machine.execGtmcastCopiesWritten sid s
  | .writebackComplete sid => Sys2Proof.Machine.execWritebackComplete sid s
  | .badPacket p => Sys2Proof.Machine.execBadPacket p s
  | .linkTrained port => Sys2Proof.Machine.execLinkTrained port s
  | .captureMarkerClear sid => Sys2Proof.Machine.execCaptureMarkerClear sid s
  | .pauseExpiry sid => Sys2Proof.Machine.execPauseExpiry sid s

end Sys2Proof.Machine
end

