-- ==== Sys2Proof/Machine/Turns.lean ====
section
/-! DEFINITION. Who goes next (R11 to R13, R289): the two issue slots of a core and their rotation, a strand's turn (an
event taken, a wait that ends, or the next instruction), the hardware's own steps that are due, and the end of a
cycle. Any other interleaving the spec allows is an agenda (log entry 5, DESIGN CHOICE). -/
namespace Sys2Proof.Machine

/-! ### The issue slots (R11, R12) -/

/-- The two slots. -/
inductive Slot where
  | scalar
  | wide
deriving DecidableEq, Repr

/-- R11: the slot of a word by its major opcode; the reserved majors occupy none. -/
def slotOf (w : InstrWord) : Option Slot :=
  let m := (w.extractLsb' 26 6).toNat
  if m = 0 ∨ 0x3E ≤ m then none
  else if m ≤ 0x20 ∨ m = 0x35 ∨ m = 0x36 ∨ m = 0x3C ∨ m = 0x3D then some .scalar
  else some .wide

/-- R12: the first ready strand of a core in the order pointer + 1 to pointer + 4, modulo 4. -/
def rotate (pointer : Nat) (ready : Nat → Bool) : Option Nat :=
  ([1, 2, 3, 4].map (fun i => (pointer + i) % 4)).find? ready

/-- The pointer of a slot. -/
def Core.pointer (c : Core) : Slot → Nat
  | .scalar => c.slotScalar
  | .wide => c.slotWide

/-- A slot's pointer set to the strand it has issued from (R12). -/
def Core.setPointer (c : Core) (slot : Slot) (i : Nat) : Core :=
  match slot with
  | .scalar => { c with slotScalar := i }
  | .wide => { c with slotWide := i }

/-- The word a strand issues next: its frame's, or the one at its pc (R116, R111). -/
def State.candidate (s : State) (sid : Nat) : Checked InstrWord :=
  match (s.strand sid).frame with
  | some f => s.frameWord sid f
  | none => s.fetchWord sid (s.strand sid).pc

/-- Whether a strand is in the rotation: not parked, stopped or halted, and re-entered after a resume (R18). -/
def State.inRotation (s : State) (sid : Nat) : Bool :=
  s.attends sid && decide ((s.strand sid).heldUntil ≤ s.cycle)

/-- Whether an event is due at a strand's boundary and taken there (R289). -/
def State.eventFirst (s : State) (sid : Nat) : Bool :=
  (s.takeDue sid).isSome || (s.dispatch sid).isSome || (s.strand sid).landingDue

/-- R12, R182: a word's operands are available and its unit can accept it: no interlock holds a tile instruction, and no flag
or tag is still to come that a CSR access awaits (R141). -/
noncomputable def State.unitAccepts (s : State) (sid : Nat) (w : InstrWord) : Bool :=
  let m := (w.extractLsb' 26 6).toNat
  let t := { s with cur := sid }
  if 0x31 ≤ m ∧ m ≤ 0x34 then
    match decode w with
    | .error _ => true
    | .ok i => match exec i t with | .next u => (u.strand sid).wait != .poll | _ => true
  else m != 0x1F || !t.csrMustWait (w.extractLsb' 0 14).toNat

/-- R12: a strand is ready for a slot: in the rotation, waiting for nothing, no event first, its next word belongs there and
its unit accepts it. A strand has one turn in a cycle. -/
noncomputable def State.readyFor (s : State) (slot : Slot) (sid : Nat) : Bool :=
  !s.turned.contains sid && s.inRotation sid && (s.strand sid).wait == .none && !s.eventFirst sid &&
    (match s.candidate sid with
    | .ok (w, s1) => slotOf w == some slot && s1.unitAccepts sid w
    | .error _ => false)

/-- The strand a slot of a core takes in this cycle (R12). -/
noncomputable def State.slotPick (s : State) (core : Nat) (slot : Slot) : Option Nat :=
  (rotate ((s.core core).pointer slot) (fun i => s.readyFor slot (4 * core + i))).map (fun i => 4 * core + i)

/-- A strand with something to do that takes no slot (R13): a wait, an event, a fetch that faults, a reserved word. -/
def State.aside (s : State) (sid : Nat) : Bool :=
  !s.turned.contains sid &&
    ((s.strand sid).wait != .none ||
      (s.inRotation sid && (s.eventFirst sid ||
        (match s.candidate sid with
        | .ok (w, _) => (slotOf w).isNone
        | .error _ => true))))

/-! ### A strand's turn -/

/-- The running strand's slot moves its pointer here when it issues; a strand that waits takes no slot (R12, R13). -/
def State.passSlot (s : State) (w : InstrWord) : State :=
  match slotOf w with
  | none => s
  | some slot => if s.me.wait = .none then s.setMyCore (s.myCore.setPointer slot (s.cur % 4)) else s

/-- R111, R114: the running strand fetches and issues its next instruction. A fetch that faults traps; one that needs another
device's bytes waits for them, and the instruction then takes its slot like any other (R11, R12); the trap of a frame's capture
is the REPF's (R118). -/
noncomputable def State.issue (s : State) : Result :=
  match s.candidate s.cur with
  | .error (.trap t, s1) => .next ((s1.setMe s1.me.dropStale).trap t)
  | .error (e, s1) => .next (s1.fetchStopped e)
  | .ok (w, s1) =>
    match decode w with
    | .error _ => execIllegalInstr w (s1.passSlot w)
    | .ok i => exec i (s1.passSlot w)

/-- What ends a strand's wait is tried. -/
noncomputable def State.await (s : State) (sid : Nat) : Result :=
  match (s.strand sid).wait with
  | .none => .next s
  | .poll => .next s
  | .gnext _ => .next s
  | .sem _ => .next s
  | .amdone .. => .next s
  | .hold => s.issue
  | .vector .. => s.issue
  | .ordered .. => s.issue
  | .scatter .. => s.issue
  | .fetch tag => .next ((s.takeGathered sid [tag] .none).getD s)
  | .gather tags => match s.takeGathered sid tags .poll with | some s1 => s1.issue | none => .next s
  | .landing blk tags => .next (s.finishLanding sid blk tags)
  | .inval tags entries => .next (s.asStrand sid (fun s => s.finishInval tags entries))
  | .cardSlot d k => .next (s.asStrand sid (fun s => s.acceptCard d k))
  | .sewait target => .next (s.asStrand sid (fun s => s.trySewait target))
  | .load .. => execLoadDataReturn sid s
  | .amo .. => execAmoResponse sid s
  | .ramow .. => execRamowResponse sid s
  | .fence .. => execFenceCompletion sid s
  | .sflushw _ => execFenceCompletion sid s
  | .ticket .. => execTicketServed s
  | .gbar _ => execGbarTimeout sid s
  | .wfi => execWakeCondition sid s
  | .pause _ wakes => if wakes && s.wakeHolds sid then execWakeCondition sid s else execPauseExpiry sid s
  | .ring .. => if (s.passageDue sid).isSome then execSamovarPassage sid s else execSamNotag sid s
  | .alight .. => .next (s.finishAlight sid)
  | .alightTurn .. => .next (s.finishAlight sid)
  | .board .. => execBoardFill sid s
  | .amsend .. => execAmsendAnswer sid s
  | .writeback .. => execWritebackComplete sid s
  | .gdone => execGroupRetire sid s
  | .gtmcast .. => execGtmcastCopiesWritten sid s

/-- What a strand does at its turn: a passage that has come is taken before any event (R250); then the first event due
(R289); else a message is dispatched, a landing tried again; else the strand issues, or what it waits for is tried. A strand
that is stopped, halted or to be parked finishes what holds it and no more (R232, R296, R300). -/
noncomputable def State.turnOf (s : State) (sid : Nat) : Result :=
  match s.passageTurn sid with
  | some r => r
  | none =>
  if !s.attends sid then
    match s.settle sid .stop with
    | some _ => .next (s.quiet sid)
    | none => s.await sid
  else if s.cycle < (s.strand sid).heldUntil then s.await sid
  else
    match s.takeDue sid with
    | some s1 => .next s1
    | none =>
      match s.dispatch sid with
      | some s1 => .next s1
      | none =>
        match (s.strand sid).landingDue, (s.strand sid).handler with
        | true, some h => .next (s.landAgain sid h)
        | _, _ => if (s.strand sid).wait.retries then s.issue else s.await sid

/-- A step's state, changed. -/
def onNext (f : State → State) : Result → Result
  | .next s => .next (f s)
  | r => r

/-- A strand's turn. A REASSIGN_DELAY of 0 is reached at the trap entry itself (R328). -/
noncomputable def State.strandTurn (s : State) (sid : Nat) : Result :=
  onNext (fun t => t.reassignDue sid) ({ s with cur := sid, turned := sid :: s.turned }.turnOf sid)

/-! ### The model's own order -/

/-- The cores with a strand or a unit out of reset, rising. -/
def State.busyCores (s : State) : List Nat := ((s.strandIds.map coreOf)).eraseDups

/-- The strand whose turn stands at a phase of the cycle: per core the scalar slot, the wide slot, and each strand's turn
without a slot. -/
noncomputable def State.turnAt (s : State) (phase : Nat) : Option Nat :=
  match s.busyCores[phase / 6]? with
  | none => none
  | some c =>
    match phase % 6 with
    | 0 => s.slotPick c .scalar
    | 1 => s.slotPick c .wide
    | k + 2 => if s.aside (4 * c + k) then some (4 * c + k) else none

/-- The next strand's turn of this cycle, with the phase it stands at. -/
noncomputable def State.nextTurn (s : State) : Option (Nat × Nat) :=
  ((List.range (6 * s.busyCores.length)).drop s.phase).findSome? (fun p => (s.turnAt p).map (fun sid => (p, sid)))

/-! ### The hardware's own steps -/

/-- The handling of a frame that is its queue's first, by KIND and OP or SVC (R321, R330, R364). -/
def State.beginFrame (s : State) (q : Nat) (f : ReqFrame) : Result :=
  match f.kind.toNat with
  | 1 => execStart q f s
  | 2 => execLaunchFrame q f s
  | 3 => execReplay q f s
  | 4 => execPatch q f s
  | 5 =>
    match frameArg f 0 2 with
    | 1 => execArena q f s
    | 2 => execKey q f s
    | 3 => execQuota q f s
    | 4 => execPartition q f s
    | 5 => execTeardown q f s
    | 6 => execAttest q f s
    | 7 => execErrlog q f s
    | 8 => execFirmware q f s
    | _ => .next (s.badService q f)
  | 6 =>
    match frameArg f 0 2 with
    | 1 => execAbort q f s
    | 2 => execRerun q f s
    | _ => .next (s.badControl q f)
  | 7 => execNotify q f s
  | _ => .next (s.badKind q f)

/-- A queue's polling, when its interval has run out; while a switch holds its frames back as well (R362, R372). -/
def State.pollWork (s : State) (q : Nat) : Option Result :=
  if (peerOf q).isNone && (s.queue q).fetching && decide ((s.queue q).nextPoll ≤ s.cycle) && !s.ringBusy (s.queue q).owner then some (execSqPoll q s) else none

/-- What is due on the queues: posting, RETRY, a frame's start, polling (R320, R362, R372). -/
def State.queueWork (s : State) (q : Nat) : Option Result :=
  match s.postCompletion q with
  | some s1 => some (.next s1)
  | none =>
    match (s.queue q).held with
    | (f, t) :: _ =>
      if !s.switching then (if s.listBusy (s.frameList f) then none else some (s.beginFrame q f))
      else if t + 21000000 ≤ s.cycle then some (execRetry q s)
      else s.pollWork q
    | [] => s.pollWork q

/-- What is due on a card in flight: it goes on, asks another device for bytes, completes or stops; nothing while a READ or its
writes are out and it can move no row (R208, R209). -/
def State.cardWork (s : State) (core : Nat) (k : Card) : Option Result :=
  let flying := s.cardFlying core k.num
  if !k.inFlight || k.mover.asked.isSome then none
  else if k.failed.isSome then (if flying || !(s.core core).stopRoom k.sid then none else some (execCardStop core k.num s))
  else
    match s.cardOutcome k with
    | (_, k1, some (.trap _)) =>
      if (flying && k1 == k) || !(s.core core).stopRoom k.sid then none else some (execCardStop core k.num s)
    | (s1, k1, some .busy) => if k1 == k && s1.combining == s.combining then none else some (execCardComplete core k.num s)
    | (_, _, some (.need ..)) => some (execCardComplete core k.num s)
    | (_, k1, none) => if flying && k1 == k then none else some (execCardComplete core k.num s)

/-- What is due on a core: an MMA, cards, a prefetch (R188, R208, R105, R211). -/
def State.coreWork (s : State) (core : Nat) : Option Result :=
  let c := s.core core
  if (c.matrix.head?.map (fun j => decide (j.doneAt ≤ s.cycle))) = some true then some (execMmaCompletion core s)
  else
    match c.cards.findSome? (s.cardWork core) with
    | some r => some r
    | none =>
      if (c.nextStart (s.fetchesOn core 4)).isSome then some (execCardStart core s)
      else if !c.prefetchQ.isEmpty then some (execPrefetch core s)
      else none

/-- What is due on a strand apart from its own turn (R202, R284, R326). -/
def State.strandWork (s : State) (sid : Nat) : Option Result :=
  let x := s.strand sid
  if s.timerPending sid && !x.ipend.getLsbD 0 then some (execTimer sid s)
  else if x.ahead.any (fun a => !a.ready && a.fault.isNone && a.mover.asked.isNone) && s.fetchRuns sid then some (execFootprintFetchComplete sid s)
  else if x.gangId != 0 && (s.gang x.gangId.toNat).deadlines.any (fun d => d.1 == x.gangRank.toNat && d.2 == 0) then
    some (execGbarTimeout sid s)
  else none

/-- What is due on a launch: a completion owed, a group to assign (R325, R332). -/
def State.launchWork (s : State) (l : Launch) : Option Result :=
  if l.done then (if l.owner = .strand then none else some (execLaunchFrameCompletion l.id s))
  else if l.aborted || s.assistedWaits 2 then none
  else
    match l.firstAssignable (2 ^ 20) l.base with
    | none => none
    | some n => if (s.candidates l (l.header.workAt n)).isEmpty then none else some (execGroupAssign l.id s)

/-- What is due on a replay: a node to launch (R334). -/
def State.replayWork (s : State) (r : Replay) : Option Result :=
  ((List.range r.nodes.length).find? (fun j => r.nodes[j]?.any r.nodeDue)).map (fun j => execReplayNodeLaunch r.id j s)

/-- What is due on a migration (R317, R318). -/
def State.migrationWork (s : State) (slot : Nat) : Option Result :=
  match s.migrations[slot]? with
  | none => none
  | some m =>
    if m.lingering || s.copyWaits m then none
    else if m.pointer < 2048 then some (execMigrationSectorCopy slot s)
    else some (execMigrationComplete slot s)

/-- What is due on Steep: a buffer whose deadline has come, an entry under way (R217, R100). -/
def State.steepWork (s : State) : Option Result :=
  match s.steepBufs.find? (fun b => b.2.any (fun x => decide (x.deadline ≤ s.cycle))) with
  | some b => some (execSteepAgeTrigger b.1 s)
  | none =>
    if s.storeOwed.isSome then some (execSteepAck s)
    else
      match s.steepSent with
      | [] => none
      | (_, l) :: _ => if s.packetWaits l then none else some (execSteepAck s)

/-- What is due on pacing (R356): a grant that lapses, a chunk for the first source that has announced demand. -/
def State.pacingWork (s : State) : Option Result :=
  match s.grants.find? (fun g => g.2.any (fun x => decide (x.at_ + 8192 ≤ s.cycle))) with
  | some g => some (execGrantLapse g.1 s)
  | none =>
    s.demands.head?.map (fun d => execGrant { emptyPacket with
      kind := 0x0B, sdev := BitVec.ofNat 8 s.device, ddev := BitVec.ofNat 8 d.1 } s)

/-- What is due on a port (R350, R357, R359): the end of its key, a rotation, the end of a bridge link's retraining. -/
def State.portWork (s : State) (port : Nat) (l : LinkPort) : Option Result :=
  if 36 ≤ port then none
  else if s.keyEnds port then some (execKeyExhausted port s)
  else if s.hwRotation port && (decide (2 ^ 47 ≤ l.tx.counter.toNat) || decide (2 ^ 47 ≤ l.rx.counter.toNat)) then
    some (execKeyRotation port s)
  else if l.retrainBy.any (fun t => decide (t ≤ s.cycle)) then some (execBridgeLinkFailure (port - 32) false s)
  else none

/-- What is due on the combining queues (R349). -/
def State.combineWork (s : State) : Option Result :=
  (s.combining.find? (fun c =>
    match c.2.ops with
    | [] => decide (c.2.emptySince + 64 ≤ s.cycle)
    | o :: _ => !s.headWaits c.2 o)).map (fun c =>
      if c.2.ops.isEmpty then execCombiningQueueClose (c.1 / 16) (c.1 % 16) s
      else execCombineBatch (c.1 / 16) (c.1 % 16) s)

/-- What is due of the rest: a barrier's completion, a block's return, a firmware switch, a request in service, a posted
descriptor, a ticket, a message (R201, R81, R372, R330, R361, R174, R222). -/
def unitWork : List (State → Option Result) :=
  [fun s => (s.gangs.find? (fun g => g.2.completeAt.any (fun t => decide (t ≤ s.cycle)))).map
      (fun g => execBarrierPhaseComplete g.1 s),
    fun s => if s.blocksBack.isEmpty then none else some (execBlockReturn s),
    fun s => if s.pendingImage.isSome && s.service.isEmpty then some (execFirmwareTakeover s) else none,
    fun s => s.service.head?.map (fun w => s.beginFrame w.q w.frame),
    fun s => if s.hostLink.state = 1 then some (execQpdPost s.hostLink.qpd s) else none,
    fun s => s.tickets.head?.bind (fun n => if (s.ticketHolder n).isNone then some (execTicketServed s) else none),
    fun s => if s.nextArrivals.isEmpty then none else some (execMessageArrival s),
    State.steepWork, State.combineWork, State.pacingWork, fun s => s.ports.findSome? (fun p => s.portWork p.1 p.2)]

/-- Every unit that may have a step due. -/
def State.allWork (s : State) : List (State → Option Result) :=
  unitWork ++ s.queues.map (fun q => fun s => s.queueWork q.1) ++ s.cores.map (fun c => fun s => s.coreWork c.1) ++
    s.strands.map (fun x => fun s => s.strandWork x.1) ++ s.launches.map (fun l => fun s => s.launchWork l) ++
    s.replays.map (fun r => fun s => s.replayWork r) ++
    (List.range s.migrations.length).map (fun k => fun s => s.migrationWork k)

/-- The first step due, the search beginning at another unit each cycle. -/
def State.hardware (s : State) : Option Result :=
  let l := s.allWork
  let k := s.cycle % l.length
  (l.drop k ++ l.take k).findSome? (fun f => f s)

/-! ### The end of a cycle -/

/-- The counts of a strand after one more cycle: the handler's and the group's U-mode cycles (R26, R291, R292), the
S-mode or parked cycles of R328; a park that has been waited for (R296). Nothing counts in a strand that has stopped, nor
before it is back in the rotation (R18). (log entry 34, DEDUCED.) -/
def Strand.tick (x : Strand) (halted : Bool) (now : Nat) : Strand :=
  if (x.stopped && x.wait == .none) || halted || decide (now < x.heldUntil) then x
  else
    let x := if x.parking then x.parkNow else x
    let user := x.mode == .u && !x.parked
    { x with
      handler := if user then x.handler.map (fun h => { h with left := h.left - 1 }) else x.handler
      groupBudget :=
        if user && x.handler.isNone && x.running.isSome && x.groupBudget != 0 && x.groupBudget != BitVec.allOnes 64 then
          x.groupBudget - 1
        else x.groupBudget
      reassignCount := if x.mode != .u || x.parked then x.reassignCount.map (· + 1) else x.reassignCount }

/-- A gang's arrival deadlines after one more cycle (R18, R202): cycles of a member that is stopped, halted or not yet back in the
rotation after a resume do not count, parked ones do. -/
def State.tickGang (s : State) (g : Gang) : Gang :=
  { g with deadlines := g.deadlines.map (fun d =>
      match g.holder d.1 with
      | some sid =>
        if (s.strand sid).stopped || (s.core (coreOf sid)).halted || decide (s.cycle < (s.strand sid).heldUntil) then d
        else (d.1, d.2 - 1)
      | none => (d.1, d.2 - 1)) }

/-- R245: every hold that is over: its record is released with CAPTURE_LOST. -/
def State.expireHolds (s : State) : State :=
  s.captures.foldl (fun s c => if c.2.any (fun x => decide (x.expires ≤ s.cycle)) then s.releaseCapture c.1 true else s) s

/-- The clock moved on by one cycle, with the counts that run with it and the routers' outputs (R346). (log entry 25, DESIGN CHOICE.) -/
def State.advance (s : State) : State :=
  { s with
    cycle := s.cycle + 1
    phase := 0
    turned := []
    addsHere := []
    strands := s.strands.map (fun x => (x.1, x.2.tick (s.core (coreOf x.1)).halted s.cycle))
    routers := s.routers.map (fun o => (o.1, o.2.turn s.cycle))
    gangs := s.gangs.map (fun g => (g.1, s.tickGang g.2)) }

/-- R328: every strand whose count has reached its delay. -/
def State.reassignAll (s : State) : State := s.strands.foldl (fun s x => s.reassignDue x.1) s

/-- The end of a cycle. -/
def State.tick (s : State) : State := s.ringTurn.advance.expireHolds.reassignAll

/-- The last turn of a cycle: one step of the hardware's own, if one is due, and the clock. -/
def State.endCycle (s : State) : Result :=
  match s.hardware with
  | some (.next s1) => .next s1.tick
  | some r => r
  | none => .next s.tick

end Sys2Proof.Machine
end

