-- ==== Sys2Proof/Machine/Step.lean ====
section
/-! DEFINITION. One step of the machine, and the placing of an instruction where the next step fetches it. -/
namespace Sys2Proof.Machine

/-- One step: the turn the agenda names; with an empty agenda, the next turn of the model's own order (R12, R289), or the
end of the cycle. After the thermal trip there is no step (R375). A word of the agenda that is no step of the
table stands for a lapse. A trap that a step of the table enters reaches a REASSIGN_DELAY of 0 at once (R328).
(log entry 73, DESIGN CHOICE.) -/
noncomputable def step (s : State) : Host.Outcome State Fault Refusal :=
  if !s.powered then .fault .poweredOff
  else
    match s.agenda with
    | .event i :: t =>
      if (encode i).isSome then .next { s with agenda := t }.tick else onNext State.reassignAll (exec i { s with agenda := t })
    | .strand sid :: t => { s with agenda := t }.strandTurn sid
    | .lapse :: t => .next { s with agenda := t }.tick
    | [] =>
      match s.nextTurn with
      | some (p, sid) => { s with phase := p + 1 }.strandTurn sid
      | none => s.endCycle

/-- The leaf of a 64 GiB page at physical address 0 with every right, accessed and dirty, in the default key (R309). -/
def wholeLeaf : BitVec 64 := 0xEF

/-- An instruction placed for the next step: strand 0 is out of parking at an address it may fetch, its next turn is named
first, and the bytes stand there, little-endian (R111). (log entry 24, DEDUCED.) -/
def State.withFetchWord (s : State) (nbits w : Nat) : State :=
  let x := s.strand 0
  let c := s.core 0
  let pc := x.pc &&& 0xFFFFFFFFC
  { s with
    agenda := .strand 0 :: s.agenda
    powered := true
    strands := mapSet s.strands 0 { x with
      pc := pc, parked := false, stopped := false, heldUntil := 0, wait := .none, frame := none
      parking := false, domain := 0, status := 1, ipend := 0, asyncDue := none, handler := none }
    cores := mapSet s.cores 0 { c with
      plb := [⟨0, 0, 56, 15⟩], icache := [], halted := false, mailbox := [] }
    translations := [⟨0, 36, wholeLeaf, 0, agentOf pc.toNat⟩]
    migrations := []
    combining := []
    poison := []
    sectorKeys := mapDrop s.sectorKeys (pc.toNat / 32)
    mem := writeBytes s.mem pc.toNat 4 (w % 2 ^ nbits) }

end Sys2Proof.Machine
end

