-- ==== Sys2Proof/Safety.lean ====
section
/-! DEFINITION. What the claims are stated in: what an instruction leaves alone (its frame), and the invariants of a
sound state. -/
namespace Sys2Proof.Machine

/-! ### Frames -/

/-- Nothing but strands differs, and of those only the running one: memory, scratchpads, marks, cores, domains, queues,
units and every other strand are as before. -/
def State.OnlyRunning (s t : State) : Prop :=
  t = { s with strands := t.strands } ∧ ∀ sid, sid ≠ s.cur → t.strand sid = s.strand sid

/-- Of a strand nothing but its place in the program differs: the pc, the frame in progress, the wait, and the bytes brought
for the instruction that has ended. -/
def Strand.OnlyPlace (x y : Strand) : Prop :=
  y = { x with pc := y.pc, frame := y.frame, wait := y.wait, gathered := y.gathered }

/-- As `OnlyPlace`, with one general register written; a write to g0 is none (R33). -/
def Strand.OnlyG (d : BitVec 5) (x y : Strand) : Prop :=
  y = { x with g := y.g, pc := y.pc, frame := y.frame, wait := y.wait, gathered := y.gathered } ∧ ∀ a, a ≠ d → y.getG a = x.getG a

/-- As `OnlyG`, with exception flags raised (R44) and none cleared. -/
def Strand.OnlyGFlags (d : BitVec 5) (x y : Strand) : Prop :=
  y = { x with g := y.g, fflags := y.fflags, pc := y.pc, frame := y.frame, wait := y.wait, gathered := y.gathered } ∧
    (∀ a, a ≠ d → y.getG a = x.getG a) ∧ x.fflags &&& y.fflags = x.fflags

/-- Of a strand nothing but what R288 lists differs: STATUS, the trap CSRs, the pc, with the frame, the wait and the count
of R328 that the entry ends or begins. -/
def Strand.OnlyEntry (x y : Strand) : Prop :=
  y = { x with
    status := y.status, trapCause := y.trapCause, trapPc := y.trapPc, trapAddr := y.trapAddr, trapElem := y.trapElem
    trapInfo := y.trapInfo, pc := y.pc, frame := y.frame, wait := y.wait, gathered := y.gathered
    reassignCount := y.reassignCount }

/-! ### Sound states -/

/-- STATUS of a strand as R283 lets it stand: MODE names U or S (a strand has no other mode, R10) and the rsv bits are 0. -/
def statusSound (st : BitVec 64) : Bool :=
  st.getLsbD 1 == false && st.getLsbD 6 == false && st.extractLsb' 9 55 == 0

/-- A strand's registers as their rules let them stand: p0 is all ones (R34), STATUS is sound, FRM has only its fields
(R44), and the mode a handler will return to is U or S. -/
def Strand.sound (x : Strand) : Bool :=
  x.p[0] == BitVec.allOnes 2048 && statusSound x.status && x.frm &&& 0x1F07 == x.frm &&
    x.handler.all (fun h => h.mode != .f)

/-- Every strand of the package is sound. -/
def State.StrandsSound (s : State) : Prop := ∀ sid, (s.strand sid).sound = true

/-- Memory is in its canonical form. -/
def State.MemoryCanonical (s : State) : Prop := Memory.wf s.mem = true

end Sys2Proof.Machine
end

