-- ==== Sys2Proof/Certificates/Slice0/Obligations.lean ====
section
/-! DEFINITION. The statements for the provers. Each names the rule of the spec it formalises; where it rests on a choice of
the model, its docstring names the log entry. -/

open Sys2Proof Sys2Proof.Machine

namespace Sys2Proof.Machine

/-- The next state of a scalar instruction with result bits and flags: g(d) written, the flags delivered (R45). -/
def State.fpNext (s : State) (d : BitVec 5) (r : Nat × Flags) : State := (s.setG d (BitVec.ofNat 64 r.1)).finish r.2

/-- How far a multiple of 2^sh lies from m. -/
def gridDistance (m q sh : Nat) : Nat := ((m : Int) - q * 2 ^ sh).natAbs

/-- The address of the leaf entry an address check of the running strand reads, whose A and D bits it may set (R312). -/
def State.leafOf (s : State) (kind : AccessKind) (a : Word) : Option Nat :=
  (s.translation kind a.toNat).map (fun r => r.1.at_)

/-- The state an address check walks in: after the PLB, whose fill may have read a rights list and set the A bits of that
list's own leaves (R306, R312). -/
def State.afterPlb (s : State) (who : Actor) (kind : AccessKind) (a : Word) : State :=
  if classOf a = .ordinary then (s.plbGrants who (rightsNeeded kind) a.toNat).2 else s

/-- A byte outside the 8 bytes of the leaf entry of the address, which no fill for the running strand has touched. -/
def State.offLeaf (s : State) (kind : AccessKind) (a : Word) (x : Nat) : Prop :=
  let s0 := s.afterPlb s.actor kind a
  s0.byteAt x = s.byteAt x ∧ ∀ l, s0.leafOf kind a = some l → x < l ∨ l + 8 ≤ x

end Sys2Proof.Machine

/-! ### Integer registers -/

/-- R126: sums, differences and products over the integers, wrapped to 64 bits. -/
def Sys2Proof.Machine.Claims.SumsAndProductsWrap : Prop :=
  ∀ (s : State) (d a b : BitVec 5),
    let x := s.g a
    let y := s.g b
    exec (.add d a b) s = .next (s.writeG d (BitVec.ofInt 64 (x.toInt + y.toInt))) ∧
    exec (.sub d a b) s = .next (s.writeG d (BitVec.ofInt 64 (x.toInt - y.toInt))) ∧
    exec (.mul d a b) s = .next (s.writeG d (BitVec.ofInt 64 (x.toInt * y.toInt))) ∧
    exec (.mulh d a b) s = .next (s.writeG d (BitVec.ofInt 64 ((x.toInt * y.toInt) / 2 ^ 64))) ∧
    exec (.mulhu d a b) s = .next (s.writeG d (BitVec.ofNat 64 ((x.toNat * y.toNat) / 2 ^ 64))) ∧
    exec (.mulhsu d a b) s = .next (s.writeG d (BitVec.ofInt 64 ((x.toInt * y.toNat) / 2 ^ 64)))

/-- R48: division truncates, a zero divisor gives all ones and leaves the dividend as remainder, and the one quotient that
overflows wraps. -/
def Sys2Proof.Machine.Claims.DivisionTruncatesAndNeverTraps : Prop :=
  ∀ (s : State) (d a b : BitVec 5),
    let x := s.g a
    let y := s.g b
    exec (.div d a b) s =
      .next (s.writeG d (if y = 0 then BitVec.allOnes 64 else BitVec.ofInt 64 (x.toInt.tdiv y.toInt))) ∧
    exec (.divu d a b) s =
      .next (s.writeG d (if y = 0 then BitVec.allOnes 64 else BitVec.ofNat 64 (x.toNat / y.toNat))) ∧
    exec (.rem d a b) s = .next (s.writeG d (if y = 0 then x else BitVec.ofInt 64 (x.toInt.tmod y.toInt))) ∧
    exec (.remu d a b) s = .next (s.writeG d (if y = 0 then x else BitVec.ofNat 64 (x.toNat % y.toNat)))

/-- R126: shifts and rotates by y[5:0] as arithmetic on the value. -/
def Sys2Proof.Machine.Claims.ShiftsAreScalingByPowersOfTwo : Prop :=
  ∀ (s : State) (d a b : BitVec 5),
    let x := s.g a
    let n := (s.g b).toNat % 64
    exec (.sll d a b) s = .next (s.writeG d (BitVec.ofNat 64 (x.toNat * 2 ^ n))) ∧
    exec (.srl d a b) s = .next (s.writeG d (BitVec.ofNat 64 (x.toNat / 2 ^ n))) ∧
    exec (.sra d a b) s = .next (s.writeG d (BitVec.ofInt 64 (x.toInt / 2 ^ n))) ∧
    exec (.rol d a b) s =
      .next (s.writeG d (BitVec.ofNat 64 (x.toNat * 2 ^ n % 2 ^ 64 + x.toNat / 2 ^ (64 - n)))) ∧
    exec (.ror d a b) s =
      .next (s.writeG d (BitVec.ofNat 64 (x.toNat / 2 ^ n + x.toNat * 2 ^ (64 - n) % 2 ^ 64)))

/-- R126: bitwise logic, comparisons as 1 or 0, the lesser and the greater, and SEL on the old g(d). -/
def Sys2Proof.Machine.Claims.LogicComparesAndSelects : Prop :=
  ∀ (s : State) (d a b : BitVec 5),
    let x := s.g a
    let y := s.g b
    exec (.and d a b) s = .next (s.writeG d (x &&& y)) ∧
    exec (.or d a b) s = .next (s.writeG d (x ||| y)) ∧
    exec (.xor d a b) s = .next (s.writeG d (x ^^^ y)) ∧
    exec (.andn d a b) s = .next (s.writeG d (x &&& ~~~y)) ∧
    exec (.orn d a b) s = .next (s.writeG d (x ||| ~~~y)) ∧
    exec (.slt d a b) s = .next (s.writeG d (if x.toInt < y.toInt then 1 else 0)) ∧
    exec (.sltu d a b) s = .next (s.writeG d (if x.toNat < y.toNat then 1 else 0)) ∧
    exec (.min d a b) s = .next (s.writeG d (BitVec.ofInt 64 (min x.toInt y.toInt))) ∧
    exec (.max d a b) s = .next (s.writeG d (BitVec.ofInt 64 (max x.toInt y.toInt))) ∧
    exec (.minu d a b) s = .next (s.writeG d (BitVec.ofNat 64 (min x.toNat y.toNat))) ∧
    exec (.maxu d a b) s = .next (s.writeG d (BitVec.ofNat 64 (max x.toNat y.toNat))) ∧
    exec (.sel d a b) s = .next (s.writeG d (if s.g d ≠ 0 then x else y))

/-- R126: counts of bits, the bytes in reverse order, sign and zero extension. -/
def Sys2Proof.Machine.Claims.CountsSwapsAndExtensions : Prop :=
  ∀ (s : State) (d a : BitVec 5),
    let x := s.g a
    (∀ n : Nat, n ≤ 64 → x.toNat < 2 ^ (64 - n) → (n = 64 ∨ 2 ^ (63 - n) ≤ x.toNat) →
      exec (.clz d a) s = .next (s.writeG d (BitVec.ofNat 64 n))) ∧
    (∀ n : Nat, n ≤ 64 → x.toNat % 2 ^ n = 0 → (n = 64 ∨ x.getLsbD n = true) →
      exec (.ctz d a) s = .next (s.writeG d (BitVec.ofNat 64 n))) ∧
    exec (.popc d a) s =
      .next (s.writeG d (BitVec.ofNat 64 ((List.range 64).filter (fun i => x.getLsbD i)).length)) ∧
    (∀ v : Word, (∀ i, i < 8 → v.extractLsb' (8 * i) 8 = x.extractLsb' (8 * (7 - i)) 8) →
      exec (.bswap d a) s = .next (s.writeG d v)) ∧
    exec (.sextb d a) s = .next (s.writeG d (BitVec.ofInt 64 (x.setWidth 8).toInt)) ∧
    exec (.sexth d a) s = .next (s.writeG d (BitVec.ofInt 64 (x.setWidth 16).toInt)) ∧
    exec (.sextw d a) s = .next (s.writeG d (BitVec.ofInt 64 (x.setWidth 32).toInt)) ∧
    exec (.zextw d a) s = .next (s.writeG d (BitVec.ofNat 64 (x.toNat % 2 ^ 32)))

/-- R126: the words of major 0x01, in the table's order; b is 0 in the words of the unary operations. -/
def Sys2Proof.Machine.Claims.IntegerEncodings : Prop :=
  ∀ d a b : BitVec 5,
    (∀ r ∈ [((0x000 : BitVec 11), Instr.add d a b), (0x001, .sub d a b), (0x002, .and d a b),
        (0x003, .or d a b), (0x004, .xor d a b), (0x005, .andn d a b), (0x006, .orn d a b),
        (0x010, .sll d a b), (0x011, .srl d a b), (0x012, .sra d a b), (0x013, .rol d a b),
        (0x014, .ror d a b), (0x020, .slt d a b), (0x021, .sltu d a b), (0x022, .min d a b),
        (0x023, .max d a b), (0x024, .minu d a b), (0x025, .maxu d a b), (0x026, .sel d a b),
        (0x030, .mul d a b), (0x031, .mulh d a b), (0x032, .mulhu d a b), (0x033, .mulhsu d a b),
        (0x034, .div d a b), (0x035, .divu d a b), (0x036, .rem d a b), (0x037, .remu d a b)],
      encode r.2 = some ((1 : BitVec 6) ++ d ++ a ++ b ++ r.1)) ∧
    ∀ r ∈ [((0x040 : BitVec 11), Instr.clz d a), (0x041, .ctz d a), (0x042, .popc d a),
        (0x043, .bswap d a), (0x044, .sextb d a), (0x045, .sexth d a), (0x046, .sextw d a),
        (0x047, .zextw d a)],
      encode r.2 = some ((1 : BitVec 6) ++ d ++ a ++ (0 : BitVec 5) ++ r.1) ∧
        (b ≠ 0 → decode ((1 : BitVec 6) ++ d ++ a ++ b ++ r.1) = .error .unusedNotZero)

/-- R126: what the result of such an instruction leaves: the value in g(d), and no flag, no trap register, no byte of
memory touched. -/
def Sys2Proof.Machine.Claims.IntegerResultsRaiseNothing : Prop :=
  ∀ (s : State) (d : BitVec 5) (v : Word),
    let t := s.writeG d v
    (d ≠ 0 → t.g d = v) ∧ (∀ n, n ≠ d → t.g n = s.g n) ∧ t.me.fflags = s.me.fflags ∧ t.me.trapCause = s.me.trapCause ∧
      t.me.trapPc = s.me.trapPc ∧ t.me.status = s.me.status ∧ t.mem = s.mem

/-- R127: the immediate forms; ADDI, SLTI, SLTIU and LDI extend the immediate by its sign, ANDI, ORI, XORI and LDIS by
zeros. -/
def Obligations.ImmediateForms : Prop :=
  ∀ (s : State) (d a : BitVec 5) (i : BitVec 16) (h : BitVec 6),
    let x := s.g a
    exec (.addi d a i) s = .next (s.writeG d (BitVec.ofInt 64 (x.toInt + i.toInt))) ∧
    exec (.slti d a i) s = .next (s.writeG d (if x.toInt < i.toInt then 1 else 0)) ∧
    exec (.sltiu d a i) s = .next (s.writeG d (if x.toNat < (BitVec.ofInt 64 i.toInt).toNat then 1 else 0)) ∧
    exec (.ldi d i) s = .next (s.writeG d (BitVec.ofInt 64 i.toInt)) ∧
    exec (.andi d a i) s = .next (s.writeG d (x &&& BitVec.ofNat 64 i.toNat)) ∧
    exec (.ori d a i) s = .next (s.writeG d (x ||| BitVec.ofNat 64 i.toNat)) ∧
    exec (.xori d a i) s = .next (s.writeG d (x ^^^ BitVec.ofNat 64 i.toNat)) ∧
    exec (.ldis d i) s = .next (s.writeG d (BitVec.ofNat 64 ((s.g d).toNat * 65536 + i.toNat))) ∧
    exec (.slli d a h) s = .next (s.writeG d (BitVec.ofNat 64 (x.toNat * 2 ^ h.toNat))) ∧
    exec (.srli d a h) s = .next (s.writeG d (BitVec.ofNat 64 (x.toNat / 2 ^ h.toNat))) ∧
    exec (.srai d a h) s = .next (s.writeG d (BitVec.ofInt 64 (x.toInt / 2 ^ h.toNat))) ∧
    exec (.rori d a h) s =
      .next (s.writeG d (BitVec.ofNat 64 (x.toNat / 2 ^ h.toNat + x.toNat * 2 ^ (64 - h.toNat) % 2 ^ 64)))

/-- R33, R116: what `writeG` leaves: g(d) has the value unless d is g0, which stays zero; every other register, flag, CSR,
byte of memory and unit is as before; outside a frame the pc is at the next word. The result of every instruction that
writes one general register is stated with it. -/
def Sys2Proof.Machine.Claims.RegisterResultFrame : Prop :=
  ∀ (s : State) (d : BitVec 5) (v : Word),
    let t := s.writeG d v
    s.OnlyRunning t ∧ s.me.OnlyG d t.me ∧ t.me.getG d = (if d = 0 then 0 else v) ∧ t.me.getG 0 = 0 ∧
      t.me.wait = .none ∧ (∀ x, t.byteAt x = s.byteAt x) ∧
      (s.me.frame = none → t.me.pc = s.me.pc + 4 ∧ t.me.frame = none)

/-- R138, R139: a branch taken goes to pc + 4 × offset, one not taken to the next instruction; J, JAL and JALR jump, JAL to
g31 and JALR to g(d) leaving pc + 4; a JALR target that is not a multiple of 4 traps MISALIGNED and writes nothing. The
words of major 0x1B are cond's rows, with the printed one; condition codes 6 and 7 are no instruction's and trap
ILLEGAL_INSTR. -/
def Obligations.BranchesAndJumps : Prop :=
  ∀ (s : State) (d a b : BitVec 5) (o : BitVec 13) (j : BitVec 26) (i : BitVec 16),
    let x := s.g a
    let y := s.g b
    let go (p : Prop) [Decidable p] : Result :=
      .next (if p then s.jump (s.me.pc + BitVec.ofInt 64 (4 * o.toInt)) else s.retire)
    let target : Word := x + BitVec.ofInt 64 i.toInt
    exec (.beq a b o) s = go (x = y) ∧
    exec (.bne a b o) s = go (x ≠ y) ∧
    exec (.blt a b o) s = go (x.toInt < y.toInt) ∧
    exec (.bge a b o) s = go (y.toInt ≤ x.toInt) ∧
    exec (.bltu a b o) s = go (x.toNat < y.toNat) ∧
    exec (.bgeu a b o) s = go (y.toNat ≤ x.toNat) ∧
    exec (.j j) s = .next (s.jump (s.me.pc + BitVec.ofInt 64 (4 * j.toInt))) ∧
    exec (.jal j) s = .next ((s.setG 31 (s.me.pc + 4)).jump (s.me.pc + BitVec.ofInt 64 (4 * j.toInt))) ∧
    exec (.jalr d a i) s =
      .next (if target.toNat % 4 = 0 then (s.setG d (s.me.pc + 4)).jump target
        else s.trap (addrTrap causeMisaligned target)) ∧
    (∀ r ∈ [((0 : BitVec 3), Instr.beq a b o), (1, .bne a b o), (2, .blt a b o), (3, .bge a b o), (4, .bltu a b o),
        (5, .bgeu a b o)], encode r.2 = some ((0b011011 : BitVec 6) ++ a ++ b ++ r.1 ++ o)) ∧
    encode (.bne 5 0 (BitVec.ofInt 13 (-3))) = some 0x6CA03FFD ∧
    ∀ cond ∈ [(6 : BitVec 3), 7],
      let w : InstrWord := (0b011011 : BitVec 6) ++ a ++ b ++ cond ++ o
      decode w = .error .reservedFunction ∧ execIllegalInstr w s = .next (s.trap ⟨0x01, 0, 0, w.setWidth 48⟩)

/-- R138, R139: what a jump leaves: the pc at the target and nothing else of the machine changed. -/
def Sys2Proof.Machine.Claims.JumpFrame : Prop :=
  ∀ (s : State) (target : Word),
    let t := s.jump target
    s.OnlyRunning t ∧ s.me.OnlyPlace t.me ∧ t.me.pc = target ∧ t.me.frame = s.me.frame ∧
      (∀ x, t.byteAt x = s.byteAt x)

/-! ### Scalar floating point -/

/-- R56: the rounding of m ÷ 2^sh in each mode, and inexact exactly when the quotient is no integer. -/
def Obligations.RoundingModes : Prop :=
  ∀ (mode : RMode) (neg : Bool) (m sh : Nat),
    let r := roundShift mode neg m sh
    (r.2 = false ↔ r.1 * 2 ^ sh = m) ∧ gridDistance m r.1 sh < 2 ^ sh ∧
    (mode = .rne → 2 * gridDistance m r.1 sh ≤ 2 ^ sh ∧ (2 * gridDistance m r.1 sh = 2 ^ sh → r.1 % 2 = 0)) ∧
    (mode = .rmm → 2 * gridDistance m r.1 sh ≤ 2 ^ sh ∧ (2 * gridDistance m r.1 sh = 2 ^ sh → m ≤ r.1 * 2 ^ sh)) ∧
    (mode = .rtz → r.1 * 2 ^ sh ≤ m) ∧
    (mode = .rdn → if neg then m ≤ r.1 * 2 ^ sh else r.1 * 2 ^ sh ≤ m) ∧
    (mode = .rup → if neg then r.1 * 2 ^ sh ≤ m else m ≤ r.1 * 2 ^ sh)

/-- R49, R56: a number a format can hold is delivered as its own encoding with no flag, in every rounding mode, saturating
or not. -/
def Sys2Proof.Machine.Claims.DecodedNumbersAreDeliveredUnchanged : Prop :=
  ∀ (f : FFmt) (mode : RMode) (sat : Bool) (x : Nat), x < 2 ^ f.width → (f.decode x).isNan = false →
    f.deliver mode sat (f.decode x) = (x, 0)

/-- R57: every delivery is an encoding of the format, and one that raises no flag is exact: it decodes to a number equal
to the one delivered. -/
def Sys2Proof.Machine.Claims.FlaglessDeliveryIsExact : Prop :=
  ∀ (f : FFmt) (mode : RMode) (sat neg : Bool) (m : Nat) (e : Int),
    let r := f.deliver mode sat (.fin neg m e)
    r.1 < 2 ^ f.width ∧ (r.2 = 0 → (f.decode r.1).eq (.fin neg m e) = true)

/-- R128, R129, R130, R59: every rounding instruction of majors 0x0B and 0x0C completes when FRM names a mode: the exact
value of its operands, rounded once, in g(d), and the flags delivered. -/
def Sys2Proof.Machine.Claims.FloatingResultsRoundOnce : Prop :=
  ∀ (s : State) (d a b c : BitVec 5) (f sf : BitVec 2) (mode : RMode), s.scalarMode = some mode →
    let fm := fmtOf f
    let x := s.fsrc fm a
    let y := s.fsrc fm b
    let z := s.fsrc fm c
    exec (.fadd d a b f) s = .next (s.fpNext d (delivered fm mode (sumExact mode [x, y]))) ∧
    exec (.fsub d a b f) s = .next (s.fpNext d (delivered fm mode (sumExact mode [x, y.neg]))) ∧
    exec (.fmul d a b f) s = .next (s.fpNext d (delivered fm mode (x.mul y))) ∧
    exec (.fdiv d a b f) s = .next (s.fpNext d (delivered fm mode (x.div y))) ∧
    exec (.fsqrt d a f) s = .next (s.fpNext d (delivered fm mode x.sqrt)) ∧
    exec (.fmadd d a b c f) s = .next (s.fpNext d (delivered fm mode (FVal.fma mode x y z))) ∧
    exec (.fmsub d a b c f) s = .next (s.fpNext d (delivered fm mode (FVal.fma mode x y z.neg))) ∧
    exec (.fnmadd d a b c f) s = .next (s.fpNext d (delivered fm mode (FVal.fma mode x.neg y z.neg))) ∧
    exec (.fnmsub d a b c f) s = .next (s.fpNext d (delivered fm mode (FVal.fma mode x.neg y z))) ∧
    exec (.fcvti d a f) s = .next (s.fpNext d (intResult (x.toIntClamped mode (-(2 ^ 63)) (2 ^ 63 - 1)))) ∧
    exec (.fcvtu d a f) s = .next (s.fpNext d (intResult (x.toIntClamped mode 0 (2 ^ 64 - 1)))) ∧
    exec (.fcvtf d a f) s = .next (s.fpNext d (fm.deliver mode false (FVal.ofInt (s.g a).toInt))) ∧
    exec (.fcvtfu d a f) s = .next (s.fpNext d (fm.deliver mode false (FVal.ofInt (s.g a).toNat))) ∧
    exec (.fcvtff d a sf f) s = .next (s.fpNext d (convertFF fm (fmtOf sf) mode (s.fbitsOf (fmtOf sf) a)))

/-- R45: with 5, 6 or 7 in FRM[2:0] each of them traps ILLEGAL_INSTR, TRAP_INFO holding its word, with no effect. -/
def Sys2Proof.Machine.Claims.ReservedRoundingModeTraps : Prop :=
  ∀ (s : State) (d a b c : BitVec 5) (f sf : BitVec 2), 5 ≤ (s.me.frm.extractLsb' 0 3).toNat →
    ∀ i ∈ [Instr.fadd d a b f, .fsub d a b f, .fmul d a b f, .fdiv d a b f, .fsqrt d a f, .fmadd d a b c f,
        .fmsub d a b c f, .fnmadd d a b c f, .fnmsub d a b c f, .fcvti d a f, .fcvtu d a f, .fcvtf d a f, .fcvtfu d a f,
        .fcvtff d a sf f],
      ∀ w, encode i = some w → exec i s = .next (s.trap (wordTrap causeIllegal w))

/-- R129, R52, R128: the instructions that never round complete whatever FRM holds. -/
def Sys2Proof.Machine.Claims.ExactFloatingInstructions : Prop :=
  ∀ (s : State) (d a b : BitVec 5) (f : BitVec 2),
    let fm := fmtOf f
    let p := s.fbitsOf fm a
    let q := s.fbitsOf fm b
    let x := fm.decode p
    let y := fm.decode q
    let sgn := 2 ^ (fm.width - 1)
    exec (.fmin d a b f) s = .next (s.fpNext d (minMaxBits fm false p q)) ∧
    exec (.fmax d a b f) s = .next (s.fpNext d (minMaxBits fm true p q)) ∧
    exec (.fsgnj d a b f) s = .next (s.fpNext d (p % sgn + q / sgn * sgn, 0)) ∧
    exec (.fsgnjn d a b f) s = .next (s.fpNext d (p % sgn + (1 - q / sgn) * sgn, 0)) ∧
    exec (.fsgnjx d a b f) s = .next (s.fpNext d (p % sgn + (p / sgn + q / sgn) % 2 * sgn, 0)) ∧
    exec (.feq d a b f) s =
      .next (s.fpNext d (if x.eq y then 1 else 0, if x.isSignalling || y.isSignalling then flagNV else 0)) ∧
    exec (.flt d a b f) s =
      .next (s.fpNext d (if x.lt y then 1 else 0, if x.isNan || y.isNan then flagNV else 0)) ∧
    exec (.fle d a b f) s =
      .next (s.fpNext d (if x.lt y || x.eq y then 1 else 0, if x.isNan || y.isNan then flagNV else 0)) ∧
    (∃ k, k < 10 ∧ exec (.fclass d a f) s = .next (s.fpNext d (2 ^ k, 0)) ∧ (8 ≤ k ↔ x.isNan = true) ∧
      ((k = 0 ∨ k = 7) ↔ x.isInf = true) ∧ (k ≤ 3 → x.sign = true) ∧ (4 ≤ k → x.sign = false))

/-- R44, R45, R60: flags raised are ORed into FFLAGS; with none of them enabled in FRM the instruction completes; an enabled
one takes FP_ENABLED, outside a frame with TRAP_PC at the instruction itself, its results and flags delivered. -/
def Obligations.FlagDelivery : Prop :=
  ∀ (s : State) (fl : Flags),
    let t := s.finish fl
    t.me.fflags = s.me.fflags ||| fl ∧ t.me.g = s.me.g ∧ s.cur = t.cur ∧
      (∀ sid, sid ≠ s.cur → t.strand sid = s.strand sid) ∧ t.mem = s.mem ∧ t.cores = s.cores ∧
      (fl &&& s.me.frm.extractLsb' 8 5 = 0 → s.OnlyRunning t ∧ s.me.OnlyGFlags 0 t.me) ∧
      (fl &&& s.me.frm.extractLsb' 8 5 ≠ 0 → s.me.frame = none →
        t.me.trapCause = 0x0E ∧ t.me.trapPc = s.me.pc ∧
          t.me.trapInfo = (fl &&& s.me.frm.extractLsb' 8 5).setWidth 64)

/-! ### Memory, scalar accesses and atomics -/

namespace Sys2Proof.Machine

/-- What an access of the running strand may go ahead on: a place of the own package, the address checks passed with
`s1` after them, nothing else of the class outstanding elsewhere (R355). -/
def State.accessible (s : State) (kind : AccessKind) (a : Word) (n cls : Nat) (p : Place) (s1 : State) : Prop :=
  aligned a n = true ∧ s.resolve s.actor kind a n = .ok (p, s1) ∧ s1.mayTarget s.cur cls none = true ∧
    (∀ dev pa, p ≠ .fabric dev pa)

/-- The signed value of a number of `n` bytes, as 64 bits. -/
def signedWord (n x : Nat) : Word := BitVec.ofInt 64 (if 2 ^ (8 * n - 1) ≤ x then (x : Int) - 2 ^ (8 * n) else x)

/-- The loads of `n` bytes (R131). -/
def loadForms (n : Nat) (d b : BitVec 5) (c : BitVec 4) (h : BitVec 2) (o : BitVec 10) : List Instr :=
  match n with
  | 1 => [.lb d b c h o, .lbu d b c h o]
  | 2 => [.lh d b c h o, .lhu d b c h o]
  | 4 => [.lw d b c h o, .lwu d b c h o]
  | 8 => [.ld d b c h o]
  | _ => []

/-- The store of `n` bytes (R131). -/
def storeForms (n : Nat) (d b : BitVec 5) (c : BitVec 4) (h : BitVec 2) (o : BitVec 10) : List Instr :=
  match n with
  | 1 => [.sb d b c h o]
  | 2 => [.sh d b c h o]
  | 4 => [.sw d b c h o]
  | 8 => [.sd d b c h o]
  | _ => []

/-- The value R133's table gives an AMO at its location, over unbounded integers; op 9 is FADD (R64). -/
def amoValue (n op m y : Nat) : Nat :=
  let sg (v : Nat) : Int := if 2 ^ (8 * n - 1) ≤ v then (v : Int) - 2 ^ (8 * n) else v
  match op with
  | 0 => y
  | 1 => (m + y) % 2 ^ (8 * n)
  | 2 => m &&& y
  | 3 => m ||| y
  | 4 => m ^^^ y
  | 5 => if sg m ≤ sg y then m else y
  | 6 => if sg m ≤ sg y then y else m
  | 7 => if m ≤ y then m else y
  | 8 => if m ≤ y then y else m
  | _ => (faddBits n m y).1

end Sys2Proof.Machine

/-- R5: what is written is what is read: `n` bytes little-endian, and no byte outside the run changes. -/
def Sys2Proof.Machine.Claims.PlainBytes : Prop :=
  ∀ (s : State) (a n x : Nat),
    (s.writeMem a n x).readMem a n = x % 256 ^ n ∧
    (∀ i, i < n → (s.writeMem a n x).byteAt (a + i) = BitVec.ofNat 8 (x / 256 ^ i)) ∧
    (∀ b, b < a ∨ a + n ≤ b → (s.writeMem a n x).byteAt b = s.byteAt b)

/-- R315: a page reads as it was written only under the key it was written with. A write leaves its sectors under its key;
under that key the run reads back and every other byte is as before; sectors it does not touch are as before under every
key; and a sector written under another key reads as the bytes `Config.otherKey` leaves open (log entry 26). -/
def Sys2Proof.Machine.Claims.BytesUnderKeys : Prop :=
  ∀ (s : State) (key : Option (BitVec 512)) (a n x : Nat),
    let t := s.writeUnder key a n x
    (∀ sec, 0 < n → a / 32 ≤ sec → sec ≤ (a + n - 1) / 32 → t.sectorKey sec = key) ∧
    t.readUnder key a n = x % 256 ^ n ∧
    (∀ i, i < n → t.byteUnder key (a + i) = BitVec.ofNat 8 (x / 256 ^ i)) ∧
    (∀ b, b < a ∨ a + n ≤ b → t.byteUnder key b = s.byteUnder key b) ∧
    (∀ b other, b / 32 < a / 32 ∨ (a + n - 1) / 32 < b / 32 → t.byteUnder other b = s.byteUnder other b) ∧
    (∀ b other, s.sectorKey (b / 32) ≠ other → s.byteUnder other b =
      (Config.otherKey (s.sectorKey (b / 32)) other (b / 32)
        (BitVec.ofNat 256 (s.readMem (b / 32 * 32) 32))).extractLsb' (8 * (b % 32)) 8)

/-- R131, R132: a load of the own package's memory or scratchpads that passes its checks and meets no poison writes g(d),
sign- or zero-extended, and completes. The address is g(base) plus the offset times the size. -/
def Sys2Proof.Machine.Claims.LoadsComplete : Prop :=
  ∀ (s s1 : State) (d b : BitVec 5) (c : BitVec 4) (h : BitVec 2) (o : BitVec 10) (n : Nat) (p : Place),
    let a : Word := s.g b + BitVec.ofInt 64 (o.toInt * n)
    s.accessible .load a n c.toNat p s1 → s1.placePoisoned p n = false →
    (n = 1 → exec (.lb d b c h o) s = .next (s1.writeG d (signedWord 1 (s1.readPlace p 1))) ∧
      exec (.lbu d b c h o) s = .next (s1.writeG d (BitVec.ofNat 64 (s1.readPlace p 1)))) ∧
    (n = 2 → exec (.lh d b c h o) s = .next (s1.writeG d (signedWord 2 (s1.readPlace p 2))) ∧
      exec (.lhu d b c h o) s = .next (s1.writeG d (BitVec.ofNat 64 (s1.readPlace p 2)))) ∧
    (n = 4 → exec (.lw d b c h o) s = .next (s1.writeG d (signedWord 4 (s1.readPlace p 4))) ∧
      exec (.lwu d b c h o) s = .next (s1.writeG d (BitVec.ofNat 64 (s1.readPlace p 4)))) ∧
    (n = 8 → exec (.ld d b c h o) s = .next (s1.writeG d (BitVec.ofNat 64 (s1.readPlace p 8))))

/-- R131, R132: a store that passes its checks writes the low bytes of g(d) at its place and completes. -/
def Sys2Proof.Machine.Claims.StoresComplete : Prop :=
  ∀ (s s1 : State) (d b : BitVec 5) (c : BitVec 4) (h : BitVec 2) (o : BitVec 10) (n : Nat) (p : Place),
    let a : Word := s.g b + BitVec.ofInt 64 (o.toInt * n)
    s.accessible .store a n c.toNat p s1 →
    (n = 1 → exec (.sb d b c h o) s = .next (s1.writePlace p 1 ((s.g d).toNat % 2 ^ 8)).retire) ∧
    (n = 2 → exec (.sh d b c h o) s = .next (s1.writePlace p 2 ((s.g d).toNat % 2 ^ 16)).retire) ∧
    (n = 4 → exec (.sw d b c h o) s = .next (s1.writePlace p 4 ((s.g d).toNat % 2 ^ 32)).retire) ∧
    (n = 8 → exec (.sd d b c h o) s = .next (s1.writePlace p 8 (s.g d).toNat).retire)

/-- R115, R132: the order of an access's traps, for every size of load and store: MISALIGNED first, then what the address
checks answer, in the state they leave (R312), then, for a load, MEM_POISON; the first and the last name the address in
TRAP_ADDR. -/
def Sys2Proof.Machine.Claims.AccessTrapsInOrder : Prop :=
  ∀ (s : State) (d b : BitVec 5) (c : BitVec 4) (h : BitVec 2) (o : BitVec 10) (n : Nat) (i : Instr),
    let a : Word := s.g b + BitVec.ofInt 64 (o.toInt * n)
    (i ∈ loadForms n d b c h o ++ storeForms n d b c h o → a.toNat % n ≠ 0 →
      exec i s = .next (s.trap (addrTrap causeMisaligned a))) ∧
    (i ∈ loadForms n d b c h o → a.toNat % n = 0 →
      (∀ t s1, s.resolve s.actor .load a n = .error (.trap t, s1) → exec i s = .next (s1.trap t)) ∧
      ∀ p s1, s.accessible .load a n c.toNat p s1 → s1.placePoisoned p n = true →
        exec i s = .next (s1.trap (addrTrap causeMemPoison a))) ∧
    (i ∈ storeForms n d b c h o → a.toNat % n = 0 →
      ∀ t s1, s.resolve s.actor .store a n = .error (.trap t, s1) → exec i s = .next (s1.trap t))

/-- R65, R303, R310: the address checks in their order: no address, then the window, then DOMAIN_RIGHTS where the PLB grants
nothing, then the page's fault; a fetch faults as FAULT_FETCH throughout. A check that has to wait for the service cores
while the firmware is being switched (R367) is no fault, nor is the wait of an access that is not atomic for its turn at a
combining queue of its location (R349; which accesses join is log entry 91). -/
def Sys2Proof.Machine.Claims.AddressChecksInOrder : Prop :=
  ∀ (s : State) (who : Actor) (kind : AccessKind) (a : Word) (n : Nat),
    (classOf a = .none → s.resolve who kind a n = .error (.trap (addrTrap (faultOf kind) a), s)) ∧
    (classOf a = .window → kind = .fetch → s.resolve who kind a n = .error (.trap (addrTrap causeFaultFetch a), s)) ∧
    (classOf a = .window → kind ≠ .fetch →
      (∀ t, s.windowPlace (coreOf who.sid) kind a n = .error t → s.resolve who kind a n = .error (.trap t, s)) ∧
      ∀ p, s.windowPlace (coreOf who.sid) kind a n = .ok p → s.resolve who kind a n = .ok (p, s)) ∧
    (classOf a = .ordinary → s.fillWaits who a.toNat = true → s.resolve who kind a n = .error (.busy, s)) ∧
    (∀ s1, classOf a = .ordinary → s.fillWaits who a.toNat = false →
      (s.plbGrants who (rightsNeeded kind) a.toNat = (false, s1) → s.resolve who kind a n =
        .error (.trap (addrTrap (if kind = .fetch then causeFaultFetch else causeDomainRights) a), s1)) ∧
      (s.plbGrants who (rightsNeeded kind) a.toNat = (true, s1) →
        (s1.walkWaits a.toNat = true → s.resolve who kind a n = .error (.busy, s1)) ∧
        (s1.walkWaits a.toNat = false →
          (s1.translate kind a.toNat = none → s.resolve who kind a n = .error (.trap (addrTrap (faultOf kind) a), s1)) ∧
          ∀ p s2, s1.translate kind a.toNat = some (p, s2) →
            (kind = .atomic → s.resolve who kind a n = .ok (p, s2)) ∧
            (kind ≠ .atomic → ∀ s3, (s2.takeTurn who p n = .ok s3 → s.resolve who kind a n = .ok (p, s3)) ∧
              (s2.takeTurn who p n = .error s3 → s.resolve who kind a n = .error (.busy, s3))))))

/-- R306, R311, R312: what an address check that passes may change: the PLB of the actor's core, the translations held with
what a migration expects of a leaf, and A and D bits of leaves: behind the PLB those of the address's own leaf, in a fill
those of the leaves of the rights list, none where the PLB holds an entry or the strand names no list. Every other byte of
memory and every strand is as before; an access may have left a combining queue in its turn (R349). -/
def Sys2Proof.Machine.Claims.AddressCheckFrame : Prop :=
  ∀ (s s1 : State) (who : Actor) (kind : AccessKind) (a : Word) (n : Nat) (p : Place),
    s.resolve who kind a n = .ok (p, s1) →
      let s0 := s.afterPlb who kind a
      s1 = { s with
        mem := s1.mem, cores := s1.cores, translations := s1.translations, migrations := s1.migrations
        combining := s1.combining } ∧
      (∀ c, s1.core c = { s.core c with plb := (s1.core c).plb }) ∧
      (∀ x, (∀ l, s0.leafOf kind a = some l → x < l ∨ l + 8 ≤ x) → s1.byteAt x = s0.byteAt x) ∧
      (∀ x, s0.byteAt x &&& ~~~(0x20 : Byte) = s.byteAt x &&& ~~~(0x20 : Byte)) ∧
      ((s.plbEntry who.sid who.domain a.toNat).isSome ∨ who.plb.extractLsb' 12 52 = 0 →
        s0.mem = s.mem)

/-- R131: whatever a load or a store of any size ends in, its frame: outside the bytes stored to and the leaf's A and D bits no byte of
memory changes, but for the rest of a sector that another key wrote (R315); under the store's own key that rest is as it
was; no other strand's registers change; of its own the general registers but g(d) are kept, a store's all. -/
def Sys2Proof.Machine.Claims.LoadStoreLeavesTheRest : Prop :=
  ∀ (s t : State) (d b : BitVec 5) (c : BitVec 4) (h : BitVec 2) (o : BitVec 10) (n : Nat) (i : Instr),
    let a : Word := s.g b + BitVec.ofInt 64 (o.toInt * n)
    (i ∈ loadForms n d b c h o → exec i s = .next t →
      (∀ x, s.offLeaf .load a x → t.byteAt x = s.byteAt x) ∧ t.sectorKeys = s.sectorKeys ∧
      (∀ sid, sid ≠ s.cur → t.strand sid = s.strand sid) ∧ (∀ r, r ≠ d → t.me.getG r = s.me.getG r)) ∧
    (i ∈ storeForms n d b c h o → exec i s = .next t →
      (∀ x, s.offLeaf .store a x →
        (∀ f s1, s.resolve s.actor .store a n = .ok (.mem f, s1) →
          (∀ k, k < n → x ≠ f.byte k) ∧ (x / 32 ∈ f.sectors n → s.sectorKey (x / 32) = f.keyOf 0)) →
        t.byteAt x = s.byteAt x) ∧
      (∀ f s1 x, a.toNat % n = 0 → s.resolve s.actor .store a n = .ok (.mem f, s1) → (∀ k, k < n → x ≠ f.byte k) →
        t.byteUnder (f.keyOf 0) x = s1.byteUnder (f.keyOf 0) x) ∧
      (∀ sid, sid ≠ s.cur → t.strand sid = s.strand sid) ∧ t.me.g = s.me.g)

/-- R133, R134: an atomic on the own package that passes its checks, has no Steep entry to send first and no combining queue of
its location to await, an ADD none to join or open either (R349): the old value to g(d), sign-extended (FADD's zero-extended),
the new value at the place, as one step. CAS writes only where the location holds the old g(d). An ADD counts among those
that come to its home agent in the cycle (log entry 91). -/
def Sys2Proof.Machine.Claims.AtomicsComplete : Prop :=
  ∀ (s s0 s1 : State) (d a b : BitVec 5) (c : BitVec 4) (q r w : BitVec 1) (p : Place),
    let n := if w = 1 then 8 else 4
    let m := s1.readPlace p n
    let y := (s.g b).toNat % 2 ^ (8 * n)
    let held := (s.g d).toNat % 2 ^ (8 * n)
    s.accessible .atomic (s.g a) n c.toNat p s0 → s0.takeTurn s.actor p n = .ok s1 → s1.placePoisoned p n = false →
    (r = 1 → s0.coveredEntries s.cur (placeScope (coreOf s.cur) p) (BitVec.ofNat 16 (2 ^ c.toNat)) = []) →
    (∀ i op, (i, op) ∈ [(Instr.amoSwap d a b c q r w, 0), (.amoAnd d a b c q r w, 2),
        (.amoOr d a b c q r w, 3), (.amoXor d a b c q r w, 4), (.amoMin d a b c q r w, 5), (.amoMax d a b c q r w, 6),
        (.amoMinu d a b c q r w, 7), (.amoMaxu d a b c q r w, 8)] →
      exec i s = .next (((s1.writePlace p n (amoValue n op m y)).setG d (signedWord n m)).finish 0)) ∧
    (s0.combineAmo p (s.g a) n 1 (BitVec.ofNat 64 y) = none →
      let u := s1.writePlace p n (amoValue n 1 m y)
      let v : State := match p with | .mem f => u.addCame (f.byte 0) n | _ => u
      exec (.amoAdd d a b c q r w) s = .next ((v.setG d (signedWord n m)).finish 0)) ∧
    exec (.amoFadd d a b c q r w) s =
      .next (((s1.writePlace p n (faddBits n m y).1).setG d (BitVec.ofNat 64 m)).finish (faddBits n m y).2) ∧
    exec (.cas d a b c q r w) s =
      .next (((if m = held then s1.writePlace p n y else s1).setG d (signedWord n m)).finish 0)

/-- R132, R64, R353: the answer of another device to a waiting load, AMO or CAS completes it: the bytes to g(d), FADD's flags
delivered; a fault status is the instruction's own trap (the AUX of FADD's flags is log entry 9). -/
def Sys2Proof.Machine.Claims.RemoteAnswersComplete : Prop :=
  ∀ (s : State) (sid xtag n : Nat) (d : BitVec 5) (sg fadd : Bool) (a : Word) (r : FabricReq) (data : List Byte),
    s.fabricReq xtag = some r →
    let s1 := s.dropReq xtag
    let from_ := r.packet.mask.toNat.log2 + 1 - n
    ((s.strand sid).wait = .load xtag d n sg a →
      (r.answer = some (0, data) → exec (.loadDataReturn sid) s =
        .next (s1.asStrand sid (fun s => s.writeG d (extend n sg (numOf ((data.drop (from_ % 64)).take n)))))) ∧
      (r.answer = some (1, data) → exec (.loadDataReturn sid) s =
        .next (s1.asStrand sid (fun s => s.trap (addrTrap causeFaultRead a)))) ∧
      (r.answer = some (3, data) → exec (.loadDataReturn sid) s =
        .next (s1.asStrand sid (fun s => s.trap (addrTrap causeMemPoison a))))) ∧
    ((s.strand sid).wait = .amo xtag d n fadd a →
      (r.answer = some (0, data) → exec (.amoResponse sid) s =
        .next (s1.asStrand sid (fun s => (s.setG d (amoResult n (if fadd then 9 else 0) (numOf (data.take n)))).finish
          (if fadd then BitVec.ofNat 5 (numOf ((data.drop n).take 1)) else 0)))) ∧
      (r.answer = some (2, data) → exec (.amoResponse sid) s =
        .next (s1.asStrand sid (fun s => s.trap (addrTrap causeFaultWrite a)))))

/-- The refused stores of the running strand that a fence's mask covers, in program order (R136). -/
def Sys2Proof.Machine.State.refusedOf (s : State) (m : BitVec 16) : List Refused :=
  s.me.refused.filter (fun r => m.getLsbD r.cls)

/-- R91, R92, R94, R103, R135 to R137: a fence that covers no refused store and has nothing left to await completes; one that
must wait completes by FENCE_COMPLETION when nothing is left. A strand-scope fence takes the trap of a stopped card of its
strand (R103); one of a wider scope neither waits for cards nor reports them (log entry 42, DEDUCED). VDRAIN completes at once, the strand's later vector accesses of its classes standing behind the unanswered
scalar stores of those classes (R94). IFENCE waits for the strand's earlier stores of every class and then empties the
core's instruction cache. -/
def Sys2Proof.Machine.Claims.FencesRun : Prop :=
  ∀ (s : State) (k : BitVec 2) (sc : BitVec 3) (m : BitVec 16) (sid kind scope : Nat),
    let sk := s.resolveScope sc.toNat
    (m = 0 → exec (.fence k sc m) s = .next (s.drain m).retire) ∧
    (∀ s1, m ≠ 0 → s.fenceCards s.cur sk = (none, s1) →
      let s2 := if k = 1 then s1 else s1.flushCovered s.cur sk m
      (s2.fenceDone s.cur k.toNat sk m = true → s2.refusedOf m = [] ∨ collects k.toNat sk = false →
        exec (.fence k sc m) s = .next (s2.drain m).retire) ∧
      (s2.fenceDone s.cur k.toNat sk m = true → exec (.fence k sc m) s = .next (s2.finishFence k.toNat sk m)) ∧
      (s2.fenceDone s.cur k.toNat sk m = false → exec (.fence k sc m) s = .next (s2.waiting (.fence k.toNat sk m)))) ∧
    (∀ t s1, m ≠ 0 → s.fenceCards s.cur sk = (some t, s1) → exec (.fence k sc m) s = .next (s1.trap t)) ∧
    (sk ≠ 0 → s.fenceCards s.cur sk = (none, s)) ∧
    ((s.strand sid).wait = .fence kind scope m → s.fenceDone sid kind scope m = true →
      exec (.fenceCompletion sid) s = .next (s.asStrand sid (fun s => s.finishFence kind scope m)) ∧
      ((s.strand sid).refused.filter (fun r => m.getLsbD r.cls) = [] ∨ collects kind scope = false →
        exec (.fenceCompletion sid) s = .next (s.asStrand sid (fun s => (s.drain m).retire)))) ∧
    exec (.vdrain m) s = .next (s.drain m).retire ∧
    (∀ c, m.getLsbD c = true → (∃ r ∈ s.fabric, ∃ k, r.storeOf s.cur = some (c, k)) →
      (s.drain m).drainHolds s.cur c = true) ∧
    (s.storesAnswered s.cur (BitVec.allOnes 16) = true →
      exec .ifence s = .next (s.setMyCore { s.myCore with icache := [] }).retire) ∧
    (s.storesAnswered s.cur (BitVec.allOnes 16) = false → exec .ifence s = .next (s.waiting .poll))

/-- R136: a full or release fence of fabric or system scope takes LINK_DOWN for the refused stores of its classes, once,
with the oldest one's address and their number; with none it completes. -/
def Sys2Proof.Machine.Claims.FenceReportsRefusedStores : Prop :=
  ∀ (s : State) (kind scope : Nat) (m : BitVec 16),
    let hit := s.refusedOf m
    (hit = [] ∨ kind = 1 ∨ scope < 5 → s.finishFence kind scope m = (s.drain m).retire) ∧
    (∀ r rest, hit = r :: rest → kind ≠ 1 → 5 ≤ scope → s.me.frame = none →
      let t := s.finishFence kind scope m
      t.me.trapCause = 0x17 ∧ t.me.trapAddr = r.addr ∧ t.me.trapPc = s.me.pc ∧
        t.me.trapInfo = BitVec.ofNat 64 ((rest.length + 1) % 2 ^ 32) ∧ t.refusedOf m = []) ∧
    (∀ r, (s.me.refused.map Refused.order).Pairwise (· ≤ ·) →
      ((s.me.refuse r).refused.map Refused.order).Pairwise (· ≤ ·) ∧
        ∀ q, q ∈ (s.me.refuse r).refused ↔ q = r ∨ q ∈ s.me.refused)

/-! ### Exceptions, modes, CSRs -/

namespace Sys2Proof.Machine

/-- Whether an instruction names none but S-mode's operations of major 0x20 (R142). -/
def supervisorInstrs (a : BitVec 5) : List Instr := [.eret, .plbinv a, .htinv a, .strandpark a, .strandwake a]

/-- What one event at a boundary leaves: the strand brought to it, the event's bits cleared, the trap entered (R289). -/
def State.taken (s s1 : State) (sid : Nat) (t : Trap) (clears : BitVec 4) (async : Bool) : State :=
  (s1.setStrand sid { s1.strand sid with
    ipend := (s1.strand sid).ipend &&& ~~~clears
    asyncDue := if async then none else (s1.strand sid).asyncDue }).trapOn sid
      { t with elem := (s.strand sid).elemNow }

/-- Whether a strand may take an event now, and waits for nothing (R18, R289, R296). -/
def State.quietStrand (s : State) (sid : Nat) : Prop := s.attends sid = true ∧ (s.strand sid).wait = .none

end Sys2Proof.Machine

/-- R288: trap entry on any strand: PMODE and PIE take MODE and IE, IE becomes 0 and MODE S, PHDLR tells whether a handler is
active, MCX is set by a MACHINE_CHECK in S-mode with IE 0 and else kept, the trap CSRs take the cause's values, TRAP_INFO
[63:48] the frame's (R117), and the pc goes to TVEC. Nothing else of the strand changes, no other strand, no memory. -/
def Sys2Proof.Machine.Claims.TrapEntryRegisters : Prop :=
  ∀ (s : State) (sid : Nat) (t : Trap),
    let x := s.strand sid
    let u := s.trapOn sid t
    let y := u.strand sid
    y.status.extractLsb' 0 2 = 1 ∧ y.status.extractLsb' 2 2 = x.status.extractLsb' 0 2 ∧
      y.status.getLsbD 5 = x.status.getLsbD 4 ∧ y.status.getLsbD 4 = false ∧
      y.status.getLsbD 7 = x.handler.isSome ∧
      y.status.getLsbD 8 =
        (x.status.getLsbD 8 || (t.cause == 0x83 && !x.status.getLsbD 4 && x.status.extractLsb' 0 2 == 1)) ∧
      y.trapCause = t.cause ∧ y.trapPc = x.pc ∧ y.trapAddr = t.addr ∧ y.trapElem = t.elem ∧
      y.trapInfo = frameInfo x.frame ++ t.info ∧ y.pc = x.tvec &&& ~~~(3 : Word) ∧ x.OnlyEntry y ∧
      (∀ i, i ≠ sid → u.strand i = s.strand i) ∧ u.mem = s.mem ∧ u.cores = s.cores ∧ u.domains = s.domains

/-- R117: TRAP_INFO[63:48] of a trap inside a frame: FRAME, REPLAY and INDEX of the execution; 0 outside one. -/
def Sys2Proof.Machine.Claims.FrameStateInTrapInfo : Prop :=
  frameInfo none = 0 ∧ ∀ (f : Frame), f.k < 64 → f.j < 16 →
    (frameInfo (some f)).getLsbD 15 = true ∧ ((frameInfo (some f)).extractLsb' 8 6).toNat = f.k ∧
      ((frameInfo (some f)).extractLsb' 0 4).toNat = f.j ∧ (frameInfo (some f)).extractLsb' 4 4 = 0

/-- R245: a capture a strand holds is released with CAPTURE_LOST before a trap of the strand is entered. -/
def Sys2Proof.Machine.Claims.TrapReleasesCapture : Prop :=
  ∀ (s : State) (sid : Nat) (t : Trap) (c : Capture), s.captureOf sid = some c →
    let u := s.trapOn sid t
    u.captureOf sid = none ∧ u.reentries = s.reentries ++ [⟨{ c.rec_ with lost := true }, sid / 4⟩]

/-- R142, R299: ECALL and EBREAK trap at their own address; EBREAK halts the core in place of trapping while EBRK is set, and
leaves the pc where it is (log entry 48, DEDUCED). -/
def Sys2Proof.Machine.Claims.EnvironmentCallsTrap : Prop :=
  ∀ (s : State),
    exec .ecall s = .next (s.trap ⟨0x0C, 0, 0, 0⟩) ∧
    (s.myCore.ebrk = false → exec .ebreak s = .next (s.trap ⟨0x0D, 0, 0, 0⟩)) ∧
    (s.myCore.ebrk = true → exec .ebreak s = .next (s.haltCore (coreOf s.cur)))

/-- R290: ERET in S-mode with a valid PMODE and no frame to resume (TRAP_INFO records none, or the word at TRAP_PC is no REPF):
MODE and IE take PMODE and PIE, control is at TRAP_PC, an interrupted handler restarts its budget, and every other register is
as before. -/
def Sys2Proof.Machine.Claims.ReturnToProgram : Prop :=
  ∀ (s s1 : State),
    (s.me.trapInfo.getLsbD 63 = false → s.resumePoint = .ok (none, s)) ∧
    (∀ w, s.me.trapInfo.getLsbD 63 = true → s.fetchWord s.cur s.me.trapPc = .ok (w, s1) →
      ¬(w.extractLsb' 26 6 = 0x30 ∧ w.extractLsb' 0 7 = 0) → s.resumePoint = .ok (none, s1)) ∧
    (s.me.mode ≠ .u → (s.me.status.extractLsb' 2 2).toNat < 2 → s.resumePoint = .ok (none, s1) →
      let x := s1.me
      ∃ t, exec .eret s = .next t ∧ s1.OnlyRunning t ∧
        t.me.status.extractLsb' 0 2 = x.status.extractLsb' 2 2 ∧ t.me.status.getLsbD 4 = x.status.getLsbD 5 ∧
        t.me.status.extractLsb' 2 2 = x.status.extractLsb' 2 2 ∧ t.me.status.getLsbD 5 = x.status.getLsbD 5 ∧
        t.me.pc = x.trapPc ∧ t.me.frame = none ∧ t.me.wait = .none ∧
        (∀ h, x.handler = some h → t.me.handler = some { h with left := s1.myCore.handlerBudget }) ∧
        (x.handler = none → t.me.handler = none) ∧
        t.me = { x with
          status := t.me.status, pc := t.me.pc, frame := none, wait := .none, gathered := [], handler := t.me.handler
          reassignCount := t.me.reassignCount })

/-- R290: ERET resumes a recorded frame at its replay and index when the word at TRAP_PC is the REPF, its words to be captured
afresh before the next execution (log entry 49, DEDUCED); a point outside the frame, and a PMODE of 10 or 11, trap
ILLEGAL_INSTR at the ERET. -/
def Sys2Proof.Machine.Claims.ReturnIntoFrame : Prop :=
  ∀ (s : State), s.me.mode ≠ .u → ∀ w, encode .eret = some w →
    (2 ≤ (s.me.status.extractLsb' 2 2).toNat → exec .eret s = .next (s.trap (wordTrap causeIllegal w))) ∧
    (∀ f s1, (s.me.status.extractLsb' 2 2).toNat < 2 → s.resumePoint = .ok (some f, s1) →
      ∃ t, exec .eret s = .next t ∧ t.me.frame = some f ∧ t.me.pc = s1.me.trapPc ∧
        f.k = (s.me.trapInfo.extractLsb' 56 6).toNat ∧ f.j = (s.me.trapInfo.extractLsb' 48 4).toNat ∧
        f.k < f.replays ∧ f.j < f.words.length ∧ f.stale = true) ∧
    (∀ u s1, (s.me.status.extractLsb' 2 2).toNat < 2 → s.resumePoint = .error (.trap u, s1) →
      exec .eret s = .next (s1.trap (wordTrap causeIllegal w)))

/-- R142, R296, R307, R313: from U-mode, ERET, PLBINV, HTINV, STRANDPARK and STRANDWAKE trap PRIVILEGED, TRAP_INFO holding
the word. -/
def Sys2Proof.Machine.Claims.SupervisorInstructionsTrapInUserMode : Prop :=
  ∀ (s : State) (a : BitVec 5), s.me.mode = .u → ∀ i ∈ supervisorInstrs a, ∀ w, encode i = some w →
    exec i s = .next (s.trap (wordTrap causePrivileged w))

/-- R142, R143: WFI and PAUSE complete at once when a wake condition holds and else wait, PAUSE for 64 cycles at most; YIELD
leaves the rotations for 8 cycles; a wake condition ends a WFI and a PAUSE, the last of the cycles a PAUSE and a YIELD. -/
def Sys2Proof.Machine.Claims.WaitsAndWakes : Prop :=
  ∀ (s : State) (sid t : Nat),
    (s.wakeHolds s.cur = true → exec .wfi s = .next s.retire ∧ exec .pause s = .next s.retire) ∧
    (s.wakeHolds s.cur = false → exec .wfi s = .next (s.waiting .wfi) ∧
      exec .pause s = .next (s.waiting (.pause (s.cycle + 64) true))) ∧
    exec .yield s = .next (s.waiting (.pause (s.cycle + 8) false)) ∧
    ((s.strand sid).wait = .wfi ∨ (s.strand sid).wait = .pause t true → s.wakeHolds sid = true →
      exec (.wakeCondition sid) s = .next (s.asStrand sid State.retire)) ∧
    (∀ w, (s.strand sid).wait = .pause t w → t ≤ s.cycle →
      exec (.pauseExpiry sid) s = .next (s.asStrand sid State.retire))

/-- R296: from S-mode, STRANDPARK parks a strand of the partition that has come to its boundary, and waits for one whose
instruction holds, which is PARKED only behind it; STRANDWAKE unparks a parked one, and sets INTERSTRAND pending on one that is
not parked, whatever it waits for, ending a WFI or a PAUSE (R143) and no other wait; a strand outside the partition traps
DOMAIN_RIGHTS. -/
def Sys2Proof.Machine.Claims.ParkAndWake : Prop :=
  ∀ (s : State) (a : BitVec 5), s.me.mode ≠ .u →
    (s.parkTarget (s.g a) = none →
      exec (.strandpark a) s = .next (s.trap (addrTrap causeDomainRights (s.g a))) ∧
      exec (.strandwake a) s = .next (s.trap (addrTrap causeDomainRights (s.g a)))) ∧
    (∀ sid, s.parkTarget (s.g a) = some sid →
      (sid = s.cur → exec (.strandpark a) s = .next (s.retire.park sid)) ∧
      (sid ≠ s.cur → (s.strand sid).wait = .none →
        ∃ t, exec (.strandpark a) s = .next t ∧ (t.strand sid).parked = true ∧ (t.strand sid).g = (s.strand sid).g ∧
          (t.strand sid).pc = (s.strand sid).pc ∧ t.me.getG a = s.g a) ∧
      (sid ≠ s.cur → (s.park sid).atRest sid = false →
        exec (.strandpark a) s = .next ((s.park sid).waiting .poll) ∧
          ((s.park sid).strand sid).parked = (s.quiet sid |>.strand sid).parked ∧
          ((s.park sid).strand sid).parking = true) ∧
      ((s.strand sid).parked = true →
        exec (.strandwake a) s = .next (s.setStrand sid { s.strand sid with parked := false }).retire) ∧
      ((s.strand sid).parked = false →
        let s1 := s.setStrand sid { s.strand sid with
          ipend := (s.strand sid).ipend ||| 4, lastWaker := BitVec.ofNat 13 s.cur }
        let sleeps := (s.strand sid).wait = .wfi ∨ ∃ e, (s.strand sid).wait = .pause e true
        (sleeps → exec (.strandwake a) s = .next (s1.asStrand sid State.retire).retire) ∧
          (¬ sleeps → exec (.strandwake a) s = .next s1.retire)))

/-- R140: a permitted CSR access with nothing to wait for: g(d) gets the old value; CSRRW writes g(a), CSRRS and CSRRC set
and clear its bits, under the register's own rules; CSRRD writes nothing. -/
def Sys2Proof.Machine.Claims.CsrInstructionsComplete : Prop :=
  ∀ (s s1 : State) (d a : BitVec 5) (n : BitVec 14) (old : Word),
    s.csrRead s.cur n.toNat = some old → s.csrMustWait n.toNat = false →
    (s.csrDenied n.toNat s.me.mode false = none → exec (.csrrd d n) s = .next (s.writeG d old)) ∧
    (s.csrDenied n.toNat s.me.mode true = none →
      (s.csrStore s.cur n.toNat (s.g a) = .done s1 → exec (.csrrw d a n) s = .next (s1.writeG d old)) ∧
      (s.csrStore s.cur n.toNat (old ||| s.g a) = .done s1 → exec (.csrrs d a n) s = .next (s1.writeG d old)) ∧
      (s.csrStore s.cur n.toNat (old &&& ~~~(s.g a)) = .done s1 → exec (.csrrc d a n) s = .next (s1.writeG d old)))

/-- R44, R140, R284, R285: who may reach which CSR: reading or writing, an S-mode number from U-mode and a service-core number
from either mode trap PRIVILEGED, and an unassigned number traps ILLEGAL_INSTR, one in 0x2000 to 0x2FFF too (log entry 79,
DEDUCED); a write of CAPS, of ARCHVER and of a read-only user CSR traps ILLEGAL_INSTR, and one of VL and VHWE from U-mode
PRIVILEGED. -/
def Sys2Proof.Machine.Claims.CsrAccessTraps : Prop :=
  ∀ (s : State) (d a : BitVec 5) (n : BitVec 14),
    let writes := [Instr.csrrw d a n, .csrrs d a n, .csrrc d a n]
    (∀ i ∈ .csrrd d n :: writes, ∀ w, encode i = some w →
      (isServiceCsr n.toNat = true → exec i s = .next (s.trap (wordTrap causePrivileged w))) ∧
      (0x1000 ≤ n.toNat → n.toNat < 0x2000 → (s.superCsr s.cur n.toNat).isSome → s.me.mode = .u →
        exec i s = .next (s.trap (wordTrap causePrivileged w))) ∧
      (isServiceCsr n.toNat = false → s.csrRead s.cur n.toNat = none →
        exec i s = .next (s.trap (wordTrap causeIllegal w)))) ∧
    (∀ i ∈ writes, ∀ w, encode i = some w →
      (0x3000 ≤ n.toNat → exec i s = .next (s.trap (wordTrap causeIllegal w))) ∧
      (n.toNat ∈ [0x0011, 0x0013, 0x0020, 0x0021, 0x0032, 0x0040, 0x0050, 0x0051, 0x0052, 0x0060, 0x0061, 0x0070, 0x0071,
          0x0080, 0x0081, 0x0082, 0x0083, 0x0090, 0x00A0, 0x00A1, 0x00A2] →
        exec i s = .next (s.trap (wordTrap causeIllegal w))) ∧
      (n.toNat = 0x0010 ∨ (0x0100 ≤ n.toNat ∧ n.toNat < 0x0120) → s.me.mode = .u →
        exec i s = .next (s.trap (wordTrap causePrivileged w))))

/-- R41, R43, R44, R283, R284, R293: what a write leaves in a register that does not keep every bit: the fields of FRM, the
clamped VL, VHWE, STEEP_AGE and HANDLER_BUDGET, the aligned TVEC and TRAP_PC, STATUS with PIE, IE and PMODE taken, MCX cleared
by a 0, MODE and PHDLR kept and rsv bits 0. A row of the table that writes one CSR is the CSR write of the running strand
taken alone (log entry 50, DESIGN CHOICE). -/
def Obligations.CsrWriteRules : Prop :=
  ∀ (s : State) (v : Word) (n : BitVec 5),
    let x := s.me
    let core := coreOf s.cur
    exec (.vl v) s = .next (s.setMe { x with vl := min v.toNat 2048 }) ∧
    (∃ t, exec (.vhwe n v) s = .next t ∧ t = s.setMe { x with v := t.me.v } ∧
      t.me.getV n = { x.getV n with vhwe := min v.toNat 2048, progress := min v.toNat 2048 } ∧
      ∀ m, m ≠ n → t.me.getV m = x.getV m) ∧
    (∃ st, exec (.status v) s = .next (s.setMe { x with status := st }) ∧
      st.extractLsb' 0 2 = x.status.extractLsb' 0 2 ∧ st.getLsbD 7 = x.status.getLsbD 7 ∧
      st.extractLsb' 2 2 = v.extractLsb' 2 2 ∧ st.getLsbD 4 = v.getLsbD 4 ∧ st.getLsbD 5 = v.getLsbD 5 ∧
      st.getLsbD 8 = (x.status.getLsbD 8 && v.getLsbD 8) ∧ st.getLsbD 6 = false ∧ st.extractLsb' 9 55 = 0) ∧
    exec (.csrWrite 0x0030 v) s =
      .next (s.setMe { x with steepAge := min (max (v.toNat % 65536) 32) (s.domainOf x.domain).steepAgeMax }) ∧
    exec (.csrWrite 0x0002 v) s = .next (s.setMe { x with frm := v.extractLsb' 0 13 &&& 0x1F07 }) ∧
    exec (.csrWrite 0x1006 v) s = .next (s.setMe { x with tvec := v &&& ~~~(3 : Word) }) ∧
    exec (.csrWrite 0x1002 v) s = .next (s.setMe { x with trapPc := v &&& ~~~(3 : Word) }) ∧
    exec (.csrWrite 0x1051 v) s =
      .next (s.setMyCore { s.myCore with handlerBudget := max (v.toNat % 65536) 64 }) ∧
    (s.tilesQuiet core = true →
      exec (.tileOwner v) s = .next (s.setMyCore { s.myCore with tileOwner := v.extractLsb' 0 3 })) ∧
    (∃ t, exec (.ttags v) s = .next (s.setMyCore { s.myCore with tileTags := t }) ∧
      ∀ i (h : i < 8), t[i] = if isTileTag (v.extractLsb' (8 * i) 8) then v.extractLsb' (8 * i) 8 else 0) ∧
    (s.myCore.matrix = [] → ∃ t, exec (.atags v) s = .next (s.setMyCore { s.myCore with accTags := t }) ∧
      ∀ i (h : i < 4), t[i] =
        if v.extractLsb' (8 * i) 8 = 0x03 ∨ v.extractLsb' (8 * i) 8 = 0x11 then v.extractLsb' (8 * i) 8 else 0) ∧
    (s.myCore.matrix = [] →
      exec (.fflags 0 v) s = .next (s.setMe { x with fflags := v.extractLsb' 0 5 }) ∧
      exec (.fflags 1 v) s = .next (s.setMe { x with fflags := x.fflags ||| v.extractLsb' 0 5 }) ∧
      exec (.fflags 2 v) s = .next (s.setMe { x with fflags := x.fflags &&& ~~~(v.extractLsb' 0 5) })) ∧
    (∃ t, exec (.steepAgeMax v) s = .next t ∧
      (t.domainOf x.domain).steepAgeMax = max (v.toNat % 65536) 32 ∧
      ∀ sid, strandExists sid = true → (s.strand sid).domain = x.domain →
        (t.strand sid).steepAge = min (s.strand sid).steepAge (max (v.toNat % 65536) 32))

/-- R289: at a strand that waits for nothing the first due event in the order of the rule is taken, with its own
cause: MACHINE_CHECK, HANDLER_OVERRUN, GROUP_BUDGET, STEEP_ASYNC, INTERSTRAND, HOST_REQUEST, TIMER; the interrupts
only in U-mode or with IE, and, but for MACHINE_CHECK, not while a handler is active or a capture is held. STEEP_ASYNC
is taken in S-mode too, whatever IE (log entry 46, the model's reading). -/
def Sys2Proof.Machine.Claims.EventsInOrder : Prop :=
  ∀ (s : State) (sid : Nat), s.quietStrand sid →
    let x := s.strand sid
    let user := x.mode = .u
    let past := user ∧ ∃ h, x.handler = some h ∧ h.left = 0
    let spent := user ∧ x.handler = none ∧ x.running.isSome ∧ x.groupBudget = 0
    let calm := x.handler = none ∧ s.captureOf sid = none
    let pend := s.ipendNow sid &&& x.ien
    let first := x.ipend.getLsbD 3 = false
    let free := first ∧ ¬ past ∧ ¬ spent ∧ calm ∧ x.asyncDue = none ∧ (user ∨ x.ie = true)
    (x.ipend.getLsbD 3 = true → exec (.trapEntry sid) s = .next (s.taken s sid ⟨0x83, 0, 0, x.syndrome⟩ 8 false)) ∧
    (first → past → ∃ h, x.handler = some h ∧
      exec (.handlerOverrun sid) s = .next (s.taken s sid ⟨0x13, 0, 0, BitVec.ofNat 48 h.cls⟩ 0 false)) ∧
    (first → ¬ past → spent → exec (.groupBudget sid) s = .next (s.taken s sid ⟨0x14, 0, 0, 0⟩ 0 false)) ∧
    (∀ n, first → ¬ past → ¬ spent → calm → x.asyncDue = some n →
      exec (.steepAsync sid) s = .next (s.taken s sid ⟨0x12, 0, 0, BitVec.ofNat 48 n⟩ 0 true)) ∧
    (free → pend.getLsbD 2 = true →
      exec (.trapEntry sid) s = .next (s.taken s sid ⟨0x82, 0, 0, x.lastWaker.setWidth 48⟩ 4 false)) ∧
    (free → pend.getLsbD 2 = false → pend.getLsbD 1 = true →
      exec (.trapEntry sid) s = .next (s.taken s sid ⟨0x81, 0, 0, 0⟩ 2 false)) ∧
    (free → pend.getLsbD 2 = false → pend.getLsbD 1 = false → pend.getLsbD 0 = true →
      exec (.trapEntry sid) s = .next (s.taken s sid ⟨0x80, 0, 0, 0⟩ 0 false))

/-- R284, R301, R302, R375: TIMER becomes pending; a machine check is pending with its syndrome on its strand, and,
for a directory or cluster structure (UNIT 9 to 11), on every strand of the cluster (log entry 38, the model's
reading); an uncorrectable error marks its sector, a corrected one is counted and changes nothing else; the thermal
trip raises MACHINE_CHECK with UNIT 10 on every strand, INDEX 0, and cuts the power. -/
def Sys2Proof.Machine.Claims.ErrorsAndTimer : Prop :=
  ∀ (s : State) (sid : Nat) (unit index : BitVec 8) (n : Nat) (u : BitVec 16) (place : BitVec 64),
    (s.timerPending sid = true → exec (.timer sid) s =
      .next (s.setStrand sid { s.strand sid with ipend := (s.strand sid).ipend ||| 1 })) ∧
    (strandExists sid = true → unit ≠ 8 → ∃ t, exec (.machineCheck sid unit index) s = .next t ∧
      ∀ i, i = sid ∨ (9 ≤ unit.toNat ∧ unit.toNat ≤ 11 ∧ strandExists i = true ∧ clusterOf i = clusterOf sid) →
        (t.strand i).ipend = (s.strand i).ipend ||| 8 ∧
        (t.strand i).syndrome = unit ++ (index ++ (0 : BitVec 32))) ∧
    (unit = 8 → ∃ t, exec (.machineCheck sid unit index) s = .next t ∧ t.strands = s.strands ∧ t.mem = s.mem) ∧
    (∃ t, exec (.poisonMark (.sector n)) s = .next t ∧ n ∈ t.poison ∧ t.mem = s.mem ∧ t.strands = s.strands ∧
      ∀ k ∈ s.poison, k ∈ t.poison) ∧
    (∃ t, exec (.softErrorCorrected u place) s = .next t ∧ t = { s with errors := t.errors } ∧
      ∃ e rest, t.errors = e :: rest ∧ e.unit_ = u ∧ e.event = 1 ∧ e.place = place) ∧
    (∃ t, exec .thermalTrip s = .next t ∧ t.powered = false ∧ step t = .fault .poweredOff ∧
      ∀ i, strandExists i = true → (t.strand i).ipend = (s.strand i).ipend ||| 8 ∧
        (t.strand i).syndrome = 0x0A0000000000)

/-- R114, R116, R118: a reserved word traps ILLEGAL_INSTR with the word in TRAP_INFO; REPF with lanes captures the words
behind it and begins at word 0 of replay 0, unless one may not stand in a frame, whose trap names the captured word (log
entry 80, DESIGN CHOICE), or cannot be fetched; with no lanes it traps VECT_NOLANES. The words of a resumed frame are
captured with the same checks before its next execution (log entry 49, DEDUCED). -/
def Sys2Proof.Machine.Claims.IllegalWordsAndFrames : Prop :=
  ∀ (s s1 : State) (w : InstrWord) (c : BitVec 4) (r : BitVec 6) (x y z : BitVec 3) (ws : List InstrWord),
    exec (.illegalInstr w) s = .next (s.trap ⟨0x01, 0, 0, w.setWidth 48⟩) ∧
    (∀ t, s.fetchWords s.cur (s.me.pc + 4) (c.toNat + 1) = .error (.trap t, s1) →
      exec (.repf c r x y z) s = .next (s1.trap t)) ∧
    (∀ f, f.stale = true → s.fetchWords s.cur (s.me.pc + 4) f.words.length = .ok (ws, s1) →
      (∀ b, badCapture ws = some b → s.frameWord s.cur f = .error (.trap ⟨0x01, 0, 0, b.setWidth 48⟩, s1)) ∧
      (badCapture ws = none →
        let f' := { f with words := ws, stale := false }
        s.frameWord s.cur f = .ok (f'.word, s1.setStrand s.cur { s1.strand s.cur with frame := some f' }))) ∧
    (s.fetchWords s.cur (s.me.pc + 4) (c.toNat + 1) = .ok (ws, s1) →
      (∀ b, badCapture ws = some b → exec (.repf c r x y z) s = .next (s1.trap ⟨0x01, 0, 0, b.setWidth 48⟩)) ∧
      (badCapture ws = none → s1.me.share ≠ 0 →
        exec (.repf c r x y z) s = .next (s1.setMe { s1.me with
          wait := .none, frame := some ⟨ws, r.toNat + 1, x.toNat, y.toNat, z.toNat, 0, 0, false⟩ })) ∧
      (badCapture ws = none → s1.me.share = 0 → ∀ q, encode (.repf c r x y z) = some q →
        exec (.repf c r x y z) s = .next (s1.trap ⟨0x09, 0, 0, q.setWidth 48⟩)))

/-- R116: a frame of n words with R replays executes word j of replay k for k in 0 to R − 1 and j in 0 to n − 1, in that
order, and then ends: the place that follows (k, j) is (k, j + 1), else (k + 1, 0), else none. -/
def Sys2Proof.Machine.Claims.FrameOrder : Prop :=
  ∀ (x : Strand) (f : Frame), x.frame = some f → f.j < f.words.length → f.k < f.replays →
    (f.j + 1 < f.words.length → x.retire.frame = some { f with j := f.j + 1 } ∧ x.retire.pc = x.pc) ∧
    (f.j + 1 = f.words.length → f.k + 1 < f.replays →
      x.retire.frame = some { f with k := f.k + 1, j := 0 } ∧ x.retire.pc = x.pc) ∧
    (f.j + 1 = f.words.length → f.k + 1 = f.replays →
      x.retire.frame = none ∧ x.retire.pc = x.pc + 4 + 4 * BitVec.ofNat 64 f.words.length)

/-! ### Translation and migration -/

namespace Sys2Proof.Machine

/-- R313: the range of an OP 00 operand that has passed its checks, with the state after them: a page of the size named whose
rights hold A throughout, or every translation, from a strand that names no rights list. -/
def State.htinvPasses (s : State) (v : Word) (lo n : Nat) (s1 : State) : Prop :=
  let page := (v &&& ~~~(0xFFFF : Word)).toNat
  (htinvSize v = some n ∧ lo = page ∧ page % n = 0 ∧
    s.plbRange s.actor 8 page (page + n) 32770 = .ok ((), s1)) ∨
  (htinvSize v = none ∧ page = 0 ∧ lo = 0 ∧ n = 2 ^ 64 ∧ s.me.plbCtl.extractLsb' 12 52 = 0 ∧ s1 = s)

end Sys2Proof.Machine

/-- R307, R313: PLBINV and HTINV from S-mode with a valid operand: the strand's own earlier accesses are performed
first (Steep words, stores to other devices and cards: both wait for them); then the rights of the named domains, or
the translations that meet the range (and the sectors of the instruction caches in it, log entry 53, DEDUCED), leave every unit, and with nothing that passed one still open, on a fabric link, in a
Steep buffer or in a combining queue, nor the store of a record being alighted (R239), the instruction completes; else it waits
for just that. -/
def Sys2Proof.Machine.Claims.InvalidationsComplete : Prop :=
  ∀ (s : State) (a : BitVec 5), s.me.mode ≠ .u →
    (s.g a &&& 0x7FFFFFFFFFFFF000 = 0 →
      let s0 := s.flushAll s.cur
      let s1 := (s0.dropPlb (plbinvPick (s.g a))).sendDomains (plbinvPick (s.g a))
      (s0.ownPerformed = false → exec (.plbinv a) s = .next (s0.waiting .hold)) ∧
      (s0.ownPerformed = true →
        (s1.passedOpen (plbinvPick (s.g a)) = ([], []) → s1.alightsQueued = false → exec (.plbinv a) s = .next s1.retire) ∧
        (∀ x y, s1.passedOpen (plbinvPick (s.g a)) = (x, y) →
          (∃ k ∈ x, (s1.fabricReq k).any (fun r => r.answer.isNone) = true) ∨ (∃ e ∈ s1.allEntries, e.num ∈ y) ∨
            (∃ w ∈ s1.waiters (fun _ => true), w.1 ∈ y) ∨ s1.alightsQueued = true →
          exec (.plbinv a) s = .next (s1.waiting (.inval x y))) ∧
        ∀ c, (s1.core c).plb = ((s.core c).plb.filter (fun e => !plbinvPick (s.g a) e.domain)))) ∧
    (∀ lo n s1, (s.g a).extractLsb' 0 2 = 0 → (s.g a).extractLsb' 4 12 = 0 → s.htinvPasses (s.g a) lo n s1 →
      let s0 := s1.flushAll s1.cur
      (s0.ownPerformed = false → exec (.htinv a) s = .next (s0.waiting .hold)) ∧
      (s0.ownPerformed = true →
        (s0.translatedOpen lo n = [] → s0.combiningOpen lo n = [] → s0.alightsQueued = false →
          exec (.htinv a) s = .next (s0.dropTranslations lo n).retire) ∧
        ∀ t ∈ (s0.dropTranslations lo n).translations, t.base + 2 ^ t.log2 ≤ lo ∨ lo + n ≤ t.base))

/-- R316: HTINV with OP 01 on a descriptor of the package's memory that it may read and write and whose bytes are not
poisoned, with a slot free and the firmware not being switched: a page it may migrate gets TRANSIT set, STATUS 1 and a
migration at sector 0; any other gets STATUS 3 and no migration. A descriptor at no ordinary address traps FAULT_READ. While
bytes it reads, or the leaf, stand behind a combining queue (R349, log entry 91) it waits, and meets no event. -/
def Sys2Proof.Machine.Claims.MigrationBegins : Prop :=
  (∀ (s s1 : State) (desc : Word) (k x : Nat) (f : Span), s.translate .store (desc.toNat + k) = some (.mem f, s1) →
    s.writeField desc k x = s1.writeSpan f 8 x) ∧
  ∀ (s s1 s2 s3 : State) (a : BitVec 5) (q f : Span), s.me.mode ≠ .u → (s.g a).extractLsb' 0 6 = 1 →
    let desc := s.g a &&& ~~~(0x3F : Word)
    let page := desc.toNat / 65536 * 65536
    s.plbRange s.actor 8 page (page + 65536) 2 = .ok ((), s1) → s1.inFlight.length < 4 → s1.assistedWaits 0 = false →
    exec (.htinv a) s = exec (.htinvMigrate a) s ∧
    (classOf desc ≠ .ordinary → exec (.htinvMigrate a) s = .next (s1.trap (addrTrap causeFaultRead desc))) ∧
    (classOf desc = .ordinary → s1.ownWaits desc 64 = true → exec (.htinvMigrate a) s = .next (s1.waiting .hold)) ∧
    (classOf desc = .ordinary → s1.ownWaits desc 64 = false → s1.translate .load desc.toNat = some (.mem q, s2) →
      s2.placePoisoned (.mem q) 64 = false →
      s2.translate .store desc.toNat = some (.mem f, s3) →
      let field (lo n : Nat) : Nat := s2.readSpan q 64 / 256 ^ lo % 256 ^ n
      let asked := s3.migrationOf (field 0 8) (field 8 8) (field 32 32)
      (asked = none →
        exec (.htinvMigrate a) s = .next ((s3.writeField desc 24 0).writeField desc 16 3).retire) ∧
      (∀ at_ e e', asked = some (at_, e, e') → s3.agentBusy (plainSpan at_) 8 = false →
        exec (.htinvMigrate a) s = .next (State.retire (State.writeField { s3.writeMem at_ 8 (e ||| 0x400).toNat with
          migrations := s3.migrations ++ [⟨desc, field 0 8, at_, e, e', e ||| 0x400, 0, false⟩] } desc 16 1))))

/-- R315, R317, R318: the engine copies the sector at its pointer to the new frame, from under the old KEY to under the new
one, and moves on; at the end it installs the new entry by CAS, with A and D as they stand, when no software store has changed
the old one, the units switch to it, the migration is dropped, and PROG and STATUS 2 follow; else STATUS 4, and the units hold
the new entry for the page until HTINV ends that (log entry 98). A walker's own A and D are expected (R312). It waits for the
combining queues it meets (log entry 91). STATUS and PROG go where the descriptor's address then leads (log entry 74, the
model's choice). -/
def Sys2Proof.Machine.Claims.MigrationCopiesAndCompletes : Prop :=
  (∀ (s : State) (m : Migration) (va : Nat), s.migrations.find? (fun m => m.lingering && m.va == va / 65536 * 65536) = some m →
    (s.cachedFor va).map (fun t => t.leaf) = some (m.newLeaf ||| 0x60)) ∧
  ∀ (s : State) (slot : Nat) (m : Migration), s.migrations[slot]? = some m → m.lingering = false → s.copyWaits m = false →
    (m.pointer < 2048 → ∃ t, exec (.migrationSectorCopy slot) s = .next t ∧
      let x := s.readUnder (s.leafKey m.oldLeaf) (leafFrame m.oldLeaf + 32 * m.pointer) 32
      let u := s.writeUnder (s.leafKey m.newLeaf) (leafFrame m.newLeaf + 32 * m.pointer) 32 x
      t.mem = u.mem ∧ t.sectorKeys = u.sectorKeys ∧
      t.readUnder (s.leafKey m.newLeaf) (leafFrame m.newLeaf + 32 * m.pointer) 32 = x ∧
      t.migrations[slot]? = some { m with pointer := m.pointer + 1 } ∧ t.strands = s.strands) ∧
    (2048 ≤ m.pointer →
      let now := BitVec.ofNat 64 (s.readMem m.leafAt 8)
      (now = m.inTransit →
        ∃ u : State, exec (.migrationComplete slot) s = .next ((u.writeField m.desc 24 65536).writeField m.desc 16 2) ∧
          u.migrations = s.migrations.eraseIdx slot ∧ u.mem = (s.writeMem m.leafAt 8 (installedLeaf now m.newLeaf).toNat).mem ∧
          (∀ t ∈ u.translations, t.at_ = m.leafAt → t.leaf = installedLeaf now m.newLeaf) ∧ u.strands = s.strands) ∧
      (now ≠ m.inTransit →
        ∃ u : State, exec (.migrationComplete slot) s = .next ((u.writeField m.desc 24 65536).writeField m.desc 16 4) ∧
          u.migrations[slot]? = some { m with lingering := true, inTransit := now } ∧ u.mem = s.mem)) ∧
    ∀ at_ old new, (s.setLeaf at_ old new).migrations[slot]? =
      some (if m.leafAt = at_ ∧ m.inTransit = old then { m with inTransit := new } else m)

/-- R306, R311, R312, R367: PLB_FILL installs the entry the lists grant; TRANSLATION_WALK keeps the leaf the table holds for
the address, with A set, and D for a store, in memory too, in the unit of the address's own agent. Neither is done while the
service cores that make it are being switched. -/
def Sys2Proof.Machine.Claims.FillsAndWalks : Prop :=
  ∀ (s : State) (sid : Nat) (va : Word) (kind : AccessKind),
    (∀ e s1, s.assistedWaits 1 = false → s.plbEntry sid (s.strand sid).domain va.toNat = none →
      s.fillEntry sid (s.strand sid).domain (s.strand sid).plbCtl va.toNat = (some e, s1) →
      ∃ t, exec (.plbFill sid va) s = .next t ∧ (t.core (coreOf sid)).plb.head? = some e ∧
        e.domain = (s.strand sid).domain ∧ t.mem = s1.mem) ∧
    (∀ e at_ level, s.assistedWaits 0 = false → s.cachedFor va.toNat = none → s.walk va.toNat = some (e, at_, level) →
      leafGrants e kind = true →
      ∃ t, exec (.translationWalk kind va) s = .next t ∧
        t.translations.head?.map (fun u => (u.leaf, u.at_, u.agent)) =
          some (setAccessed e kind, at_, va.toNat / 512 % 48) ∧
        t.readMem at_ 8 = (setAccessed e kind).toNat) ∧
    (s.assistedWaits 1 = true → exec (.plbFill sid va) s = .next s) ∧
    (s.assistedWaits 0 = true → exec (.translationWalk kind va) s = .next s)

/-! ### The vector unit -/

namespace Sys2Proof.Machine

/-- What a vector instruction leaves that writes elements of vd: element k holds `g k`, wrapped to vd's width, where `g`
names a value, and its old bits elsewhere; a DEAD vd has taken the vtype `fresh` (R37) unless the instruction wrote nothing
(`skips`); VSTART is 0; nothing else of the vector state, no general register, no other strand and no memory changes. -/
def State.WroteAt (s t : State) (d : BitVec 5) (fresh : BitVec 16) (skips : Bool) (g : Nat → Option Nat) : Prop :=
  let x := s.me
  let y := t.me
  let r := y.getV d
  let w := r.elemType.width
  r.vtype = (if skips = false ∧ (x.getV d).elemType = .dead then fresh else (x.getV d).vtype) ∧
    (∀ k, k < r.elemType.vlmax → r.raw k =
      match g k with
      | some v => v % 2 ^ w
      | none => elemBits (x.getV d).bits w k) ∧
    (∀ n, n ≠ d → y.getV n = x.getV n) ∧ y.g = x.g ∧ y.p = x.p ∧ y.e = x.e ∧ y.vl = x.vl ∧ y.share = x.share ∧
    y.vstart = 0 ∧ (∀ sid, sid ≠ s.cur → t.strand sid = s.strand sid) ∧ t.mem = s.mem ∧ t.cores = s.cores

/-- The same for an instruction that writes `f k` at each active element k: from VSTART on, nothing at all with VSTART at or
beyond VL, but from element 0 on, whatever VSTART holds, in majors 0x28 and 0x29 (`whole`; R41, R161). -/
def State.WroteElements (s t : State) (d : BitVec 5) (fresh : BitVec 16) (whole : Bool) (p : BitVec 3) (f : Nat → Nat) :
    Prop :=
  let x := s.me
  s.WroteAt t d fresh (!whole && decide (x.vl ≤ x.vstart)) (fun k =>
    if k < x.vl ∧ (whole = true ∨ x.vstart ≤ k) ∧ (x.getP p).getLsbD k = true then some (f k) else none)

/-- A BX destination packed by R55 from the results of the active elements: of each block with one of them the written
elements and both exponents are what R55 gives, and every other element, exponent and scale register is as before. -/
def State.WroteBlocks (s t : State) (d : BitVec 5) (fm : BxFmt) (mode : RMode) (out : List (Nat × EVal)) : Prop :=
  let x := s.me
  let y := t.me
  (∀ k ∈ out.map Prod.fst,
    let b := packBlock fm mode out (k / 32)
    (∀ q ∈ b.1, (y.getV d).raw q.1 = q.2 % 2 ^ fm.width) ∧
      scaleByte (y.scaleOf d) (2 * (k / 32)) = b.2.1 % 256 ∧ scaleByte (y.scaleOf d) (2 * (k / 32) + 1) = b.2.2.1 % 256) ∧
    (∀ k, k < 8192 / fm.width → k ∉ out.map Prod.fst → (y.getV d).raw k = elemBits (x.getV d).bits fm.width k) ∧
    (∀ j, j < 256 → j / 2 ∉ out.map (fun q => q.1 / 32) → scaleByte (y.scaleOf d) j = scaleByte (x.scaleOf d) j) ∧
    (∀ n : BitVec 5, n.toNat % 16 ≠ d.toNat % 16 → y.scaleOf n = x.scaleOf n) ∧
    (∀ n, n ≠ d → y.getV n = x.getV n) ∧ y.g = x.g ∧ y.p = x.p ∧ y.vl = x.vl ∧ y.share = x.share ∧ y.vstart = 0 ∧
    (∀ sid, sid ≠ s.cur → t.strand sid = s.strand sid) ∧ t.mem = s.mem ∧ t.cores = s.cores

/-- R55, R60: the flags of a packed BX destination: those of every block that holds one of the results. -/
def blockFlags (fm : BxFmt) (mode : RMode) (out : List (Nat × EVal)) : Flags :=
  orFlags (out.map (fun q => (packBlock fm mode out (q.1 / 32)).2.2.2))

/-- The registers of a vector instruction can hold VL elements each (R38), and the strand has lanes (R14). -/
def Strand.Fits (x : Strand) (td : Elem) (regs : List (BitVec 5)) : Prop :=
  x.share ≠ 0 ∧ x.vl ≤ td.vlmax ∧ ∀ n ∈ regs, x.vl ≤ (x.getV n).elemType.vlmax

/-- An integer wrapped to w bits and read as signed or not (R147). -/
def wrapTo (w : Nat) (sg : Bool) (v : Int) : Int :=
  let u := v % 2 ^ w
  if sg && decide (2 ^ (w - 1) ≤ u) then u - 2 ^ w else u

/-- R153: the shifts and VROL in the domain (w, sg), exact. -/
def intShifts (w : Nat) (sg : Bool) (d a b : BitVec 5) (f : BitVec 2) (p : BitVec 3) : List (Instr × (Int → Int → Int)) :=
  let sh (y : Int) : Nat := (y % w).toNat
  let form (x : Int) : Int := x % 2 ^ w
  [(.vsll d a b f p, fun x y => wrapTo w sg (x * 2 ^ sh y)),
    (.vsrl d a b f p, fun x y => wrapTo w sg (form x / 2 ^ sh y)),
    (.vsra d a b f p, fun x y => wrapTo w sg (wrapTo w true x / 2 ^ sh y)),
    (.vrol d a b f p, fun x y => wrapTo w sg (form x * 2 ^ sh y + form x / 2 ^ (w - sh y)))]

/-- R153: VCLZ and VPOPC at the domain width. -/
def intCounts (w : Nat) (d a : BitVec 5) (p : BitVec 3) : List (Instr × (Int → Int)) :=
  let form (x : Int) : Nat := (x % 2 ^ w).toNat
  [(.vclz d a p, fun x => if form x = 0 then w else ((w - 1 - Nat.log2 (form x) : Nat) : Int)),
    (.vpopc d a p, fun x => (((List.range w).filter (fun i => (form x).testBit i)).length : Int))]

/-- R152: the functions of one integer that change its sign. -/
def intSigns (d a : BitVec 5) (p : BitVec 3) : List (Instr × (Int → Int)) :=
  [(.vabs d a p, fun x => if x < 0 then -x else x), (.vneg d a p, fun x => -x)]

/-- The one quotient of two's-complement numbers that overflows (R48). -/
def divisionPast (w : Nat) (sg : Bool) (x y : Int) : Bool := sg && x == -(2 ^ (w - 1)) && y == -1

/-- R152, R153: the binary integer functions of the domain (w, sg), delivered into an integer type (wd, sgd) with SAT or not:
the destination's bits from the two elements. -/
def intBinary (w : Nat) (sg : Bool) (wd : Nat) (sgd sat : Bool) (d a b : BitVec 5) (f : BitVec 2) (p : BitVec 3) :
    List (Instr × (Int → Int → Nat)) :=
  let put := deliverInt wd sgd sat
  [(.vadd d a b f p, fun x y => put (x + y)),
    (.vsub d a b f p, fun x y => put (x - y)),
    (.vrsub d a b f p, fun x y => put (y - x)),
    (.vmul d a b f p, fun x y => put (x * y)),
    (.vmulh d a b f p, fun x y => put (wrapTo w sg (x * y / 2 ^ w))),
    (.vdiv d a b f p, fun x y =>
      if y = 0 then ((if sg then -1 else 2 ^ w - 1) % 2 ^ wd : Int).toNat
      else if divisionPast w sg x y then (x % 2 ^ wd).toNat else put (x.tdiv y)),
    (.vrem d a b f p, fun x y =>
      if y = 0 then (x % 2 ^ wd).toNat else if divisionPast w sg x y then 0 else put (x.tmod y)),
    (.vmin d a b f p, fun x y => put (min x y)),
    (.vmax d a b f p, fun x y => put (max x y)),
    (.vabsd d a b f p, fun x y => put (max x y - min x y)),
    (.vsadd d a b f p, fun x y => deliverInt wd sgd true (x + y)),
    (.vssub d a b f p, fun x y => deliverInt wd sgd true (x - y))] ++
    (intShifts w sg d a b f p).map (fun q => (q.1, fun x y => put (q.2 x y)))

/-- R152, R153, R157: the unary integer functions. -/
def intUnary (w wd : Nat) (sgd sat : Bool) (d a : BitVec 5) (p : BitVec 3) : List (Instr × (Int → Nat)) :=
  let put := deliverInt wd sgd sat
  (.vcvt d a p, fun x => if w ≤ wd then (x % 2 ^ wd).toNat else put x) ::
    (intSigns d a p ++ intCounts w d a p).map (fun q => (q.1, fun x => put (q.2 x)))

/-- R154: the multiply-accumulate functions on integers: va, the second operand, the old vd. -/
def intTernary (wd : Nat) (sgd sat : Bool) (d a b : BitVec 5) (f : BitVec 2) (p : BitVec 3) :
    List (Instr × (Int → Int → Int → Nat)) :=
  let put := deliverInt wd sgd sat
  [(.vmacc d a b f p, fun x y o => put (o + x * y)),
    (.vnmsac d a b f p, fun x y o => put (o - x * y)),
    (.vmadd d a b f p, fun x y o => put (x * o + y)),
    (.vnmsub d a b f p, fun x y o => put (y - x * o))]

/-- R152, R48: the binary integer functions of major 0x23 delivered into a floating type: the exact result, the saturating ones
clamped to the numbers of the destination, whatever SAT holds. -/
def intExact (w : Nat) (sg : Bool) (most : Int) (d a b : BitVec 5) (f : BitVec 2) (p : BitVec 3) :
    List (Instr × (Int → Int → Int)) :=
  let clamp (v : Int) : Int := max (-most) (min most v)
  [(.vadd d a b f p, fun x y => x + y), (.vsub d a b f p, fun x y => x - y), (.vrsub d a b f p, fun x y => y - x),
    (.vmul d a b f p, fun x y => x * y), (.vmulh d a b f p, fun x y => wrapTo w sg (x * y / 2 ^ w)),
    (.vdiv d a b f p, fun x y =>
      if y = 0 then (if sg then -1 else 2 ^ w - 1) else if divisionPast w sg x y then x else x.tdiv y),
    (.vrem d a b f p, fun x y => if y = 0 then x else if divisionPast w sg x y then 0 else x.tmod y),
    (.vmin d a b f p, fun x y => min x y), (.vmax d a b f p, fun x y => max x y),
    (.vabsd d a b f p, fun x y => max x y - min x y),
    (.vsadd d a b f p, fun x y => clamp (x + y)), (.vssub d a b f p, fun x y => clamp (x - y))]

/-- The greatest finite number of the formats an integer sum can pass (R49), and a bound no such sum passes for the others and
for BX. -/
def Elem.most : Elem → Int
  | .fp .fp16 => 65504
  | .fp .e5m2 => 57344
  | .fp .e4m3 => 448
  | _ => 2 ^ 65

/-- R152, R154, R157: the floating functions of va, the second operand and the old vd, exact, with their own flags. -/
def floatFunctions (mode : RMode) (d a b : BitVec 5) (f : BitVec 2) (p : BitVec 3) :
    List (Instr × (FVal → FVal → FVal × Flags)) :=
  [(.vadd d a b f p, fun x y => sumExact mode [x, y]),
    (.vsub d a b f p, fun x y => sumExact mode [x, y.neg]),
    (.vrsub d a b f p, fun x y => sumExact mode [y, x.neg]),
    (.vmul d a b f p, fun x y => x.mul y),
    (.vdiv d a b f p, fun x y => x.div y),
    (.vmin d a b f p, fun x y => minMaxVal false x y),
    (.vmax d a b f p, fun x y => minMaxVal true x y),
    (.vabsd d a b f p, fun x y => ((sumExact mode [x, y.neg]).1.abs, (sumExact mode [x, y.neg]).2))]

/-- R154: the fused functions on floating values: va, the second operand, the old vd. -/
def floatTernary (mode : RMode) (d a b : BitVec 5) (f : BitVec 2) (p : BitVec 3) :
    List (Instr × (FVal → FVal → FVal → FVal × Flags)) :=
  [(.vmacc d a b f p, fun x y o => FVal.fma mode x y o), (.vnmsac d a b f p, fun x y o => FVal.fma mode x.neg y o),
    (.vmadd d a b f p, fun x y o => FVal.fma mode x o y), (.vnmsub d a b f p, fun x y o => FVal.fma mode x.neg o y)]

/-- R152, R157: the unary floating functions. -/
def floatUnary (mode : RMode) (dest : Elem) (d a : BitVec 5) (p : BitVec 3) : List (Instr × (FVal → FVal × Flags)) :=
  [(.vabs d a p, fun x => ((quieted x).1.abs, (quieted x).2)),
    (.vneg d a p, fun x => ((quieted x).1.neg, (quieted x).2)),
    (.vsqrt d a p, fun x => x.sqrt),
    (.vcvt d a p, fun x => (x, 0)),
    (.vfrint d a p, fun x => roundInt mode x),
    (.vfrexp d a p, fun x => frexpOp x ⟨0, false, mode, dest⟩),
    (.vfmant d a p, fun x => mantOp x),
    (.vrecipe d a p, fun x => recipOp x),
    (.vrsqrte d a p, fun x => rsqrtOp x)]

/-- One floating result at a type that is not BX, with all its flags (R146, R59). -/
def atType (t : Elem) (mode : RMode) (sat : Bool) (r : FVal × Flags) : Nat × Flags :=
  let q := t.deliver mode sat (.fl r.1)
  (q.1, q.2 ||| r.2)

/-- The active elements from VSTART, as a set of flags raised by each. -/
def Strand.raisedBy (x : Strand) (p : BitVec 3) (f : Nat → Nat × Flags) : Flags :=
  orFlags ((x.active p).map (fun k => (f k).2))

end Sys2Proof.Machine

/-- R35, R144, R145: VCFG gives `n` registers a legal vtype and refuses a reserved one or a run past v31; VSETL grants the
least of the request, VLMAX of the width class, VLCAP's share of it and the VL ceiling, and writes it to VL and g(d); VACQ
takes or gives back quarters; VRELEASE leaves every register DEAD, no share and VL 0; VGETTAG reads the vtype and leaves VSTART
as it is (log entry 86, DEDUCED). -/
def Sys2Proof.Machine.Claims.VectorConfiguration : Prop :=
  ∀ (s : State) (d a : BitVec 5) (i : BitVec 16) (w : BitVec 4),
    (vtypeOk i = true → d.toNat + a.toNat < 32 → ∃ t, exec (.vcfg d a i) s = .next t ∧ s.OnlyRunning t ∧ t.me.g = s.me.g ∧
      (∀ n : BitVec 5, d ≤ n → n.toNat ≤ d.toNat + a.toNat → t.me.getV n = (s.me.getV n).configured i) ∧
      (∀ n : BitVec 5, n < d ∨ d.toNat + a.toNat < n.toNat → t.me.getV n = s.me.getV n)) ∧
    (vtypeOk i = false ∨ 32 ≤ d.toNat + a.toNat → ∀ q, encode (.vcfg d a i) = some q →
      exec (.vcfg d a i) s = .next (s.trap ⟨0x01, 0, 0, q.setWidth 48⟩)) ∧
    (w.toNat ≤ 4 → s.me.share ≠ 0 →
      let vlmax := 2048 / 2 ^ w.toNat
      let vl := min (min (s.g a).toNat vlmax) (min (s.myCore.vlcap * vlmax / 8) s.me.ceiling)
      ∃ t, exec (.vsetl d a w) s = .next t ∧ t.me.vl = vl ∧ t.me.vstart = 0 ∧
        t.me.getG d = (if d = 0 then 0 else BitVec.ofNat 64 vl) ∧ t.me.v = s.me.v ∧ s.OnlyRunning t) ∧
    (w.toNat ≤ 4 → s.me.share = 0 → ∀ q, encode (.vsetl d a w) = some q →
      exec (.vsetl d a w) s = .next (s.trap ⟨0x09, 0, 0, q.setWidth 48⟩)) ∧
    (∃ t, exec (.vacq d a) s = .next t ∧ t.me.share = s.acquired (s.g a).toNat ∧
      t.me.getG d = (if d = 0 then 0 else BitVec.ofNat 64 (s.acquired (s.g a).toNat)) ∧ t.me.v = s.me.v) ∧
    (s.me.share ≠ 0 → ∃ t, exec .vrelease s = .next t ∧ t.me.share = 0 ∧ t.me.vl = 0 ∧ t.me.vstart = 0 ∧
      t.me.p = s.me.p ∧ t.me.e = s.me.e ∧ t.me.g = s.me.g ∧
      ∀ n, (t.me.getV n).vtype = 0 ∧ (t.me.getV n).vhwe = 0) ∧
    (s.me.share = 0 → ∀ q, encode .vrelease = some q → exec .vrelease s = .next (s.trap ⟨0x09, 0, 0, q.setWidth 48⟩)) ∧
    exec (.vgettag d a) s = .next (s.writeG d ((s.me.getV a).vtype.setWidth 64))

/-- R146, R147, R48, R152 to R154, R157: an element-wise function whose live sources resolve to an integer domain, into an
integer destination, in every form: each active element is the exact integer result, wrapped, or clamped under SAT (the
division corners and a VCVT to a wider or equal integer never clamped, R59, the saturating functions always); no flag is
raised; the frame is `WroteElements`. -/
def Sys2Proof.Machine.Claims.IntegerElements : Prop :=
  ∀ (s : State) (d a b : BitVec 5) (f : BitVec 2) (p : BitVec 3) (w wd : Nat) (sg sgd : Bool) (tag : BitVec 8),
    let x := s.me
    let y := x.second f (x.getV a).elemType b
    let sat := (x.destVtype d tag).getLsbD 8
    elemOf (vtypeTag (x.destVtype d tag)) = .int wd sgd →
    (x.resolveWith [a] y = .ok (.int w sg) tag → x.Fits (.int wd sgd) ([a] ++ y.regs) →
      ∀ i op, (i, op) ∈ intBinary w sg wd sgd sat d a b f p → ∃ t, exec i s = .next t ∧ t.me.fflags = x.fflags ∧
        s.WroteElements t d (freshVtype tag) false p (fun k => op (x.value a k).toI (x.secondAt y k).toI)) ∧
    (x.resolveWith [a] .none = .ok (.int w sg) tag → x.Fits (.int wd sgd) [a] →
      ∀ i op, (i, op) ∈ intUnary w wd sgd sat d a p → ∃ t, exec i s = .next t ∧ t.me.fflags = x.fflags ∧
        s.WroteElements t d (freshVtype tag) false p (fun k => op (x.value a k).toI)) ∧
    (x.resolveWith [a, d] y = .ok (.int w sg) tag → x.Fits (.int wd sgd) ([a] ++ y.regs) →
      ∀ i op, (i, op) ∈ intTernary wd sgd sat d a b f p → ∃ t, exec i s = .next t ∧ t.me.fflags = x.fflags ∧
        s.WroteElements t d (freshVtype tag) false p (fun k => op (x.value a k).toI (x.secondAt y k).toI (x.value d k).toI))

/-- R146, R152, R153, R157: the same functions into a live floating or BX destination with a rounding mode: the exact result
delivered once, the saturating functions' after the clamp to the destination's range (the shifts and counts, which R45 does not check, round to nearest even where FRM names no mode: log entry 83, the
model's choice). The multiply-accumulates read vd: beside integer sources a floating vd leaves no domain, and they trap
ILLEGAL_INSTR (R147). -/
def Sys2Proof.Machine.Claims.IntegersIntoFloating : Prop :=
  ∀ (s : State) (d a b : BitVec 5) (f : BitVec 2) (p : BitVec 3) (w : Nat) (sg : Bool) (tag : BitVec 8) (mode : RMode),
    let x := s.me
    let y := x.second f (x.getV a).elemType b
    let td := (x.getV d).elemType
    let sat := (x.getV d).vtype.getLsbD 8
    let u (k : Nat) : Int := (x.value a k).toI
    let v (k : Nat) : Int := (x.secondAt y k).toI
    let done (i : Instr) (g : Nat → Int) : Prop :=
      (∀ fm, td = .fp fm →
        let out (v : Int) : Nat × Flags := fm.deliver mode sat (FVal.ofInt v)
        ∃ t, exec i s = .next t ∧ t.me.fflags = x.fflags ||| x.raisedBy p (fun k => out (g k)) ∧
          s.WroteElements t d (freshVtype tag) false p (fun k => (out (g k)).1)) ∧
      (∀ fm, td = .bx fm → x.vstart < x.vl →
        let out : List (Nat × EVal) := (x.active p).map (fun k => (k, .int (g k)))
        ∃ t, exec i s = .next t ∧ t.me.fflags = x.fflags ||| blockFlags fm mode out ∧ s.WroteBlocks t d fm mode out)
    td ≠ .dead → td.isInt = false →
    (x.resolveWith [a] y = .ok (.int w sg) tag →
      (x.Fits td ([a] ++ y.regs) → x.roundingOf (x.getV d).vtype = some mode →
        ∀ i op, (i, op) ∈ intExact w sg td.most d a b f p → done i (fun k => op (u k) (v k))) ∧
      (x.Fits td ([a] ++ y.regs) → (x.roundingOf (x.getV d).vtype).getD .rne = mode →
        ∀ i op, (i, op) ∈ intShifts w sg d a b f p → done i (fun k => op (u k) (v k))) ∧
      ∀ i ∈ [Instr.vmacc d a b f p, .vnmsac d a b f p, .vmadd d a b f p, .vnmsub d a b f p], ∀ q, encode i = some q →
        exec i s = .next (s.trap ⟨0x01, 0, 0, q.setWidth 48⟩)) ∧
    (x.resolveWith [a] .none = .ok (.int w sg) tag → x.Fits td [a] →
      (x.roundingOf (x.getV d).vtype = some mode →
        done (.vcvt d a p) u ∧ ∀ i op, (i, op) ∈ intSigns d a p → done i (fun k => op (u k))) ∧
      ((x.roundingOf (x.getV d).vtype).getD .rne = mode →
        ∀ i op, (i, op) ∈ intCounts w d a p → done i (fun k => op (u k))))

/-- R153, R155: the bitwise functions copy bits at the sources' width, whatever their types; VDOT4 on 8-bit integers adds four
products to the old element, exactly, before delivery. -/
def Sys2Proof.Machine.Claims.BitwiseAndDotProducts : Prop :=
  ∀ (s : State) (d a b : BitVec 5) (f : BitVec 2) (p : BitVec 3),
    let x := s.me
    let ta := (x.getV a).elemType
    let w := ta.width
    let td := elemOf (vtypeTag (if (x.getV d).elemType = .dead then (x.getV a).vtype else (x.getV d).vtype))
    let srcs := [a] ++ x.formRegs f b
    let done (i : Instr) (g : Nat → Nat) : Prop :=
      ∃ t, exec i s = .next t ∧ t.me.fflags = x.fflags ∧ s.WroteElements t d (x.getV a).vtype false p g
    let first (k : Nat) : Nat := (x.getV a).raw k
    let other (k : Nat) : Nat := x.rawSecond f b w k
    let old (k : Nat) : Nat := (x.getV d).raw k
    (ta ≠ .dead → td.width = w → x.Fits td srcs → (∀ n ∈ srcs, (x.getV n).elemType.width = w) →
      done (.vand d a b f p) (fun k => first k &&& other k) ∧ done (.vor d a b f p) (fun k => first k ||| other k) ∧
      done (.vxor d a b f p) (fun k => first k ^^^ other k) ∧
      ((x.getV d).elemType ≠ .dead → done (.vmerge d a b f p) (fun k =>
        (first k &&& other k) ||| (old k &&& (2 ^ w - 1 - other k))))) ∧
    (ta ≠ .dead → td.width = w → x.Fits td [a] →
      done (.vnot d a p) (fun k => 2 ^ w - 1 - first k) ∧ done (.vmov d a p) first) ∧
    (∀ sgd, f = 0 → isInt8 ta = true → isInt8 (x.getV b).elemType = true → (x.getV d).elemType = .int 32 sgd →
      x.share ≠ 0 → x.vl ≤ 256 →
      ∃ t, exec (.vdot4 d a b f p) s = .next t ∧ t.me.fflags = x.fflags ∧
        s.WroteElements t d 0 false p (fun k =>
          deliverInt 32 sgd ((x.getV d).vtype.getLsbD 8) ((x.value d k).toI +
            (x.value a (4 * k)).toI * (x.value b (4 * k)).toI +
            (x.value a (4 * k + 1)).toI * (x.value b (4 * k + 1)).toI +
            (x.value a (4 * k + 2)).toI * (x.value b (4 * k + 2)).toI +
            (x.value a (4 * k + 3)).toI * (x.value b (4 * k + 3)).toI)))

/-- R146, R152, R154, R155, R157 to R159: an element-wise function whose sources resolve to the floating domain, into a
destination that is not BX, with a rounding mode: each active element is the exact result delivered once at vd's type, and the
flags of all of them are ORed into FFLAGS (an enabled one then takes FP_ENABLED, R45). VDOT4 on 8-bit floating and BX sources
adds the old element and four exact products in one sum (R62). -/
def Sys2Proof.Machine.Claims.FloatingElements : Prop :=
  ∀ (s : State) (d a b : BitVec 5) (f : BitVec 2) (p : BitVec 3) (tag : BitVec 8) (mode : RMode),
    let x := s.me
    let ta := (x.getV a).elemType
    let y := x.second f ta b
    let vt := x.destVtype d tag
    let td := elemOf (vtypeTag vt)
    let sat := vt.getLsbD 8
    let done (i : Instr) (g : Nat → FVal × Flags) : Prop := ∃ t, exec i s = .next t ∧
      t.me.fflags = x.fflags ||| x.raisedBy p (fun k => atType td mode sat (g k)) ∧
      s.WroteElements t d (freshVtype tag) false p (fun k => (atType td mode sat (g k)).1)
    td ≠ .dead → (∀ q, td ≠ .bx q) → x.roundingOf vt = some mode →
    (x.resolveWith [a] y = .ok .float tag → x.Fits td ([a] ++ y.regs) →
      ∀ i op, (i, op) ∈ floatFunctions mode d a b f p → done i (fun k => op (x.value a k).toF (x.secondAt y k).toF)) ∧
    (x.resolveWith [a] .none = .ok .float tag → x.Fits td [a] →
      ∀ i op, (i, op) ∈ floatUnary mode td d a p → done i (fun k => op (x.value a k).toF)) ∧
    (x.resolveWith [a, d] y = .ok .float tag → x.Fits td ([a] ++ y.regs) →
      ∀ i op, (i, op) ∈ floatTernary mode d a b f p →
        done i (fun k => op (x.value a k).toF (x.secondAt y k).toF (x.value d k).toF)) ∧
    (∀ vb, vb = (x.formRegs f b).headD b → f = 0 ∨ f = 3 → isFloat8 ta = true → isFloat8 (x.getV vb).elemType = true →
      td = .fp .fp32 ∨ td = .fp .bf16 → (x.getV d).elemType ≠ .dead → x.share ≠ 0 → x.vl ≤ td.vlmax →
      4 * x.vl ≤ ta.vlmax → 4 * x.vl ≤ (x.getV vb).elemType.vlmax →
      done (.vdot4 d a b f p) (fun k =>
        let prod (j : Nat) : FVal × Flags := (x.value a (4 * k + j)).toF.mul (x.value vb (4 * k + j)).toF
        let r := sumExact mode [(x.value d k).toF, (prod 0).1, (prod 1).1, (prod 2).1, (prod 3).1]
        (r.1, r.2 ||| (prod 0).2 ||| (prod 1).2 ||| (prod 2).2 ||| (prod 3).2))) ∧
    (∀ own, x.resolveWith [a] .none = .ok .float own → x.Fits td [a] →
      (tag = (exp2Tag ta).getD own → ta ≠ .fp .fp64 →
        done (.vfexp2f d a p) (fun k => exp2Result (exp2Format ta) (x.value a k).toF)) ∧
      (tag = 0x0A → classDest (x.getV d).elemType = true →
        done (.vclass d a p) (fun k => (.fin false (2 ^ classOfVal ta (x.value a k).toF) 0, 0))) ∧
      (tag = own → f = 1 → done (.vfscale d a b f p) (fun k => scaleOp (x.value a k).toF (FVal.ofInt (s.g b).toInt))) ∧
      (tag = own → f = 2 → done (.vfscale d a b f p) (fun k => scaleOp (x.value a k).toF (FVal.ofInt b.toInt))) ∧
      (∀ vb, vb = (x.formRegs f b).headD b → tag = own → f = 0 ∨ f = 3 → (x.getV vb).elemType ≠ .dead →
        x.vl ≤ (x.getV vb).elemType.vlmax →
        done (.vfscale d a b f p) (fun k => scaleOp (x.value a k).toF (x.value vb k).toF)))

/-- R55, R157: VBXPACK packs va's values into vd as BX8 (or the BX format vd has): the register takes the pack's vtype, and
of every block with an active element the written elements and the exponents, which stand in e(vd mod 16), are what R55
gives; with VSTART at or beyond VL it writes nothing (R41). A floating function of one, two or three operands into a BX
destination, a DEAD one first taking the result tag (R37), packs its exact results the same way (R146). The flags of the
functions and of the packing are ORed into FFLAGS (R60). -/
def Sys2Proof.Machine.Claims.BlockPacking : Prop :=
  ∀ (s : State) (d a : BitVec 5) (p : BitVec 3) (mode : RMode) (fm : BxFmt),
    let x := s.me
    let vt := packVtype (x.getV d).vtype
    let out := (x.active p).map (fun k => (k, x.value a k))
    (elemOf (vtypeTag vt) = .bx fm → x.roundingOf vt = some mode → (x.getV a).elemType ≠ .dead → x.Fits (.bx fm) [a] →
      ∃ t, exec (.vbxpack d a p) s = .next t ∧
        (t.me.getV d).vtype = (if x.vl ≤ x.vstart then (x.getV d).vtype else vt) ∧
        (x.vstart < x.vl → s.WroteBlocks t d fm mode out ∧ t.me.fflags = x.fflags ||| blockFlags fm mode out) ∧
        (x.vl ≤ x.vstart → t.me.v = x.v ∧ t.me.e = x.e ∧ t.me.fflags = x.fflags)) ∧
    ∀ (b : BitVec 5) (f : BitVec 2) (tag : BitVec 8),
      let y := x.second f (x.getV a).elemType b
      let ty := x.destVtype d tag
      let done (i : Instr) (g : Nat → FVal × Flags) : Prop :=
        let res : List (Nat × EVal) := (x.active p).map (fun k => (k, .fl (g k).1))
        ∃ t, exec i s = .next t ∧ (t.me.getV d).vtype = ty ∧ s.WroteBlocks t d fm mode res ∧
          t.me.fflags = x.fflags ||| orFlags ((x.active p).map (fun k => (g k).2)) ||| blockFlags fm mode res
      elemOf (vtypeTag ty) = .bx fm → x.roundingOf ty = some mode → x.vstart < x.vl →
      (x.resolveWith [a] y = .ok .float tag → x.Fits (.bx fm) ([a] ++ y.regs) →
        ∀ i op, (i, op) ∈ floatFunctions mode d a b f p → done i (fun k => op (x.value a k).toF (x.secondAt y k).toF)) ∧
      (x.resolveWith [a] .none = .ok .float tag → x.Fits (.bx fm) [a] →
        ∀ i op, (i, op) ∈ floatUnary mode (.bx fm) d a p → done i (fun k => op (x.value a k).toF)) ∧
      (x.resolveWith [a, d] y = .ok .float tag → x.Fits (.bx fm) ([a] ++ y.regs) →
        ∀ i op, (i, op) ∈ floatTernary mode d a b f p →
          done i (fun k => op (x.value a k).toF (x.secondAt y k).toF (x.value d k).toF))

/-- R156, R164: comparisons and predicate functions set bit k of pd for each active element k and keep every other bit; a NaN
makes VCNE and VCUN 1 and every other comparison 0, and raises NV in VCLT, VCLE, VCGT and VCGE, a signalling one in all of
them; PCNT and PFIRST write g(d), but nothing with VSTART at or beyond VL (R41); a write to p0 is none. -/
def Sys2Proof.Machine.Claims.ComparisonsAndPredicates : Prop :=
  ∀ (s : State) (q qa qb p : BitVec 3) (d a b : BitVec 5) (f : BitVec 2),
    let x := s.me
    let y := x.second f (x.getV a).elemType b
    let act (k : Nat) : Bool := decide (k < x.vl) && decide (x.vstart ≤ k) && (x.getP p).getLsbD k
    let set (i : Instr) (g : Nat → Bool) : Prop := ∃ t, exec i s = .next t ∧ t.me.vstart = 0 ∧ t.me.v = x.v ∧
      t.me.g = x.g ∧ t.mem = s.mem ∧ (∀ n, n ≠ q → t.me.getP n = x.getP n) ∧
      (q ≠ 0 → ∀ k, k < 2048 → (t.me.getP q).getLsbD k = if act k then g k else (x.getP q).getLsbD k)
    x.share ≠ 0 → x.vl ≤ 2048 → x.vstart < 2048 →
    (∀ w sg tag, x.resolveWith [a] y = .ok (.int w sg) tag →
      (∀ n ∈ [a] ++ y.regs, x.vl ≤ (x.getV n).elemType.vlmax) →
      let u (k : Nat) : Int := (x.value a k).toI
      let v (k : Nat) : Int := (x.secondAt y k).toI
      set (.vceq q a b f p) (fun k => u k = v k) ∧ set (.vcne q a b f p) (fun k => u k ≠ v k) ∧
      set (.vclt q a b f p) (fun k => u k < v k) ∧ set (.vcle q a b f p) (fun k => u k ≤ v k) ∧
      set (.vcgt q a b f p) (fun k => v k < u k) ∧ set (.vcge q a b f p) (fun k => v k ≤ u k)) ∧
    (∀ tag, x.resolveWith [a] y = .ok .float tag →
      (∀ n ∈ [a] ++ y.regs, x.vl ≤ (x.getV n).elemType.vlmax) →
      let u (k : Nat) : FVal := (x.value a k).toF
      let v (k : Nat) : FVal := (x.secondAt y k).toF
      let nan (k : Nat) : Bool := (u k).isNan || (v k).isNan
      let signal (k : Nat) : Bool := (u k).isSignalling || (v k).isSignalling
      let below (k : Nat) : Bool := (u k).lt (v k)
      let above (k : Nat) : Bool := (v k).lt (u k)
      let compared (i : Instr) (g raises : Nat → Bool) : Prop := set i g ∧ ∃ t, exec i s = .next t ∧
        t.me.fflags = x.fflags ||| (if (x.active p).any raises then flagNV else 0)
      compared (.vceq q a b f p) (fun k => !nan k && !below k && !above k) signal ∧
      compared (.vcne q a b f p) (fun k => nan k || below k || above k) signal ∧
      compared (.vclt q a b f p) (fun k => !nan k && below k) nan ∧
      compared (.vcle q a b f p) (fun k => !nan k && !above k) nan ∧
      compared (.vcgt q a b f p) (fun k => !nan k && above k) nan ∧
      compared (.vcge q a b f p) (fun k => !nan k && !below k) nan ∧
      compared (.vcun q a b f p) nan signal) ∧
    set (.pand q qa qb p) (fun k => (x.getP qa).getLsbD k && (x.getP qb).getLsbD k) ∧
    set (.por q qa qb p) (fun k => (x.getP qa).getLsbD k || (x.getP qb).getLsbD k) ∧
    set (.pxor q qa qb p) (fun k => (x.getP qa).getLsbD k != (x.getP qb).getLsbD k) ∧
    set (.pandn q qa qb p) (fun k => (x.getP qa).getLsbD k && !(x.getP qb).getLsbD k) ∧
    set (.pnot q qa p) (fun k => !(x.getP qa).getLsbD k) ∧
    set (.pset q p) (fun _ => true) ∧ set (.pclr q p) (fun _ => false) ∧
    ((x.getV a).elemType ≠ .dead → x.vl ≤ (x.getV a).elemType.vlmax →
      set (.pfromv q a p) (fun k => (x.value a k).nonzero)) ∧
    (x.vl ≤ x.vstart → ∀ i ∈ [Instr.pcnt d qa p, .pfirst d qa p],
      ∃ t, exec i s = .next t ∧ t.me.vstart = 0 ∧ t.me.g = x.g) ∧
    (x.vstart < x.vl → ∃ t, exec (.pcnt d qa p) s = .next t ∧ t.me.vstart = 0 ∧ t.me.getG d = (if d = 0 then 0 else
      BitVec.ofNat 64 ((List.range x.vl).filter (fun k => act k && (x.getP qa).getLsbD k)).length)) ∧
    (∀ k, k < x.vl → act k = true → (x.getP qa).getLsbD k = true →
      (∀ j, j < k → act j = true → (x.getP qa).getLsbD j = false) →
      ∃ t, exec (.pfirst d qa p) s = .next t ∧ t.me.getG d = (if d = 0 then 0 else BitVec.ofNat 64 k)) ∧
    (x.vstart < x.vl → (∀ j, j < x.vl → act j = true → (x.getP qa).getLsbD j = false) →
      ∃ t, exec (.pfirst d qa p) s = .next t ∧ t.me.getG d = (if d = 0 then 0 else BitVec.allOnes 64)) ∧
    (∀ w sg, elemOf (vtypeTag (x.destVtype d 0x09)) = .int w sg → x.vl ≤ 8192 / w → 8 ≤ w →
      ∃ t, exec (.ptov d qa p) s = .next t ∧
        s.WroteElements t d (freshVtype 0x09) false p (fun k => if (x.getP qa).getLsbD k then 1 else 0))

/-- R160 to R162: permutes begin at element 0 and copy bits, a DEAD destination taking va's vtype; an element read from outside
0 to VL − 1, or where the predicate is 0, is +0; VCOMPRESS leaves the elements behind those it writes; VEXTR and VINS move one
element, a DEAD destination of VINS taking INT64; VBCAST, VID and VMVIX fill (a DEAD one INT64, UINT16 and va's vtype; the
immediate of VBCAST is sign-extended into an integer type, whatever SAT, log entry 92, DEDUCED). -/
def Sys2Proof.Machine.Claims.Permutes : Prop :=
  ∀ (s : State) (d a b : BitVec 5) (f : BitVec 2) (p : BitVec 3),
    let x := s.me
    let ta := (x.getV a).elemType
    let vb := x.vb f b
    let tag := vtypeTag (x.getV a).vtype
    let at_ (n : BitVec 5) (j : Int) : Nat := x.readElem (x.getV n) p j
    let act := x.activeFrom 0 p
    let same := (x.getV d).elemType = .dead ∨ vtypeTag (x.getV d).vtype = tag
    let left (i : Instr) (g : Nat → Option Nat) : Prop :=
      ∃ t, exec i s = .next t ∧ t.me.fflags = x.fflags ∧ s.WroteAt t d (x.getV a).vtype false g
    let moved (i : Instr) (g : Nat → Nat) : Prop :=
      ∃ t, exec i s = .next t ∧ t.me.fflags = x.fflags ∧ s.WroteElements t d (x.getV a).vtype true p g
    ta ≠ .dead → same → x.Fits ta [a] →
    ((f = 1 ∨ f = 2) →
      let k : Int := if f = 1 then (s.g b).toInt else b.toInt
      moved (.vslideup d a b f p) (fun i => at_ a (i - k)) ∧ moved (.vslidedn d a b f p) (fun i => at_ a (i + k))) ∧
    moved (.vrev d a p) (fun i => at_ a (x.vl - 1 - i)) ∧
    left (.vcompress d a p) (fun j => act[j]?.map (fun i => (x.getV a).raw i)) ∧
    left (.vexpand d a p) (fun i =>
      if i < x.vl ∧ (x.getP p).getLsbD i = true then
        some ((x.getV a).raw (act.filter (fun j => decide (j < i))).length)
      else none) ∧
    ((f = 0 ∨ f = 3) → (x.getV vb).elemType ≠ .dead → x.vl ≤ (x.getV vb).elemType.vlmax →
      ((x.getV vb).elemType.isInt = true → moved (.vpermute d a b f p) (fun i => at_ a (x.value vb i).toI)) ∧
      (vtypeTag (x.getV vb).vtype = tag →
        moved (.vzip d a b f p) (fun i => at_ (if i % 2 = 0 then a else vb) (i / 2 : Nat)) ∧
        moved (.vunzip d a b f p) (fun i =>
          if 2 * i < x.vl then at_ a (2 * i : Nat) else at_ vb (2 * i - x.vl : Nat))))

/-- R149, R162: VEXTR, VINS, VBCAST, VID and VMVIX, in every form and into every live or DEAD destination that is not BX where
a number is delivered. -/
def Sys2Proof.Machine.Claims.SingleElementsAndFills : Prop :=
  ∀ (s : State) (d a b c : BitVec 5) (f : BitVec 2) (p : BitVec 3) (mode : RMode),
    let x := s.me
    let ta := (x.getV a).elemType
    let k : Int := if f = 1 then (s.g b).toInt else b.toInt
    let vd := (s.g d).extractLsb' 0 5
    let dest (tag : BitVec 8) : BitVec 16 := x.destVtype d tag
    let room (tag : BitVec 8) : Prop := x.vl ≤ (elemOf (vtypeTag (dest tag))).vlmax
    let filled (i : Instr) (tag : BitVec 8) (v : Nat → Int) : Prop :=
      let td := elemOf (vtypeTag (dest tag))
      let put (k : Nat) : Nat × Flags := td.deliver mode ((dest tag).getLsbD 8) (.int (v k))
      room tag → (∀ q, td ≠ .bx q) → td.isInt = true ∨ x.roundingOf (dest tag) = some mode → ∃ t, exec i s = .next t ∧
        t.me.fflags = x.fflags ||| orFlags ((x.activeFrom 0 p).map (fun k => (put k).2)) ∧
        s.WroteElements t d (freshVtype tag) true p (fun k => (put k).1)
    x.share ≠ 0 →
    (f = 1 ∨ f = 2 →
      (ta ≠ .dead → x.vl ≤ ta.vlmax → ∃ t, exec (.vextr d a b f p) s = .next t ∧ t.me.v = x.v ∧ t.me.vstart = 0 ∧
        t.me.getG d = (if d = 0 then 0 else
          let e := x.readElem (x.getV a) p k
          BitVec.ofInt 64 (match ta with | .int w sg => intOfBits w sg e | _ => (e : Int)))) ∧
      (room 0x04 → ∃ t, exec (.vins d c b f p) s = .next t ∧ t.me.fflags = x.fflags ∧
        s.WroteAt t d (freshVtype 0x04) false (fun i =>
          if (i : Int) = k ∧ i < x.vl ∧ (x.getP p).getLsbD i = true then some (s.g c).toNat else none))) ∧
    (room 0x04 → ∃ t, exec (.vbcast d b 1 p) s = .next t ∧ t.me.fflags = x.fflags ∧
      s.WroteElements t d (freshVtype 0x04) true p (fun _ => (s.g b).toNat)) ∧
    filled (.vbcast d b 2 p) 0x04
      (fun _ => match elemOf (vtypeTag (dest 0x04)) with | .int w false => b.toInt % 2 ^ w | _ => b.toInt) ∧ filled (.vid d p) 0x0A (fun i => i) ∧
    (ta ≠ .dead → x.vl ≤ ta.vlmax → (x.getV vd).elemType = .dead ∨ (x.getV vd).elemType.width = ta.width →
      ∃ t, exec (.vmvix d a p) s = .next t ∧ t.me.fflags = x.fflags ∧
        s.WroteElements t vd (x.getV a).vtype true p (fun i => (x.getV a).raw i))

/-- R63: node m of a level of the fixed tree over element positions, with the flags raised below it; level 0 is the elements
that take part. -/
def Sys2Proof.Machine.treeNode (add : FVal → FVal → FVal × Flags) (leaf : Nat → Option FVal) : Nat → Nat → Option (FVal × Flags)
  | 0, m => (leaf m).map (fun v => (v, 0))
  | n + 1, m =>
    match treeNode add leaf n (2 * m), treeNode add leaf n (2 * m + 1) with
    | some u, some v => some ((add u.1 v.1).1, u.2 ||| v.2 ||| (add u.1 v.1).2)
    | some u, none => some u
    | none, v => v

/-- R63, R161, R163: a reduction over the active elements begins with element 0 of vb (or the scalar) and writes element 0;
a scan writes the running value of each active element, VRECUR that of its recurrence; whatever VSTART holds they begin at
element 0 and leave it 0, and every element that takes no part is undisturbed. Integers wrap or clamp at delivery only. -/
def Sys2Proof.Machine.Claims.IntegerReductions : Prop :=
  ∀ (s : State) (d a b : BitVec 5) (f : BitVec 2) (p : BitVec 3) (tag : BitVec 8) (w wd : Nat) (sg sgd : Bool),
    let x := s.me
    let y := x.second f (x.getV a).elemType b
    let part := x.activeFrom 0 p
    let run (op : Int → Int → Int) (l : List Nat) : Int :=
      l.foldl (fun c k => op c (x.value a k).toI) (x.secondAt y 0).toI
    let put (v : Int) : Nat := deliverInt wd sgd ((x.destVtype d tag).getLsbD 8) v
    let low (i : Instr) (op : Int → Int → Int) : Prop := ∃ t, exec i s = .next t ∧ t.me.fflags = x.fflags ∧
      s.WroteAt t d (freshVtype tag) false (fun k => if k = 0 ∧ 0 < x.vl then some (put (run op part)) else none)
    let each (i : Instr) (op : Int → Int → Int) : Prop := ∃ t, exec i s = .next t ∧ t.me.fflags = x.fflags ∧
      s.WroteElements t d (freshVtype tag) true p (fun k => put (run op (part.filter (fun j => decide (j ≤ k)))))
    let bits (op : BitVec 128 → BitVec 128 → BitVec 128) (u v : Int) : Int :=
      (op (BitVec.ofInt 128 u) (BitVec.ofInt 128 v)).toInt
    x.resolveWith [a] y = .ok (.int w sg) tag → elemOf (vtypeTag (x.destVtype d tag)) = .int wd sgd →
    x.Fits (.int wd sgd) ([a] ++ y.regs) →
    low (.vredsum d a b f p) (· + ·) ∧ low (.vredmin d a b f p) min ∧ low (.vredmax d a b f p) max ∧
    low (.vredand d a b f p) (bits (· &&& ·)) ∧ low (.vredor d a b f p) (bits (· ||| ·)) ∧
    low (.vredxor d a b f p) (bits (· ^^^ ·)) ∧
    each (.vscanadd d a b f p) (· + ·) ∧ each (.vscanmin d a b f p) min ∧ each (.vscanmax d a b f p) max

/-- R52, R63, R161, R163: the same in the floating domain: a sum is rounded to vd's format at each node of the fixed tree
(VREDSUM), or at each carry in ascending order (VFREDOSUM, VSCANADD, VRECUR, whose carry is one fused operation); a minimum or
maximum needs no rounding on the way (log entry 61, DEDUCED). What the nodes, the carries and the delivery raise goes to
FFLAGS. -/
def Sys2Proof.Machine.Claims.FloatingReductions : Prop :=
  ∀ (s : State) (d a b : BitVec 5) (f : BitVec 2) (p : BitVec 3) (tag : BitVec 8) (mode : RMode) (fm : FFmt),
    let x := s.me
    let y := x.second f (x.getV a).elemType b
    let part := x.activeFrom 0 p
    let v0 := (x.secondAt y 0).toF
    let upTo (k : Nat) : List Nat := part.filter (fun j => decide (j ≤ k))
    let run (op : FVal → Nat → FVal × Flags) (l : List Nat) : FVal := l.foldl (fun c k => (op c k).1) v0
    let raised (op : FVal → Nat → FVal × Flags) : Flags :=
      orFlags (part.map (fun k => (op (run op (part.filter (fun j => decide (j < k)))) k).2))
    let elem (op : FVal → FVal → FVal × Flags) (c : FVal) (k : Nat) : FVal × Flags := op c (x.value a k).toF
    redFormat (.fp fm) = some fm →
    (let vt := x.destVtype d (redTag tag)
     let put (v : FVal) : Nat × Flags := fm.deliver mode (vt.getLsbD 8) v
     let add (u v : FVal) : FVal × Flags := roundTo fm mode (vt.getLsbD 8) (sumExact mode [u, v])
     let low (i : Instr) (op : FVal → Nat → FVal × Flags) : Prop := ∃ t, exec i s = .next t ∧
      t.me.fflags = x.fflags ||| raised op ||| (if x.vl = 0 then 0 else (put (run op part)).2) ∧
      s.WroteAt t d (freshVtype (redTag tag)) false (fun k => if k = 0 ∧ 0 < x.vl then some (put (run op part)).1 else none)
     let each (i : Instr) (op : FVal → Nat → FVal × Flags) : Prop := ∃ t, exec i s = .next t ∧
      t.me.fflags = x.fflags ||| raised op ||| orFlags (part.map (fun k => (put (run op (upTo k))).2)) ∧
      s.WroteElements t d (freshVtype (redTag tag)) true p (fun k => (put (run op (upTo k))).1)
     x.resolveWith [a] y = .ok .float tag → elemOf (vtypeTag vt) = .fp fm → x.roundingOf vt = some mode →
      x.Fits (.fp fm) ([a] ++ y.regs) →
      low (.vfredosum d a b f p) (elem add) ∧ low (.vredmin d a b f p) (elem (minMaxVal false)) ∧
      low (.vredmax d a b f p) (elem (minMaxVal true)) ∧ each (.vscanadd d a b f p) (elem add) ∧
      each (.vscanmin d a b f p) (elem (minMaxVal false)) ∧ each (.vscanmax d a b f p) (elem (minMaxVal true)) ∧
      let sum : FVal × Flags := match treeNode add (fun m => if m ∈ part then some (x.value a m).toF else none) 11 0 with
        | some v => ((add v0 v.1).1, v.2 ||| (add v0 v.1).2)
        | none => (v0, 0)
      ∃ t, exec (.vredsum d a b f p) s = .next t ∧
        t.me.fflags = x.fflags ||| sum.2 ||| (if x.vl = 0 then 0 else (put sum.1).2) ∧
        s.WroteAt t d (freshVtype (redTag tag)) false (fun k => if k = 0 ∧ 0 < x.vl then some (put sum.1).1 else none)) ∧
    (let sat := (x.getV d).vtype.getLsbD 8
     let step (c : FVal) (k : Nat) : FVal × Flags :=
      roundTo fm mode sat (FVal.fma mode (x.value a k).toF c (x.value d k).toF)
     x.resolveWith [a, d] y = .ok .float tag → (x.getV d).elemType = .fp fm →
      x.roundingOf (x.getV d).vtype = some mode → x.Fits (.fp fm) ([a] ++ y.regs) →
      ∃ t, exec (.vrecur d a b f p) s = .next t ∧
        t.me.fflags = x.fflags ||| raised step ||| orFlags (part.map (fun k => (fm.deliver mode sat (run step (upTo k))).2)) ∧
        s.WroteElements t d 0 true p (fun k => (fm.deliver mode sat (run step (upTo k))).1))

/-- R52, R63, R161, R163: reductions, scans and recurrences. -/
def Obligations.ReductionsAndScans : Prop :=
  Claims.IntegerReductions ∧ Claims.FloatingReductions

/-- R115: what a vector instruction checks, in order: VECT_NOLANES, then VECT_DEAD where a source is DEAD, then VL_RANGE where
a type cannot hold VL elements; the trap holds the word and writes nothing, stated of VADD in every form. ILLEGAL_INSTR comes
from the live tags first, whatever a DEAD operand leaves to VECT_DEAD: a floating source of a shift or VROL (R153), sources
and destination of VZIP and VUNZIP that do not share one tag (R162). -/
def Sys2Proof.Machine.Claims.VectorChecksInOrder : Prop :=
  ∀ (s : State) (d a b : BitVec 5) (f : BitVec 2) (p : BitVec 3) (w : InstrWord),
    let x := s.me
    let y := x.second f (x.getV a).elemType b
    let res := x.resolveWith [a] y
    let trap (cause : BitVec 8) : Prop := exec (.vadd d a b f p) s = .next (s.trap ⟨cause, 0, 0, w.setWidth 48⟩)
    encode (.vadd d a b f p) = some w →
    (res = .none → trap 0x01) ∧
    (∀ n sg tag, res = .ok (.int n sg) tag → (elemOf (vtypeTag (x.destVtype d tag))).isInt = true →
      (x.share = 0 → trap 0x09) ∧
      (x.share ≠ 0 → (∃ r ∈ [a] ++ y.regs, (x.getV r).elemType.vlmax < x.vl) → trap 0x0B)) ∧
    (res = .dead → (x.getV d).elemType.isInt = true → (x.share = 0 → trap 0x09) ∧ (x.share ≠ 0 → trap 0x0A)) ∧
    (∀ i ∈ [Instr.vsll d a b f p, .vsrl d a b f p, .vsra d a b f p, .vrol d a b f p], ∀ q, encode i = some q →
      (∃ n ∈ a :: x.formRegs f b, (x.getV n).elemType ≠ .dead ∧ (x.getV n).elemType.isInt = false) →
      exec i s = .next (s.trap ⟨0x01, 0, 0, q.setWidth 48⟩)) ∧
    (∀ i ∈ [Instr.vzip d a b f p, .vunzip d a b f p], ∀ q, encode i = some q →
      (∃ n ∈ [a, x.vb f b, d], ∃ m ∈ [a, x.vb f b, d], (x.getV n).elemType ≠ .dead ∧ (x.getV m).elemType ≠ .dead ∧
        vtypeTag (x.getV n).vtype ≠ vtypeTag (x.getV m).vtype) →
      exec i s = .next (s.trap ⟨0x01, 0, 0, q.setWidth 48⟩))

/-! ### Vector memory, scale registers, tiles and accumulators -/

namespace Sys2Proof.Machine

/-- The vector loads and stores that take no ticket, with their fields. -/
def vmemInstrs (d base b : BitVec 5) (c : BitVec 4) (h : BitVec 2) (p : BitVec 3) : List (Instr × VmOp) :=
  [(.vld d base c h p, ⟨false, false, .unit_, d, base, 0, c, p⟩),
    (.vst d base c h p, ⟨true, false, .unit_, d, base, 0, c, p⟩),
    (.vldff d base c h p, ⟨false, true, .unit_, d, base, 0, c, p⟩),
    (.vlds d base b c h p, ⟨false, false, .strided, d, base, b, c, p⟩),
    (.vsts d base b c h p, ⟨true, false, .strided, d, base, b, c, p⟩),
    (.vldx d base b c h p, ⟨false, false, .indexed, d, base, b, c, p⟩),
    (.vstx d base b c h p, ⟨true, false, .indexed, d, base, b, c, p⟩),
    (.vstxo d base b c h p, ⟨true, false, .indexed, d, base, b, c, p⟩)]

/-- R166: the checks at issue a vector load or store passes. -/
def Strand.vmReady (x : Strand) (o : VmOp) : Prop :=
  x.share ≠ 0 ∧ (x.getV o.d).elemType ≠ .dead ∧ x.vl ≤ (x.getV o.d).elemType.vlmax ∧
    (o.shape = .indexed → (x.getV o.b).elemType.isInt = true ∧ x.vl ≤ (x.getV o.b).elemType.vlmax) ∧
    (o.shape ≠ .unit_ → (x.getV o.d).elemType ≠ .bx .bx4)

/-- Elements performed one after the other on the own package: each passes its checks in the state its predecessor left,
may be performed now (R355), and leaves the state the next one finds. -/
def State.Performed (x : Strand) (o : VmOp) : State → List Nat → State → Prop
  | s, [], t => t = s
  | s, i :: l, t => ∃ p s1, s.elemCheck x o i = .ok (p, s1) ∧ p.remote = false ∧
      s1.mayTarget s1.cur o.cls.toNat none = true ∧ State.Performed x o (s1.elemPerform x o i p) l t

end Sys2Proof.Machine

/-- R165, R167: where an element lies (the unit-stride form packs elements, two 4-bit ones to a byte; the strided form adds
i × g(b), the indexed form the index) and what performing it does: a load writes that element of vd alone, a store the
element's bytes, a 4-bit one its half of the byte. -/
def Sys2Proof.Machine.Claims.ElementPlaces : Prop :=
  ∀ (s : State) (o : VmOp) (i : Nat) (p : Place),
    let x := s.me
    let w := (x.getV o.d).elemType.width
    let t := s.elemPerform x o i p
    (x.getV o.d).elemType ≠ .dead →
    (o.shape = .unit_ → x.elemAddr o i = x.getG o.base + BitVec.ofNat 64 (w * i / 8)) ∧
    (o.shape = .strided → x.elemAddr o i = x.getG o.base + BitVec.ofInt 64 (i * (x.getG o.b).toInt)) ∧
    (o.shape = .indexed → x.elemAddr o i = x.getG o.base + BitVec.ofInt 64 (x.value o.b i).toI) ∧
    (o.store = false → i < (x.getV o.d).elemType.vlmax →
      t.mem = s.mem ∧ t.me.g = x.g ∧ (∀ n, n ≠ o.d → t.me.getV n = x.getV n) ∧
      ∀ k, k < (x.getV o.d).elemType.vlmax → (t.me.getV o.d).raw k =
        if k ≠ i then (x.getV o.d).raw k
        else if w = 4 then s.readPlace p 1 / 16 ^ (i % 2) % 16 else s.readPlace p (w / 8) % 2 ^ w) ∧
    (o.store = true → w ≠ 4 → t = s.writePlace p (w / 8) ((x.getV o.d).raw i)) ∧
    (o.store = true → w = 4 → ∃ b, t = s.writePlace p 1 b ∧ b / 16 ^ (i % 2) % 16 = (x.getV o.d).raw i ∧
      b / 16 ^ ((i + 1) % 2) % 16 = s.readPlace p 1 / 16 ^ ((i + 1) % 2) % 16)

/-- R168, R169: a vector load or store that passes its checks, every active element of it on the own package, performs
them in ascending order from VSTART and completes with VSTART 0. -/
def Sys2Proof.Machine.Claims.VectorMemoryCompletes : Prop :=
  ∀ (s t : State) (d base b : BitVec 5) (c : BitVec 4) (h : BitVec 2) (p : BitVec 3),
    s.me.wait = .none → s.drainHolds s.cur c.toNat = false → ∀ i o, (i, o) ∈ vmemInstrs d base b c h p → s.me.vmReady o →
      State.Performed s.me o s (s.me.active p) t →
      ∃ u, exec i s = .next u ∧ u = t.vmDone o none ∧ u.me.vstart = 0 ∧ u.me.g = s.me.g ∧ u.me.vl = s.me.vl ∧
        u.mem = t.mem ∧ u.spad = t.spad ∧ u.me.wait = .none ∧ (∀ n k, (u.me.getV n).raw k = (t.me.getV n).raw k) ∧
        (∀ sid, sid ≠ s.cur → u.strand sid = s.strand sid) ∧ (o.store = false → u.spad = s.spad)

/-- R170, R172: the first element that fails its checks ends the instruction: VSTART and TRAP_ELEM name it, TRAP_ADDR its
address, the elements before it stay performed; VLDFF with an earlier element done and no MISALIGNED sets VL to it and
completes. -/
def Sys2Proof.Machine.Claims.VectorMemoryFaults : Prop :=
  ∀ (s t t1 : State) (d base b : BitVec 5) (c : BitVec 4) (h : BitVec 2) (p : BitVec 3) (j k : Nat) (tr : Trap),
    s.me.wait = .none → s.drainHolds s.cur c.toNat = false → ∀ i o, (i, o) ∈ vmemInstrs d base b c h p → s.me.vmReady o →
      State.Performed s.me o s ((s.me.active p).take j) t → (s.me.active p)[j]? = some k →
      t.elemCheck s.me o k = .error (.trap tr, t1) → k < 2048 →
      ∃ u, exec i s = .next u ∧ u.mem = t1.mem ∧ u.spad = t.spad ∧
        (∀ n e, (u.me.getV n).raw e = (t.me.getV n).raw e) ∧
        (if o.faultFirst = true ∧ 0 < j ∧ tr.cause ≠ 0x03 then u.me.vl = k ∧ u.me.vstart = 0 ∧ u.me.status = s.me.status
          else u.me.vstart = k ∧ u.me.trapCause = tr.cause ∧ u.me.trapAddr = tr.addr ∧
            u.me.trapElem = BitVec.ofNat 11 k ∧ u.me.trapPc = s.me.pc)

/-- R97, R174: VLDSC and VSTSC with nothing to do complete; else they take the next ticket and wait. The ticket taken first is
served when the fence before it is complete: every element is checked first, then all of them are performed as one step and
the instruction completes with VSTART 0 and its ticket given back; where an element fails its checks the trap names it and
nothing is performed, VSTART as it was. -/
def Sys2Proof.Machine.Claims.TicketsAreServed : Prop :=
  ∀ (s : State) (d base b : BitVec 5) (c : BitVec 4) (h : BitVec 2) (p : BitVec 3) (st : Bool),
    let o : VmOp := ⟨st, false, .indexed, d, base, b, c, p⟩
    let i : Instr := if st then .vstsc d base b c h p else .vldsc d base b c h p
    (s.me.wait = .none → s.drainHolds s.cur c.toNat = false → s.me.vmReady o →
      (s.me.vl ≤ s.me.vstart → exec i s = .next (s.vmDone o none)) ∧
      (s.me.vstart < s.me.vl → ∃ t, exec i s = .next t ∧ t.tickets = s.tickets ++ [s.nextTicket] ∧
        t.nextTicket = s.nextTicket + 1 ∧ t.me.wait = .ticket s.nextTicket st d base b c p ∧ t.me.g = s.me.g ∧
        t.me.v = s.me.v ∧ t.me.pc = s.me.pc)) ∧
    (∀ n rest sid, s.tickets = n :: rest → s.ticketHolder n = some sid →
      (s.strand sid).wait = .ticket n st d base b c p → s.fenceDone sid 0 3 (BitVec.ofNat 16 (2 ^ c.toNat)) = true →
      let s0 := { s with cur := sid }
      let x := s.strand sid
      (∀ l l' s1 s2, s0.elemCheckAll x o (x.active p) = .ok (l, s1) → s1.elemCheckAll x o (x.active p) = .ok (l', s2) →
        (∀ q ∈ l ++ l', q.2.remote = false) →
        exec .ticketServed s = .next { (l'.foldl (fun u q => u.elemPerform x o q.1 q.2) s2).vmDone o (some n) with
          cur := s.cur }) ∧
      (∀ j k l s1 s2 tr, s0.elemCheckAll x o ((x.active p).take j) = .ok (l, s1) → (∀ q ∈ l, q.2.remote = false) →
        (x.active p)[j]? = some k → s1.elemCheck x o k = .error (.trap tr, s2) →
        ∃ t, exec .ticketServed s = .next t ∧ t.tickets = s.tickets.filter (fun m => m != n) ∧ t.mem = s2.mem ∧
          t.spad = s.spad ∧ (t.strand sid).vstart = x.vstart ∧ (t.strand sid).v = x.v ∧
          (t.strand sid).trapCause = tr.cause ∧ (t.strand sid).trapAddr = tr.addr ∧
          (t.strand sid).trapElem = BitVec.ofNat 11 k ∧ (t.strand sid).trapPc = x.pc))

namespace Sys2Proof.Machine

/-- Pieces of `n` bytes found one after the other on the own package: each address passes its checks in the state its
predecessor left, and a piece that is read is not poisoned and has the value it holds there. -/
def State.PiecesFound (kind : AccessKind) (n : Nat) : State → List Word → List (Place × Nat) → State → Prop
  | s, [], l, t => l = [] ∧ t = s
  | s, a :: as, l, t => ∃ p s1 v rest, l = (p, v) :: rest ∧ s.resolve s.actor kind a n = .ok (p, s1) ∧
      p.remote = false ∧ (kind = .load → s1.placePoisoned p n = false ∧ v = s1.readPlace p n) ∧
      State.PiecesFound kind n s1 as rest t

end Sys2Proof.Machine

/-- R177, R178: ELDS and ESTS on an address that is a multiple of 256, every piece of 8 bytes passing its checks on the own
package, move 256 bytes between memory and e(e); EZERO clears e(e). None of them touches VSTART (log entry 62, DEDUCED). -/
def Sys2Proof.Machine.Claims.ScaleRegistersMove : Prop :=
  ∀ (s : State) (e : BitVec 4) (a : BitVec 5), s.me.share ≠ 0 →
    exec (.ezero e) s = .next (s.setMe (s.me.setE e 0)).retire ∧
    ((s.g a).toNat % 256 = 0 → s.mayTarget s.cur 0 none = true →
      let at_ := (List.range 32).map (fun k => s.g a + BitVec.ofNat 64 (8 * k))
      (∀ l s1, s.PiecesFound .load 8 at_ l s1 →
        ∃ v, exec (.elds e a) s = .next (s1.setMe (s1.me.setE e v)).retire ∧ l.length = 32 ∧
          ∀ k (hk : k < l.length), (v.extractLsb' (64 * k) 64).toNat = l[k].2 % 2 ^ 64) ∧
      (∀ l s1, s.PiecesFound .store 8 at_ l s1 →
        exec (.ests e a) s = .next (((List.range 32).zip l).foldl (fun u q =>
          u.writePlace q.2.1 8 ((s.me.getE e).extractLsb' (64 * q.1) 64).toNat) s1).retire))

namespace Sys2Proof.Machine

/-- Element i of 32 bits of an accumulator's image (R196). -/
def accElem (bits : BitVec 131072) (i : Nat) : Nat := (bits.extractLsb' (32 * i) 32).toNat

/-- Pieces of 16 bytes stored from an image, lowest first. -/
def State.storePieces (s : State) (l : List (Place × Nat)) (image : Nat) : State :=
  ((List.range l.length).zip l).foldl (fun u q => u.writePlace q.2.1 16 (image / 2 ^ (128 * q.1) % 2 ^ 128)) s

/-- What a transfer of `n` pieces at a base and a pitch may go ahead on: the alignment of R194, every piece checked, all of
them on the own package, and nothing of class 0 outstanding elsewhere. -/
def State.PiecesReady (s s1 : State) (kind : AccessKind) (base pitch : Word) (chunks : Nat) (l : List (Place × Nat)) :
    Prop :=
  base.toNat % 16 = 0 ∧ pitch.toNat % 16 = 0 ∧ s.PiecesFound kind 16 (rowPieces base pitch 64 chunks) l s1 ∧
    s.mayTarget s.cur 0 none = true

/-- What a tile transfer by descriptor may go ahead on (R191, R194). -/
def State.DescReady (s : State) (d : Desc) (core : Nat) : Prop :=
  d.rsv = false ∧ d.alignTrap = none ∧ s.descCore (coreOf s.cur) d 1 = .ok core ∧ s.mayTarget s.cur 0 none = true

end Sys2Proof.Machine

/-- R16, R115: without the tiles every instruction of majors 0x31 to 0x34, and GTMCAST, traps TILE_UNAVAIL, its word in
TRAP_INFO; a transfer that names one of the strand's own vector registers whose live tag no accumulator, or no tile, can have
traps ILLEGAL_INSTR before that. -/
def Sys2Proof.Machine.Claims.TilesUnavailable : Prop :=
  ∀ (s : State) (x x' : BitVec 2) (t u : BitVec 3) (v y z : BitVec 5) (e : BitVec 4) (sa sb : BitVec 1),
    let tag := vtypeTag (s.me.getV v).vtype
    s.myCore.owns s.cur = false →
    (∀ i ∈ [Instr.tld t y z, .tst t y z, .tldm t y, .tstm t y, .tzero t, .tmov t u, .ttrans t u, .tcfg t y, .accz x,
        .accst x y z e, .accadd x x', .accscl x y, .mma x y z e sa sb, .mmaz x y z e sa sb, .mmas x y z e sa sb,
        .gtmcast t y], ∀ w, encode i = some w → exec i s = .next (s.trap ⟨0x08, 0, 0, w.setWidth 48⟩)) ∧
    (∀ i ∈ [Instr.accrd x v z, .accwr x v z], ∀ w, encode i = some w →
      exec i s = .next (s.trap ⟨if tag = 0 ∨ tag = 0x03 ∨ tag = 0x11 then 0x08 else 0x01, 0, 0, w.setWidth 48⟩)) ∧
    (∀ i ∈ [Instr.trowv v t z, .vtrow t v z, .tcolv v t z], ∀ w, encode i = some w →
      exec i s = .next (s.trap ⟨if tag = 0 ∨ isTileTag tag = true then 0x08 else 0x01, 0, 0, w.setWidth 48⟩))

/-- R181, R194, R195: the moves and transfers of tiles by the tile owner. A tile written takes its tag (a raw byte tile
UINT8 where it was DEAD) and its TDIRTY bit; TTRANS exchanges rows and columns; TLD, TST, TLDM and TSTM move 64 rows of 64
bytes, by base and pitch or by a descriptor. -/
def Sys2Proof.Machine.Claims.TilesMove : Prop :=
  ∀ (s : State) (t u : BitVec 3) (y z : BitVec 5),
    let c := s.myCore
    let raw : BitVec 8 := if c.tileTag t = 0 then 0x09 else c.tileTag t
    let v := s.g y
    let d := s.me.desc y
    let set (bits : BitVec 32768) (tag : BitVec 8) : Core := { c with
      tiles := c.tiles.set t.toNat bits t.isLt
      tileTags := c.tileTags.set t.toNat tag t.isLt
      tdirty := c.tdirty ||| BitVec.ofNat 12 (2 ^ t.toNat) }
    let moved (i : Instr) (bits : BitVec 32768) (tag : BitVec 8) : Prop :=
      exec i s = .next (s.setMyCore (set bits tag)).retire
    c.owns s.cur = true →
    moved (.tzero t) 0 raw ∧
    (c.tileTag u ≠ 0 → moved (.tmov t u) (c.tile u) (c.tileTag u)) ∧
    (c.tileTag u = 0x01 ∨ c.tileTag u = 0x09 ∨ c.tileTag u = 0x14 ∨ c.tileTag u = 0x15 →
      ∃ bits, moved (.ttrans t u) bits (c.tileTag u) ∧
        ∀ r q, r < 64 → q < 64 → tileElem bits 8 r q = tileElem (c.tile u) 8 q r) ∧
    (v.toNat < 256 → isTileTag (v.setWidth 8) = true → moved (.tcfg t y) (c.tile t) (v.setWidth 8)) ∧
    (∀ l s1, s.PiecesReady s1 .load v (s.g z) 4 l → ∃ bits : BitVec 32768,
      exec (.tld t y z) s = .next (s1.setMyCore (s1.myCore.setTile t bits raw)).retire ∧
        ∀ k (hk : k < l.length), (bits.extractLsb' (128 * k) 128).toNat = l[k].2 % 2 ^ 128) ∧
    (∀ l s1, c.tileTag t ≠ 0 → s.PiecesReady s1 .store v (s.g z) 4 l →
      exec (.tst t y z) s = .next (s1.storePieces l (c.tile t).toNat).retire) ∧
    (∀ core, s.DescReady d core → s.descPoison core d ((List.range 64).map (fun r => (r, 0))) = none →
      ∃ bits : BitVec 32768, moved (.tldm t y) bits (d.windowTag.getD raw) ∧
        ∀ r, r < 64 → (bits.extractLsb' (512 * r) 512).toNat = s.readSegment core d r 0 % 2 ^ 512) ∧
    (∀ core, s.DescReady d core → c.tileTag t ≠ 0 → windowAlias d.base = 0 →
      exec (.tstm t y) s = .next ((List.range 64).foldl (fun q r =>
        q.writeSegment core d r ((c.tile t).extractLsb' (512 * r) 512).toNat) s).retire)

/-- R197: a row of a tile to the elements of a vector register and back, and a column; a DEAD destination takes the source's
tag. -/
def Sys2Proof.Machine.Claims.TileVectorTransfers : Prop :=
  ∀ (s : State) (t : BitVec 3) (v z : BitVec 5),
    let c := s.myCore
    let x := s.me
    let tag := c.tileTag t
    let vtag := vtypeTag (x.getV v).vtype
    let w := (elemOf tag).width
    let n := 512 / w
    let g := (s.g z).toNat
    let read (i : Instr) (m : Nat) (f : Nat → Nat) : Prop := ∃ u, exec i s = .next u ∧ u.mem = s.mem ∧
      u.cores = s.cores ∧ u.me.g = x.g ∧ (∀ k, k ≠ v → u.me.getV k = x.getV k) ∧
      vtypeTag (u.me.getV v).vtype = tag ∧
      ∀ k, k < 8192 / w → elemBits (u.me.getV v).bits w k = if k < m then f k else elemBits (x.getV v).bits w k
    c.owns s.cur = true → x.share ≠ 0 →
    (isTileTag tag = true → tag ≠ 0 → vtag = 0 ∨ vtag = tag →
      read (.trowv v t z) n (fun k => tileElem (c.tile t) w (g % 64) k) ∧
      read (.tcolv v t z) 64 (fun r => tileElem (c.tile t) w r (g % n))) ∧
    (isTileTag vtag = true → vtag ≠ 0 → tag = 0 ∨ tag = vtag →
      ∃ bits : BitVec 32768, exec (.vtrow t v z) s = .next (s.setMyCore (c.setTile t bits vtag)).retire ∧
        ∀ r, r < 64 → bits.extractLsb' (512 * r) 512 =
          if r = g % 64 then (x.getV v).bits.extractLsb' 0 512 else (c.tile t).extractLsb' (512 * r) 512)

/-- R189, R196: the accumulator instructions of the tile owner on accumulators that are not busy: clearing, rows to and from
a vector register, the converted image to memory, sums and products with FP32 results rounded to nearest even; the flags of
all 4,096 conversions, sums or products are ORed into FFLAGS (none of an INT32 sum). -/
def Sys2Proof.Machine.Claims.AccumulatorsComplete : Prop :=
  ∀ (s : State) (x x' : BitVec 2) (y z : BitVec 5) (e : BitVec 4),
    let c := s.myCore
    let ta := c.accTag x
    let vtag := vtypeTag (s.me.getV y).vtype
    let row := (s.g z).toNat % 64
    let fp (tag : BitVec 8) (b : Nat) : FVal :=
      if tag = 0x03 then FVal.ofInt (intOfBits 32 true b) else FFmt.fp32.decode b
    let rounded (r : FVal × Flags) : Nat × Flags :=
      ((FFmt.fp32.deliver .rne false r.1).1, r.2 ||| (FFmt.fp32.deliver .rne false r.1).2)
    let sum (i : Nat) : Nat × Flags :=
      if ta = 0x03 then ((accElem (c.acc x) i + accElem (c.acc x') i) % 2 ^ 32, 0)
      else rounded (sumExact .rne [FFmt.fp32.decode (accElem (c.acc x) i), FFmt.fp32.decode (accElem (c.acc x') i)])
    let product (i : Nat) : Nat × Flags :=
      rounded ((fp ta (accElem (c.acc x) i)).mul (FFmt.fp32.decode ((s.g y).toNat % 2 ^ 32)))
    let raised (f : Nat → Nat × Flags) : Flags := orFlags ((List.range 4096).map (fun i => (f i).2))
    c.owns s.cur = true → c.accBusy [x, x'] = false →
    exec (.accz x) s = .next (s.setMyCore (c.setAcc x 0 (if ta = 0 then 0x11 else ta) none)).retire ∧
    ((vtag = 0x03 ∨ vtag = 0x11) → (ta = 0 ∨ ta = vtag) → ∃ bits : BitVec 131072,
      exec (.accwr x y z) s = .next (s.setMyCore (c.setAcc x bits vtag (c.accMark x))).retire ∧
        ∀ i, i < 4096 → accElem bits i =
          if i / 64 = row then elemBits (s.me.getV y).bits 32 (i % 64) else accElem (c.acc x) i) ∧
    ((ta = 0x03 ∨ ta = 0x11) → c.accMark x = none →
      (vtag = 0 ∨ vtag = ta → ∃ u, exec (.accrd x y z) s = .next u ∧ u.mem = s.mem ∧ u.cores = s.cores ∧
        u.me.g = s.me.g ∧ (∀ k, k ≠ y → u.me.getV k = s.me.getV k) ∧ vtypeTag (u.me.getV y).vtype = ta ∧
        ∀ k, k < 256 → elemBits (u.me.getV y).bits 32 k =
          if k < 64 then accElem (c.acc x) (64 * row + k) else elemBits (s.me.getV y).bits 32 k) ∧
      (∀ l s1, e.toNat < 4 → s.PiecesReady s1 .store (s.g y) (s.g z) (4 * accBytes e) l → ∃ image,
        exec (.accst x y z e) s = .next ((s1.storePieces l image).finish
          (raised (fun i => accConvert ta e (accElem (c.acc x) i)))) ∧
          ∀ i, i < 4096 → image / 2 ^ (8 * accBytes e * i) % 2 ^ (8 * accBytes e) =
            (accConvert ta e (accElem (c.acc x) i)).1 % 2 ^ (8 * accBytes e)) ∧
      (c.accTag x' = ta → c.accMark x' = none → ∃ bits,
        exec (.accadd x x') s = .next ((s.setMyCore (c.setAcc x bits ta none)).finish (raised sum)) ∧
          ∀ i, i < 4096 → accElem bits i = (sum i).1) ∧
      ∃ bits, exec (.accscl x y) s = .next ((s.setMyCore (c.setAcc x bits 0x11 none)).finish (raised product)) ∧
        ∀ i, i < 4096 → accElem bits i = (product i).1)

namespace Sys2Proof.Machine

/-- What MMA (0), MMAZ (1) and MMAS (2) check, passed (R183 to R185, R191): the formats, the accumulator's tag, the group,
K, and the cores the descriptors' bytes lie in; no byte of an operand is poisoned. -/
def State.MmaReady (s : State) (fn : Nat) (x : BitVec 2) (e : BitVec 4) (a b : MatSrc) (fa fb tag : BitVec 8)
    (rate group k ca cb : Nat) : Prop :=
  let c := s.myCore
  c.owns s.cur = true ∧ c.accBusy [x] = false ∧ a.rsv = false ∧ b.rsv = false ∧ c.formats x a b = (fa, fb) ∧ fa ≠ 0 ∧
    fb ≠ 0 ∧ matRate fa fb = some (tag, rate, group) ∧ (c.accTag x = tag ∨ (fn = 1 ∧ c.accTag x = 0)) ∧
    a.kOf fa = k ∧ b.kOf fb = k ∧ a.badK fa group = false ∧ b.badK fb group = false ∧
    scaleTooHigh fa e.toNat k = false ∧ scaleTooHigh fb (e.toNat + 1) k = false ∧
    (isBxTag fa = false → isBxTag fb = false → e = 0) ∧ a.alignTrap = none ∧ b.alignTrap = none ∧
    s.matCore a fa = .ok ca ∧ s.matCore b fb = .ok cb ∧ (fn = 1 ∨ c.accMark x = none) ∧
    s.matPoison a ca fa (List.range 64) = none ∧ s.matPoison b cb fb (List.range 64) = none ∧
    s.mayTarget s.cur 0 none = true

end Sys2Proof.Machine

/-- R183 to R188: MMA adds A × B^T to the accumulator, MMAZ starts from zero, MMAS subtracts: element (r, q) from row r of A
and row q of B. With no FFLAGS enable the unit completes it later, first issued first, its flags ORed into the strand's
FFLAGS; with one the strand holds until it has completed. -/
def Sys2Proof.Machine.Claims.MatrixProducts : Prop :=
  ∀ (s : State) (x : BitVec 2) (y z : BitVec 5) (e : BitVec 4) (sa sb : BitVec 1) (fa fb tag : BitVec 8)
    (rate group k ca cb core : Nat),
    let c := s.myCore
    let a := s.me.matSrc y sa
    let b := s.me.matSrc z sb
    let rowA (r : Nat) := s.me.matValues fa e.toNat r k (s.matRow a ca fa r)
    let rowB (r : Nat) := s.me.matValues fb (e.toNat + 1) r k (s.matRow b cb fb r)
    let runs (fn : Nat) (i : Instr) : Prop := s.MmaReady fn x e a b fa fb tag rate group k ca cb →
      ∃ job : MmaJob, exec i s = .next (if s.me.frm.extractLsb' 8 5 = 0
          then (s.setMyCore { c with matrix := c.matrix ++ [job] }).retire
          else (s.setMyCore (c.setAcc x job.bits tag none)).finish job.flags) ∧
        job.sid = s.cur ∧ job.acc = x.toNat ∧ job.tag = tag ∧ job.mark = none ∧
        ∀ r q, r < 64 → q < 64 → accElem job.bits (64 * r + q) =
          (mmaElem (fn = 2) (tag = 0x03) group (if fn = 1 then 0 else accElem (c.acc x) (64 * r + q)) (rowA r)
            (rowB q)).1 % 2 ^ 32
    runs 0 (.mma x y z e sa sb) ∧ runs 1 (.mmaz x y z e sa sb) ∧ runs 2 (.mmas x y z e sa sb) ∧
    (∀ j rest, (s.core core).matrix = j :: rest → j.acc < 4 → ∃ t, exec (.mmaCompletion core) s = .next t ∧
      (t.core core).matrix = rest ∧ (t.core core).accs[j.acc]? = some j.bits ∧
      (t.core core).accTags[j.acc]? = some j.tag ∧ (t.core core).accMarks[j.acc]? = some j.mark ∧
      (t.strand j.sid).fflags = (s.strand j.sid).fflags ||| j.flags ∧ (t.strand j.sid).g = (s.strand j.sid).g ∧
      ∀ i, i ≠ j.sid → t.strand i = s.strand i)

/-- R61: an element of an integer accumulator is the sum modulo 2^32 of the old element and the exact products; one of an
FP32 accumulator is rounded once to nearest even after each group, in ascending k. -/
def Sys2Proof.Machine.Claims.MatrixElements : Prop :=
  (∀ (sub : Bool) (group old : Nat) (xs ys : List EVal),
    ((mmaElem sub true group old xs ys).1 : Int) =
      (old + (if sub then -1 else 1) * ((xs.zip ys).map (fun p => p.1.toI * p.2.toI)).foldr (· + ·) 0) % 2 ^ 32) ∧
  (∀ (sub : Bool) (group m old : Nat) (xs ys : List EVal), 0 < group → xs.length = group * m → ys.length = group * m →
    let part (j : Nat) : FVal := (sumExact .rne ((((xs.drop (group * j)).take group).zip ((ys.drop (group * j)).take group)).map
      (fun p => (p.1.toF.mul p.2.toF).1))).1
    let step (acc : FVal) (j : Nat) : FVal := FFmt.fp32.decode (FFmt.fp32.deliver .rne false
      (sumExact .rne [acc, if sub then (part j).neg else part j]).1).1
    (mmaElem sub false group old xs ys).1 =
      (FFmt.fp32.deliver .rne false ((List.range m).foldl step (FFmt.fp32.decode old))).1)
/-! ### Barriers, semaphores, the stream engine, the caches -/

/-- R201, R202: GBAR of a gang member with its Steep words sent: an arrival of a phase that has completed returns 0; without
one the rank arrives and waits, the last arrival of a gang that has all its members setting the completion 96 cycles later,
when every member that waits returns 0; a deadline that runs out first withdraws the arrival and returns 2 when another member that has not arrived is
parked, else 1. -/
def Sys2Proof.Machine.Claims.BarriersComplete : Prop :=
  ∀ (s : State) (d a : BitVec 5) (n sid at_ : Nat),
    (s.me.gangId = 0 → ∀ w, encode (.gbar d a) = some w → exec (.gbar d a) s = .next (s.trap ⟨0x01, 0, 0, w.setWidth 48⟩)) ∧
    (
      let g := s.gang s.me.gangId.toNat
      let rank := s.me.gangRank.toNat
      s.me.gangId ≠ 0 → g.members ≠ [] → s.coveredEntries s.cur 3 0xFFFF = [] → (∀ e ∈ g.expired, e.1 ≠ rank) →
      (∀ ph, g.arrival rank = some ph → ph < g.phase → ∃ t, exec (.gbar d a) s = .next t ∧ t.me.wait = .none ∧
        t.me.getG d = 0 ∧ (t.gang s.me.gangId.toNat).arrival rank = none) ∧
      (g.arrival rank = none → ∃ t, exec (.gbar d a) s = .next t ∧ t.me.wait = .gbar d ∧
        (t.gang s.me.gangId.toNat).arrival rank = some g.phase ∧
        (t.gang s.me.gangId.toNat).completeAt =
          if g.completeAt = none ∧ (g.arrivals.filter (fun p => p.2 == g.phase)).length + 1 = g.size ∧
            g.members.length = g.size then some (s.cycle + 96) else g.completeAt)) ∧
    (
      let g := s.gang n
      g.members ≠ [] → g.completeAt = some at_ → at_ ≤ s.cycle →
      ∃ t, exec (.barrierPhaseComplete n) s = .next t ∧ (t.gang n).phase = g.phase + 1 ∧ (t.gang n).completeAt = none ∧
        t.mem = s.mem ∧ (∀ i, i ∉ g.members.map Prod.snd → t.strand i = s.strand i) ∧
        ∀ m ∈ g.members, ∀ e, (s.strand m.2).wait = .gbar e →
          (t.strand m.2).wait = .none ∧ (t.strand m.2).getG e = 0) ∧
    (
      let x := s.strand sid
      let rank := x.gangRank.toNat
      let g := s.gang x.gangId.toNat
      x.gangId ≠ 0 → (rank, 0) ∈ g.deadlines → g.completeAt = none → (rank, g.phase) ∈ g.arrivals → x.wait = .gbar d →
      ∃ t, exec (.gbarTimeout sid) s = .next t ∧ (t.strand sid).wait = .none ∧
        (t.gang x.gangId.toNat).arrival rank = none ∧
        (t.strand sid).getG d = if d = 0 then 0
          else if ∃ m ∈ g.members, m.1 ≠ rank ∧ (m.1, g.phase) ∉ g.arrivals ∧ (s.strand m.2).parked = true then 2 else 1)

/-- R203, R204: GRANK names the strand that holds a rank, all ones where none does; GTMCAST delivers its tile to the members
FIRST + i × STRIDE, i below COUNT, that own their core's tiles, and returns their number when the copies are written. Who owns
them is judged, and the number counted, when the GTMCAST issues (log entry 78, the model's choice). -/
def Sys2Proof.Machine.Claims.GangQueriesAndMulticast : Prop :=
  ∀ (s : State) (d a : BitVec 5) (t : BitVec 3) (sid : Nat),
    let g := s.gang s.me.gangId.toNat
    let set := s.g a
    let field (lo : Nat) : Nat := (set.extractLsb' lo 16).toNat
    let reached := g.members.filter (fun m => decide (m.1 < g.size) &&
      (List.range (field 16)).any (fun i => m.1 == field 0 + i * field 32) && (s.core (coreOf m.2)).owns m.2)
    (s.me.gangId = 0 ∨ s.me.gangSize.toNat ≤ set.toNat ∨ (∀ m ∈ g.members, m.1 ≠ set.toNat) →
      exec (.grank d a) s = .next (s.writeG d (BitVec.allOnes 64))) ∧
    (∀ l r m, s.me.gangId ≠ 0 → set.toNat < s.me.gangSize.toNat → g.members = l ++ (set.toNat, m) :: r →
      (∀ q ∈ l, q.1 ≠ set.toNat) → exec (.grank d a) s = .next (s.writeG d (BitVec.ofNat 64 m))) ∧
    (s.myCore.owns s.cur = true → s.me.gangId ≠ 0 → set.extractLsb' 48 16 = 0 → s.myCore.tileTag t ≠ 0 →
      ((∀ m ∈ reached, coreOf m.2 = coreOf s.cur) →
        exec (.gtmcast t a) s = .next (s.writeG (t.setWidth 5) (BitVec.ofNat 64 reached.length))) ∧
      (∀ m ∈ reached, coreOf m.2 ≠ coreOf s.cur → ∃ cores, (∀ c, c ∈ cores ↔ c ≠ coreOf s.cur ∧ ∃ q ∈ reached, coreOf q.2 = c) ∧
        exec (.gtmcast t a) s = .next (s.waiting (.gtmcast (t.setWidth 5) t.toNat cores reached.length)))) ∧
    (∀ cores count, (s.strand sid).wait = .gtmcast d t.toNat cores count →
      ∃ u, exec (.gtmcastCopiesWritten sid) s = .next u ∧ (u.strand sid).wait = .none ∧
        (u.strand sid).getG d = (if d = 0 then 0 else BitVec.ofNat 64 count) ∧ u.mem = s.mem ∧
        ∀ c ∈ cores, (u.core c).tile t = (s.core (coreOf sid)).tile t ∧
          (u.core c).tileTag t = (s.core (coreOf sid)).tileTag t ∧ (u.core c).tdirty.getLsbD t.toNat = true)

/-- R198: SEMPOST lets the strand that waits longest complete, or raises the count to at most 65,535; SEMWAIT takes a count or
waits; SEMTRY tells. -/
def Sys2Proof.Machine.Claims.SemaphoresComplete : Prop :=
  ∀ (s : State) (d : BitVec 5) (n : BitVec 3),
    let c := s.myCore
    let count := c.sems[n.toNat]'(n.isLt)
    let set (v : Nat) : State := s.setMyCore { c with sems := c.sems.set n.toNat v n.isLt }
    ((∀ q ∈ c.semQueue, q.2 ≠ n.toNat) → exec (.sempost n) s = .next (set (min 65535 (count + 1))).retire) ∧
    (∀ l r sid, c.semQueue = l ++ (sid, n.toNat) :: r → (∀ q ∈ l, q.2 ≠ n.toNat) → sid ≠ s.cur →
      ∃ t, exec (.sempost n) s = .next t ∧ t.me = s.me.retire ∧ t.strand sid = (s.strand sid).retire ∧
        t.myCore.sems = c.sems ∧ (∀ q ∈ t.myCore.semQueue, q.1 ≠ sid)) ∧
    (0 < count → exec (.semwait n) s = .next (set (count - 1)).retire ∧
      exec (.semtry d n) s = .next ((set (count - 1)).writeG d 1)) ∧
    (count = 0 → exec (.semtry d n) s = .next (s.writeG d 0) ∧ ∃ t, exec (.semwait n) s = .next t ∧
      t.me.wait = .sem n.toNat ∧ t.myCore.semQueue = c.semQueue ++ [(s.cur, n.toNat)])

/-- R205 to R207, R209: a card instruction reads its card once and checks it; with room in the queue it queues the card under
the next number and returns that number, with none it keeps the card and waits for a slot; the card holds the fields of its
64 bytes. -/
def Sys2Proof.Machine.Claims.CardsAreQueued : Prop :=
  ∀ (s s1 : State) (d a : BitVec 5) (x : Nat),
    ∀ i fn, (i, fn) ∈ [(Instr.secopy d a, 0), (.seload2d d a, 1), (.sestore2d d a, 2), (.segather d a, 3),
        (.sefoot d a, 4)] →
      let field (lo n : Nat) : Nat := x / 256 ^ lo % 256 ^ n
      let k (num : Nat) : Card := ⟨num, s.cur, s.me.domain, s.me.plbCtl, fn, BitVec.ofNat 64 (field 0 8),
        BitVec.ofNat 64 (field 8 8), BitVec.ofNat 32 (field 16 4), BitVec.ofNat 32 (field 20 4), field 24 4, field 28 4,
        BitVec.ofNat 64 (field 32 8), field 40 8, field 48 1, 0, .reset, none, none, false⟩
      let next := s1.myCore.seIssued + 1
      ((s.g a).toNat % 64 ≠ 0 → exec i s = .next (s.trap (addrTrap causeMisaligned (s.g a)))) ∧
      (∀ tr, (s.g a).toNat % 64 = 0 → s.readBlock s.actor (s.g a) 64 = .error (.trap tr, s1) →
        exec i s = .next (s1.trap tr)) ∧
      ((s.g a).toNat % 64 = 0 → s.readBlock s.actor (s.g a) 64 = .ok (x, s1) →
        ∀ w, encode i = some w →
        (∀ tr, s1.cardCheck (k 0) w (s.g a) (field 49 1) (field 50 14) = some tr → exec i s = .next (s1.trap tr)) ∧
        (s1.cardCheck (k 0) w (s.g a) (field 49 1) (field 50 14) = none →
          (s1.myCore.stoppedCards.filter (fun y => y.card.sid == s.cur && !y.restart)).length < 4 →
          (s1.myCore.cards.length < 16 → exec i s = .next ((s1.setMyCore { s1.myCore with
            cards := s1.myCore.cards ++ [k next], seIssued := next }).writeG d (BitVec.ofNat 64 next))) ∧
          (16 ≤ s1.myCore.cards.length → exec i s = .next (s1.waiting (.cardSlot d (k 0))))))

/-- R104, R105, R208, R209: the startable card of the lowest number starts, one at a time to at most eight in flight, footprint
fetches counted, none before the cards it has an edge from have completed; a card whose rows all move, its writes to other devices answered,
completes and leaves the queue; one that needs another device's bytes asks for them; one that meets a fault, or a write of
which another device did not perform, stops at that row with the trap, its number in TRAP_INFO, while its strand has fewer
than four stopped cards (a fifth stays in flight: log entry 96, the model's reading). SEWAIT takes its number at
issue: it completes when SE_SEQ has come to it, takes the trap of a stopped card it awaits, or waits. -/
def Sys2Proof.Machine.Claims.CardsRun : Prop :=
  ∀ (s : State) (a : BitVec 5) (core : Nat) (k : Card),
    let c := s.core core
    let f := s.fetchesOn core 4
    (k ∈ c.cards → c.startable f k = true → (∀ x ∈ c.cards, c.startable f x = true → k.num ≤ x.num) →
      ∃ t, exec (.cardStart core) s = .next t ∧ t.core core = { c with
        cards := c.cards.map (fun x => if x.num = k.num then { x with inFlight := true } else x) } ∧ t.mem = s.mem) ∧
    (c.startable f k = true → (c.cards.filter (fun x => x.inFlight)).length + f < 8 ∧
      ∀ e ∈ c.cards, cardEdge e k = false) ∧
    (c.card k.num = some k → k.inFlight = true → k.mover.asked = none →
      let halt (x : Card) (row : Nat) (tr : Trap) : StoppedCard :=
        ⟨{ x with moved := row, mover := .reset, off := none, failed := none, inFlight := false },
          { tr with info := BitVec.ofNat 48 k.num }, false, false, false⟩
      let room := (c.stoppedCards.filter (fun y => y.card.sid == k.sid && !y.restart)).length < 4
      (∀ s1 k1, k.failed = none → s.cardOutcome k = (s1, k1, none) → s1.cardFlying core k.num = false →
        (∀ x ∈ (s1.core core).stoppedCards, x.card.num ≠ k.num) →
        ∃ t, exec (.cardComplete core k.num) s = .next t ∧ t.mem = s1.mem ∧ t.spad = s1.spad ∧
          ∀ x ∈ (t.core core).cards, x.num ≠ k.num) ∧
      (∀ s1 k1 cl dev pa n xtag s2, k.failed = none → s.cardOutcome k = (s1, k1, some (.need cl dev pa n)) →
        s1.sendRequest dev (.cardRead core k1.num) (readPacket 0 pa n) = some (xtag, s2) →
        exec (.cardComplete core k.num) s =
          .next (s2.setCard core { k1 with mover := { k1.mover with asked := some xtag } })) ∧
      (∀ s1 k1 tr, room → k.failed = none → s.cardFlying core k.num = false → s.cardOutcome k = (s1, k1, some (.trap tr)) →
        s1.cardFlying core k.num = false → ∃ t, exec (.cardStop core k.num) s = .next t ∧ t.mem = s1.mem ∧
          t.spad = s1.spad ∧ halt k1 k1.moved tr ∈ (t.core core).stoppedCards) ∧
      (∀ row tr, room → k.failed = some (row, tr) → s.cardFlying core k.num = false →
        ∃ t, exec (.cardStop core k.num) s = .next t ∧ t.mem = s.mem ∧ t.spad = s.spad ∧
          halt k row tr ∈ (t.core core).stoppedCards)) ∧
    (
      let target := min (s.g a).toNat s.myCore.seIssued
      let due (x : StoppedCard) : Prop := x.card.domain = s.me.domain ∧ x.card.num ≤ target
      ((∀ x ∈ s.myCore.stoppedCards, ¬ due x ∧ x.restart = false) →
        (target ≤ s.myCore.seSeq s.me.domain →
          ∃ t, exec (.sewait a) s = .next t ∧ t.me = s.me.retire ∧ t.mem = s.mem ∧ ∀ n, t.core n = s.core n) ∧
        (s.myCore.seSeq s.me.domain < target →
          ∃ t, exec (.sewait a) s = .next t ∧ t.me.wait = .sewait target ∧ t.me.g = s.me.g ∧ t.mem = s.mem)) ∧
      (∀ l x r, s.myCore.stoppedCards = l ++ x :: r → (∀ y ∈ l, ¬(due y ∧ y.told = false)) → due x → x.told = false →
        ∃ t, exec (.sewait a) s = .next t ∧ t.me.trapCause = x.trap.cause ∧ t.me.trapAddr = x.trap.addr ∧
          t.me.trapPc = s.me.pc ∧ t.mem = s.mem))

/-- R105: SE_SEQ of a domain is the greatest number up to SE_ISSUED such that no card of the domain up to it is still queued,
in flight or stopped. -/
def Sys2Proof.Machine.Claims.CompletedPrefix : Prop :=
  ∀ (c : Core) (dom : BitVec 12), (∀ k ∈ c.openCards, 1 ≤ k.num) →
    c.seSeq dom ≤ c.seIssued ∧
    (∀ k ∈ c.openCards, k.domain = dom → c.seSeq dom < k.num) ∧
    (c.seSeq dom < c.seIssued → ∃ k ∈ c.openCards, k.domain = dom ∧ k.num = c.seSeq dom + 1)

/-- R210, R211, R212, R214, R301: CPREF queues its descriptor and returns 0, 1 when eight are queued, 2 for a reserved operand,
before it looks at alignment (log entry 67, DEDUCED); PREFETCH serves the first; CFLUSH and CINV with nothing to write back return
the bytes of their range, else wait for WRITEBACK_COMPLETE, which alone a pinned unit needs (log entry 27, the model's choice);
CINV's refill clears the poison marks of its range's sectors (R301); CPRI returns 0, or 2 for a reserved operand; no byte of
memory changes. -/
def Sys2Proof.Machine.Claims.CacheControlCompletes : Prop :=
  ∀ (s s1 : State) (d a b : BitVec 5) (c : BitVec 4) (core sid : Nat),
    let v := s.g b
    (v.toNat / 16 ≠ 0 ∨ v.toNat % 4 = 3 → exec (.cpref d a b c) s = .next (s.writeG d 2)) ∧
    (v.toNat < 16 → v.toNat % 4 ≠ 3 → (s.g a).toNat % 32 = 0 →
      ∀ x, s.readBlockOf s.actor c.toNat (s.g a) 32 = .ok (x, s1) →
      (8 ≤ s1.myCore.prefetchQ.length → exec (.cpref d a b c) s = .next (s1.writeG d 1)) ∧
      (s1.myCore.prefetchQ.length < 8 → exec (.cpref d a b c) s = .next ((s1.setMyCore { s1.myCore with
        prefetchQ := s1.myCore.prefetchQ ++ [⟨BitVec.ofNat 256 x, v.setWidth 4, s.me.domain⟩] }).writeG d 0))) ∧
    (∃ t, exec (.prefetch core) s = .next t ∧ (t.core core).prefetchQ = (s.core core).prefetchQ.tail ∧ t.mem = s.mem ∧
      t.strands = s.strands) ∧
    (s.rangeRights 1 (s.g a) v.toNat = .ok ((), s1) → s1.mayTarget s.cur c.toNat none = true →
      (s1.pinnedIn (s.g a).toNat v.toNat = false → exec (.cflush d a b c) s = .next (s1.writeG d v)) ∧
      (s1.pinnedIn (s.g a).toNat v.toNat = true →
        exec (.cflush d a b c) s = .next (s1.waiting (.writeback d (s.g a).toNat v.toNat)))) ∧
    (s.rangeRights 3 (s.g a) v.toNat = .ok ((), s1) → s1.mayTarget s.cur c.toNat none = true →
      let lo := (s.g a).toNat
      let fresh := (s1.dropCopies lo v.toNat).refill lo v.toNat
      (s1.pinnedIn lo v.toNat = true → exec (.cinv d a b c) s = .next (fresh.waiting (.writeback d lo v.toNat))) ∧
      (s1.pinnedIn lo v.toNat = false → exec (.cinv d a b c) s = .next (fresh.writeG d v) ∧
        (∀ k ∈ (s1.refill lo v.toNat).poison, k ∈ s1.poison) ∧
        ∀ x f s2, lo ≤ x → x < lo + v.toNat → s1.translate .load (65536 * (x / 65536)) = some (.mem f, s2) →
          f.byte (32 * (x % 65536 / 32)) / 32 ∉ (s1.refill lo v.toNat).poison)) ∧
    (∀ lo n, (s.strand sid).wait = .writeback d lo n → ∃ t, exec (.writebackComplete sid) s = .next t ∧
      (t.strand sid).wait = .none ∧ (t.strand sid).getG d = (if d = 0 then 0 else BitVec.ofNat 64 n) ∧ t.mem = s.mem) ∧
    (v.toNat / 2 ^ 34 ≠ 0 → exec (.cpri d a b c) s = .next (s.writeG d 2)) ∧
    (v.toNat < 2 ^ 34 → s.rangeRights 1 (s.g a) (v.toNat % 2 ^ 32) = .ok ((), s1) →
      exec (.cpri d a b c) s = .next (s1.writeG d 0))

/-- R213: CPIN checks in order: alignment, the rights, the operand (status 4), the domain's quota (PIN_QUOTA), the pages
(3), a unit already pinned (2), room in the vault (1); else it pins the units and returns 0. CUNPIN lets go of the domain's
pins in the range and returns their number; on a start off the alignment it traps MISALIGNED (log entry 67, DEDUCED). -/
def Sys2Proof.Machine.Claims.PinsComplete : Prop :=
  ∀ (s s1 : State) (d a b : BitVec 5) (c : BitVec 4) (vault : Nat),
    let at_ := s.g a
    let v := s.g b
    let n := v.toNat / 256 % 256
    let units := (List.range n).map (fun i => at_.toNat / 2 ^ 20 + i)
    let dom := s.me.domain
    let used := (s1.pins.filter (fun p => p.domain == dom)).length
    let full := 12 < (s1.pins.filter (fun p => p.vault == vault)).length + n
    let low := v.toNat % 256
    let good := v.toNat < 2 ^ 16 ∧ 1 ≤ n ∧ n ≤ 12 ∧ (low < 48 ∧ vault = low ∨ low = 63 ∧ vault = clusterOf s.cur)
    let held := s.pins.filter (fun p => p.domain == dom && units.contains p.unit)
    (at_.toNat % 2 ^ 20 ≠ 0 → exec (.cpin d a b c) s = .next (s.trap (addrTrap causeMisaligned at_)) ∧
      exec (.cunpin d a b c) s = .next (s.trap (addrTrap causeMisaligned at_))) ∧
    (at_.toNat % 2 ^ 20 = 0 → s.rangeRights 3 at_ (n * 2 ^ 20) = .ok ((), s1) →
      (2 ^ 16 ≤ v.toNat ∨ n = 0 ∨ 12 < n ∨ (48 ≤ low ∧ low ≠ 63) → exec (.cpin d a b c) s = .next (s1.writeG d 4)) ∧
      (good → (s.domainOf dom).pinQuota < used + n →
        exec (.cpin d a b c) s = .next (s1.trap ⟨0x15, at_, 0, BitVec.ofNat 48 n⟩)) ∧
      (good → used + n ≤ (s.domainOf dom).pinQuota →
        ((∃ u ∈ units, s1.unpinnable u = true) → exec (.cpin d a b c) s = .next (s1.writeG d 3)) ∧
        ((∀ u ∈ units, s1.unpinnable u = false) →
          ((∃ p ∈ s1.pins, p.unit ∈ units) → exec (.cpin d a b c) s = .next (s1.writeG d 2)) ∧
          ((∀ p ∈ s1.pins, p.unit ∉ units) →
            (full → exec (.cpin d a b c) s = .next (s1.writeG d 1)) ∧
            (¬ full → exec (.cpin d a b c) s =
              .next ({ s1 with pins := s1.pins ++ units.map (fun u => (⟨u, vault, dom⟩ : Pin)) }.writeG d 0)))))) ∧
    (at_.toNat % 2 ^ 20 = 0 → v.toNat < 2 ^ 16 → low < 64 → 1 ≤ n → n ≤ 12 →
      exec (.cunpin d a b c) s = .next ({ s with pins := s.pins.filter (fun p =>
        !(p.domain == dom && units.contains p.unit)) }.writeG d (BitVec.ofNat 64 held.length)))
/-! ### The Samovar ring, remote words, messages -/

/-- R238, R240: SAM.BOARD answers 1 for a name registered already, 2 over the domain's quota, 3 for a full ring, else it
registers the name and waits; at an empty position of its stop the earliest board is placed there with the shadow's 48
bytes and REV 0, and returns 0; a shadow that faults traps and leaves no registration, poison as MEM_POISON at the first
poisoned sector (R301). -/
def Sys2Proof.Machine.Claims.RecordsBoard : Prop :=
  ∀ (s s1 : State) (d a b : BitVec 5) (c : BitVec 4) (sid tag x at_ : Nat) (shadow : Word),
    (let own := (s.g b).toNat % 2 ^ 20
     let dom := s.me.domain
     s.captureOf s.cur = none → (s.g a).toNat % 64 = 0 → classOf (s.g a) = .ordinary →
     s.fillWaits s.actor (s.g a).toNat = false → s.plbGrants s.actor 3 (s.g a).toNat = (true, s1) →
     let named := ∃ n, (n, dom, own) ∈ s1.registered
     let past := (s1.domainOf dom).samQuota ≤ s1.domainRecords dom
     (named → exec (.samBoard d a b c) s = .next (s1.writeG d 1)) ∧
     (¬ named → past → exec (.samBoard d a b c) s = .next (s1.writeG d 2)) ∧
     (¬ named → ¬ past → 1184 ≤ s1.ringUse (own % 2) → exec (.samBoard d a b c) s = .next (s1.writeG d 3)) ∧
     (¬ named → ¬ past → s1.ringUse (own % 2) < 1184 → s1.classWaits c = false → ∃ t, exec (.samBoard d a b c) s = .next t ∧
       t.boarding = s1.boarding ++ [(own % 2, dom, own)] ∧ t.me.wait = .board d (s.g a) own s.cycle)) ∧
    (let dom := (s.strand sid).domain
     let pos := posAtStop (tag % 2) (coreOf sid) s.cycle
     (s.strand sid).wait = .board d shadow tag at_ → s.posEmpty (tag % 2) pos = true →
     s.firstBoarder (coreOf sid) (tag % 2) = some sid →
     (∀ tr, s.readShadow (s.actorOf sid) shadow = .error (.trap tr, s1) →
       exec (.boardFill sid) s = .next ((s1.withdrawBoard dom tag).trapOn sid tr)) ∧
     (s.readShadow (s.actorOf sid) shadow = .ok (x, s1) → ∃ t r, exec (.boardFill sid) s = .next t ∧
       t.records = s1.records ++ [r] ∧ r.ring = tag % 2 ∧ r.pos = pos ∧
       r.domain = dom ∧ r.tag = tag ∧ r.shadow = shadow ∧ r.capturedMark = false ∧ r.lost = false ∧ r.marks = 0 ∧
       (∀ k (hk : k < 6), r.words[k] = BitVec.ofNat 64 (x / 2 ^ (64 * k))) ∧ r.passages s.cycle = 0 ∧
       (t.strand sid).getG d = 0 ∧ (t.strand sid).wait = .none ∧ ∀ n, (n, dom, tag) ∉ t.boarding)) ∧
    (∀ who f s2, s.resolve who .load shadow 48 = .ok (.mem f, s2) →
      (s2.placePoisoned (.mem f) 32 = true → s.readShadow who shadow = .error (.trap (addrTrap causeMemPoison shadow), s2)) ∧
      (s2.placePoisoned (.mem f) 32 = false → s2.placePoisoned (.mem (f.skip 32)) 16 = true →
        s.readShadow who shadow = .error (.trap (addrTrap causeMemPoison (shadow + 32)), s2)))

/-- R101, R102, R239, R241, R243, R246, R248, R249: an operation that takes a passage waits on its record (ILLEGAL_INSTR while
the strand holds a capture), behind the strand's unanswered stores of its class; when the record is at the strand's stop and
the operation is the stop's first, it is performed, at most one at a passage: the old word to g(d), the new one in the
record; SAM.CAPTURE takes the record for 1 to 64 cycles and leaves the stop's marker, SAM.WAITREV reads its summary,
SAM.ALIGHT stores it to its shadow address and takes it off the ring; to another device's the store is a WRITE, its registration
kept until that is answered (log entry 76, DEDUCED, which also has operations of a class wait for the strand's unanswered stores
of it); a store that stands behind a combining queue (R349) keeps the registration until its turn has come. -/
def Obligations.RingOperationsComplete : Prop :=
  ∀ (s : State) (d a b : BitVec 5) (c : BitVec 4) (w : BitVec 3) (sid tag cls since issued : Nat) (r : Record)
    (op : RingOp),
    (∀ i o, (i, o) ∈ [(Instr.samAlight d a c, RingOp.alight), (.samLd d a c w, .ld w.toNat),
        (.samSt d a b c w, .st w.toNat (s.g b)), (.samAdd d a b c w, .add w.toNat (s.g b)),
        (.samMin d a b c w, .min w.toNat (s.g b)), (.samMax d a b c w, .max w.toNat (s.g b)),
        (.samCas d a b c w, .cas w.toNat (s.g d) (s.g b)), (.samCapture d a b c, .capture (s.g b)),
        (.samWaitrev d a c, .waitrev)] →
      (s.captureOf s.cur = none → s.classWaits c = false →
        exec i s = .next (s.waiting (.ring ((s.g a).toNat % 2 ^ 20) d c.toNat o s.cycle s.cycle))) ∧
      (s.captureOf s.cur = none → s.classWaits c = true → exec i s = .next (s.waiting .poll)) ∧
      (s.captureOf s.cur ≠ none → ∀ q, encode i = some q → exec i s = .next (s.trap ⟨0x01, 0, 0, q.setWidth 48⟩))) ∧
    (let dom := (s.strand sid).domain
     (s.strand sid).wait = .ring tag d cls op since issued → s.liveRecord dom tag = some r →
     placeAt r.pos s.cycle = stopPlace r.ring (coreOf sid) → s.headOfStop sid = true → issued < s.cycle →
     let now (q : Record) : Prop := q.served = s.cycle + 1
     (now r → exec (.samovarPassage sid) s = .next s) ∧
     (r.served ≤ s.cycle →
     (∀ (k : Nat) (hk : k < 6) (y cmp : Word),
       let old := r.words[k]
       let puts (new : Word) : Prop := ∃ t r', exec (.samovarPassage sid) s = .next t ∧ (t.strand sid).wait = .none ∧
         (t.strand sid).getG d = (if d = 0 then 0 else old) ∧ t.liveRecord dom tag = some r' ∧
         r'.words = r.words.set k new ∧ r'.pos = r.pos ∧ now r' ∧ t.mem = s.mem
       r.marks.getLsbD k = false →
       (op = .ld k → puts old) ∧ (op = .st k y → puts y) ∧ (op = .add k y → puts (old + y)) ∧
       (op = .min k y → puts (BitVec.ofInt 64 (min old.toInt y.toInt))) ∧
       (op = .max k y → puts (BitVec.ofInt 64 (max old.toInt y.toInt))) ∧
       (op = .cas k cmp y → puts (if old = cmp then y else old))) ∧
     (∀ y : Word, op = .capture y → ∃ t, exec (.samovarPassage sid) s = .next t ∧
       t.captureOf sid = some ⟨{ r with rev := r.passages s.cycle, served := s.cycle + 1 }, cls,
         s.cycle + min (max y.toNat 1) 64⟩ ∧ t.liveRecord dom tag = none ∧
       (∃ m ∈ t.records, m.capturedMark = true ∧ m.stop = coreOf sid ∧ m.pos = r.pos ∧ m.ring = r.ring ∧ m.domain = dom ∧
         m.tag = tag) ∧
       (t.strand sid).getG d = (if d = 0 then 0 else r.summary s.cycle)) ∧
     (op = .waitrev → d ≠ 0 → ∃ t, exec (.samovarPassage sid) s = .next t ∧
       ((t.strand sid).getG d).extractLsb' 0 16 = BitVec.ofNat 16 (r.passages s.cycle) ∧
       t.liveRecord dom tag = some { r with served := s.cycle + 1 }) ∧
     (∀ dev pa s1 xtag s2, op = .alight → s.resolve (s.actorOf sid) .store r.shadow 48 = .ok (.fabric dev pa, s1) →
       s1.sendRequest dev (.store sid r.shadow cls s1.serial) (writePacket cls pa 48 r.payload) = some (xtag, s2) →
       ∃ t, exec (.samovarPassage sid) s = .next t ∧ (t.strand sid).wait = .alight d r.ring tag xtag ∧ r ∉ t.records ∧
         (r.ring, dom, tag) ∈ t.registered) ∧
     (∀ f s1, op = .alight → s.resolve (s.actorOf sid) .store r.shadow 48 = .ok (.mem f, s1) →
       ∃ t, exec (.samovarPassage sid) s = .next t ∧ t.mem = (s1.writeSpan f 48 r.payload).mem ∧ r ∉ t.records ∧
         (t.strand sid).getG d = 0) ∧
     (∀ f s1 s2, op = .alight → s.reach (s.actorOf sid) .store r.shadow 48 = .ok (.mem f, s1) →
       s1.takeTurn (s.actorOf sid) (.mem f) 48 = .error s2 → ∃ t, exec (.samovarPassage sid) s = .next t ∧
         (t.strand sid).wait = .alightTurn d f r ∧ r ∉ t.records ∧ (r.ring, dom, tag) ∈ t.registered ∧ t.mem = s2.mem)))

/-- R243 to R245, R249: CLD, CST and RELEASE act on the strand's own capture; without one they trap SAM_CAPTURE_LOST; with one
of another name, which a capture of another domain is too (log entry 97), ILLEGAL_INSTR; a hold that has run out releases the
record with CAPTURE_LOST set. -/
def Sys2Proof.Machine.Claims.CapturesComplete : Prop :=
  ∀ (s : State) (d a b : BitVec 5) (c : BitVec 4) (w : BitVec 3) (sid : Nat) (k : Capture),
    let slot := [Instr.samCld d a c w, .samCst d a b c w, .samRelease d a c]
    let tag : Word := BitVec.ofNat 64 ((s.g a).toNat % 2 ^ 20)
    (s.captureOf s.cur = none → ∀ i ∈ slot, exec i s = .next (s.trap (addrTrap 0x11 tag))) ∧
    (s.captureOf s.cur = some k → k.rec_.tag ≠ tag.toNat ∨ k.rec_.domain ≠ s.me.domain → ∀ i ∈ slot, ∀ q, encode i = some q →
      exec i s = .next (s.trap ⟨0x01, 0, 0, q.setWidth 48⟩)) ∧
    (s.captureOf s.cur = some k → k.rec_.tag = tag.toNat → k.rec_.domain = s.me.domain →
      (∀ h : w.toNat < 6,
        (k.rec_.marks.getLsbD w.toNat = true → exec (.samCld d a c w) s = .next (s.trap (addrTrap 0x16 tag))) ∧
        (k.rec_.marks.getLsbD w.toNat = false → s.classWaits c = false →
          exec (.samCld d a c w) s = .next (s.writeG d k.rec_.words[w.toNat]) ∧
          ∃ t k', exec (.samCst d a b c w) s = .next t ∧ t.captureOf s.cur = some k' ∧
            k'.rec_.words = k.rec_.words.set w.toNat (s.g b) ∧ k'.expires = k.expires ∧
            t.me.getG d = (if d = 0 then 0 else k.rec_.words[w.toNat]))) ∧
      (s.classWaits c = true → exec (.samRelease d a c) s = .next (s.waiting .poll)) ∧
      (s.classWaits c = false → ∃ t, exec (.samRelease d a c) s = .next t ∧ t.captureOf s.cur = none ∧ t.me.getG d = 0 ∧
        t.reentries = s.reentries ++ [⟨{ k.rec_ with lost := false }, coreOf s.cur⟩])) ∧
    (s.captureOf sid = some k → k.expires ≤ s.cycle → ∃ t, exec (.captureHoldExpiry sid) s = .next t ∧
      t.captureOf sid = none ∧ t.reentries = s.reentries ++ [⟨{ k.rec_ with lost := true }, coreOf sid⟩] ∧
      t.strands = s.strands)

/-- R236, R242, R244: a released record enters its stop's position, when that is empty or its own marker's, with its payload
and passage count; a stop clears a marker that it left itself and whose record is neither captured by one of its strands nor
waiting there to re-enter, and no other; an operation traps SAM_NOTAG when 2,368 cycles have passed since issue or since its
stop last saw the record or a marker of it, and that count restarts at each sighting (log entry 76). -/
def Sys2Proof.Machine.Claims.RecordsReturn : Prop :=
  ∀ (s : State) (sid : Nat) (e : Reentry) (rest : List Reentry) (d : BitVec 5) (tag cls since issued : Nat) (op : RingOp),
    (let pos := posAtStop e.rec_.ring (coreOf sid) s.cycle
     let own (m : Record) : Prop := m.capturedMark = true ∧ m.domain = e.rec_.domain ∧ m.tag = e.rec_.tag ∧ m.stop = e.core
     s.reentries = e :: rest → e.core = coreOf sid →
     (s.posEmpty e.rec_.ring pos = true ∨ ∃ m, s.ownMarker e = some m ∧ m.pos = pos) →
     ∃ t r, exec (.recordReentry sid) s = .next t ∧ r ∈ t.records ∧ e ∉ t.reentries ∧
       (∀ m ∈ t.records, own m → m.pos ≠ pos) ∧
       r = { e.rec_ with pos := pos, capturedMark := false, rev := r.rev, served := s.cycle + 1 } ∧
       r.passages s.cycle = e.rec_.rev.toNat) ∧
    (∃ t, exec (.captureMarkerClear sid) s = .next t ∧ t.mem = s.mem ∧ t.strands = s.strands ∧
      ∀ m, m ∈ t.records ↔ m ∈ s.records ∧ ¬(m.capturedMark = true ∧ m.stop = coreOf sid ∧
        placeAt m.pos s.cycle = stopPlace m.ring m.stop ∧
        (∀ x ∈ s.captures, ∀ k, x.2 = some k → ¬(coreOf x.1 = m.stop ∧ k.rec_.domain = m.domain ∧ k.rec_.tag = m.tag)) ∧
        ∀ q ∈ s.reentries, ¬(q.core = m.stop ∧ q.rec_.domain = m.domain ∧ q.rec_.tag = m.tag))) ∧
    ((s.strand sid).wait = .ring tag d cls op since issued →
      let here (m : Record) : Prop := m.domain = (s.strand sid).domain ∧ m.tag = tag ∧
        placeAt m.pos s.cycle = stopPlace m.ring (coreOf sid)
      (since + 2368 ≤ s.cycle → (∀ m ∈ s.records, ¬ here m) →
        exec (.samNotag sid) s = .next (s.trapOn sid (addrTrap 0x10 (BitVec.ofNat 64 tag)))) ∧
      ((∃ m ∈ s.records, here m) → exec (.samNotag sid) s = .next s ∧
        (s.tagsSeen.strand sid).wait = .ring tag d cls op s.cycle issued) ∧
      ((∀ m ∈ s.records, ¬ here m) → (s.tagsSeen.strand sid).wait = (s.strand sid).wait))

/-- R215, R216: RSTW, RSTD and RAMO that pass the checks at issue leave an entry for their destination, with all the
instruction gave it, and complete; RAMOW sends its own and waits, and completes with the destination's answer, FADD's flags
delivered, or traps with its fault. -/
def Sys2Proof.Machine.Claims.RemoteWordsIssue : Prop :=
  ∀ (s s1 : State) (d a b : BitVec 5) (c : BitVec 4) (sid n : Nat) (at_ : Word) (cause : BitVec 8) (fl : Flags),
    let width := if d.toNat < 16 then 4 else 8
    let entry (kind w op : Nat) : SteepEntry :=
      ⟨s.serial, s.cur, s.me.domain, kind, w, op, c.toNat, s.g a, s.g b, s.me.pc, false, s.steepDest s.cur (s.g a),
        s.me.plbCtl⟩
    let posted (i : Instr) (acc : AccessKind) (kind w op : Nat) : Prop := s.steepCheck acc (s.g a) w = .ok s1 →
      ∃ t, exec i s = .next t ∧ t.me = s.me.retire ∧ entry kind w op ∈ t.openEntries s.cur ∧ t.mem = s1.mem ∧
        t.serial = s.serial + 1
    posted (.rstw a b c) .store 0 4 0 ∧ posted (.rstd a b c) .store 1 8 0 ∧
    posted (.ramo d a b c) .atomic 2 width (d.toNat % 16) ∧
    (s.steepCheck .atomic (s.g a) width = .ok s1 →
      s1.mayTarget s.cur c.toNat (destDevice (s.steepDest s.cur (s.g a))) = true → ∃ t, exec (.ramow d a b c) s = .next t ∧
      t.steepSent = s1.steepSent ++ [(clusterOf s.cur, [entry 3 width (d.toNat % 16)])] ∧
      t.me.wait = .ramow s.serial none (s.g a) ∧ t.me.g = s.me.g) ∧
    ((s.strand sid).wait = .ramow n (some (cause, fl)) at_ → exec (.ramowResponse sid) s =
      .next (s.asStrand sid (fun s => if cause = 0 then s.finish fl else s.trap (addrTrap cause at_))))

/-- R100, R215, R216, R219: a destination performs the entry sent first: a word stored, or an AMO of R133's table, its flags
held for the next SFLUSHW or answered to the waiting strand; an entry whose page is gone is recorded, counted, stored in
STEEP_FLOG's slot when that lies in the package, or owed while that store has to wait, the entry staying open, and, with
ASYNC, makes STEEP_ASYNC due; one that joins a combining queue waits there (R349; which do is log entry 91). Stated for
entries of the package's own memory, no record being owed. -/
def Sys2Proof.Machine.Claims.RemoteWordsArrive : Prop :=
  ∀ (s s' : State) (cl : Nat) (f : Span) (e : SteepEntry) (more : List SteepEntry) (rest : List (Nat × List SteepEntry)),
    s.steepSent = (cl, e :: more) :: rest → e.poisoned = false → classOf e.addr = .ordinary → e.op < 10 →
    (e.width = 4 ∨ e.width = 8) → s.storeOwed = none → s.entryWaits e = false → destDevice e.dest = none →
    let left := if more = [] then rest else (cl, more) :: rest
    let here := { s with steepSent := left }
    let joined := here.entryJoins e
    let s0 : State := match (if e.isAdd then here.entryPa e else none) with | some pa => here.addCame pa e.width | none => here
    let kind : AccessKind := if e.kind ≤ 1 then .store else .atomic
    let y := e.data.toNat % 2 ^ (8 * e.width)
    let x := s.strand e.sid
    (∀ s2, joined = some s2 → exec .steepAck s = .next s2 ∧ s2.mem = s.mem ∧ s2.strands = s.strands) ∧
    (joined = none → s0.translate kind e.addr.toNat = some (.mem f, s') → (kind = .store ∨ s'.placePoisoned (.mem f) e.width = false) →
      let m := s'.readSpan f e.width
      let v := if e.kind ≤ 1 then y else amoValue e.width e.op m y
      let fl := if e.kind ≤ 1 ∨ e.op ≠ 9 then 0 else (faddBits e.width m y).2
      ∃ t, exec .steepAck s = .next t ∧ t.mem = (s'.writeSpan f e.width v).mem ∧ t.steepSent = left ∧
        (e.kind ≠ 3 → (t.strand e.sid).ramoFlags = x.ramoFlags ||| fl) ∧
        (∀ a, e.kind = 3 → x.wait = .ramow e.num none a → (t.strand e.sid).wait = .ramow e.num (some (0, fl)) a)) ∧
    (joined = none → s0.translate kind e.addr.toNat = none →
      ∃ t, exec .steepAck s = .next t ∧ t.steepSent = left ∧
        (∀ slot p s2, e.kind ≠ 3 → x.logSlot = some slot → s0.assistedWaits 5 = false →
          s0.resolve ⟨e.sid, e.domain, e.plb, true⟩ .store slot 32 = .ok (p, s2) → ¬ (∃ dev pa, p = .fabric dev pa) → ∃ r, ((t.strand e.sid).faultRecords.head? = some (x.steepFcount, r)) ∧
            t.mem = (s2.writePlace p 32 r.toNat).mem ∧ t.spad = (s2.writePlace p 32 r.toNat).spad) ∧
        (∀ slot s2, e.kind ≠ 3 → x.logSlot = some slot → (s0.assistedWaits 5 = true ∨
          s0.resolve ⟨e.sid, e.domain, e.plb, true⟩ .store slot 32 = .error (.busy, s2)) →
          e ∈ t.openEntries e.sid ∧ ∃ r, t.recordsDue = s0.recordsDue ++ [(e, slot, r)]) ∧
        (e.kind ≠ 3 → (t.strand e.sid).steepFcount = x.steepFcount + 1 ∧
          (x.steepFlog.getLsbD 4 = true → (t.strand e.sid).asyncDue = some x.steepFcount) ∧
          ∃ r older, (t.strand e.sid).faultRecords = (x.steepFcount, r) :: older ∧ r.extractLsb' 0 64 = e.addr ∧
            r.extractLsb' 64 64 = e.data ∧ r.extractLsb' 128 8 = 0x05 ∧ r.extractLsb' 192 64 = e.pc) ∧
        (∀ a, e.kind = 3 → x.wait = .ramow e.num none a → (t.strand e.sid).wait = .ramow e.num (some (0x05, 0)) a))

/-- R217 to R219: SFLUSH sends every buffer that holds a word of the strand; SFLUSHW completes when none is open, with the
records appended since the last one in g(d) and the posted RAMOs' flags delivered; STEEP_AGE_TRIGGER sends the buffers
whose age has come; SFREC reads a word of a kept record, or all ones. -/
def Sys2Proof.Machine.Claims.FlushesComplete : Prop :=
  ∀ (s : State) (d a : BitVec 5) (cluster sid : Nat),
    let done (s : State) : State :=
      ((s.setMe { s.me with ramoFlags := 0, flushBase := s.me.steepFcount }).setG d
        (BitVec.ofNat 64 (s.me.steepFcount - s.me.flushBase))).finish s.me.ramoFlags
    (∃ t, exec .sflush s = .next t ∧ t.me = s.me.retire ∧ t.mem = s.mem ∧
      (∀ b ∈ t.bufsOf (clusterOf s.cur), b ∈ s.bufsOf (clusterOf s.cur) ∧ ∀ e ∈ b.entries, e.sid ≠ s.cur) ∧
      ∀ e, e ∈ s.openEntries s.cur ↔ e ∈ t.openEntries s.cur) ∧
    (s.openEntries s.cur = [] → exec (.sflushw d) s = .next (done (s.flushAll s.cur))) ∧
    (s.openEntries s.cur ≠ [] → exec (.sflushw d) s = .next ((s.flushAll s.cur).waiting (.sflushw d))) ∧
    ((s.strand sid).wait = .sflushw d → s.openEntries sid = [] →
      exec (.fenceCompletion sid) s = .next (s.asStrand sid done)) ∧
    (∃ t, exec (.steepAgeTrigger cluster) s = .next t ∧ t.strands = s.strands ∧ t.mem = s.mem ∧
      ∀ b, b ∈ t.bufsOf cluster ↔ b ∈ s.bufsOf cluster ∧ s.cycle < b.deadline) ∧
    (let n := (s.g a).toNat / 4
     (∀ l r rest, s.me.faultRecords = l ++ (n, r) :: rest → (∀ q ∈ l, q.1 ≠ n) →
       exec (.sfrec d a) s = .next (s.writeG d (r.extractLsb' (64 * ((s.g a).toNat % 4)) 64))) ∧
     ((∀ q ∈ s.me.faultRecords, q.1 ≠ n) → exec (.sfrec d a) s = .next (s.writeG d (BitVec.allOnes 64))))

/-- R221, R222: AMSEND and AMSENDW to a core of the package put a message under way, its header naming the sender and the
class, and wait; to a destination that does not exist they return 2. The answer returns the status, or, for AMSENDW
accepted and still being handled, leaves the strand waiting for AMDONE. -/
def Sys2Proof.Machine.Claims.MessagesAreSent : Prop :=
  ∀ (s s1 : State) (d a b : BitVec 5) (handled : Bool) (payload sid num status : Nat) (f : MsgFlight)
    (l r : List MsgFlight),
    let i : Instr := if handled then .amsendw d a b else .amsend d a b
    let core := (s.g a).toNat / 16 % 4096
    let rsv := (s.g a).extractLsb' 16 8 ≠ 0 ∨ (s.g a).extractLsb' 33 31 ≠ 0
    let own := (s.g a).getLsbD 32 = true ∨ ((s.g a).extractLsb' 24 8).toNat = s.device
    ((s.g b).toNat % 8 = 0 → s.readWords s.actor (s.g b) 7 = .ok (payload, s1) →
      (rsv ∨ coreExists core = false → exec i s = .next (s1.writeG d 2)) ∧
      (¬ rsv → coreExists core = true → own → ∃ t m, exec i s = .next t ∧ t.me.wait = .amsend d s1.serial handled ∧
        t.messages = s1.messages ++ [m] ∧ m.core = core ∧ m.answer = none ∧ m.msg.num = s1.serial ∧
        m.msg.bytes.extractLsb' 0 4 = (s.g a).extractLsb' 0 4 ∧ m.msg.bytes.getLsbD 8 = false ∧
        m.msg.bytes.extractLsb' 16 16 = BitVec.ofNat 16 s.cur ∧ m.msg.bytes.getLsbD 40 = true ∧
        m.msg.bytes.extractLsb' 64 448 = BitVec.ofNat 448 payload)) ∧
    ((s.strand sid).wait = .amsend d num handled → s.messages = l ++ f :: r → (∀ x ∈ l, x.msg.num ≠ num) →
      f.msg.num = num → f.answer = some status →
      ∃ t, exec (.amsendAnswer sid) s = .next t ∧ (∀ x ∈ t.messages, x.msg.num ≠ num) ∧
        (handled = true → status = 0 → (∃ q, (num, q) ∈ s.handling) → (t.strand sid).wait = .amdone d num) ∧
        (handled = false ∨ status ≠ 0 → (t.strand sid).wait = .none ∧
          (t.strand sid).getG d = if d = 0 then 0 else BitVec.ofNat 64 status))

/-- R75, R222, R347: of the messages that stand first from their sending core to their core one comes to it: it is accepted
(0) into the mailbox when its class has a route and fewer than 32 messages are there, refused (1) when the mailbox is full,
and has no route (2) otherwise. A route entry on another device is asked for first, and its bytes stay with the message. -/
def Sys2Proof.Machine.Claims.MessagesArrive : Prop :=
  ∀ (s : State), s.nextArrivals ≠ [] → ∃ f ∈ s.nextArrivals, ∃ s0, (s0 = s ∨ s0 = s.drawn) ∧
    (f.msg.reply = false → f.msg.poisoned = false → f.packet = none →
    let load := s0.routeLoad f.core f.msg.cls
    let box := (s.core f.core).mailbox
    let tells (m : Msg) (s1 t : State) (n : Nat) : Prop := exec .messageArrival s = .next t ∧ t.strands = s.strands ∧
      t.mem = (s1.touchRoute f.core f.msg.cls).mem ∧ { f with answer := some n } ∈ t.messages ∧
      (t.core f.core).mailbox = if n = 0 then box ++ [m] else box
    let comes (m : Msg) (s1 : State) : Prop :=
      (s1.routeOf f.core m = none → ∃ t, tells m s1 t 2) ∧
      (s1.routeOf f.core m ≠ none →
        (32 ≤ box.length → ∃ t, tells m s1 t 1) ∧ (box.length < 32 → ∃ t, tells m s1 t 0))
    ((∀ dev pa, load.1 ≠ .far dev pa) ∨ f.msg.entry ≠ none → comes f.msg s0) ∧
    (∀ dev pa, load.1 = .far dev pa → f.msg.entry = none →
      (∀ xtag s1, load.2.routeAsked f.msg.num = none →
        load.2.sendRequest dev (.route f.msg.num) (readPacket 0 pa 32) = some (xtag, s1) →
        exec .messageArrival s = .next s1) ∧
      (∀ r data, load.2.routeAsked f.msg.num = some r → r.answer = some (0, data) →
        comes { f.msg with entry := some (readValue r.packet.mask data pa 32) } (load.2.dropReq r.xtag))))

/-- R29, R223: the oldest message for a strand that may take one starts its handler: the landing block holds the message and
g1, g1 its address, the pc is at ENTRY in U-mode under the route's DOMAIN, and what the thread was doing is kept; a landing
in another device's memory holds the handler until its stores are answered; one that faults traps at ENTRY, one off its
alignment with MISALIGNED (both log entry 31, DEDUCED). IE stays as it is (log entry 29, DEDUCED). A route entry that a READ
must bring from another device is asked for first, and its bytes stay with the message (log entry 30, DEDUCED). -/
def Sys2Proof.Machine.Claims.MessagesDispatch : Prop :=
  ∀ (s : State) (sid : Nat) (m : Msg) (r : RouteEntry),
    let x := s.strand sid
    let core := coreOf sid
    (s.dispatchOpen sid = true → x.handler = none → s.routeUnread core = some m → ∀ dev pa,
      (s.routeLoad core m.cls).1 = .far dev pa →
      (∀ xtag s1, (s.touchRoute core m.cls).routeAsked m.num = none → s.routeAsked m.num = none →
        (s.touchRoute core m.cls).sendRequest dev (.route m.num) (readPacket 0 pa 32) = some (xtag, s1) →
        exec (.messageDispatch sid) s = .next s1) ∧
      (∀ q, s.routeAsked m.num = some q → q.answer = none → exec (.messageDispatch sid) s = .next s) ∧
      (∀ q data, s.routeAsked m.num = some q → (s.touchRoute core m.cls).routeAsked m.num = some q →
        q.answer = some (0, data) → ∃ t, exec (.messageDispatch sid) s = .next t ∧
          (t.core core).mailbox = ((s.touchRoute core m.cls).core core).mailbox.map (fun y =>
            if y.num = m.num then { m with entry := some (readValue q.packet.mask data pa 32) } else y))) ∧
    (x.wait = .none → s.dispatchOpen sid = true → s.routeUnread core = none → s.messageFor sid = some (m, r) →
    let h : HandlerCtx :=
      ⟨x.pc, x.mode, x.ie, x.domain, m.cls, (s.core (coreOf sid)).handlerBudget, m.num, false⟩
    let x1 := { x with
      handler := some h, status := x.status &&& ~~~(3 : BitVec 64), domain := r.domain, pc := r.entry, wait := .none
      gathered := [], reassignCount := x.reassignCount.map (fun _ => 0) }
    let s1 := (s.setStrand sid x1).touchRoute (coreOf sid) m.cls
    (∀ u f, r.land.toNat % 128 = 0 → s1.resolve (s1.actorOf sid) .store r.land 72 = .ok (.mem f, u) →
      u.mayTarget sid 0 none = true → ∃ t, exec (.messageDispatch sid) s = .next t ∧
        t.strand sid = { x1.setG 1 r.land with handler := some { h with landed := true } } ∧
        t.mem = (u.writeSpan f 72 (m.bytes.toNat + 2 ^ 512 * (x.getG 1).toNat)).mem) ∧
    (∀ u tag tags, s1.landingStore sid r.land m = .ok (tag :: tags, u) →
      ∃ t, exec (.messageDispatch sid) s = .next t ∧ t.fabric = u.fabric ∧ (t.strand sid).pc = r.entry ∧
        (t.strand sid).wait = .landing r.land (tag :: tags)) ∧
    (∀ tr u, r.land.toNat % 128 = 0 → s1.resolve (s1.actorOf sid) .store r.land 72 = .error (.trap tr, u) →
      exec (.messageDispatch sid) s = .next (u.trapOn sid tr)) ∧
    (r.land.toNat % 128 ≠ 0 → exec (.messageDispatch sid) s = .next (s1.trapOn sid (addrTrap causeMisaligned r.land))))

/-- R222 to R224, R291: AMREPLY and AMDONE outside a handler trap ILLEGAL_INSTR, AMDONE in S-mode with PHDLR 0 too; AMDONE in
U-mode returns to the interrupted thread and frees the message's slot; in S-mode with PHDLR 1 it aborts the handler the same
way, and IE takes PIE; AMREPLY sends a reply to the sender's core and returns 0; RCMASK and RCUNMASK set and clear one class's
bit. -/
def Sys2Proof.Machine.Claims.HandlersComplete : Prop :=
  ∀ (s s1 : State) (d a b : BitVec 5) (c : BitVec 4) (h : HandlerCtx) (m : Msg) (payload : Nat),
    (s.me.handler = none → ∀ i ∈ [Instr.amreply d a b, .amdone], ∀ w, encode i = some w →
      exec i s = .next (s.trap ⟨0x01, 0, 0, w.setWidth 48⟩)) ∧
    (s.me.handler = some h → s.me.mode = .u ∨ s.me.status.getLsbD 7 = true → ∃ t, exec .amdone s = .next t ∧
      t.me.pc = h.pc ∧ t.me.handler = none ∧ t.me.domain = h.domain ∧
      t.me.ie = (if s.me.mode = .u then h.ie else s.me.status.getLsbD 5) ∧ t.me.mode = h.mode ∧ t.me.g = s.me.g ∧
      t.mem = s.mem ∧ t.myCore.mailbox = s.myCore.mailbox.filter (fun q => q.num != h.msg)) ∧
    (s.me.mode ≠ .u → s.me.status.getLsbD 7 = false → ∀ w, encode .amdone = some w →
      exec .amdone s = .next (s.trap ⟨0x01, 0, 0, w.setWidth 48⟩)) ∧
    (s.me.handler = some h → (s.g b).toNat % 8 = 0 →
      s.readWords s.actor (s.g b) 7 = .ok (payload, s1) → s1.servedBy s.cur h = some m → m.fromOwn = true →
      ∃ t f, exec (.amreply d a b) s = .next t ∧ t.me.getG d = 0 ∧ t.messages = s1.messages ++ [f] ∧
        f.core = m.fromStrand / 4 ∧ f.msg.reply = true ∧ f.msg.bytes.getLsbD 8 = true ∧
        f.msg.bytes.extractLsb' 0 4 = (s.g a).extractLsb' 0 4 ∧
        f.msg.bytes.extractLsb' 64 448 = BitVec.ofNat 448 payload) ∧
    (let mask (v : BitVec 16) : Result := .next (s.setMyCore { s.myCore with rcmask := v }).retire
     exec (.rcmask c) s = mask (s.myCore.rcmask ||| BitVec.ofNat 16 (2 ^ c.toNat)) ∧
     exec (.rcunmask c) s = mask (s.myCore.rcmask &&& ~~~(BitVec.ofNat 16 (2 ^ c.toNat))))
/-! ### Launches, groups, the allocator, gangs, the service cores -/

/-- R228, R322: LAUNCH of a header that is read: a header that fails its checks returns their status, a domain without the
right 4, a 17th launch 3; else the launch is active and its identifier stands in bits 63 to 32 of the result. -/
def Sys2Proof.Machine.Claims.LaunchesBegin : Prop :=
  ∀ (s s1 s2 : State) (d a : BitVec 5) (x : Nat) (regions : List Nat),
    let foot : Word := BitVec.ofNat 64 (x / 256 ^ 0x68 % 2 ^ 64)
    let nfoot := x / 256 ^ 0x77 % 256
    let check := checkHeader x regions (carveBytes s2.myCore)
    let tells (v : Word) : Prop := exec (.launch d a) s = .next (s2.writeG d v)
    (s.me.gangId = 0 → ∀ w, encode (.launch d a) = some w → exec (.launch d a) s = .next (s.trap ⟨0x01, 0, 0, w.setWidth 48⟩)) ∧
    (s.me.gangId ≠ 0 → s.openEntries s.cur = [] → (s.g a).toNat % 128 = 0 →
      s.readBlock s.actor (s.g a) 128 = .ok (x, s1) → (nfoot = 0 ∨ foot.toNat % 64 = 0) →
      s1.readBlocks s1.actor foot nfoot = .ok (regions, s2) →
      (∀ st, check = .error st → tells (BitVec.ofNat 64 st)) ∧
      (∀ h, check = .ok h →
        (s2.partitionOf (clusterOf s.cur) = none → tells 4) ∧
        (∀ p, s2.partitionOf (clusterOf s.cur) = some p →
          let may := s2.kindAllowed p s.me.domain 2 = true ∧ s2.belowMaxl p s.me.domain = true
          let judged (v : Word) : Prop := exec (.launch d a) s = .next ((s2.touchRights p s.me.domain).writeG d v)
          (¬ may → judged 4) ∧ (may → 16 ≤ s2.activeLaunches → judged 3) ∧
          (may → s2.activeLaunches < 16 → ∃ t l, exec (.launch d a) s = .next t ∧
            t.me.getG d = (if d = 0 then 0 else BitVec.ofNat 64 (s2.nextLaunch * 2 ^ 32)) ∧ l ∈ t.launches ∧
            l.id = s2.nextLaunch ∧ l.gang = s.me.gangId.toNat ∧ l.domain = s.me.domain ∧ l.header = h ∧
            l.done = false ∧ l.base = 0 ∧ l.assigned = [] ∧ t.nextLaunch ≠ 0))))

/-- R229 to R231: GNEXT returns all ones for a launch that has ended, hands out the group held ahead when its footprint is
here, with WORK_ID, LAUNCH_ID and the budget of the header, and else waits; GFIELD reads one field of the group's
identifier; GDONE retires the group when its work is complete; LWAIT answers 0 or 1 of a launch that has ended, 2 of one
that is not known, 3 of the strand's own, and else waits. -/
def Obligations.GroupsRun : Prop :=
  ∀ (s : State) (d a : BitVec 5) (f : BitVec 3) (l : Launch) (id sid : Nat) (w : Word),
    let x := s.me
    let asked := s.launchOf ((s.g a).toNat / 2 ^ 32)
    let tells (i : Instr) (v : Word) : Prop := exec i s = .next (s.writeG d v)
    (x.running = none →
      (asked = none → tells (.gnext d a) (BitVec.allOnes 64)) ∧
      (asked = some l → l.done = true ∨ l.aborted = true ∨ l.gang ≠ x.gangId.toNat → tells (.gnext d a) (BitVec.allOnes 64)) ∧
      (asked = some l → l.done = false → l.aborted = false → l.gang = x.gangId.toNat →
        (x.ahead = none → l.left = 0 → tells (.gnext d a) (BitVec.allOnes 64)) ∧
        (x.ahead = none → l.left ≠ 0 → exec (.gnext d a) s = .next (s.waiting (.gnext l.id))) ∧
        (∀ h, x.ahead = some h → h.launch = l.id → h.fault = none → h.ready = true →
          ∃ t, exec (.gnext d a) s = .next t ∧ t.me.getG d = (if d = 0 then 0 else h.work) ∧ t.me.workId = h.work ∧
            t.me.launchId = BitVec.ofNat 64 (l.id * 2 ^ 32) ∧ t.me.running = some (l.id, h.work) ∧ t.me.ahead = none ∧
            t.me.groupBudget = (if l.header.budget = 0 then BitVec.allOnes 64 else BitVec.ofNat 64 l.header.budget)))) ∧
    (x.running = some (id, w) →
      (∀ q, encode (.gnext d a) = some q → exec (.gnext d a) s = .next (s.trap ⟨0x01, 0, 0, q.setWidth 48⟩)) ∧
      (s.launchOf id = some l → tells (.gfield d f) (BitVec.ofNat 64
        (w.toNat / 2 ^ ((l.header.widths.take f.toNat).foldl (· + ·) 0) % 2 ^ l.header.widths.getD f.toNat 0))) ∧
      ((∀ k ∈ s.myCore.openCards, k.sid = s.cur → k.num ≤ x.cardsBefore) → s.openEntries s.cur = [] →
        s.launchOf id = some l → ∃ t l', exec .gdone s = .next t ∧ t.me.running = none ∧ t.me.workId = 0 ∧
          t.me.launchId = 0 ∧ t.me.wait = .none ∧ t.launchOf id = some l' ∧
          l'.hasRetired (l.header.placeOf w.toNat) = true ∧ l'.header = l.header ∧
          l'.assigned = l.assigned.filter (fun q => q.1 != w.toNat))) ∧
    (x.running = none → tells (.gfield d f) 0 ∧
      ∀ q, encode .gdone = some q → exec .gdone s = .next (s.trap ⟨0x01, 0, 0, q.setWidth 48⟩)) ∧
    ((s.strand sid).wait = .gdone → (s.strand sid).running = some (id, w) →
      exec (.groupRetire sid) s = .next (s.asStrand sid (fun s => s.tryDone id w))) ∧
    (asked = none → tells (.lwait d a) 2) ∧
    (asked = some l →
      (x.running.map Prod.fst = some l.id → tells (.lwait d a) 3) ∧
      (x.running.map Prod.fst ≠ some l.id → (l.done = true → tells (.lwait d a) (if l.aborted then 1 else 0)) ∧
        (l.done = false → exec (.lwait d a) s = .next (s.waiting .poll))))

/-- R22, R24, R325, R326, R328: the earliest group in sweep order whose predecessors have retired goes to a strand of the gang
that may take it, unless the service cores that assign are being switched (R367); its footprint is fetched, a buffer that a
store reached meanwhile holding undefined bytes, or the fetch, under the domain the strand has then (log entry 33, DEDUCED),
stops at a row's fault; a strand held in S-mode too long loses the group it holds ahead, once in the excursion (log entry 34,
DEDUCED). -/
def Sys2Proof.Machine.Claims.GroupsAreAssigned : Prop :=
  ∀ (s : State) (l : Launch) (sid n : Nat) (a : Ahead),
    (s.launchOf l.id = some l → l.done = false → l.aborted = false → l.firstAssignable (2 ^ 20) l.base = some n →
      let w := l.header.workAt n
      (l.base ≤ n ∧ n < l.header.total ∧ l.hasRetired n = false ∧
        (∀ p ∈ l.header.predecessors w, l.hasRetired (l.header.placeOf p) = true) ∧
        ∀ m, l.base ≤ m → m < n → l.assignable m = false) ∧
      (s.candidates l w ≠ [] → s.assistedWaits 2 = false → ∃ t to_ l', exec (.groupAssign l.id) s = .next t ∧ to_ ∈ s.candidates l w ∧
        (t.strand to_).ahead = some ⟨l.id, BitVec.ofNat 64 w, l.header.regions.isEmpty, none, false,
          (s.strand to_).receivedOf l.id, 0, .reset⟩ ∧ t.launchOf l.id = some l' ∧ l'.assigned = l.assigned ++ [(w, to_)] ∧
        ∀ i, i ≠ to_ → t.strand i = s.strand i)) ∧
    ((s.strand sid).ahead = some a → s.launchOf a.launch = some l → a.ready = false → a.fault = none → a.mover.asked = none →
      ∀ s1 rows m stop,
        s.fetchRegions sid l.header a.work.toNat a.count l.header.regions a.rows a.rows a.mover = (s1, rows, m, stop) →
        (stop = none → ∃ t, exec (.footprintFetchComplete sid) s = .next t ∧
          t.mem = (s1.spoilBuffers sid a.count l.header.regions).mem ∧
          t.spad = (s1.spoilBuffers sid a.count l.header.regions).spad ∧
          ((∀ g ∈ l.header.regions, ∀ x ∈ s1.footStores, g.noted sid a.count x = false) → t.spad = s1.spad) ∧
          (t.strand sid).ahead = some { a with ready := true, mover := .reset }) ∧
        (∀ tr, stop = some (.trap tr) → ∃ t, exec (.footprintFetchComplete sid) s = .next t ∧ t.mem = s1.mem ∧
          t.spad = s1.spad ∧ (t.strand sid).ahead = some { a with rows := rows, mover := .reset, fault := some tr })) ∧
    (∀ k, (s.strand sid).reassignCount = some k → (s.core (coreOf sid)).reassignDelay ≤ k → k < 2 ^ 32 →
      ∃ t, exec (.reassign sid) s = .next t ∧ (∀ delay, (t.strand sid).countReached delay = false) ∧
        (t.strand sid).g = (s.strand sid).g ∧
        ∀ b, (s.strand sid).ahead = some b → s.launchOf b.launch ≠ none → (t.strand sid).ahead = none)

/-- R81, R233: BALLOC takes the first block of the cluster's list of the class for the strand's domain, its bytes undefined
(log entry 88: the model's free values), 0 where there is none;
BFREE returns a block of one of the domain's arenas to its cluster's list, at once or by BLOCK_RETURN; an address outside
them traps DOMAIN_RIGHTS, one that is no block's MISALIGNED. -/
def Sys2Proof.Machine.Claims.BlocksComplete : Prop :=
  ∀ (s : State) (d c a : BitVec 5) (b : BlockTransit) (l r : List BlockTransit) (q : Arena) (m n : List Arena),
    let cls := c.toNat % 16
    let mine (x : BlockTransit) : Prop := x.cluster = clusterOf s.cur ∧ x.cls = cls ∧ x.domain = s.me.domain
    let at_ := s.g a
    let in_ (x : Arena) : Prop := x.domain = s.me.domain ∧ x.base ≤ at_.toNat ∧ at_.toNat < x.base + x.bytes
    (9 ≤ cls → ∀ w, encode (.balloc d c) = some w → exec (.balloc d c) s = .next (s.trap ⟨0x01, 0, 0, w.setWidth 48⟩)) ∧
    (cls < 9 → (∀ x ∈ s.freeBlocks, ¬ mine x) → exec (.balloc d c) s = .next (s.writeG d 0)) ∧
    (cls < 9 → s.freeBlocks = l ++ b :: r → (∀ x ∈ l, ¬ mine x) → mine b →
      exec (.balloc d c) s = .next (({ s with freeBlocks := l ++ r }.spoilBlock b).writeG d (BitVec.ofNat 64 b.addr))) ∧
    ((∀ x ∈ s.arenas, ¬ in_ x) → exec (.bfree a) s = .next (s.trap (addrTrap causeDomainRights at_))) ∧
    (s.arenas = m ++ q :: n → (∀ x ∈ m, ¬ in_ x) → in_ q →
      let back : BlockTransit := ⟨q.cluster, q.cls, q.domain, at_.toNat⟩
      (at_.toNat % (256 * 2 ^ q.cls) ≠ 0 → exec (.bfree a) s = .next (s.trap (addrTrap causeMisaligned at_))) ∧
      (at_.toNat % (256 * 2 ^ q.cls) = 0 → q.cluster = clusterOf s.cur →
        exec (.bfree a) s = .next (State.retire { s with freeBlocks := s.freeBlocks ++ [back] })) ∧
      (at_.toNat % (256 * 2 ^ q.cls) = 0 → q.cluster ≠ clusterOf s.cur →
        exec (.bfree a) s = .next (State.retire { s with blocksBack := s.blocksBack ++ [back] }))) ∧
    (s.blocksBack = b :: r → q ∈ s.arenas → q.cluster = b.cluster → q.cls = b.cls → q.domain = b.domain →
      q.base ≤ b.addr → b.addr < q.base + q.bytes →
      exec .blockReturn s = .next { s with blocksBack := r, freeBlocks := s.freeBlocks ++ [b] })

/-- R18, R297: GANG_CTL makes a strand without a group a member under a free rank of a gang of that size, or takes it out of
its gang, storing the RANK and SIZE it wrote; a RANK or SIZE out of range is ILLEGAL_INSTR whatever GANG says, of a resume too
(log entry 47, the model's reading); a stop leaves every other member stopped, a resume leaves none stopped. -/
def Sys2Proof.Machine.Claims.GangControlCompletes : Prop :=
  ∀ (s : State) (v : Word),
    let n := (v.extractLsb' 48 16).toNat
    let rank := (v.extractLsb' 32 16).toNat
    let size := (v.extractLsb' 16 16).toNat
    let g := s.gang n
    let reach := ∀ m ∈ g.members, s.samePartition (clusterOf s.cur) (clusterOf m.2) = true
    (s.me.workId = 0 → n ≠ 0 → 1 ≤ size → size ≤ 4608 → rank < size → reach → (g.members = [] ∨ g.size = size) →
      (∀ m ∈ g.members, m.2 ≠ s.cur → m.1 ≠ rank) → s.me.gangId = 0 →
      ∃ t, exec (.gangSetMembership v) s = .next t ∧ t.me.gangId = v.extractLsb' 48 16 ∧
        t.me.gangRank = v.extractLsb' 32 16 ∧ t.me.gangSize = v.extractLsb' 16 16 ∧ t.me.stopped = g.stopped ∧
        (t.gang n).members = g.members ++ [(rank, s.cur)] ∧ (t.gang n).size = size) ∧
    (s.me.workId = 0 → n = 0 → 1 ≤ size → size ≤ 4608 → rank < size → ∃ t, exec (.gangSetMembership v) s = .next t ∧
      t.me.gangId = 0 ∧ t.me.gangRank = v.extractLsb' 32 16 ∧ t.me.gangSize = v.extractLsb' 16 16 ∧
      (s.me.gangId ≠ 0 → ∀ m ∈ (t.gang s.me.gangId.toNat).members, m.2 ≠ s.cur)) ∧
    (size < 1 ∨ 4608 < size ∨ size ≤ rank → s.setMembership s.cur v = .illegal ∧ s.gangResumeBy s.cur v = .illegal) ∧
    (n ≠ 0 → reach → g.members ≠ [] →
      (∃ t, exec (.gangStop v) s = .next t ∧ (t.gang n).stopped = true ∧
        ∀ m ∈ g.members, m.2 ≠ s.cur → (t.strand m.2).stopped = true) ∧
      (1 ≤ size → size ≤ 4608 → rank < size → ∃ t, exec (.gangResume v) s = .next t ∧ (t.gang n).stopped = false ∧
        (∀ m ∈ g.members, (t.strand m.2).stopped = false) ∧ t.mem = s.mem))

/-- R299, R300, R337, R338, R365, R367: the debug port halts and resumes a core, frames in progress being captured afresh, and
writes and reads a halted core's registers, HALTED telling that every strand has come to rest (a pc written ends the frame:
log entry 18, the model's choice); the
Kettle's caps are written under their clamps and, with AUTO, stepped for a cluster at most once in 2,100 cycles; the
service cores' mode and quotas. -/
def Obligations.ServiceRegistersComplete : Prop :=
  ∀ (s : State) (core cluster i : Nat) (v : Word) (vs ms : CapStep),
    (coreExists core = true →
      (∃ t, exec (.debugHalt core) s = .next t ∧ (t.core core).halted = true ∧
        ((∀ k, k < 4 → (s.strand (4 * core + k)).wait = .none) → t.mem = s.mem ∧
          ((s.core core).matrix = [] → t.haltedNow core = true))) ∧
      ((∀ k, k < 4 → (s.strand (4 * core + k)).frame = none) →
        exec (.debugResume core) s = .next (s.setCore core { s.core core with halted := false })) ∧
      (∃ t, exec (.debugResume core) s = .next t ∧ (t.core core).halted = false ∧
        ∀ k f, k < 4 → (s.strand (4 * core + k)).frame = some f →
          (t.strand (4 * core + k)).frame = some { f with stale := true })) ∧
    exec (.csrWrite 0x2031 v) s = .next { s with dbgSel := v &&& 0xFFFFFFFF } ∧
    (s.dbgCtl = v &&& 0x07FF0005 → coreExists core = true → (s.dbgCtl.extractLsb' 16 11).toNat = core →
      s.dbgCtlRead.getLsbD 1 = s.haltedNow core ∧ s.dbgCtlRead &&& ~~~(2 : Word) = s.dbgCtl) ∧
    (coreExists (coreOf s.dbgStrand) = false ∨ s.haltedNow (coreOf s.dbgStrand) = false ∨ 9 ≤ s.dbgFile →
      s.dbgRead = BitVec.allOnes 64) ∧
    (coreExists (coreOf s.dbgStrand) = true → s.haltedNow (coreOf s.dbgStrand) = true →
      (s.dbgFile = 0 → s.dbgIndex = i → i < 32 → s.dbgRead = (s.strand s.dbgStrand).getG (BitVec.ofNat 5 i) ∧
        exec (.dbgData v) s = .next (s.setStrand s.dbgStrand ((s.strand s.dbgStrand).setG (BitVec.ofNat 5 i) v))) ∧
      (s.dbgFile = 0 → 32 ≤ s.dbgIndex → s.dbgRead = BitVec.allOnes 64) ∧
      (s.dbgFile = 8 → s.dbgIndex = 0 → s.dbgRead = (s.strand s.dbgStrand).pc ∧ exec (.dbgData v) s =
        .next (s.setStrand s.dbgStrand
          { s.strand s.dbgStrand with pc := v &&& ~~~(3 : Word), frame := none }))) ∧
    (s.haltedNow (coreOf s.dbgStrand) = false → exec (.dbgData v) s = .next s) ∧
    (let cap (lo : Nat) : Nat := min (max (v.extractLsb' lo 4).toNat 1) 8
     ∃ t, exec (.kettleCtl v) s = .next t ∧ t.kettleCtl.extractLsb' 0 1 = v.extractLsb' 0 1 ∧
      (t.kettleCtl.extractLsb' 16 4).toNat = cap 16 ∧ (t.kettleCtl.extractLsb' 20 4).toNat = cap 20 ∧
      (t.kettleCtl.extractLsb' 28 4).toNat = min (cap 28) (cap 16) ∧
      (t.kettleCtl.extractLsb' 32 4).toNat = min (cap 32) (cap 20) ∧
      (v.getLsbD 0 = false → ∀ c, coreExists c = true → (t.core c).vlcap = cap 16 ∧ (t.core c).mcap = cap 20)) ∧
    (cluster < 48 → s.kettleCtl.getLsbD 0 = true → s.capsRested cluster = true →
      let move (cap floor : Nat) (w : CapStep) : Nat :=
        if w = .down then (if floor < cap then cap - 1 else cap) else if w = .up then (if cap < 8 then cap + 1 else cap) else cap
      ∃ t, exec (.kettleAdjust cluster vs ms) s = .next t ∧ t.capsRested cluster = false ∧
        ∀ k, k < 24 → (t.core (32 * cluster + k)).vlcap =
            move (s.core (32 * cluster + k)).vlcap (s.kettleCtl.extractLsb' 28 4).toNat vs ∧
          (t.core (32 * cluster + k)).mcap =
            move (s.core (32 * cluster + k)).mcap (s.kettleCtl.extractLsb' 32 4).toNat ms) ∧
    exec (.svcMode v) s = .next { s with svcMode := v &&& 0x3F } ∧
    (∃ t, exec (.samQuotaSet v) s = .next t ∧
      (t.domainOf (v.extractLsb' 32 12)).samQuota = min (v.toNat % 65536) 2368 ∧
      t.samQuotaSet = v &&& 0xFFF0000FFFF ∧ t.strands = s.strands) ∧
    (∃ t, exec (.pinQuotaSet v) s = .next t ∧
      (t.domainOf (v.extractLsb' 32 12)).pinQuota = min (v.toNat % 65536) 576 ∧
      t.pinQuotaSet = v &&& 0xFFF0000FFFF ∧ t.strands = s.strands)
/-! ### Request frames, queues, reset -/

namespace Sys2Proof.Machine

/-- The steps that handle a frame, each with the KIND and, for CONTROL and MEMORY frames, the first field of ARGS that name
it (R320, R330, R364). -/
def frameStep (q : Nat) (f : ReqFrame) (i : Instr) (kind : BitVec 16) (sel : Option Nat) : Prop :=
  (i, kind, sel) ∈ [(Instr.start q f, 1, none), (.launchFrame q f, 2, none), (.replay q f, 3, none), (.patch q f, 4, none),
    (.arena q f, 5, some 1), (.key q f, 5, some 2), (.quota q f, 5, some 3), (.partition q f, 5, some 4),
    (.teardown q f, 5, some 5), (.attest q f, 5, some 6), (.errlog q f, 5, some 7), (.firmware q f, 5, some 8),
    (.abort q f, 6, some 1), (.rerun q f, 6, some 2), (.notify q f, 7, none)]

/-- The state with the first frame of a queue taken. -/
def State.taking (s : State) (q : Nat) : State := s.setQueue q { s.queue q with held := (s.queue q).held.tail }

/-- The completion of a frame with a status and a RESULT (R321). -/
def State.replied (s : State) (q : Nat) (f : ReqFrame) (status : Nat) (result : Word) : State :=
  s.complete q ⟨f.tag, status, f.kind, result⟩

/-- A frame is its queue's first, firmware runs, no switch is pending, and the frame's rsv halves and rights stand (R320,
R322, R372). -/
abbrev State.admits (s : State) (q : Nat) (f : ReqFrame) : Prop :=
  s.heldFirst q = some f ∧ s.pendingImage = none ∧ s.image ≠ none ∧ f.rsv0 = 0 ∧ f.rsv1 = 0 ∧ f.tenant.toNat < 4096 ∧
    s.tenantAllowed q f = true ∧ s.listBusy (s.frameList f) = false

/-- The state in which a frame that stands is handled: the frame has left its queue and its domain's rights have been read,
which may set A bits (R312). -/
def State.admitted (s : State) (q : Nat) (f : ReqFrame) : State := (s.taking q).touchTenant f

/-- No frame with these bytes is in service for the queue. -/
abbrev State.notServing (s : State) (q : Nat) (f : ReqFrame) : Prop := ∀ w ∈ s.service, w.q = q → w.frame ≠ f

/-- Nothing is under way to another device, through the Steep buffers, in a combining queue or in an alighting. -/
abbrev State.drainedNow (s : State) : Prop :=
  (∀ r ∈ s.fabric, r.answer ≠ none) ∧ s.allEntries = [] ∧ s.waiters (fun _ => true) = [] ∧ s.alightsQueued = false

/-- A start record would change a carve while cards issued under the old one have still to access bytes it moves (R67). -/
def State.carvesBusy (s : State) (r : Nat) : Bool := (coresOf (startList r)).any (s.carveBusy (cardField r 0x2D 1))

/-- The domain of a frame's TENANT. -/
def tenantOf (f : ReqFrame) : BitVec 12 := f.tenant.setWidth 12

/-- Bytes lo to lo + n − 1 of a frame's ARGS. -/
def argOf (f : ReqFrame) (lo n : Nat) : Nat := f.args.toNat / 256 ^ lo % 256 ^ n

/-- ARGS bytes from lo on are 0. -/
def argsEnd (f : ReqFrame) (lo : Nat) : Prop := f.args.toNat < 256 ^ lo

end Sys2Proof.Machine

/-- R320, R322, R370: what every frame meets before its own handling: no image yet, DENIED but for FIRMWARE; then an rsv half
that is not 0, MALFORMED; then a TENANT without the right to its KIND, or a MEMORY frame of a fabric peer (R364), DENIED; it
leaves its queue with that completion and nothing else changes but A bits. It waits while what it may touch stands behind a
combining queue (R349, log entry 91). -/
def Sys2Proof.Machine.Claims.FramesAreChecked : Prop :=
  ∀ (s : State) (q : Nat) (f : ReqFrame) (i : Instr) (kind : BitVec 16) (sel : Option Nat),
    frameStep q f i kind sel → f.kind = kind → (∀ n, sel = some n → argOf f 0 2 = n) → s.heldFirst q = some f →
    s.pendingImage = none → s.notServing q f → s.listBusy (s.frameList f) = false →
    (s.image = none → sel ≠ some 8 → exec i s = .next ((s.taking q).replied q f 4 0)) ∧
    (s.image ≠ none → (f.rsv0 ≠ 0 ∨ f.rsv1 ≠ 0 ∨ 4096 ≤ f.tenant.toNat) →
      exec i s = .next ((s.taking q).replied q f 2 0)) ∧
    (s.image ≠ none → f.rsv0 = 0 → f.rsv1 = 0 → f.tenant.toNat < 4096 → argsEnd f 2 → s.tenantAllowed q f = false →
      exec i s = .next ((s.admitted q f).replied q f 4 0)) ∧
    (∀ dev, (s.queue q).owner = .peer dev → f.kind = 5 → s.tenantAllowed q f = false)

/-- R322 to R324: START of a record that is read and passes its checks gives every listed strand a thread: pc, g1 its argument,
g2 its index, the other registers and the vector state cleared, the record's domain and mode; it is unparked, and the
frame completes with COUNT. A record that names a strand or a gang outside the tenant's partition is DENIED. A record that
would change a carve waits in service for the cards issued under the old one (log entry 99, DEDUCED), then goes on. -/
def Sys2Proof.Machine.Claims.StartsComplete : Prop :=
  ∀ (s s1 s2 : State) (q : Nat) (f : ReqFrame) (r : Nat),
    let s0 := s.admitted q f
    let list := s0.frameList f
    let at_ : Word := BitVec.ofNat 64 (argOf f 0 8)
    let field (lo n : Nat) : Nat := r / 256 ^ lo % 256 ^ n
    (s.admits q f → s.notServing q f → f.kind = 1 → argsEnd f 8 →
    (at_.toNat % 64 ≠ 0 → exec (.start q f) s = .next (s0.replied q f 2 0)) ∧
    (at_.toNat % 64 = 0 → s0.svcRead list at_ 64 = .error s1 → exec (.start q f) s = .next (s1.replied q f 7 at_)) ∧
    (at_.toNat % 64 = 0 → s0.svcRead list at_ 64 = .ok (r, s1) →
      (startRsvOk r = false → exec (.start q f) s = .next (s1.replied q f 2 0)) ∧
      (startRsvOk r = true →
        (s1.startAllowed r (tenantOf f) = false → exec (.start q f) s = .next (s1.replied q f 4 0)) ∧
        (s1.startAllowed r (tenantOf f) = true →
          (startFieldsOk r (tenantOf f) = false → exec (.start q f) s = .next (s1.replied q f 2 0)) ∧
          (startFieldsOk r (tenantOf f) = true →
            (s1.startConflict r = true → exec (.start q f) s = .next (s1.replied q f 8 0)) ∧
            (s1.startConflict r = false → s1.carvesBusy r = true → ∃ t, exec (.start q f) s = .next t ∧
              t = { s1 with service := t.service } ∧ ∃ w ∈ t.service, w.q = q ∧ w.frame = f ∧ w.rows = r) ∧
            (s1.startConflict r = false → s1.carvesBusy r = false → s1.startAll (s1.frameList f) r (tenantOf f) = .error s2 →
              exec (.start q f) s = .next (s2.replied q f 7 (BitVec.ofNat 64 (field 0x18 8)))) ∧
            (s1.startConflict r = false → s1.carvesBusy r = false → s1.startAll (s1.frameList f) r (tenantOf f) = .ok s2 →
              exec (.start q f) s = .next (s2.replied q f 0 (BitVec.ofNat 64 (field 0x22 2))) ∧
              ∀ i, i < field 0x22 2 →
                let x := s2.strand (field 0x20 2 + i * field 0x24 2)
                x.thread = true ∧ x.parked = false ∧ x.pc = BitVec.ofNat 64 (field 0 8) ∧
                  x.getG 1 = BitVec.ofNat 64 (field 8 8) ∧ x.getG 2 = BitVec.ofNat 64 i ∧
                  (∀ n, n ≠ 1 → n ≠ 2 → x.getG n = 0) ∧ x.domain = tenantOf f ∧ x.vl = 0 ∧ x.vstart = 0 ∧
                  (∀ n, (x.getV n).vtype = 0 ∧ (x.getV n).vhwe = 0) ∧
                  x.mode = (if field 0x2C 1 = 1 then .s else .u) ∧ x.frame = none ∧ x.wait = .none)))))) ∧
    (∀ w, f.kind = 1 → s.serving q f = some w → w.rows = r →
      let u := { s with service := s.service.erase w }
      startRsvOk r = true → u.startAllowed r (tenantOf f) = true → startFieldsOk r (tenantOf f) = true →
      u.startConflict r = false → u.carvesBusy r = false → u.startAll (u.frameList f) r (tenantOf f) = .ok s2 →
      exec (.start q f) s = .next (s2.replied q f 0 (BitVec.ofNat 64 (field 0x22 2))))

/-- R321, R330, R332, R335: NOTIFY makes HOST_REQUEST pending on its strand, and is MALFORMED where there is none (log
entry 36, DEDUCED); PATCH stores the fields its MASK names in one node record; ABORT ends a launch's assignment; RERUN reloads the
budget of a strand in S-mode and returns the header's entry, its rights judged before the launch, or answers 7 with the address
its refetch faults at (log entry 35, DEDUCED); a launch asked for by a frame answers when it has ended. -/
def Sys2Proof.Machine.Claims.ControlFramesComplete : Prop :=
  ∀ (s s1 s2 s3 : State) (q : Nat) (f : ReqFrame) (l : Launch) (w : Word) (nn old : Nat),
    let s0 := s.admitted q f
    let list := s0.frameList f
    let at_ : Word := BitVec.ofNat 64 (argOf f 0 8)
    s.admits q f →
    (f.kind = 7 → argsEnd f 2 →
      let sid := argOf f 0 2
      (strandExists sid = false → exec (.notify q f) s = .next (s0.replied q f 2 0)) ∧
      (strandExists sid = true → s0.clusterFor (tenantOf f) (clusterOf sid) = false →
        exec (.notify q f) s = .next (s0.replied q f 4 0)) ∧
      (strandExists sid = true → s0.clusterFor (tenantOf f) (clusterOf sid) = true → exec (.notify q f) s = .next
        ((s0.setStrand sid { s0.strand sid with ipend := (s0.strand sid).ipend ||| 2 }).replied q f 0 0))) ∧
    (f.kind = 4 → argOf f 10 1 < 4 → argOf f 11 5 = 0 → argsEnd f 0x20 → at_.toNat % 64 = 0 →
      let rec_ := at_ + BitVec.ofNat 64 (64 * (argOf f 8 2 + 1))
      (s0.svcRead list at_ 2 = .error s1 → exec (.patch q f) s = .next (s1.replied q f 7 at_)) ∧
      (s0.svcRead list at_ 2 = .ok (nn, s1) →
        (nn ≤ argOf f 8 2 → exec (.patch q f) s = .next (s1.replied q f 2 0)) ∧
        (argOf f 8 2 < nn → s1.svcRead list rec_ 16 = .ok (old, s2) →
          let hdr := if argOf f 10 1 % 2 = 1 then argOf f 0x10 8 else old % 2 ^ 64
          let args := if argOf f 10 1 / 2 = 1 then argOf f 0x18 8 else old / 2 ^ 64
          (s2.svcWrite list rec_ 16 (hdr + args * 2 ^ 64) = .error s3 →
            exec (.patch q f) s = .next (s3.replied q f 7 rec_)) ∧
          (s2.svcWrite list rec_ 16 (hdr + args * 2 ^ 64) = .ok s3 → exec (.patch q f) s = .next (s3.replied q f 0 0))))) ∧
    (f.kind = 6 → argOf f 0 2 = 1 → argOf f 2 2 = 0 → argsEnd f 8 →
      (s0.launchOf (argOf f 4 4) = none → exec (.abort q f) s = .next (s0.replied q f 2 0)) ∧
      (s0.launchOf (argOf f 4 4) = some l → l.done = false → s0.gangFor (tenantOf f) l.gang = true →
        ∃ (t : State) (l' : Launch), exec (.abort q f) s = .next (t.replied q f 0 0) ∧ t.launchOf l.id = some l' ∧ l'.aborted = true ∧
          ∀ y ∈ l'.assigned, (s.strand y.2).running = some (l.id, BitVec.ofNat 64 y.1))) ∧
    (let sid := argOf f 2 2
     f.kind = 6 → argOf f 0 2 = 2 → argsEnd f 8 → s.notServing q f → strandExists sid = true →
      (s0.clusterFor (tenantOf f) (clusterOf sid) = false → exec (.rerun q f) s = .next (s0.replied q f 4 0)) ∧
      (s0.clusterFor (tenantOf f) (clusterOf sid) = true →
        (s0.launchOf (argOf f 4 4) = none → exec (.rerun q f) s = .next (s0.replied q f 2 0)) ∧
        (s0.launchOf (argOf f 4 4) = some l → l.done = false → s0.gangFor (tenantOf f) l.gang = true →
          (s.strand sid).running = some (l.id, w) → l.header.flags.getLsbD 0 = true → (s.strand sid).mode = .s →
          (∀ k ∈ (s.core (coreOf sid)).openCards, k.sid = sid → k.num ≤ (s.strand sid).cardsBefore) →
          ∀ n m stop, s0.fetchRegions sid l.header w.toNat ((s.strand sid).receivedOf l.id - 1) l.header.regions 0 0 .reset =
              (s1, n, m, stop) →
            (stop = none → exec (.rerun q f) s = .next ((s1.setStrand sid { s1.strand sid with
              groupBudget := if l.header.budget = 0 then BitVec.allOnes 64
                else BitVec.ofNat 64 l.header.budget }).replied q f 0 l.header.entry)) ∧
            ∀ tr, stop = some (.trap tr) → exec (.rerun q f) s = .next (s1.replied q f 7 tr.addr))))

/-- R321, R332 to R334: a LAUNCH frame that passes its checks makes a launch active, answered when it ends; a REPLAY takes its
snapshot and its due nodes are launched with their own ARGS; when a launch has ended its frame's completion is posted with
its identifier, 1 in RESULT when it was aborted. A gang outside the tenant's partition is DENIED before the fields. -/
def Sys2Proof.Machine.Claims.LaunchAndReplayFrames : Prop :=
  ∀ (s s1 s2 : State) (q n j : Nat) (f : ReqFrame) (x : Nat) (foot : List Nat) (h : Header) (p : Partition) (l : Launch)
    (r : Replay) (node : GraphNode) (tag : Word) (nodes : List GraphNode),
    let s0 := s.admitted q f
    let list := s0.frameList f
    let gang := argOf f 8 2
    let at_ : Word := BitVec.ofNat 64 (argOf f 0 8)
    (s.admits q f → f.kind = 2 → argsEnd f 10 →
      (s0.gangFor (tenantOf f) gang = false → exec (.launchFrame q f) s = .next (s0.replied q f 4 0)) ∧
      (s0.gangFor (tenantOf f) gang = true → s0.svcHeader list at_ = .ok ((x, foot), s1) →
        (gang = 0 → exec (.launchFrame q f) s = .next (s1.replied q f 2 0)) ∧
        (gang ≠ 0 → checkHeader x foot (s1.rankZeroCarve gang) = .ok h →
          s1.partitionOfDomain (tenantOf f) = some p →
          (s1.belowMaxl p (tenantOf f) = false → exec (.launchFrame q f) s = .next (s1.replied q f 4 0)) ∧
          (s1.belowMaxl p (tenantOf f) = true → 16 ≤ s1.activeLaunches →
            exec (.launchFrame q f) s = .next (s1.replied q f 3 0)) ∧
          (s1.belowMaxl p (tenantOf f) = true → s1.activeLaunches < 16 → ∃ t k, exec (.launchFrame q f) s = .next t ∧
            k ∈ t.launches ∧ k.id = s1.nextLaunch ∧ k.header = h ∧ k.gang = gang ∧ k.owner = .frame q f.tag ∧
            k.done = false ∧ t.queues = s1.queues)))) ∧
    (s.admits q f → f.kind = 3 → argsEnd f 8 → at_.toNat % 64 = 0 → s0.svcRead list at_ 64 = .ok (x, s1) →
      x / 2 ^ 32 % 256 ^ 60 = 0 →
      let g := x / 65536 % 65536
      (s1.gangFor (tenantOf f) g = false → exec (.replay q f) s = .next (s1.replied q f 4 0)) ∧
      (s1.gangFor (tenantOf f) g = true →
        (x % 65536 = 0 ∨ 256 < x % 65536 ∨ g = 0 → exec (.replay q f) s = .next (s1.replied q f 2 0)) ∧
        (1 ≤ x % 65536 → x % 65536 ≤ 256 → g ≠ 0 → s1.readNodes list (at_ + 64) 0 (x % 65536) = .ok (nodes, s2) →
          ∃ t, exec (.replay q f) s = .next t ∧ t.queues = s2.queues ∧
            t.replays = s2.replays ++ [⟨s2.serial, q, f.tag, tenantOf f, g, nodes, none⟩]))) ∧
    (s.replayOf n = some r → r.nodes[j]? = some node → r.nodeDue node = true →
      checkHeader node.raw node.foot (s.rankZeroCarve r.gang) = .ok h → s.partitionOfDomain r.domain = some p →
      s.kindAllowed p r.domain 2 = true → s.belowMaxl p r.domain = true → s.activeLaunches < 16 →
      ∃ t k, exec (.replayNodeLaunch n j) s = .next t ∧ k ∈ t.launches ∧ k.id = s.nextLaunch ∧
        k.header = { h with args := node.args } ∧ k.owner = .node r.id j) ∧
    (s.launches.find? (fun k => k.id == n && k.owner != .strand) = some l → l.done = true → l.owner = .frame q tag →
      (s.queue q).fetching = true →
      ∃ t, exec (.launchFrameCompletion n) s = .next t ∧ (t.queue q).pending = (s.queue q).pending ++
        [⟨tag, 0, 2, if l.aborted then 1 else BitVec.ofNat 64 (l.id * 2 ^ 32)⟩])

/-- R305, R306, R315, R321, R336, R364, R365: KEY installs the keys of a slot, QUOTA a domain's quota as a write of its CSR,
ARENA the blocks of a range that its partition and every list of its domain grant (log entry 90, the model's reading); a
range that meets another arena is a CONFLICT. A DOMAIN out of reach is DENIED before the fields are judged. -/
def Sys2Proof.Machine.Claims.MemoryFramesComplete : Prop :=
  ∀ (s s1 : State) (q : Nat) (f : ReqFrame) (k : Nat) (p : Partition) (lists : List (List (BitVec 128))),
    let s0 := s.admitted q f
    let d : BitVec 12 := BitVec.ofNat 12 (argOf f 4 2)
    let v := argOf f 8 8
    let slot := argOf f 2 1
    s.admits q f → s.notServing q f → f.kind = 5 → argOf f 4 2 < 4096 → argOf f 6 2 = 0 →
    (argOf f 0 2 = 2 → argOf f 3 1 = 0 → argsEnd f 16 →
      (s0.domainReachable q d = false → exec (.key q f) s = .next (s0.replied q f 4 0)) ∧
      (s0.domainReachable q d = true →
        (slot = 0 → exec (.key q f) s = .next (s0.replied q f 2 0)) ∧
        (slot ≠ 0 → s0.frameRead q f (BitVec.ofNat 64 v) 64 = .error s1 →
          exec (.key q f) s = .next (s1.replied q f 7 (BitVec.ofNat 64 v))) ∧
        (slot ≠ 0 → s0.frameRead q f (BitVec.ofNat 64 v) 64 = .ok (k, s1) →
          exec (.key q f) s =
            .next ({ s1 with keySlots := mapSet s1.keySlots slot (BitVec.ofNat 512 k) }.replied q f 0 0)))) ∧
    (argOf f 0 2 = 3 → argOf f 3 1 = 0 → argsEnd f 16 →
      let w : Word := BitVec.ofNat 64 (argOf f 4 2 * 2 ^ 32 + v)
      (s0.domainReachable q d = false → exec (.quota q f) s = .next (s0.replied q f 4 0)) ∧
      (s0.domainReachable q d = true →
        (slot = 0 → v ≤ 2368 → exec (.quota q f) s = .next
          (({ s0 with samQuotaSet := w }.setDomain d { s0.domainOf d with samQuota := v }).replied q f 0 0)) ∧
        (slot = 1 → v ≤ 576 → exec (.quota q f) s = .next
          (({ s0 with pinQuotaSet := w }.setDomain d { s0.domainOf d with pinQuota := v }).replied q f 0 0)) ∧
        (2 ≤ slot ∨ (slot = 0 ∧ 2368 < v) ∨ (slot = 1 ∧ 576 < v) →
          exec (.quota q f) s = .next (s0.replied q f 2 0)))) ∧
    (argOf f 0 2 = 1 → argsEnd f 0x18 →
      let cls := argOf f 3 1
      let size := 256 * 2 ^ cls
      let bytes := argOf f 16 8
      let fields := slot < 48 ∧ cls < 9 ∧ v % size = 0 ∧ 0 < bytes ∧ bytes % size = 0
      (s0.domainReachable q d = false ∨ (slot < 48 ∧ s0.clusterFor (tenantOf f) slot = false) →
        exec (.arena q f) s = .next (s0.replied q f 4 0)) ∧
      (s0.domainReachable q d = true → s0.clusterFor (tenantOf f) slot = true →
        (¬ fields → exec (.arena q f) s = .next (s0.replied q f 2 0)) ∧
        (fields → s0.partitionOfDomain d = some p → s0.domainLists p d = (lists, s1) →
          let granted := v + bytes ≤ 2 ^ 56 ∧ s1.ownRange lists v (v + bytes) (bytes / 65536 + 2) = true
          let clash := (∃ a ∈ s1.arenas, a.base < v + bytes ∧ v < a.base + a.bytes) ∨
            64 ≤ (s1.arenas.filter (fun a => a.cluster == slot)).length
          (¬ granted → exec (.arena q f) s = .next (s1.replied q f 4 0)) ∧
          (granted → clash → exec (.arena q f) s = .next (s1.replied q f 8 0)) ∧
          (granted → ¬ clash → exec (.arena q f) s = .next ({ s1 with
            arenas := s1.arenas ++ [(⟨slot, cls, d, v, bytes⟩ : Arena)]
            freeBlocks := s1.freeBlocks ++ (List.range (bytes / size)).map (fun i => (⟨slot, cls, d, v + i * size⟩ : BlockTransit))
              }.replied q f 0 (BitVec.ofNat 64 (bytes / size)))))))

/-- R307, R363, R366: PARTITION from the host defines a partition and drops its domains' PLB entries, a CONFLICT with another
that shares a cluster or a domain; TEARDOWN of a domain whose strands are all parked ends its launches and takes its pins,
arenas, records and rights away. Either completes once nothing that passed a dropped entry is under way, and until then is
in service. -/
def Sys2Proof.Machine.Claims.PartitionsComplete : Prop :=
  ∀ (s s1 : State) (q : Nat) (f : ReqFrame) (l : List (BitVec 128)),
    let s0 := s.admitted q f
    let num := argOf f 2 1
    let dfirst := argOf f 4 2
    let dcount := argOf f 6 2
    let clusters : BitVec 48 := BitVec.ofNat 48 (argOf f 8 6)
    let plist : Word := BitVec.ofNat 64 (argOf f 0x10 8)
    let lrt : Word := BitVec.ofNat 64 (argOf f 0x18 8)
    let d : BitVec 12 := BitVec.ofNat 12 dfirst
    (s.admits q f → s.notServing q f → f.kind = 5 →
    (argOf f 0 2 = 4 → argOf f 3 1 = 0 → argOf f 14 2 = 0 → argsEnd f 0x20 → num < 48 → 1 ≤ dfirst → dfirst ≤ 4095 →
      1 ≤ dcount → dfirst + dcount ≤ 4096 → clusters ≠ 0 →
      (q ≠ 0 → exec (.partition q f) s = .next (s0.replied q f 4 0)) ∧
      (q = 0 → lrt.toNat % 4096 ≠ 0 ∨ plist.toNat % 4096 ≠ 0 → exec (.partition q f) s = .next (s0.replied q f 2 0)) ∧
      (q = 0 → lrt.toNat % 4096 = 0 → plist.toNat % 4096 = 0 → (∀ p ∈ s.partitions, p.num ≠ num) →
        ((∃ p ∈ s.partitions, p.clusters &&& clusters ≠ 0 ∨
            (p.dfirst < dfirst + dcount ∧ dfirst < p.dfirst + p.dcount)) →
          exec (.partition q f) s = .next (s0.replied q f 8 0)) ∧
        ((∀ p ∈ s.partitions, p.clusters &&& clusters = 0 ∧
            (dfirst + dcount ≤ p.dfirst ∨ p.dfirst + p.dcount ≤ dfirst)) → s0.readList plist 256 = .ok (l, s1) →
          ∃ t, exec (.partition q f) s = .next t ∧ ⟨num, dfirst, dcount, clusters, l, lrt, 0, f⟩ ∈ t.partitions ∧
            (∀ p ∈ s.partitions, p ∈ t.partitions) ∧
            (∀ c, ∀ e ∈ (t.core c).plb, e.domain.toNat < dfirst ∨ dfirst + dcount ≤ e.domain.toNat) ∧
            (s.drainedNow → ∃ u : State, t = u.replied q f 0 0)))) ∧
    (argOf f 0 2 = 5 → argOf f 2 2 = 0 → dfirst < 4096 → dcount = 0 → argsEnd f 8 →
      (s0.domainReachable q d = false → exec (.teardown q f) s = .next (s0.replied q f 4 0)) ∧
      (s0.domainReachable q d = true →
        ((∃ sid, (s.strand sid).domain = d ∧ (s.strand sid).parked = false) →
          exec (.teardown q f) s = .next (s0.replied q f 8 0)) ∧
        ((∀ sid, (s.strand sid).domain = d → (s.strand sid).parked = true) →
          ∃ t, exec (.teardown q f) s = .next t ∧ (∀ p ∈ t.pins, p.domain ≠ d) ∧
            (∀ a ∈ t.arenas, a.domain ≠ d) ∧ (∀ r ∈ t.records, r.domain ≠ d) ∧
            (∀ x ∈ t.launches, x.domain = d → x.done = true ∨ x.aborted = true) ∧
            (∀ c, ∀ e ∈ (t.core c).plb, e.domain ≠ d) ∧
            (s.drainedNow → ∃ (u : State) (n : Word), t = u.replied q f 0 n))))) ∧
    (∀ i kind sel w tags entries result, frameStep q f i kind (some sel) → kind = 5 → f.kind = 5 → argOf f 0 2 = sel →
      s.serving q f = some w → w.drain = some (tags, entries, result) →
      let u := { s with service := s.service.erase w }
      ((∀ n ∈ tags, ∀ r, u.fabricReq n = some r → r.answer ≠ none) → (∀ e ∈ u.allEntries, e.num ∉ entries) →
        (∀ x ∈ u.waiters (fun _ => true), x.1 ∉ entries) → u.alightsQueued = false →
        (u.refusedAlights tags = [] → exec i s = .next (u.replied q f 0 result)) ∧
        (result ≠ 0 → exec i s = .next (((u.refusedAlights tags).foldl State.dropReq u).replied q f 0
          (result - BitVec.ofNat 64 (u.refusedAlights tags).length)))) ∧
      ((∃ n ∈ tags, ∃ r, u.fabricReq n = some r ∧ r.answer = none) → ∃ t, exec i s = .next t ∧ t.queues = s.queues ∧
        ∃ w' ∈ t.service, w'.q = q ∧ w'.frame = f ∧ w'.drain = w.drain))

/-- R364, R371, R372, R374: ATTEST writes its report; ERRLOG the newest whole records that fit, the newest first (log entry 16,
DEDUCED), both to host memory for the host, whose memory the image is read from too (log entry 20, DEDUCED); FIRMWARE verifies an
image and
leaves its switch pending, refused with 1 or 2 in RESULT; an address that does not answer is FAULT; with no frame in service
the new image takes over and the frame completes with its SECVER; frames held 10 ms meanwhile complete RETRY. -/
def Sys2Proof.Machine.Claims.FirmwareFramesComplete : Prop :=
  ∀ (s : State) (q : Nat) (f : ReqFrame) (image : Image) (p : PendingImage) (t : Nat) (rest : List (ReqFrame × Nat)),
    let s0 := s.admitted q f
    (s.admits q f → s.notServing q f → f.kind = 5 → argOf f 0 2 = 7 → argOf f 2 6 = 0 → argsEnd f 0x18 → q = 0 →
      let n := min s.errors.length (argOf f 16 8 / 32)
      let out : Word := BitVec.ofNat 64 (argOf f 8 8)
      (s0.hostAnswers out (32 * n) = false → exec (.errlog q f) s = .next (s0.replied q f 7 out)) ∧
      (s0.hostAnswers out (32 * n) = true →
      ∃ u : State, exec (.errlog q f) s = .next (u.replied q f 0 (BitVec.ofNat 64 n)) ∧ u.strands = s.strands ∧
        ∀ i (h : i < s.errors.length), i < n →
          let r := s.errors[i]
          u.readMem (hostBase + argOf f 8 8 + 32 * i) 8 = r.time.toNat ∧
            u.readMem (hostBase + argOf f 8 8 + 32 * i + 16) 8 = r.place.toNat ∧
            u.readMem (hostBase + argOf f 8 8 + 32 * i + 24) 8 = r.count.toNat)) ∧
    (s.admits q f → s.notServing q f → f.kind = 5 → argOf f 0 2 = 6 → argOf f 2 6 = 0 → s.image = some image →
      (s.queue q).owner = .host →
      let out : Word := BitVec.ofNat 64 (argOf f 0x28 8)
      (argOf f 0x28 8 % 4096 ≠ 0 → exec (.attest q f) s = .next (s0.replied q f 2 0)) ∧
      (argOf f 0x28 8 % 4096 = 0 → ∃ report, report % 2 ^ 32 = 1 ∧
        report / 2 ^ 64 % 2 ^ 256 = argOf f 8 32 ∧ report / 2 ^ 320 % 2 ^ 256 = image.digest.toNat ∧
        (s0.hostWrite out 3852 report = none → exec (.attest q f) s = .next (s0.replied q f 7 out)) ∧
        ∀ u, s0.hostWrite out 3852 report = some u → exec (.attest q f) s = .next (u.replied q f 0 0))) ∧
    (s.heldFirst q = some f → s.pendingImage = none → s.notServing q f → f.rsv0 = 0 → f.rsv1 = 0 → f.tenant.toNat < 4096 →
      s.tenantAllowed q f = true → s.listBusy (s.frameList f) = false → f.kind = 5 → argOf f 0 2 = 8 → argOf f 2 6 = 0 →
      argsEnd f 0x18 → q = 0 →
      argOf f 8 8 % 4096 = 0 →
      let at_ : Word := BitVec.ofNat 64 (argOf f 8 8)
      (s0.hostRead at_ (argOf f 16 8) = none → exec (.firmware q f) s = .next (s0.replied q f 7 at_)) ∧
      ∀ x, s0.hostRead at_ (argOf f 16 8) = some x →
        (argOf f 16 8 < 0x1000 ∨ imageFormOk x (argOf f 16 8) = false →
          exec (.firmware q f) s = .next (s0.replied q f 2 0)) ∧
        (0x1000 ≤ argOf f 16 8 → imageFormOk x (argOf f 16 8) = true →
          (∀ e, verifyImage x = .error e → exec (.firmware q f) s = .next (s0.replied q f 4 (BitVec.ofNat 64 e))) ∧
          (verifyImage x = .ok image →
            exec (.firmware q f) s = .next { s0 with pendingImage := some ⟨image, q, f.tag⟩ }))) ∧
    (s.pendingImage = some p → s.service = [] → (s.queue p.q).fetching = true →
      ∃ u, exec .firmwareTakeover s = .next u ∧ u.image = some p.image ∧ u.pendingImage = none ∧
        (u.queue p.q).pending = (s.queue p.q).pending ++ [⟨p.tag, 0, 5, p.image.secver.setWidth 64⟩] ∧
        (s.image ≠ none → u.mem = s.mem ∧ u.root = s.root)) ∧
    (s.pendingImage = some p → (s.queue q).held = (f, t) :: rest → t + 21000000 ≤ s.cycle → (s.queue q).fetching = true →
      ∃ u, exec (.retry q) s = .next u ∧ (u.queue q).held = [] ∧ (u.queue q).pending =
        (s.queue q).pending ++ ((f, t) :: rest).map (fun h => ⟨h.1.tag, 5, h.1.kind, 0⟩))

/-- R361, R362: SQ_POLL fetches the frames between the queue's head and SQTAIL, in order, and polls again after 4,200 cycles,
after 210,000 when the queue has never delivered; the first completion that waits is written at CQTAIL when its ring has room,
and CQTAIL moves on; the queue of a fabric peer brings a frame that nothing constrains, and sends its completions (log entry 89,
the model's choice); a posted queue pair stands as STATE 1 until a service core takes it up, or refuses it with its reason; a
function-level reset drops it. -/
def Sys2Proof.Machine.Claims.QueuesComplete : Prop :=
  ∀ (s s1 s2 : State) (q w head : Nat) (qpd : Word) (c : Completion) (rest : List Completion),
    let x := s.queue q
    let tail := w % x.sqn
    let count := (tail + x.sqn - x.sqHead) % x.sqn
    let from_ (i : Nat) : Word := BitVec.ofNat 64 (x.sq + 64 * ((x.sqHead + i) % x.sqn))
    (x.fetching = true → x.nextPoll ≤ s.cycle → x.owner = .host → peerOf q = none → x.sqHead < x.sqn →
      s.hostRead (BitVec.ofNat 64 x.sqTailAt) 4 = some w → (∀ i, i < count → s.hostRead (from_ i) 64 ≠ none) →
      ∃ t, exec (.sqPoll q) s = .next t ∧ (t.queue q).sqHead = tail ∧ t.mem = s.mem ∧
        (t.queue q).held = x.held ++ (List.range count).map (fun i =>
          (frameOf ((s.hostRead (from_ i) 64).getD 0), s.cycle)) ∧
        (count ≠ 0 → (t.queue q).nextPoll = s.cycle + 4200) ∧
        (count = 0 → x.lastDelivery = none → (t.queue q).nextPoll = s.cycle + 210000)) ∧
    (∀ dev, q = 49 + dev → dev < 256 → dev ≠ s.device →
      (∃ t, exec (.sqPoll q) s = .next t ∧ (t.queue q).held = x.held ++ [(frameOf (s.freeValue 512).toNat, s.cycle)] ∧
        (t.queue q).owner = .peer dev ∧ (t.queue q).fetching = true ∧ t.mem = s.mem) ∧
      (x.pending = c :: rest → ∃ t, exec (.completionPost q) s = .next t ∧ (t.queue q).pending = rest ∧ t.mem = s.mem)) ∧
    (x.owner = .host → peerOf q = none → x.pending = c :: rest →
      let next := (x.cqTail + 1) % x.cqn
      s.hostRead (BitVec.ofNat 64 x.cqHeadAt) 4 = some head → next ≠ head % x.cqn →
      s.hostWrite (BitVec.ofNat 64 (x.cq + 32 * x.cqTail)) 32 (completionBytes c).toNat = some s1 →
      s1.hostWrite (BitVec.ofNat 64 x.cqTailAt) 4 next = some s2 →
      ∃ t, exec (.completionPost q) s = .next t ∧ (t.queue q).pending = rest ∧ (t.queue q).cqTail = next ∧
        t.mem = s2.mem) ∧
    ((completionBytes c).extractLsb' 0 64 = c.tag ∧ (completionBytes c).extractLsb' 64 32 = BitVec.ofNat 32 c.status ∧
      (completionBytes c).extractLsb' 96 16 = c.kind ∧ (completionBytes c).extractLsb' 128 64 = c.result) ∧
    (let l := s.hostLink
     let refused (why : Nat) : Result := .next { s with hostLink := { l with state := 3, reason := why } }
     (l.state = 2 → exec (.qpdPost qpd) s = .next s) ∧
     (l.state ≠ 2 → ¬(l.state = 1 ∧ l.qpd = qpd) → exec (.qpdPost qpd) s = .next { s with hostLink := ⟨1, qpd, 0, s.cycle⟩ }) ∧
     (l.state = 1 → l.qpd = qpd →
      (qpd.toNat % 64 ≠ 0 → exec (.qpdPost qpd) s = refused 1) ∧
      (qpd.toNat % 64 = 0 → s.hostRead qpd 64 = none → exec (.qpdPost qpd) s = refused 2) ∧
      ∀ d, qpd.toNat % 64 = 0 → s.hostRead qpd 64 = some d →
        (descriptorOk d = false → exec (.qpdPost qpd) s = refused 3) ∧
        (descriptorOk d = true → ∃ t, exec (.qpdPost qpd) s = .next t ∧
          t.hostLink.state = 2 ∧ t.hostLink.qpd = qpd ∧ t.hostLink.reason = 0 ∧ (t.queue 0).fetching = true ∧
          (t.queue 0).held = [] ∧ (t.queue 0).sqn = d / 256 ^ 0x10 % 65536 ∧ (t.queue 0).lastDelivery = none ∧
          t.strands = s.strands))) ∧
    (∃ t, exec .functionLevelReset s = .next t ∧ t.hostLink.state = 0 ∧ (t.queue 0).fetching = false ∧
      t.strands = s.strands ∧ t.mem = s.mem)

/-- R32, R44, R283, R284, R361, R370: the machine after reset, by RESET and at the start: every strand parked in
S-mode with no thread, IE 0, every register clear or DEAD, TIMECMP all ones, IEN and the handler budget at their reset
values, no translation, right, image or frame; host memory is kept. The values that the spec gives none for are the
model's choice (log entry 6). -/
def Obligations.ResetLeaves : Prop :=
  (∀ sid : Nat,
    let x := State.reset.strand sid
    x.parked = true ∧ x.thread = false ∧ x.mode = .s ∧ x.ie = false ∧ x.handler = none ∧ x.frame = none ∧
      x.wait = .none ∧ x.frm = 0 ∧ x.fflags = 0 ∧ x.vl = 0 ∧ x.vstart = 0 ∧ x.share = 0 ∧ x.gangId = 0 ∧
      x.timecmp = BitVec.allOnes 64 ∧ x.ien = 8 ∧ x.ipend = 0 ∧ x.steepAge = 512 ∧ x.getP 0 = BitVec.allOnes 2048 ∧
      ∀ n, x.getG n = 0 ∧ (x.getV n).vtype = 0 ∧ (x.getV n).vhwe = 0) ∧
  (∀ core : Nat,
    let c := State.reset.core core
    c.tileOwner = 0 ∧ c.vlcap = 8 ∧ c.mcap = 8 ∧ c.rcmask = 0 ∧ c.handlerBudget = 4096 ∧ c.reassignDelay = 20000 ∧
      c.cards = [] ∧ c.seIssued = 0 ∧ c.plb = [] ∧ (∀ i (h : i < 8), c.sems[i] = 0 ∧ c.tileTags[i] = 0) ∧
      ∀ i (h : i < 4), c.accTags[i] = 0) ∧
  (∀ a : Nat, State.reset.byteAt a = 0) ∧ State.reset.hostLink.state = 0 ∧ State.reset.image = none ∧
  State.reset.root = none ∧ State.reset.partitions = [] ∧
  ∀ s : State, ∃ t, exec .reset s = .next t ∧ t.image = none ∧ t.hostLink.state = 0 ∧ t.powered = true ∧
    (∀ sid, t.strand sid = State.reset.strand sid) ∧ (∀ core, t.core core = State.reset.core core) ∧
    ∀ a, t.byteAt a = if hostBase ≤ a then s.byteAt a else 0
/-! ### The fabric, the links, the mesh -/

namespace Sys2Proof.Machine

/-- One packet has been sent in answer to a packet: its kind, status and data; tag, class and device are the request's (R352). -/
def State.Answered (s t : State) (p : Packet) (kind : BitVec 8) (status : Nat) (data : List Byte) : Prop :=
  ∃ r : Packet, t.sent = s.sent ++ [r] ∧ r.kind = kind ∧ r.status = BitVec.ofNat 32 status ∧ r.data = data ∧
    r.ddev = p.sdev ∧ r.xtag = p.xtag ∧ r.cls = p.cls ∧ r.nmerge = p.nmerge ∧ r.sdev = BitVec.ofNat 8 s.device

/-- Packets go to a device: a port of its route is up and its key is not about to end. -/
abbrev State.reaches (s : State) (dev : Nat) : Prop :=
  ∃ port, s.routeTo dev = some port ∧ (s.hwRotation port = true ∨ (s.port port).tx.counter.toNat < 2 ^ 47)

/-- A packet for this device, of a kind, with no rsv field set, whose sender can be answered. -/
abbrev State.Arrives (s : State) (p : Packet) (kind : BitVec 8) : Prop :=
  p.kind = kind ∧ p.ddev.toNat = s.device ∧ p.rsv = false ∧ s.reaches p.sdev.toNat

/-- Such a packet, and no operation waits in a combining queue at a location it touches (R349). -/
abbrev State.ArrivesFree (s : State) (p : Packet) (kind : BitVec 8) : Prop := s.Arrives p kind ∧ s.packetQueue p = none

/-- The six requests for memory, each with its kind. -/
def memoryRequest (p : Packet) (i : Instr) (kind : BitVec 8) : Prop :=
  (i, kind) ∈ [(Instr.read p, 1), (.write p, 2), (.atomic p, 3), (.vread p, 4), (.vwrite p, 5), (.words p, 6)]

end Sys2Proof.Machine

/-- R217, R352, R353: READ answers the enabled bytes of a line, WRITE writes them and acknowledges, ATOMIC is performed and
answered with the old value, and the entries of a WORDS packet are performed in their order, each with its own status; a line
or word outside the package's memory is answered 1 for a read, 2 else, and a poisoned one 3, with nothing written; a request
or word that touches a location with operations waiting joins its combining queue, and an ADD may open one. (AUX of ATOMIC, the layout of WORDS and the flags
byte are log entry 9, the fault in the STATUS of WRITE's ACK log entry 41, the addresses of the package's memory log entry 82,
the combining queues log entry 91, memory read and written under the key of the last write log entry 26: the model's choices.) -/
def Sys2Proof.Machine.Claims.RequestsAreAnswered : Prop :=
  ∀ (s : State) (p : Packet),
    let line := p.addr.toNat / 128 * 128
    let inside := line + 128 ≤ Config.hbmBytes
    let clean := s.maskPoisoned p = false
    let pa := p.addr.toNat
    let n := if p.aux.getLsbD 4 then 8 else 4
    let op := p.aux.toNat % 16
    let word := pa + n ≤ Config.hbmBytes ∧ pa % n = 0
    let y := numOf (p.data.take n)
    let m := s.readMem pa n
    (∀ i kind k q, memoryRequest p i kind → kind ≠ 6 → s.Arrives p kind → s.packetQueue p = some (k, q) →
      ∃ t, exec i s = .next t ∧
      mapGet t.combining k q = { q with ops := q.ops ++ [.packet p] } ∧ t.mem = s.mem ∧ t.sent = s.sent) ∧
    (s.ArrivesFree p 0x01 →
      (¬ inside → ∃ t, exec (.read p) s = .next t ∧ s.Answered t p 0x08 1 [] ∧ t.mem = s.mem) ∧
      (inside → ¬ clean → ∃ t, exec (.read p) s = .next t ∧ s.Answered t p 0x08 3 [] ∧ t.mem = s.mem) ∧
      (inside → clean → ∃ t data, exec (.read p) s = .next t ∧ s.Answered t p 0x08 0 data ∧ t.mem = s.mem ∧
        ∀ i, i < 128 → p.mask.getLsbD i = true →
          lineImage p.mask data / 256 ^ i % 256 = (s.byteAt (line + i)).toNat)) ∧
    (s.ArrivesFree p 0x02 →
      (¬ inside → ∃ t, exec (.write p) s = .next t ∧ s.Answered t p 0x09 2 [] ∧ t.mem = s.mem) ∧
      (inside → p.aux = 0 → ∃ t, exec (.write p) s = .next t ∧ s.Answered t p 0x09 0 [] ∧
        ∀ a, t.byteAt a = if line ≤ a ∧ p.mask.getLsbD (a - line) = true
          then BitVec.ofNat 8 (lineImage p.mask p.data / 256 ^ (a - line)) else s.byteAt a)) ∧
    (s.ArrivesFree p 0x03 →
      let alone := op = 1 → (s.heard p).combine none pa n (.packet p) = none
      (¬ word ∨ (9 < op ∧ op ≠ 15) → ∃ t, exec (.atomic p) s = .next t ∧ s.Answered t p 0x08 2 [] ∧ t.mem = s.mem) ∧
      (word → op = 1 → ∀ s1, (s.heard p).combine none pa n (.packet p) = some s1 → exec (.atomic p) s = .next s1) ∧
      (word → s.poisonedAt pa n = true → (op ≤ 9 ∨ op = 15) → alone →
        ∃ t, exec (.atomic p) s = .next t ∧ s.Answered t p 0x08 3 [] ∧ t.mem = s.mem) ∧
      (word → s.poisonedAt pa n = false → op < 9 → alone → ∃ t, exec (.atomic p) s = .next t ∧
        s.Answered t p 0x08 0 (bytesOf m n ++ [0]) ∧ t.mem = (s.writeMem pa n (amoValue n op m y)).mem) ∧
      (word → s.poisonedAt pa n = false → op = 15 → ∃ t, exec (.atomic p) s = .next t ∧
        s.Answered t p 0x08 0 (bytesOf m n ++ [0]) ∧
        t.mem = if m = numOf ((p.data.drop n).take n) then (s.writeMem pa n y).mem else s.mem)) ∧
    (s.Arrives p 0x06 →
      let k := p.nelem.toNat
      let words := (List.range k).map (packetWord p)
      let adds (at_ w : Nat) : List SteepEntry :=
        words.filter (fun e => decide (2 ≤ e.kind) && e.op == 1 && e.addr.toNat == at_ && e.width == w)
      let here : State := { s.heard p with serial := s.serial + 1, wordsOpen := [⟨s.serial, p, 0, 0, 0, []⟩] }
      let done := words.foldl (fun (acc : State × List Byte) e =>
        ((acc.1.targetWord e).1, acc.2 ++ (acc.1.targetWord e).2)) (s, [])
      (k = 0 ∨ p.data.length ≠ 24 * k → ∃ t, exec (.words p) s = .next t ∧ s.Answered t p 0x08 2 [] ∧ t.mem = s.mem) ∧
      (k ≠ 0 → p.data.length = 24 * k → s.wordsOpen = [] → s.combining = [] → s.steepSent = [] →
        (∀ at_ w, (s.addsHere.filter (fun x => x == (at_, w))).length + (adds at_ w).length ≤ 2) →
        ∃ t, exec (.words p) s = .next t ∧ s.Answered t p 0x08 0 done.2 ∧ t.mem = done.1.mem) ∧
      (k = 1 → p.data.length = 24 → s.wordsOpen = [] → ∀ key u, here.wordJoins s.serial (packetWord p 0) = some (key, u) →
        ∃ t j, exec (.words p) s = .next t ∧ t.wordsOpen = [j] ∧ j.packet = p ∧ j.waiting = 1 ∧ j.queue = key ∧
          t.combining = u.combining ∧ t.sent = s.sent ∧ t.mem = s.mem)) ∧
    (∀ x : Nat,
      let e := wordsEntry x
      let at_ := x % 2 ^ 64
      let v := x / 2 ^ 64 % 2 ^ 64 % 2 ^ (8 * e.width)
      let good := at_ + e.width ≤ Config.hbmBytes ∧ at_ % e.width = 0
      e.width = (if x / 2 ^ 132 % 2 = 1 then 8 else 4) ∧ e.kind = x / 2 ^ 133 % 4 ∧ e.op = x / 2 ^ 128 % 16 ∧
      (¬ good ∨ (2 ≤ e.kind ∧ 9 < e.op) → s.targetWord e = (s, [2, 0])) ∧
      (good → e.kind ≤ 1 → s.targetWord e = (s.writeMem at_ e.width v, [0, 0])) ∧
      (good → 2 ≤ e.kind → e.op ≤ 9 → s.poisonedAt at_ e.width = true → s.targetWord e = (s, [3, 0])) ∧
      (good → 2 ≤ e.kind → e.op < 9 → s.poisonedAt at_ e.width = false → s.targetWord e =
        (s.writeMem at_ e.width (amoValue e.width e.op (s.readMem at_ e.width) v), [0, 0])))

/-- R222, R352, R354: VREAD and VWRITE check every element first and perform those below the lowest fault, which
STATUS names; MSG is answered accepted, refused or no route, an accepted message in the mailbox; a packet of an
unlisted kind or with an rsv field set is counted and, when it is a request, answered 2. (The STATUS of MSG is log
entry 9, the answers of VWRITE log entry 41: the model's.) -/
def Sys2Proof.Machine.Claims.VectorRequestsAnswered : Prop :=
  ∀ (s : State) (p : Packet),
    let n := 2 ^ p.esz.toNat
    let k := p.nelem.toNat
    let at_ (i : Nat) : Int := if p.index = [] then p.addr.toNat + i * p.aux.toInt
      else p.addr.toInt + (p.index.getD i 0).toInt
    let good (i : Nat) : Prop := 0 ≤ at_ i ∧ (at_ i).toNat + n ≤ Config.hbmBytes ∧ (at_ i).toNat % n = 0
    let clean (i : Nat) : Prop := s.poisonedAt (at_ i).toNat n = false
    let form := 1 ≤ k ∧ k ≤ 2048 ∧ (p.index = [] ∨ p.index.length = k)
    let data (j : Nat) : List Byte := (List.range j).flatMap (fun i => bytesOf (s.readMem (at_ i).toNat n) n)
    let stored (j : Nat) : State := (List.range j).foldl (fun u i =>
      u.writeMem (at_ i).toNat n (numOf ((p.data.drop (i * n)).take n))) s
    let m : Msg :=
      { num := s.serial, cls := numOf (p.data.take 64) % 16, bytes := BitVec.ofNat 512 (numOf (p.data.take 64))
        fromStrand := numOf (p.data.take 64) / 65536 % 65536, fromDev := p.sdev.toNat, fromOwn := false
        reply := (numOf (p.data.take 64)).testBit 8, poisoned := false
        notify := if p.aux = 1 then some p.xtag.toNat else none, entry := none }
    let arriving : MsgFlight := ⟨m, p.addr.toNat, p.sdev.toNat, false, none, some p⟩
    let core := p.addr.toNat
    (s.ArrivesFree p 0x04 → form →
      ((∀ i, i < k → good i ∧ clean i) →
        ∃ t, exec (.vread p) s = .next t ∧ s.Answered t p 0x08 0 (data k) ∧ t.mem = s.mem) ∧
      (∀ j, j < k → (∀ i, i < j → good i ∧ clean i) → ¬(good j ∧ clean j) → ∃ t, exec (.vread p) s = .next t ∧
        (¬ good j → s.Answered t p 0x08 (j * 65536 + 1) (data j)) ∧
        (good j → s.Answered t p 0x08 (j * 65536 + 3) (data j)))) ∧
    (s.ArrivesFree p 0x05 → form →
      ((∀ i, i < k → good i) → ∃ t, exec (.vwrite p) s = .next t ∧ s.Answered t p 0x08 0 [] ∧ t.mem = (stored k).mem) ∧
      (∀ j, j < k → (∀ i, i < j → good i) → ¬ good j → ∃ t, exec (.vwrite p) s = .next t ∧
        s.Answered t p 0x08 (j * 65536 + 2) [] ∧ t.mem = (stored j).mem)) ∧
    (s.Arrives p 0x07 →
      (coreExists core = false → ∃ t, exec (.msg p) s = .next t ∧ s.Answered t p 0x08 2 []) ∧
      (coreExists core = true → s.msgWaits arriving = true →
        ∃ t, exec (.msg p) s = .next t ∧ t.messages = s.messages ++ [arriving] ∧ t.sent = s.sent) ∧
      (coreExists core = true → s.msgWaits arriving = false →
        (s.routeEntry core m.cls = none → ∃ t, exec (.msg p) s = .next t ∧ s.Answered t p 0x08 2 []) ∧
        (s.routeEntry core m.cls ≠ none → 32 ≤ (s.core core).mailbox.length →
          ∃ t, exec (.msg p) s = .next t ∧ s.Answered t p 0x08 1 []) ∧
        (s.routeEntry core m.cls ≠ none → (s.core core).mailbox.length < 32 →
          ∃ t, exec (.msg p) s = .next t ∧ s.Answered t p 0x08 0 [] ∧
            (t.core core).mailbox = (s.core core).mailbox ++ [m]))) ∧
    (p.ddev.toNat = s.device → p.rsv = true ∨ p.kind = 0 ∨ 0x0B < p.kind.toNat → s.reaches p.sdev.toNat →
      ∃ t e rest, exec (.badPacket p) s = .next t ∧ t.errors = e :: rest ∧ e.event = 3 ∧ e.place = p.addr ∧ t.mem = s.mem ∧
        (1 ≤ p.kind.toNat ∧ p.kind.toNat ≤ 7 → s.Answered t p 0x08 2 []) ∧
        (p.kind = 0 ∨ 7 < p.kind.toNat → t.sent = s.sent))

/-- R136, R217, R219, R352, R353: a response or an acknowledgement ends the open request of its tag: a waiting load,
AMO or vector access keeps the answer for its own step; a Steep entry takes its own status of the packet's answer,
delivers its flags or is recorded as faulted; a store is acknowledged, or, when a link was down, kept for its fence in
program order; one answered with another fault keeps nothing (log entry 41, DEDUCED). (The layout of AUX, the flags byte and
the STATUS of MSG are log entry 9, the model's choice.) -/
def Sys2Proof.Machine.Claims.ResponsesAreTaken : Prop :=
  ∀ (s : State) (p : Packet) (r : FabricReq) (sid cls order : Nat) (a : Word),
    p.ddev.toNat = s.device → p.rsv = false → r ∈ s.fabric → r.queued = false → r.answer = none →
    r.xtag = p.xtag.toNat → r.packet.ddev = p.sdev → (∀ q ∈ s.fabric, q.xtag = r.xtag → q = r) →
    (p.kind = 0x08 →
      (r.purpose = .load sid ∨ r.purpose = .amo sid ∨ r.purpose = .vector sid cls → s.awaits r.xtag sid = true →
        ∃ t, exec (.rsp p) s = .next t ∧
          t.fabricReq r.xtag = some { r with answer := some (p.status.toNat, p.data) } ∧ t.strands = s.strands) ∧
      (∀ e, r.purpose = .steep [e] → e.kind ≠ 3 → p.status = 0 → ∃ t, exec (.rsp p) s = .next t ∧ r ∉ t.fabric ∧
        (numOf (p.data.take 1) = 0 → (t.strand e.sid).ramoFlags =
          (s.strand e.sid).ramoFlags ||| BitVec.ofNat 5 (numOf ((p.data.drop 1).take 1))) ∧
        (numOf (p.data.take 1) ≠ 0 → (t.strand e.sid).steepFcount = (s.strand e.sid).steepFcount + 1))) ∧
    (p.kind = 0x09 → p.nmerge.toNat ≤ 1 → r.purpose = .store sid a cls order →
      (p.status.toNat ≠ 4 → ∃ t, exec (.ack p) s = .next t ∧ t.fabricReq r.xtag = none ∧ t.strands = s.strands) ∧
      (p.status.toNat = 4 → ∃ t l1 l2, exec (.ack p) s = .next t ∧ t.fabricReq r.xtag = none ∧
        (s.strand sid).refused = l1 ++ l2 ∧ (t.strand sid).refused = l1 ++ ⟨a, cls, order⟩ :: l2 ∧
        (∀ x ∈ l1, x.order ≤ order) ∧ ∀ x, l2.head? = some x → order < x.order))

/-- R356: DEMAND is recorded for its source; a GRANT to this package adds to what it may send, and what waits and now fits is
sent; as a receiver this package grants 32 flits to the source first in rotation; a grant unused for 8,192 cycles lapses, an
older one alone. -/
def Sys2Proof.Machine.Claims.PacingCompletes : Prop :=
  ∀ (s : State) (p : Packet) (r : FabricReq) (dev n : Nat) (rest : List (Nat × Nat)),
    (p.ddev.toNat = s.device → p.rsv = false → p.kind = 0x0A → ∃ t, exec (.demand p) s = .next t ∧
      (p.sdev.toNat, p.aux.toNat) ∈ t.demands ∧ t.mem = s.mem ∧
      ∀ d ∈ s.demands, d.1 ≠ p.sdev.toNat → d ∈ t.demands) ∧
    (p.ddev.toNat = s.device → p.rsv = false → p.kind = 0x0B → p.sdev.toNat = dev →
      (s.queuedFor dev = [] → ∃ t, exec (.grant p) s = .next t ∧ t.sent = s.sent ∧
        mapGet t.grants dev [] = mapGet s.grants dev [] ++ [⟨p.aux.toNat, s.cycle⟩]) ∧
      (s.queuedFor dev = [r] → (∀ q ∈ s.fabric, q.xtag = r.xtag → q = r) → (s.port r.port).up = true →
        packetFlits r.packet - (64 - s.inFlightTo dev) ≤ s.grantedBy dev + p.aux.toNat →
        ∃ t q, exec (.grant p) s = .next t ∧ t.fabricReq r.xtag = some q ∧ q.queued = false ∧ q.packet = r.packet)) ∧
    (p.kind = 0x0B → p.sdev.toNat = s.device → p.ddev.toNat ≠ s.device → s.demands = (p.ddev.toNat, n) :: rest →
      s.reaches p.ddev.toNat → ∃ t q, exec (.grant p) s = .next t ∧ t.sent = s.sent ++ [q] ∧ q.kind = 0x0B ∧
        q.ddev = p.ddev ∧ q.aux = 32 ∧ t.demands = if n ≤ 32 then rest else rest ++ [(p.ddev.toNat, n - 32)]) ∧
    (∃ t, exec (.grantLapse dev) s = .next t ∧ t.mem = s.mem ∧ t.strands = s.strands ∧ t.fabric = s.fabric ∧
      ∀ g, g ∈ mapGet t.grants dev [] ↔ g ∈ mapGet s.grants dev [] ∧ s.cycle < g.at_ + 8192)

/-- R350, R351, R357 to R359, R369: a stopped port carries nothing, whether it has lost its training or its peer has stopped, which
leaves it trained; a load that waited for it is answered LINK_DOWN; with no port trained the fabric's capability entry is inactive; a trained port carries traffic unless it needs a key; a bad block
counts and takes its receiver's counter values, the eighth in a row stops a port, and retrains a bridge link; a block sent
again takes new counter values; keys rotate at 2^47, a port stops with its key's last counter and its requests end, and the LINK_KEY commands select, stage, install, stop and retrain. (Which
block is sent again, and how many flits a discarded one had, is log entry 5, a free choice; the numbers of PORT_STOP are log
entry 119, the model's choice.) -/
def Sys2Proof.Machine.Claims.LinksComplete : Prop :=
  ∀ (s : State) (port : Nat) (v : Word) (r : FabricReq) (sid : Nat) (k : BitVec 256),
    let l := s.port port
    let sel := (v.extractLsb' 40 8).toNat
    let dir := (v.extractLsb' 32 2).toNat
    let cmd (n : Nat) : Prop := (v.extractLsb' 16 4).toNat = n ∧ sel < 36 ∧ dir < 2
    let side (t : State) : LinkDir := if dir = 0 then (t.port sel).tx else (t.port sel).rx
    let turned (d : LinkDir) : LinkDir :=
      if 2 ^ 47 ≤ d.counter.toNat then { d with key := Config.sha3 32 d.key.toNat, counter := 0, epoch := !d.epoch } else d
    let own (d : LinkDir) : LinkDir := if s.hwRotation port then turned d else d
    (port < 36 →
      (∀ n, n = port ∨ n = 64 + port → ∃ t, exec (.portStop n) s = .next t ∧ (t.port port).down = true ∧
        (t.port port).up = false ∧ (t.port port).trained = (decide (64 ≤ n) && l.trained) ∧
        (n < 64 → (∀ n, n ≠ port → (s.port n).trained = false) → t.fabricActive = false) ∧
        (l.down = false → s.fabric = [r] → r.port = port → r.answer = none → r.queued = false → r.purpose = .load sid → s.awaits r.xtag sid = true →
          t.fabricReq r.xtag = some { r with answer := some (4, []) })) ∧
      (l.needKey = false → ∃ t, exec (.linkTrained port) s = .next t ∧ (t.port port).up = true ∧
        (t.port port).failures = 0 ∧ t.strands = s.strands ∧ (port < Config.linkPorts → t.fabricActive = true)) ∧
      (l.failures < 7 → ∃ n, 1 ≤ n ∧ n ≤ 31 ∧ exec (.blockReplay port true) s = .next (s.drawn.setPort port { l with
        failures := l.failures + 1
        rx := { own l.rx with counter := BitVec.ofNat 48 (min ((own l.rx).counter.toNat + n + 1) (2 ^ 48 - 1)) } })) ∧
      (7 ≤ l.failures → ∃ t, exec (.blockReplay port true) s = .next t ∧ (port < 32 → (t.port port).down = true) ∧
        (32 ≤ port → (t.port port).trained = false ∧ (t.port port).retrainBy = some (s.cycle + 2100000) ∧
          (t.port port).down = l.down)) ∧
      (l.down = false → l.exhausted = false → l.replay ≠ [] → ∃ b ∈ l.replay, ∃ t q, exec (.blockReplay port false) s = .next t ∧
        (t.port port).replay.getLast? = some q ∧ q.packet = b.packet ∧ q.first = b.first ∧ q.counter = (own l.tx).counter ∧
        q.flits ≤ 31 ∧ (t.port port).replay.length ≤ 4 ∧ t.mem = s.mem ∧
        ((own l.tx).counter.toNat + 33 < 2 ^ 48 →
          (t.port port).tx.counter.toNat = (own l.tx).counter.toNat + q.flits + 1 ∧ (t.port port).down = false)) ∧
      (s.hwRotation port = true → ∃ t, exec (.keyRotation port) s = .next t ∧ (t.port port).tx = turned l.tx ∧
        (t.port port).rx = turned l.rx) ∧
      ((l.down = false ∧ l.tx.counter = BitVec.allOnes 48) ∨ (l.exhausted = true ∧ s.fabric = [r] ∧ r.port = port ∧
          r.answer = none) → ∃ t, exec (.keyExhausted port) s = .next t ∧ (t.port port).down = true ∧
        (t.port port).needKey = true ∧ (t.port port).exhausted = true ∧
        (s.fabric = [r] → r.port = port → r.answer = none → r.queued = false → r.purpose = .load sid →
          s.awaits r.xtag sid = true → t.fabricReq r.xtag = some { r with answer := some (4, []) }))) ∧
    exec (.linkKeyData v) s = .next { s with linkKeyData := v } ∧
    (cmd 0 → ∃ t, exec (.linkKeySelect v) s = .next t ∧ t = { s with linkKeySel := v &&& 0xFF0300000300 } ∧
      t.linkKeyDataRead = (side s).counter.setWidth 64 ∧ t.linkKeyCtlRead.getLsbD 0 = s.hwRotation sel ∧
      t.linkKeyCtlRead.getLsbD 1 = (s.port sel).trained ∧ t.linkKeyCtlRead.getLsbD 2 = (s.port sel).down ∧
      t.linkKeyCtlRead.getLsbD 3 = (s.port sel).exhausted ∧
      (t.linkKeyCtlRead.getLsbD 4 = true ↔ ∀ w ∈ (side s).staged.toList, w ≠ none) ∧
      t.linkKeyCtlRead.extractLsb' 8 2 = v.extractLsb' 8 2 ∧ t.linkKeyCtlRead.extractLsb' 16 4 = 0) ∧
    (cmd 1 → s.hwRotation sel = false → ∃ t, exec (.linkKeyStage v) s = .next t ∧
      (side t).staged[(v.extractLsb' 8 2).toNat]? = some (some s.linkKeyData) ∧ (side t).key = (side s).key) ∧
    (cmd 2 → s.hwRotation sel = false → (side s).stagedKey = some k → ∃ t, exec (.linkKeyInstall v) s = .next t ∧
      (side t).key = k ∧ (side t).counter = 0 ∧ (side t).stagedKey = none ∧
      (t.port sel).needKey = (if dir = 0 then false else (s.port sel).needKey)) ∧
    (cmd 3 → ∃ t, exec (.linkPortStop v) s = .next t ∧ (t.port sel).down = true) ∧
    (cmd 4 → ∃ t, exec (.linkRetrain v) s = .next t ∧ (t.port sel).trained = false ∧ (t.port sel).up = false ∧
      (s.fabric = [] → t.strands = s.strands))

/-- R95, R302, R346, R349, R350: every flit 16 cycles at the head of its queue of an output raises a token, and goes when the grant
of the next cycle comes; without one an express flit goes before the others; two ADDs of a combining queue each return their own old value and
leave the sum; another operation is performed alone in its turn, and an access still tried is waited for; a queue empty for 64 cycles is freed; a bridge link retrained carries its traffic again, and a failed
retraining is a MACHINE_CHECK with UNIT 10 on every strand. (What the mesh carries is log entry 45; a bridge's traffic log
entry 22; the combining queues log entry 91.) -/
def Sys2Proof.Machine.Claims.MeshCompletes : Prop :=
  ∀ (s : State) (a b : Nat) (f : MeshFlit) (c : CombQueue) (l r : List (Nat × CombQueue)),
    let o := mapGet s.routers (a * 16 + b) ⟨[], []⟩
    let key := a * 16 + b
    let out (t : State) : RouterPort := mapGet t.routers key ⟨[], []⟩
    (o.granted s.cycle = none →
      (∃ t, exec (.starvationToken a b) s = .next t ∧ (out t).queue = o.queue ∧ t.mem = s.mem ∧
        ∀ n g, (n, g) ∈ (out t).token ↔ (n, g) ∈ o.token ∨
          (n = s.cycle + 1 ∧ g ∈ queueHeads o.queue ∧ g.since + 16 ≤ s.cycle ∧ ∀ x ∈ o.token, x.2 ≠ g)) ∧
      (o.pick s.cycle = some f → f ∈ o.queue ∧ ((∃ g ∈ o.queue, g.express = true) → f.express = true))) ∧
    (∀ n rest, o.token = (n, f) :: rest → n ≤ s.cycle → o.pick s.cycle = some f ∧
      ∃ t, exec (.starvationToken a b) s = .next t ∧
        (out t).queue.map (fun x => x.msg) = (o.queue.erase f).map (fun x => x.msg) ∧
        (∀ x ∈ (out t).token, x.2 ≠ f) ∧ (∀ x ∈ rest, x.2 ≠ f → x ∈ (out t).token) ∧ t.mem = s.mem) ∧
    (s.combining = l ++ (key, c) :: r → (∀ q ∈ l, q.1 ≠ key) →
      (∀ i j u v y z q q', c.ops = [.amo i u q y, .amo j v q' z] → u ≠ v → c.phys = false → s.walkAssisted c.addr = false →
        ∀ d d' n n' g g' p p', (s.strand u).wait = .amo (combineTag i) d n g p →
          (s.strand v).wait = .amo (combineTag j) d' n' g' p' →
        ∀ w s1, { s with combining := mapSet s.combining key { c with ops := [], emptySince := s.cycle } }.translate .atomic
            c.addr = some (.mem w, s1) → s1.placePoisoned (.mem w) c.width = false →
        let m := s1.readSpan w c.width
        let m1 := (m + y.toNat) % 2 ^ (8 * c.width)
        ∃ t, exec (.combineBatch a b) s = .next t ∧
          t.mem = (s1.writeSpan w c.width ((m1 + z.toNat) % 2 ^ (8 * c.width))).mem ∧
          (t.strand u).getG d = (if d = 0 then 0 else signedWord n m) ∧
          (t.strand v).getG d' = (if d' = 0 then 0 else signedWord n' m1)) ∧
      (c.phys = true ∨ s.walkAssisted c.addr = false → c.batch = [] → ∀ rest,
        (∀ p, c.ops = .packet p :: rest → exec (.combineBatch a b) s = .next ((s.popQueue key c 1).servePacket p)) ∧
        (∀ num e, c.ops = .word num e :: rest → exec (.combineBatch a b) s = .next ((s.popQueue key c 1).performWord num e))) ∧
      (∀ sid pc rest, c.ops = .turn sid pc :: rest → s.turnLive sid pc = true → exec (.combineBatch a b) s = .next s) ∧
      (c.ops = [] → c.emptySince + 64 ≤ s.cycle →
        ∃ t, exec (.combiningQueueClose a b) s = .next t ∧ ∀ q ∈ t.combining, q.1 ≠ key)) ∧
    (a < 4 →
      (∃ t, exec (.bridgeLinkFailure a true) s = .next t ∧ t.strands = s.strands ∧ (t.port (32 + a)).failures = 0 ∧
        (t.port (32 + a)).trained = true) ∧
      ∃ t, exec (.bridgeLinkFailure a false) s = .next t ∧ (t.port (32 + a)).up = false ∧
        ∀ i, strandExists i = true → (t.strand i).ipend = (s.strand i).ipend ||| 8 ∧
          (t.strand i).syndrome = BitVec.ofNat 48 (10 * 2 ^ 40))

/-! ### The machine as a whole -/

/-- R111 to R113: the word of a well-formed instruction is read back as that instruction, with every operand at every value
its field admits (HTINV's two rows share one word: `Instr.canonical`). The steps that are no instruction have no
word. -/
def Obligations.EncodedInstructionsDecode : Prop :=
  ∀ (i : Instr) (w : InstrWord), i.wellFormed = true → encode i = some w → decode w = .ok i.canonical

/-- R111 to R114: a word that is read as an instruction is that instruction's one word, and the instruction is well formed:
no bit of a word is ignored and no two instructions share one. -/
def Obligations.DecodedWordsEncode : Prop :=
  ∀ (w : InstrWord) (i : Instr), decode w = .ok i → i.wellFormed = true ∧ encode i = some w

/-- R111 to R113: words written out from the formats and the opcode map. `add g1, g2, g3`; `addi g1, g2, -1`; `ecall`;
`eret`; `csrrd g4, CAPS`; `csrrc g0, FFLAGS, g5`; `vdrain #2`; a word of major 0x00 and one with an unused field
nonzero are none. -/
def Obligations.PrintedWordsDecode : Prop :=
  decode ((1 : BitVec 6) ++ (1 : BitVec 5) ++ (2 : BitVec 5) ++ (3 : BitVec 5) ++ (0 : BitVec 11)) =
      .ok (.add 1 2 3) ∧
    decode ((2 : BitVec 6) ++ (1 : BitVec 5) ++ (2 : BitVec 5) ++ (0xFFFF : BitVec 16)) =
      .ok (.addi 1 2 0xFFFF) ∧
    decode 0x80000000 = .ok .ecall ∧ decode 0x80400000 = .ok .eret ∧
    decode 0x7C80F000 = .ok (.csrrd 4 0x3000) ∧ decode 0x7C058001 = .ok (.csrrc 0 5 1) ∧
    decode 0x68200002 = .ok (.vdrain 2) ∧
    decode 0 = .error .reservedMajor ∧ decode 0x80000001 = .error .unusedNotZero

/-- What the machine does with a strand's turn `b` (the state with the turn taken off the agenda or the order) when no
event is due: the word its frame or its pc gives runs; a word that is none traps; a fetch that fails traps. A REASSIGN_DELAY
that is reached acts at once (R328). -/
def Sys2Proof.Machine.TurnRuns (b : State) (sid : Nat) (r : Host.Outcome State Fault Refusal) : Prop :=
  ∀ s0 : State, s0 = { b with cur := sid, turned := sid :: b.turned } →
    s0.passageDue sid = none → s0.inRotation sid = true → s0.takeDue sid = none → s0.dispatch sid = none →
    (s0.strand sid).landingDue = false → (s0.strand sid).wait.retries = true →
    let then_ (q : Result) : Result := onNext (fun t => t.reassignDue sid) q
    (∀ (w : InstrWord) (s1 : State) (i : Instr), s0.candidate sid = .ok (w, s1) → decode w = .ok i →
      r = then_ (exec i (s1.passSlot w))) ∧
    (∀ (w : InstrWord) (s1 : State) (e : DecodeError), s0.candidate sid = .ok (w, s1) → decode w = .error e →
      r = then_ (.next ((s1.passSlot w).trap (wordTrap causeIllegal w)))) ∧
    (∀ (t : Trap) (s1 : State), s0.candidate sid = .error (.trap t, s1) →
      r = then_ (.next ((s1.setMe s1.me.dropStale).trap t)))

/-- R12, R111, R114, R289, R328: a step at a strand's turn runs the instruction its word decodes to, in the state the
fetch and the rotation (R12) leave; the turn is the agenda's, or with an empty agenda the next of the machine's own
order. -/
def Obligations.StepRunsTheDecodedInstruction : Prop :=
  (∀ (s : State) (sid : Nat) (rest : List Turn), s.powered = true → s.agenda = .strand sid :: rest →
    TurnRuns { s with agenda := rest } sid (step s)) ∧
  (∀ (s : State) (p sid : Nat), s.powered = true → s.agenda = [] → s.nextTurn = some (p, sid) →
    TurnRuns { s with phase := p + 1 } sid (step s))

/-- No instruction and no hardware step of the table ends a run: each answers a next state in every state. -/
def Sys2Proof.Machine.Claims.InstructionsAnswer : Prop := ∀ (i : Instr) (s : State), ∃ t : State, exec i s = .next t

/-- R375: after the thermal trip the package is off and there is no step; in every other state there is one. -/
def Sys2Proof.Machine.Claims.OnlyPowerOffStops : Prop :=
  (∀ s : State, s.powered = false → step s = .fault .poweredOff) ∧
  (∀ s : State, s.powered = true → ∃ t : State, step s = .next t)

/-- The memory keeps its canonical form through every step (the form itself is the model's: log entry 2). -/
def Obligations.StepsKeepMemoryCanonical : Prop :=
  ∀ s t : State, s.MemoryCanonical → step s = .next t → t.MemoryCanonical

/-- R10, R34, R44, R283: in every step every strand keeps p0 all ones, a STATUS that names U or S with its rsv bits 0, an
FRM with nothing outside its fields, and a handler that returns to U or S. -/
def Obligations.StepsKeepStrandsSound : Prop :=
  ∀ s t : State, s.StrandsSound → step s = .next t → t.StrandsSound

/-- The reset state meets both invariants. -/
def Obligations.ResetIsSound : Prop := State.reset.StrandsSound ∧ State.reset.MemoryCanonical

/-! ### The statements made of the claims above -/

/-- R126: every instruction of major 0x01 completes with the result of its row, and its word is the row's. -/
def Obligations.IntegerInstructions : Prop :=
  Claims.SumsAndProductsWrap ∧
  Claims.DivisionTruncatesAndNeverTraps ∧
  Claims.ShiftsAreScalingByPowersOfTwo ∧
  Claims.LogicComparesAndSelects ∧
  Claims.CountsSwapsAndExtensions ∧
  Claims.IntegerEncodings ∧
  Claims.IntegerResultsRaiseNothing

/-- R33, R116, R138, R139: what writing one register and what a jump leave alone. -/
def Obligations.ResultAndJumpFrames : Prop :=
  Claims.RegisterResultFrame ∧ Claims.JumpFrame

/-- R49, R56, R57: what a format holds is delivered unchanged, and a delivery without a flag is exact. -/
def Obligations.DeliveryIsExact : Prop :=
  Claims.DecodedNumbersAreDeliveredUnchanged ∧ Claims.FlaglessDeliveryIsExact

/-- R45, R128 to R130: the instructions of majors 0x0B and 0x0C complete; with a reserved rounding mode those that round trap. -/
def Obligations.FloatingInstructionsComplete : Prop :=
  Claims.FloatingResultsRoundOnce ∧
  Claims.ReservedRoundingModeTraps ∧
  Claims.ExactFloatingInstructions

/-- R5, R315: what is written is what is read, and under which key. -/
def Obligations.MemoryReadAfterWrite : Prop :=
  Claims.PlainBytes ∧ Claims.BytesUnderKeys

/-- R131, R132: loads and stores that pass their checks complete. -/
def Obligations.LoadsAndStoresComplete : Prop :=
  Claims.LoadsComplete ∧ Claims.StoresComplete

/-- R65, R115, R132, R303, R310: the checks of an access and the traps they end in, in order. -/
def Obligations.AccessChecksAndTraps : Prop :=
  Claims.AccessTrapsInOrder ∧ Claims.AddressChecksInOrder

/-- R131, R306, R311, R312: what an address check, a load and a store leave alone. -/
def Obligations.LoadAndStoreFrame : Prop :=
  Claims.AddressCheckFrame ∧ Claims.LoadStoreLeavesTheRest

/-- R64, R132 to R134, R349, R353: atomics, and the answers of other devices, complete. -/
def Obligations.AtomicsAndAnswersComplete : Prop :=
  Claims.AtomicsComplete ∧ Claims.RemoteAnswersComplete

/-- R91, R92, R94, R103, R135 to R137: fences and their waits complete; what a fence reports. -/
def Obligations.FencesComplete : Prop :=
  Claims.FencesRun ∧ Claims.FenceReportsRefusedStores

/-- R117, R245, R288: trap entry. -/
def Obligations.TrapEntry : Prop :=
  Claims.TrapEntryRegisters ∧ Claims.FrameStateInTrapInfo ∧ Claims.TrapReleasesCapture

/-- R10, R142, R296, R299, R307, R313: environment calls, and what U-mode may not execute. -/
def Obligations.CallsAndPrivilegedTraps : Prop :=
  Claims.EnvironmentCallsTrap ∧ Claims.SupervisorInstructionsTrapInUserMode

/-- R290: the return from a trap, to an instruction and into a frame. -/
def Obligations.ReturnFromTrap : Prop :=
  Claims.ReturnToProgram ∧ Claims.ReturnIntoFrame

/-- R142, R143, R296: waits, parking and waking. -/
def Obligations.WaitsParkAndWake : Prop :=
  Claims.WaitsAndWakes ∧ Claims.ParkAndWake

/-- R44, R140, R284, R285: CSR instructions complete, and which accesses trap. -/
def Obligations.CsrAccesses : Prop :=
  Claims.CsrInstructionsComplete ∧ Claims.CsrAccessTraps

/-- R284, R289, R301, R302, R375: what is taken at a boundary, and how it becomes due (log entries 38 and 46). -/
def Obligations.EventsAndErrors : Prop :=
  Claims.EventsInOrder ∧ Claims.ErrorsAndTimer

/-- R114, R116, R118: reserved words, REPF, and the order of a frame. -/
def Obligations.FramesRunInOrder : Prop :=
  Claims.IllegalWordsAndFrames ∧ Claims.FrameOrder

/-- R306, R307, R311 to R313, R315 to R318, R367: fills, walks, invalidations and migrations. -/
def Obligations.TranslationUpkeep : Prop :=
  Claims.InvalidationsComplete ∧
  Claims.FillsAndWalks ∧
  Claims.MigrationBegins ∧
  Claims.MigrationCopiesAndCompletes

/-- R35, R115, R144, R145, R153, R162: the vector settings, and the checks of a vector instruction. -/
def Obligations.VectorSettingsAndChecks : Prop :=
  Claims.VectorConfiguration ∧ Claims.VectorChecksInOrder

/-- R48, R55, R59, R60, R146, R147, R152 to R155, R157: element-wise integer instructions. -/
def Obligations.IntegerElementwise : Prop :=
  Claims.IntegerElements ∧ Claims.IntegersIntoFloating ∧ Claims.BitwiseAndDotProducts

/-- R41, R45, R55, R60, R62, R146, R152, R154, R155, R157 to R159: element-wise floating instructions and block packing. -/
def Obligations.FloatingElementwise : Prop :=
  Claims.FloatingElements ∧ Claims.BlockPacking

/-- R41, R149, R156, R160 to R162, R164: comparisons, predicates and permutes. -/
def Obligations.ComparesAndPermutes : Prop :=
  Claims.ComparisonsAndPredicates ∧ Claims.Permutes ∧ Claims.SingleElementsAndFills

/-- R165, R167 to R169: where vector elements lie, and vector loads and stores that complete. -/
def Obligations.VectorMemoryElements : Prop :=
  Claims.ElementPlaces ∧ Claims.VectorMemoryCompletes

/-- R97, R170, R172, R174: the element that faults, and the ordered forms. -/
def Obligations.VectorFaultsAndTickets : Prop :=
  Claims.VectorMemoryFaults ∧ Claims.TicketsAreServed

/-- R16, R115, R177, R178, R181, R194, R195: scale registers and tiles move. -/
def Obligations.ScalesAndTilesMove : Prop :=
  Claims.ScaleRegistersMove ∧ Claims.TilesUnavailable ∧ Claims.TilesMove

/-- R60, R189, R196, R197: tile rows and the accumulators. -/
def Obligations.TileRowsAndAccumulators : Prop :=
  Claims.TileVectorTransfers ∧ Claims.AccumulatorsComplete

/-- R61, R183 to R188: the matrix multiply. -/
def Obligations.MatrixMultiply : Prop :=
  Claims.MatrixProducts ∧ Claims.MatrixElements

/-- R198, R201 to R204: barriers, gang queries, multicast and semaphores. -/
def Obligations.GangSynchronisation : Prop :=
  Claims.BarriersComplete ∧ Claims.GangQueriesAndMulticast ∧ Claims.SemaphoresComplete

/-- R104, R105, R205 to R209: stream-engine cards. -/
def Obligations.StreamCards : Prop :=
  Claims.CardsAreQueued ∧ Claims.CardsRun ∧ Claims.CompletedPrefix

/-- R211 to R214, R301: cache control and pins. -/
def Obligations.CacheControl : Prop :=
  Claims.CacheControlCompletes ∧ Claims.PinsComplete

/-- R236, R238, R240, R242 to R245, R249, R301: records of the Samovar ring. -/
def Obligations.RingRecords : Prop :=
  Claims.RecordsBoard ∧ Claims.CapturesComplete ∧ Claims.RecordsReturn

/-- R100, R215 to R219, R349: remote words. -/
def Obligations.RemoteWords : Prop :=
  Claims.RemoteWordsIssue ∧ Claims.RemoteWordsArrive ∧ Claims.FlushesComplete

/-- R221, R222, R347: active messages. -/
def Obligations.Messages : Prop :=
  Claims.MessagesAreSent ∧ Claims.MessagesArrive

/-- R29, R222 to R224, R291: message handlers. -/
def Obligations.HandlersRun : Prop :=
  Claims.MessagesDispatch ∧ Claims.HandlersComplete

/-- R22, R24, R228, R322, R325 to R328, R367: launches and the assignment of groups. -/
def Obligations.LaunchesAndAssignment : Prop :=
  Claims.LaunchesBegin ∧ Claims.GroupsAreAssigned

/-- R18, R81, R233, R297: memory blocks and gang control. -/
def Obligations.BlocksAndGangControl : Prop :=
  Claims.BlocksComplete ∧ Claims.GangControlCompletes

/-- R321 to R324, R330, R332, R335: START and the control frames. -/
def Obligations.StartsAndControlFrames : Prop :=
  Claims.StartsComplete ∧ Claims.ControlFramesComplete

/-- R320 to R322, R332 to R334, R370: the checks every frame meets, and LAUNCH and REPLAY frames. -/
def Obligations.LaunchFramesComplete : Prop :=
  Claims.FramesAreChecked ∧ Claims.LaunchAndReplayFrames

/-- R305 to R307, R315, R321, R336, R363 to R366: keys, quotas, arenas and partitions. -/
def Obligations.MemoryAndPartitionFrames : Prop :=
  Claims.MemoryFramesComplete ∧ Claims.PartitionsComplete

/-- R361, R362, R364, R371, R372, R374: firmware frames and the queues. -/
def Obligations.FirmwareFramesAndQueues : Prop :=
  Claims.FirmwareFramesComplete ∧ Claims.QueuesComplete

/-- R136, R217, R219, R222, R352 to R354: requests of the fabric and their answers. -/
def Obligations.FabricRequests : Prop :=
  Claims.RequestsAreAnswered ∧ Claims.VectorRequestsAnswered ∧ Claims.ResponsesAreTaken

/-- R95, R302, R346, R349 to R351, R356 to R359, R369: pacing, the links and the mesh (log entries 5, 22, 45 and 91
name the model's choices among them). -/
def Obligations.NetworkCompletes : Prop :=
  Claims.PacingCompletes ∧ Claims.LinksComplete ∧ Claims.MeshCompletes

/-- R375: no instruction ends a run, and no step but one after the thermal trip. -/
def Obligations.NothingStops : Prop :=
  Claims.InstructionsAnswer ∧ Claims.OnlyPowerOffStops
end

