-- ==== Sys2Proof/Laws/State.lean ====
section
/-! SUPPORT. The fields of the state after each of its plain updates: one lemma per field per update. -/
namespace Sys2Proof.Machine

/-! ### `State.setStrand` -/

@[simp] theorem State.setStrand_cycle (s : State) (sid : Nat) (x : Strand) : (s.setStrand sid x).cycle = s.cycle := rfl
@[simp] theorem State.setStrand_agenda (s : State) (sid : Nat) (x : Strand) : (s.setStrand sid x).agenda = s.agenda := rfl
@[simp] theorem State.setStrand_phase (s : State) (sid : Nat) (x : Strand) : (s.setStrand sid x).phase = s.phase := rfl
@[simp] theorem State.setStrand_turned (s : State) (sid : Nat) (x : Strand) : (s.setStrand sid x).turned = s.turned := rfl
@[simp] theorem State.setStrand_cur (s : State) (sid : Nat) (x : Strand) : (s.setStrand sid x).cur = s.cur := rfl
@[simp] theorem State.setStrand_fresh (s : State) (sid : Nat) (x : Strand) : (s.setStrand sid x).fresh = s.fresh := rfl
@[simp] theorem State.setStrand_serial (s : State) (sid : Nat) (x : Strand) : (s.setStrand sid x).serial = s.serial := rfl
@[simp] theorem State.setStrand_powered (s : State) (sid : Nat) (x : Strand) : (s.setStrand sid x).powered = s.powered := rfl
@[simp] theorem State.setStrand_strands (s : State) (sid : Nat) (x : Strand) : (s.setStrand sid x).strands = mapSet s.strands sid x := rfl
@[simp] theorem State.setStrand_cores (s : State) (sid : Nat) (x : Strand) : (s.setStrand sid x).cores = s.cores := rfl
@[simp] theorem State.setStrand_domains (s : State) (sid : Nat) (x : Strand) : (s.setStrand sid x).domains = s.domains := rfl
@[simp] theorem State.setStrand_mem (s : State) (sid : Nat) (x : Strand) : (s.setStrand sid x).mem = s.mem := rfl
@[simp] theorem State.setStrand_spad (s : State) (sid : Nat) (x : Strand) : (s.setStrand sid x).spad = s.spad := rfl
@[simp] theorem State.setStrand_footStores (s : State) (sid : Nat) (x : Strand) : (s.setStrand sid x).footStores = s.footStores := rfl
@[simp] theorem State.setStrand_poison (s : State) (sid : Nat) (x : Strand) : (s.setStrand sid x).poison = s.poison := rfl
@[simp] theorem State.setStrand_spadPoison (s : State) (sid : Nat) (x : Strand) : (s.setStrand sid x).spadPoison = s.spadPoison := rfl
@[simp] theorem State.setStrand_root (s : State) (sid : Nat) (x : Strand) : (s.setStrand sid x).root = s.root := rfl
@[simp] theorem State.setStrand_translations (s : State) (sid : Nat) (x : Strand) : (s.setStrand sid x).translations = s.translations := rfl
@[simp] theorem State.setStrand_migrations (s : State) (sid : Nat) (x : Strand) : (s.setStrand sid x).migrations = s.migrations := rfl
@[simp] theorem State.setStrand_keySlots (s : State) (sid : Nat) (x : Strand) : (s.setStrand sid x).keySlots = s.keySlots := rfl
@[simp] theorem State.setStrand_sectorKeys (s : State) (sid : Nat) (x : Strand) : (s.setStrand sid x).sectorKeys = s.sectorKeys := rfl
@[simp] theorem State.setStrand_caps (s : State) (sid : Nat) (x : Strand) : (s.setStrand sid x).caps = s.caps := rfl
@[simp] theorem State.setStrand_capsAt (s : State) (sid : Nat) (x : Strand) : (s.setStrand sid x).capsAt = s.capsAt := rfl
@[simp] theorem State.setStrand_pins (s : State) (sid : Nat) (x : Strand) : (s.setStrand sid x).pins = s.pins := rfl
@[simp] theorem State.setStrand_arenas (s : State) (sid : Nat) (x : Strand) : (s.setStrand sid x).arenas = s.arenas := rfl
@[simp] theorem State.setStrand_freeBlocks (s : State) (sid : Nat) (x : Strand) : (s.setStrand sid x).freeBlocks = s.freeBlocks := rfl
@[simp] theorem State.setStrand_blocksBack (s : State) (sid : Nat) (x : Strand) : (s.setStrand sid x).blocksBack = s.blocksBack := rfl
@[simp] theorem State.setStrand_steepBufs (s : State) (sid : Nat) (x : Strand) : (s.setStrand sid x).steepBufs = s.steepBufs := rfl
@[simp] theorem State.setStrand_steepSent (s : State) (sid : Nat) (x : Strand) : (s.setStrand sid x).steepSent = s.steepSent := rfl
@[simp] theorem State.setStrand_recordsDue (s : State) (sid : Nat) (x : Strand) : (s.setStrand sid x).recordsDue = s.recordsDue := rfl
@[simp] theorem State.setStrand_messages (s : State) (sid : Nat) (x : Strand) : (s.setStrand sid x).messages = s.messages := rfl
@[simp] theorem State.setStrand_handling (s : State) (sid : Nat) (x : Strand) : (s.setStrand sid x).handling = s.handling := rfl
@[simp] theorem State.setStrand_tickets (s : State) (sid : Nat) (x : Strand) : (s.setStrand sid x).tickets = s.tickets := rfl
@[simp] theorem State.setStrand_nextTicket (s : State) (sid : Nat) (x : Strand) : (s.setStrand sid x).nextTicket = s.nextTicket := rfl
@[simp] theorem State.setStrand_gangs (s : State) (sid : Nat) (x : Strand) : (s.setStrand sid x).gangs = s.gangs := rfl
@[simp] theorem State.setStrand_launches (s : State) (sid : Nat) (x : Strand) : (s.setStrand sid x).launches = s.launches := rfl
@[simp] theorem State.setStrand_nextLaunch (s : State) (sid : Nat) (x : Strand) : (s.setStrand sid x).nextLaunch = s.nextLaunch := rfl
@[simp] theorem State.setStrand_records (s : State) (sid : Nat) (x : Strand) : (s.setStrand sid x).records = s.records := rfl
@[simp] theorem State.setStrand_boarding (s : State) (sid : Nat) (x : Strand) : (s.setStrand sid x).boarding = s.boarding := rfl
@[simp] theorem State.setStrand_alighting (s : State) (sid : Nat) (x : Strand) : (s.setStrand sid x).alighting = s.alighting := rfl
@[simp] theorem State.setStrand_captures (s : State) (sid : Nat) (x : Strand) : (s.setStrand sid x).captures = s.captures := rfl
@[simp] theorem State.setStrand_reentries (s : State) (sid : Nat) (x : Strand) : (s.setStrand sid x).reentries = s.reentries := rfl
@[simp] theorem State.setStrand_routers (s : State) (sid : Nat) (x : Strand) : (s.setStrand sid x).routers = s.routers := rfl
@[simp] theorem State.setStrand_combining (s : State) (sid : Nat) (x : Strand) : (s.setStrand sid x).combining = s.combining := rfl
@[simp] theorem State.setStrand_addsHere (s : State) (sid : Nat) (x : Strand) : (s.setStrand sid x).addsHere = s.addsHere := rfl
@[simp] theorem State.setStrand_wordsOpen (s : State) (sid : Nat) (x : Strand) : (s.setStrand sid x).wordsOpen = s.wordsOpen := rfl
@[simp] theorem State.setStrand_ports (s : State) (sid : Nat) (x : Strand) : (s.setStrand sid x).ports = s.ports := rfl
@[simp] theorem State.setStrand_routes (s : State) (sid : Nat) (x : Strand) : (s.setStrand sid x).routes = s.routes := rfl
@[simp] theorem State.setStrand_fabric (s : State) (sid : Nat) (x : Strand) : (s.setStrand sid x).fabric = s.fabric := rfl
@[simp] theorem State.setStrand_sent (s : State) (sid : Nat) (x : Strand) : (s.setStrand sid x).sent = s.sent := rfl
@[simp] theorem State.setStrand_grants (s : State) (sid : Nat) (x : Strand) : (s.setStrand sid x).grants = s.grants := rfl
@[simp] theorem State.setStrand_demands (s : State) (sid : Nat) (x : Strand) : (s.setStrand sid x).demands = s.demands := rfl
@[simp] theorem State.setStrand_device (s : State) (sid : Nat) (x : Strand) : (s.setStrand sid x).device = s.device := rfl
@[simp] theorem State.setStrand_linkKeySel (s : State) (sid : Nat) (x : Strand) : (s.setStrand sid x).linkKeySel = s.linkKeySel := rfl
@[simp] theorem State.setStrand_linkKeyData (s : State) (sid : Nat) (x : Strand) : (s.setStrand sid x).linkKeyData = s.linkKeyData := rfl
@[simp] theorem State.setStrand_svcMode (s : State) (sid : Nat) (x : Strand) : (s.setStrand sid x).svcMode = s.svcMode := rfl
@[simp] theorem State.setStrand_kettleCtl (s : State) (sid : Nat) (x : Strand) : (s.setStrand sid x).kettleCtl = s.kettleCtl := rfl
@[simp] theorem State.setStrand_capChanged (s : State) (sid : Nat) (x : Strand) : (s.setStrand sid x).capChanged = s.capChanged := rfl
@[simp] theorem State.setStrand_samQuotaSet (s : State) (sid : Nat) (x : Strand) : (s.setStrand sid x).samQuotaSet = s.samQuotaSet := rfl
@[simp] theorem State.setStrand_pinQuotaSet (s : State) (sid : Nat) (x : Strand) : (s.setStrand sid x).pinQuotaSet = s.pinQuotaSet := rfl
@[simp] theorem State.setStrand_dbgCtl (s : State) (sid : Nat) (x : Strand) : (s.setStrand sid x).dbgCtl = s.dbgCtl := rfl
@[simp] theorem State.setStrand_dbgSel (s : State) (sid : Nat) (x : Strand) : (s.setStrand sid x).dbgSel = s.dbgSel := rfl
@[simp] theorem State.setStrand_partitions (s : State) (sid : Nat) (x : Strand) : (s.setStrand sid x).partitions = s.partitions := rfl
@[simp] theorem State.setStrand_hostLink (s : State) (sid : Nat) (x : Strand) : (s.setStrand sid x).hostLink = s.hostLink := rfl
@[simp] theorem State.setStrand_hostHoles (s : State) (sid : Nat) (x : Strand) : (s.setStrand sid x).hostHoles = s.hostHoles := rfl
@[simp] theorem State.setStrand_queues (s : State) (sid : Nat) (x : Strand) : (s.setStrand sid x).queues = s.queues := rfl
@[simp] theorem State.setStrand_service (s : State) (sid : Nat) (x : Strand) : (s.setStrand sid x).service = s.service := rfl
@[simp] theorem State.setStrand_replays (s : State) (sid : Nat) (x : Strand) : (s.setStrand sid x).replays = s.replays := rfl
@[simp] theorem State.setStrand_errors (s : State) (sid : Nat) (x : Strand) : (s.setStrand sid x).errors = s.errors := rfl
@[simp] theorem State.setStrand_image (s : State) (sid : Nat) (x : Strand) : (s.setStrand sid x).image = s.image := rfl
@[simp] theorem State.setStrand_pendingImage (s : State) (sid : Nat) (x : Strand) : (s.setStrand sid x).pendingImage = s.pendingImage := rfl

/-! ### `State.setCore` -/

@[simp] theorem State.setCore_cycle (s : State) (c : Nat) (x : Core) : (s.setCore c x).cycle = s.cycle := rfl
@[simp] theorem State.setCore_agenda (s : State) (c : Nat) (x : Core) : (s.setCore c x).agenda = s.agenda := rfl
@[simp] theorem State.setCore_phase (s : State) (c : Nat) (x : Core) : (s.setCore c x).phase = s.phase := rfl
@[simp] theorem State.setCore_turned (s : State) (c : Nat) (x : Core) : (s.setCore c x).turned = s.turned := rfl
@[simp] theorem State.setCore_cur (s : State) (c : Nat) (x : Core) : (s.setCore c x).cur = s.cur := rfl
@[simp] theorem State.setCore_fresh (s : State) (c : Nat) (x : Core) : (s.setCore c x).fresh = s.fresh := rfl
@[simp] theorem State.setCore_serial (s : State) (c : Nat) (x : Core) : (s.setCore c x).serial = s.serial := rfl
@[simp] theorem State.setCore_powered (s : State) (c : Nat) (x : Core) : (s.setCore c x).powered = s.powered := rfl
@[simp] theorem State.setCore_strands (s : State) (c : Nat) (x : Core) : (s.setCore c x).strands = s.strands := rfl
@[simp] theorem State.setCore_cores (s : State) (c : Nat) (x : Core) : (s.setCore c x).cores = mapSet s.cores c x := rfl
@[simp] theorem State.setCore_domains (s : State) (c : Nat) (x : Core) : (s.setCore c x).domains = s.domains := rfl
@[simp] theorem State.setCore_mem (s : State) (c : Nat) (x : Core) : (s.setCore c x).mem = s.mem := rfl
@[simp] theorem State.setCore_spad (s : State) (c : Nat) (x : Core) : (s.setCore c x).spad = s.spad := rfl
@[simp] theorem State.setCore_footStores (s : State) (c : Nat) (x : Core) : (s.setCore c x).footStores = s.footStores := rfl
@[simp] theorem State.setCore_poison (s : State) (c : Nat) (x : Core) : (s.setCore c x).poison = s.poison := rfl
@[simp] theorem State.setCore_spadPoison (s : State) (c : Nat) (x : Core) : (s.setCore c x).spadPoison = s.spadPoison := rfl
@[simp] theorem State.setCore_root (s : State) (c : Nat) (x : Core) : (s.setCore c x).root = s.root := rfl
@[simp] theorem State.setCore_translations (s : State) (c : Nat) (x : Core) : (s.setCore c x).translations = s.translations := rfl
@[simp] theorem State.setCore_migrations (s : State) (c : Nat) (x : Core) : (s.setCore c x).migrations = s.migrations := rfl
@[simp] theorem State.setCore_keySlots (s : State) (c : Nat) (x : Core) : (s.setCore c x).keySlots = s.keySlots := rfl
@[simp] theorem State.setCore_sectorKeys (s : State) (c : Nat) (x : Core) : (s.setCore c x).sectorKeys = s.sectorKeys := rfl
@[simp] theorem State.setCore_caps (s : State) (c : Nat) (x : Core) : (s.setCore c x).caps = s.caps := rfl
@[simp] theorem State.setCore_capsAt (s : State) (c : Nat) (x : Core) : (s.setCore c x).capsAt = s.capsAt := rfl
@[simp] theorem State.setCore_pins (s : State) (c : Nat) (x : Core) : (s.setCore c x).pins = s.pins := rfl
@[simp] theorem State.setCore_arenas (s : State) (c : Nat) (x : Core) : (s.setCore c x).arenas = s.arenas := rfl
@[simp] theorem State.setCore_freeBlocks (s : State) (c : Nat) (x : Core) : (s.setCore c x).freeBlocks = s.freeBlocks := rfl
@[simp] theorem State.setCore_blocksBack (s : State) (c : Nat) (x : Core) : (s.setCore c x).blocksBack = s.blocksBack := rfl
@[simp] theorem State.setCore_steepBufs (s : State) (c : Nat) (x : Core) : (s.setCore c x).steepBufs = s.steepBufs := rfl
@[simp] theorem State.setCore_steepSent (s : State) (c : Nat) (x : Core) : (s.setCore c x).steepSent = s.steepSent := rfl
@[simp] theorem State.setCore_recordsDue (s : State) (c : Nat) (x : Core) : (s.setCore c x).recordsDue = s.recordsDue := rfl
@[simp] theorem State.setCore_messages (s : State) (c : Nat) (x : Core) : (s.setCore c x).messages = s.messages := rfl
@[simp] theorem State.setCore_handling (s : State) (c : Nat) (x : Core) : (s.setCore c x).handling = s.handling := rfl
@[simp] theorem State.setCore_tickets (s : State) (c : Nat) (x : Core) : (s.setCore c x).tickets = s.tickets := rfl
@[simp] theorem State.setCore_nextTicket (s : State) (c : Nat) (x : Core) : (s.setCore c x).nextTicket = s.nextTicket := rfl
@[simp] theorem State.setCore_gangs (s : State) (c : Nat) (x : Core) : (s.setCore c x).gangs = s.gangs := rfl
@[simp] theorem State.setCore_launches (s : State) (c : Nat) (x : Core) : (s.setCore c x).launches = s.launches := rfl
@[simp] theorem State.setCore_nextLaunch (s : State) (c : Nat) (x : Core) : (s.setCore c x).nextLaunch = s.nextLaunch := rfl
@[simp] theorem State.setCore_records (s : State) (c : Nat) (x : Core) : (s.setCore c x).records = s.records := rfl
@[simp] theorem State.setCore_boarding (s : State) (c : Nat) (x : Core) : (s.setCore c x).boarding = s.boarding := rfl
@[simp] theorem State.setCore_alighting (s : State) (c : Nat) (x : Core) : (s.setCore c x).alighting = s.alighting := rfl
@[simp] theorem State.setCore_captures (s : State) (c : Nat) (x : Core) : (s.setCore c x).captures = s.captures := rfl
@[simp] theorem State.setCore_reentries (s : State) (c : Nat) (x : Core) : (s.setCore c x).reentries = s.reentries := rfl
@[simp] theorem State.setCore_routers (s : State) (c : Nat) (x : Core) : (s.setCore c x).routers = s.routers := rfl
@[simp] theorem State.setCore_combining (s : State) (c : Nat) (x : Core) : (s.setCore c x).combining = s.combining := rfl
@[simp] theorem State.setCore_addsHere (s : State) (c : Nat) (x : Core) : (s.setCore c x).addsHere = s.addsHere := rfl
@[simp] theorem State.setCore_wordsOpen (s : State) (c : Nat) (x : Core) : (s.setCore c x).wordsOpen = s.wordsOpen := rfl
@[simp] theorem State.setCore_ports (s : State) (c : Nat) (x : Core) : (s.setCore c x).ports = s.ports := rfl
@[simp] theorem State.setCore_routes (s : State) (c : Nat) (x : Core) : (s.setCore c x).routes = s.routes := rfl
@[simp] theorem State.setCore_fabric (s : State) (c : Nat) (x : Core) : (s.setCore c x).fabric = s.fabric := rfl
@[simp] theorem State.setCore_sent (s : State) (c : Nat) (x : Core) : (s.setCore c x).sent = s.sent := rfl
@[simp] theorem State.setCore_grants (s : State) (c : Nat) (x : Core) : (s.setCore c x).grants = s.grants := rfl
@[simp] theorem State.setCore_demands (s : State) (c : Nat) (x : Core) : (s.setCore c x).demands = s.demands := rfl
@[simp] theorem State.setCore_device (s : State) (c : Nat) (x : Core) : (s.setCore c x).device = s.device := rfl
@[simp] theorem State.setCore_linkKeySel (s : State) (c : Nat) (x : Core) : (s.setCore c x).linkKeySel = s.linkKeySel := rfl
@[simp] theorem State.setCore_linkKeyData (s : State) (c : Nat) (x : Core) : (s.setCore c x).linkKeyData = s.linkKeyData := rfl
@[simp] theorem State.setCore_svcMode (s : State) (c : Nat) (x : Core) : (s.setCore c x).svcMode = s.svcMode := rfl
@[simp] theorem State.setCore_kettleCtl (s : State) (c : Nat) (x : Core) : (s.setCore c x).kettleCtl = s.kettleCtl := rfl
@[simp] theorem State.setCore_capChanged (s : State) (c : Nat) (x : Core) : (s.setCore c x).capChanged = s.capChanged := rfl
@[simp] theorem State.setCore_samQuotaSet (s : State) (c : Nat) (x : Core) : (s.setCore c x).samQuotaSet = s.samQuotaSet := rfl
@[simp] theorem State.setCore_pinQuotaSet (s : State) (c : Nat) (x : Core) : (s.setCore c x).pinQuotaSet = s.pinQuotaSet := rfl
@[simp] theorem State.setCore_dbgCtl (s : State) (c : Nat) (x : Core) : (s.setCore c x).dbgCtl = s.dbgCtl := rfl
@[simp] theorem State.setCore_dbgSel (s : State) (c : Nat) (x : Core) : (s.setCore c x).dbgSel = s.dbgSel := rfl
@[simp] theorem State.setCore_partitions (s : State) (c : Nat) (x : Core) : (s.setCore c x).partitions = s.partitions := rfl
@[simp] theorem State.setCore_hostLink (s : State) (c : Nat) (x : Core) : (s.setCore c x).hostLink = s.hostLink := rfl
@[simp] theorem State.setCore_hostHoles (s : State) (c : Nat) (x : Core) : (s.setCore c x).hostHoles = s.hostHoles := rfl
@[simp] theorem State.setCore_queues (s : State) (c : Nat) (x : Core) : (s.setCore c x).queues = s.queues := rfl
@[simp] theorem State.setCore_service (s : State) (c : Nat) (x : Core) : (s.setCore c x).service = s.service := rfl
@[simp] theorem State.setCore_replays (s : State) (c : Nat) (x : Core) : (s.setCore c x).replays = s.replays := rfl
@[simp] theorem State.setCore_errors (s : State) (c : Nat) (x : Core) : (s.setCore c x).errors = s.errors := rfl
@[simp] theorem State.setCore_image (s : State) (c : Nat) (x : Core) : (s.setCore c x).image = s.image := rfl
@[simp] theorem State.setCore_pendingImage (s : State) (c : Nat) (x : Core) : (s.setCore c x).pendingImage = s.pendingImage := rfl

/-! ### `State.setDomain` -/

@[simp] theorem State.setDomain_cycle (s : State) (d : BitVec 12) (x : Domain) : (s.setDomain d x).cycle = s.cycle := rfl
@[simp] theorem State.setDomain_agenda (s : State) (d : BitVec 12) (x : Domain) : (s.setDomain d x).agenda = s.agenda := rfl
@[simp] theorem State.setDomain_phase (s : State) (d : BitVec 12) (x : Domain) : (s.setDomain d x).phase = s.phase := rfl
@[simp] theorem State.setDomain_turned (s : State) (d : BitVec 12) (x : Domain) : (s.setDomain d x).turned = s.turned := rfl
@[simp] theorem State.setDomain_cur (s : State) (d : BitVec 12) (x : Domain) : (s.setDomain d x).cur = s.cur := rfl
@[simp] theorem State.setDomain_fresh (s : State) (d : BitVec 12) (x : Domain) : (s.setDomain d x).fresh = s.fresh := rfl
@[simp] theorem State.setDomain_serial (s : State) (d : BitVec 12) (x : Domain) : (s.setDomain d x).serial = s.serial := rfl
@[simp] theorem State.setDomain_powered (s : State) (d : BitVec 12) (x : Domain) : (s.setDomain d x).powered = s.powered := rfl
@[simp] theorem State.setDomain_strands (s : State) (d : BitVec 12) (x : Domain) : (s.setDomain d x).strands = s.strands := rfl
@[simp] theorem State.setDomain_cores (s : State) (d : BitVec 12) (x : Domain) : (s.setDomain d x).cores = s.cores := rfl
@[simp] theorem State.setDomain_domains (s : State) (d : BitVec 12) (x : Domain) : (s.setDomain d x).domains = mapSet s.domains d.toNat x := rfl
@[simp] theorem State.setDomain_mem (s : State) (d : BitVec 12) (x : Domain) : (s.setDomain d x).mem = s.mem := rfl
@[simp] theorem State.setDomain_spad (s : State) (d : BitVec 12) (x : Domain) : (s.setDomain d x).spad = s.spad := rfl
@[simp] theorem State.setDomain_footStores (s : State) (d : BitVec 12) (x : Domain) : (s.setDomain d x).footStores = s.footStores := rfl
@[simp] theorem State.setDomain_poison (s : State) (d : BitVec 12) (x : Domain) : (s.setDomain d x).poison = s.poison := rfl
@[simp] theorem State.setDomain_spadPoison (s : State) (d : BitVec 12) (x : Domain) : (s.setDomain d x).spadPoison = s.spadPoison := rfl
@[simp] theorem State.setDomain_root (s : State) (d : BitVec 12) (x : Domain) : (s.setDomain d x).root = s.root := rfl
@[simp] theorem State.setDomain_translations (s : State) (d : BitVec 12) (x : Domain) : (s.setDomain d x).translations = s.translations := rfl
@[simp] theorem State.setDomain_migrations (s : State) (d : BitVec 12) (x : Domain) : (s.setDomain d x).migrations = s.migrations := rfl
@[simp] theorem State.setDomain_keySlots (s : State) (d : BitVec 12) (x : Domain) : (s.setDomain d x).keySlots = s.keySlots := rfl
@[simp] theorem State.setDomain_sectorKeys (s : State) (d : BitVec 12) (x : Domain) : (s.setDomain d x).sectorKeys = s.sectorKeys := rfl
@[simp] theorem State.setDomain_caps (s : State) (d : BitVec 12) (x : Domain) : (s.setDomain d x).caps = s.caps := rfl
@[simp] theorem State.setDomain_capsAt (s : State) (d : BitVec 12) (x : Domain) : (s.setDomain d x).capsAt = s.capsAt := rfl
@[simp] theorem State.setDomain_pins (s : State) (d : BitVec 12) (x : Domain) : (s.setDomain d x).pins = s.pins := rfl
@[simp] theorem State.setDomain_arenas (s : State) (d : BitVec 12) (x : Domain) : (s.setDomain d x).arenas = s.arenas := rfl
@[simp] theorem State.setDomain_freeBlocks (s : State) (d : BitVec 12) (x : Domain) : (s.setDomain d x).freeBlocks = s.freeBlocks := rfl
@[simp] theorem State.setDomain_blocksBack (s : State) (d : BitVec 12) (x : Domain) : (s.setDomain d x).blocksBack = s.blocksBack := rfl
@[simp] theorem State.setDomain_steepBufs (s : State) (d : BitVec 12) (x : Domain) : (s.setDomain d x).steepBufs = s.steepBufs := rfl
@[simp] theorem State.setDomain_steepSent (s : State) (d : BitVec 12) (x : Domain) : (s.setDomain d x).steepSent = s.steepSent := rfl
@[simp] theorem State.setDomain_recordsDue (s : State) (d : BitVec 12) (x : Domain) : (s.setDomain d x).recordsDue = s.recordsDue := rfl
@[simp] theorem State.setDomain_messages (s : State) (d : BitVec 12) (x : Domain) : (s.setDomain d x).messages = s.messages := rfl
@[simp] theorem State.setDomain_handling (s : State) (d : BitVec 12) (x : Domain) : (s.setDomain d x).handling = s.handling := rfl
@[simp] theorem State.setDomain_tickets (s : State) (d : BitVec 12) (x : Domain) : (s.setDomain d x).tickets = s.tickets := rfl
@[simp] theorem State.setDomain_nextTicket (s : State) (d : BitVec 12) (x : Domain) : (s.setDomain d x).nextTicket = s.nextTicket := rfl
@[simp] theorem State.setDomain_gangs (s : State) (d : BitVec 12) (x : Domain) : (s.setDomain d x).gangs = s.gangs := rfl
@[simp] theorem State.setDomain_launches (s : State) (d : BitVec 12) (x : Domain) : (s.setDomain d x).launches = s.launches := rfl
@[simp] theorem State.setDomain_nextLaunch (s : State) (d : BitVec 12) (x : Domain) : (s.setDomain d x).nextLaunch = s.nextLaunch := rfl
@[simp] theorem State.setDomain_records (s : State) (d : BitVec 12) (x : Domain) : (s.setDomain d x).records = s.records := rfl
@[simp] theorem State.setDomain_boarding (s : State) (d : BitVec 12) (x : Domain) : (s.setDomain d x).boarding = s.boarding := rfl
@[simp] theorem State.setDomain_alighting (s : State) (d : BitVec 12) (x : Domain) : (s.setDomain d x).alighting = s.alighting := rfl
@[simp] theorem State.setDomain_captures (s : State) (d : BitVec 12) (x : Domain) : (s.setDomain d x).captures = s.captures := rfl
@[simp] theorem State.setDomain_reentries (s : State) (d : BitVec 12) (x : Domain) : (s.setDomain d x).reentries = s.reentries := rfl
@[simp] theorem State.setDomain_routers (s : State) (d : BitVec 12) (x : Domain) : (s.setDomain d x).routers = s.routers := rfl
@[simp] theorem State.setDomain_combining (s : State) (d : BitVec 12) (x : Domain) : (s.setDomain d x).combining = s.combining := rfl
@[simp] theorem State.setDomain_addsHere (s : State) (d : BitVec 12) (x : Domain) : (s.setDomain d x).addsHere = s.addsHere := rfl
@[simp] theorem State.setDomain_wordsOpen (s : State) (d : BitVec 12) (x : Domain) : (s.setDomain d x).wordsOpen = s.wordsOpen := rfl
@[simp] theorem State.setDomain_ports (s : State) (d : BitVec 12) (x : Domain) : (s.setDomain d x).ports = s.ports := rfl
@[simp] theorem State.setDomain_routes (s : State) (d : BitVec 12) (x : Domain) : (s.setDomain d x).routes = s.routes := rfl
@[simp] theorem State.setDomain_fabric (s : State) (d : BitVec 12) (x : Domain) : (s.setDomain d x).fabric = s.fabric := rfl
@[simp] theorem State.setDomain_sent (s : State) (d : BitVec 12) (x : Domain) : (s.setDomain d x).sent = s.sent := rfl
@[simp] theorem State.setDomain_grants (s : State) (d : BitVec 12) (x : Domain) : (s.setDomain d x).grants = s.grants := rfl
@[simp] theorem State.setDomain_demands (s : State) (d : BitVec 12) (x : Domain) : (s.setDomain d x).demands = s.demands := rfl
@[simp] theorem State.setDomain_device (s : State) (d : BitVec 12) (x : Domain) : (s.setDomain d x).device = s.device := rfl
@[simp] theorem State.setDomain_linkKeySel (s : State) (d : BitVec 12) (x : Domain) : (s.setDomain d x).linkKeySel = s.linkKeySel := rfl
@[simp] theorem State.setDomain_linkKeyData (s : State) (d : BitVec 12) (x : Domain) : (s.setDomain d x).linkKeyData = s.linkKeyData := rfl
@[simp] theorem State.setDomain_svcMode (s : State) (d : BitVec 12) (x : Domain) : (s.setDomain d x).svcMode = s.svcMode := rfl
@[simp] theorem State.setDomain_kettleCtl (s : State) (d : BitVec 12) (x : Domain) : (s.setDomain d x).kettleCtl = s.kettleCtl := rfl
@[simp] theorem State.setDomain_capChanged (s : State) (d : BitVec 12) (x : Domain) : (s.setDomain d x).capChanged = s.capChanged := rfl
@[simp] theorem State.setDomain_samQuotaSet (s : State) (d : BitVec 12) (x : Domain) : (s.setDomain d x).samQuotaSet = s.samQuotaSet := rfl
@[simp] theorem State.setDomain_pinQuotaSet (s : State) (d : BitVec 12) (x : Domain) : (s.setDomain d x).pinQuotaSet = s.pinQuotaSet := rfl
@[simp] theorem State.setDomain_dbgCtl (s : State) (d : BitVec 12) (x : Domain) : (s.setDomain d x).dbgCtl = s.dbgCtl := rfl
@[simp] theorem State.setDomain_dbgSel (s : State) (d : BitVec 12) (x : Domain) : (s.setDomain d x).dbgSel = s.dbgSel := rfl
@[simp] theorem State.setDomain_partitions (s : State) (d : BitVec 12) (x : Domain) : (s.setDomain d x).partitions = s.partitions := rfl
@[simp] theorem State.setDomain_hostLink (s : State) (d : BitVec 12) (x : Domain) : (s.setDomain d x).hostLink = s.hostLink := rfl
@[simp] theorem State.setDomain_hostHoles (s : State) (d : BitVec 12) (x : Domain) : (s.setDomain d x).hostHoles = s.hostHoles := rfl
@[simp] theorem State.setDomain_queues (s : State) (d : BitVec 12) (x : Domain) : (s.setDomain d x).queues = s.queues := rfl
@[simp] theorem State.setDomain_service (s : State) (d : BitVec 12) (x : Domain) : (s.setDomain d x).service = s.service := rfl
@[simp] theorem State.setDomain_replays (s : State) (d : BitVec 12) (x : Domain) : (s.setDomain d x).replays = s.replays := rfl
@[simp] theorem State.setDomain_errors (s : State) (d : BitVec 12) (x : Domain) : (s.setDomain d x).errors = s.errors := rfl
@[simp] theorem State.setDomain_image (s : State) (d : BitVec 12) (x : Domain) : (s.setDomain d x).image = s.image := rfl
@[simp] theorem State.setDomain_pendingImage (s : State) (d : BitVec 12) (x : Domain) : (s.setDomain d x).pendingImage = s.pendingImage := rfl

/-! ### `State.writeMem` -/

@[simp] theorem State.writeMem_cycle (s : State) (a n x : Nat) : (s.writeMem a n x).cycle = s.cycle := rfl
@[simp] theorem State.writeMem_agenda (s : State) (a n x : Nat) : (s.writeMem a n x).agenda = s.agenda := rfl
@[simp] theorem State.writeMem_phase (s : State) (a n x : Nat) : (s.writeMem a n x).phase = s.phase := rfl
@[simp] theorem State.writeMem_turned (s : State) (a n x : Nat) : (s.writeMem a n x).turned = s.turned := rfl
@[simp] theorem State.writeMem_cur (s : State) (a n x : Nat) : (s.writeMem a n x).cur = s.cur := rfl
@[simp] theorem State.writeMem_fresh (s : State) (a n x : Nat) : (s.writeMem a n x).fresh = s.fresh := rfl
@[simp] theorem State.writeMem_serial (s : State) (a n x : Nat) : (s.writeMem a n x).serial = s.serial := rfl
@[simp] theorem State.writeMem_powered (s : State) (a n x : Nat) : (s.writeMem a n x).powered = s.powered := rfl
@[simp] theorem State.writeMem_strands (s : State) (a n x : Nat) : (s.writeMem a n x).strands = s.strands := rfl
@[simp] theorem State.writeMem_cores (s : State) (a n x : Nat) : (s.writeMem a n x).cores = s.cores := rfl
@[simp] theorem State.writeMem_domains (s : State) (a n x : Nat) : (s.writeMem a n x).domains = s.domains := rfl
@[simp] theorem State.writeMem_mem (s : State) (a n x : Nat) : (s.writeMem a n x).mem = writeBytes s.mem a n x := rfl
@[simp] theorem State.writeMem_spad (s : State) (a n x : Nat) : (s.writeMem a n x).spad = s.spad := rfl
@[simp] theorem State.writeMem_footStores (s : State) (a n x : Nat) : (s.writeMem a n x).footStores = s.footStores := rfl
@[simp] theorem State.writeMem_poison (s : State) (a n x : Nat) : (s.writeMem a n x).poison = s.poison := rfl
@[simp] theorem State.writeMem_spadPoison (s : State) (a n x : Nat) : (s.writeMem a n x).spadPoison = s.spadPoison := rfl
@[simp] theorem State.writeMem_root (s : State) (a n x : Nat) : (s.writeMem a n x).root = s.root := rfl
@[simp] theorem State.writeMem_translations (s : State) (a n x : Nat) : (s.writeMem a n x).translations = s.translations := rfl
@[simp] theorem State.writeMem_migrations (s : State) (a n x : Nat) : (s.writeMem a n x).migrations = s.migrations := rfl
@[simp] theorem State.writeMem_keySlots (s : State) (a n x : Nat) : (s.writeMem a n x).keySlots = s.keySlots := rfl
@[simp] theorem State.writeMem_sectorKeys (s : State) (a n x : Nat) : (s.writeMem a n x).sectorKeys = s.sectorKeys := rfl
@[simp] theorem State.writeMem_caps (s : State) (a n x : Nat) : (s.writeMem a n x).caps = s.caps := rfl
@[simp] theorem State.writeMem_capsAt (s : State) (a n x : Nat) : (s.writeMem a n x).capsAt = s.capsAt := rfl
@[simp] theorem State.writeMem_pins (s : State) (a n x : Nat) : (s.writeMem a n x).pins = s.pins := rfl
@[simp] theorem State.writeMem_arenas (s : State) (a n x : Nat) : (s.writeMem a n x).arenas = s.arenas := rfl
@[simp] theorem State.writeMem_freeBlocks (s : State) (a n x : Nat) : (s.writeMem a n x).freeBlocks = s.freeBlocks := rfl
@[simp] theorem State.writeMem_blocksBack (s : State) (a n x : Nat) : (s.writeMem a n x).blocksBack = s.blocksBack := rfl
@[simp] theorem State.writeMem_steepBufs (s : State) (a n x : Nat) : (s.writeMem a n x).steepBufs = s.steepBufs := rfl
@[simp] theorem State.writeMem_steepSent (s : State) (a n x : Nat) : (s.writeMem a n x).steepSent = s.steepSent := rfl
@[simp] theorem State.writeMem_recordsDue (s : State) (a n x : Nat) : (s.writeMem a n x).recordsDue = s.recordsDue := rfl
@[simp] theorem State.writeMem_messages (s : State) (a n x : Nat) : (s.writeMem a n x).messages = s.messages := rfl
@[simp] theorem State.writeMem_handling (s : State) (a n x : Nat) : (s.writeMem a n x).handling = s.handling := rfl
@[simp] theorem State.writeMem_tickets (s : State) (a n x : Nat) : (s.writeMem a n x).tickets = s.tickets := rfl
@[simp] theorem State.writeMem_nextTicket (s : State) (a n x : Nat) : (s.writeMem a n x).nextTicket = s.nextTicket := rfl
@[simp] theorem State.writeMem_gangs (s : State) (a n x : Nat) : (s.writeMem a n x).gangs = s.gangs := rfl
@[simp] theorem State.writeMem_launches (s : State) (a n x : Nat) : (s.writeMem a n x).launches = s.launches := rfl
@[simp] theorem State.writeMem_nextLaunch (s : State) (a n x : Nat) : (s.writeMem a n x).nextLaunch = s.nextLaunch := rfl
@[simp] theorem State.writeMem_records (s : State) (a n x : Nat) : (s.writeMem a n x).records = s.records := rfl
@[simp] theorem State.writeMem_boarding (s : State) (a n x : Nat) : (s.writeMem a n x).boarding = s.boarding := rfl
@[simp] theorem State.writeMem_alighting (s : State) (a n x : Nat) : (s.writeMem a n x).alighting = s.alighting := rfl
@[simp] theorem State.writeMem_captures (s : State) (a n x : Nat) : (s.writeMem a n x).captures = s.captures := rfl
@[simp] theorem State.writeMem_reentries (s : State) (a n x : Nat) : (s.writeMem a n x).reentries = s.reentries := rfl
@[simp] theorem State.writeMem_routers (s : State) (a n x : Nat) : (s.writeMem a n x).routers = s.routers := rfl
@[simp] theorem State.writeMem_combining (s : State) (a n x : Nat) : (s.writeMem a n x).combining = s.combining := rfl
@[simp] theorem State.writeMem_addsHere (s : State) (a n x : Nat) : (s.writeMem a n x).addsHere = s.addsHere := rfl
@[simp] theorem State.writeMem_wordsOpen (s : State) (a n x : Nat) : (s.writeMem a n x).wordsOpen = s.wordsOpen := rfl
@[simp] theorem State.writeMem_ports (s : State) (a n x : Nat) : (s.writeMem a n x).ports = s.ports := rfl
@[simp] theorem State.writeMem_routes (s : State) (a n x : Nat) : (s.writeMem a n x).routes = s.routes := rfl
@[simp] theorem State.writeMem_fabric (s : State) (a n x : Nat) : (s.writeMem a n x).fabric = s.fabric := rfl
@[simp] theorem State.writeMem_sent (s : State) (a n x : Nat) : (s.writeMem a n x).sent = s.sent := rfl
@[simp] theorem State.writeMem_grants (s : State) (a n x : Nat) : (s.writeMem a n x).grants = s.grants := rfl
@[simp] theorem State.writeMem_demands (s : State) (a n x : Nat) : (s.writeMem a n x).demands = s.demands := rfl
@[simp] theorem State.writeMem_device (s : State) (a n x : Nat) : (s.writeMem a n x).device = s.device := rfl
@[simp] theorem State.writeMem_linkKeySel (s : State) (a n x : Nat) : (s.writeMem a n x).linkKeySel = s.linkKeySel := rfl
@[simp] theorem State.writeMem_linkKeyData (s : State) (a n x : Nat) : (s.writeMem a n x).linkKeyData = s.linkKeyData := rfl
@[simp] theorem State.writeMem_svcMode (s : State) (a n x : Nat) : (s.writeMem a n x).svcMode = s.svcMode := rfl
@[simp] theorem State.writeMem_kettleCtl (s : State) (a n x : Nat) : (s.writeMem a n x).kettleCtl = s.kettleCtl := rfl
@[simp] theorem State.writeMem_capChanged (s : State) (a n x : Nat) : (s.writeMem a n x).capChanged = s.capChanged := rfl
@[simp] theorem State.writeMem_samQuotaSet (s : State) (a n x : Nat) : (s.writeMem a n x).samQuotaSet = s.samQuotaSet := rfl
@[simp] theorem State.writeMem_pinQuotaSet (s : State) (a n x : Nat) : (s.writeMem a n x).pinQuotaSet = s.pinQuotaSet := rfl
@[simp] theorem State.writeMem_dbgCtl (s : State) (a n x : Nat) : (s.writeMem a n x).dbgCtl = s.dbgCtl := rfl
@[simp] theorem State.writeMem_dbgSel (s : State) (a n x : Nat) : (s.writeMem a n x).dbgSel = s.dbgSel := rfl
@[simp] theorem State.writeMem_partitions (s : State) (a n x : Nat) : (s.writeMem a n x).partitions = s.partitions := rfl
@[simp] theorem State.writeMem_hostLink (s : State) (a n x : Nat) : (s.writeMem a n x).hostLink = s.hostLink := rfl
@[simp] theorem State.writeMem_hostHoles (s : State) (a n x : Nat) : (s.writeMem a n x).hostHoles = s.hostHoles := rfl
@[simp] theorem State.writeMem_queues (s : State) (a n x : Nat) : (s.writeMem a n x).queues = s.queues := rfl
@[simp] theorem State.writeMem_service (s : State) (a n x : Nat) : (s.writeMem a n x).service = s.service := rfl
@[simp] theorem State.writeMem_replays (s : State) (a n x : Nat) : (s.writeMem a n x).replays = s.replays := rfl
@[simp] theorem State.writeMem_errors (s : State) (a n x : Nat) : (s.writeMem a n x).errors = s.errors := rfl
@[simp] theorem State.writeMem_image (s : State) (a n x : Nat) : (s.writeMem a n x).image = s.image := rfl
@[simp] theorem State.writeMem_pendingImage (s : State) (a n x : Nat) : (s.writeMem a n x).pendingImage = s.pendingImage := rfl

/-! ### `State.setSpadByte` -/

@[simp] theorem State.setSpadByte_cycle (s : State) (c off : Nat) (b : Byte) : (s.setSpadByte c off b).cycle = s.cycle := rfl
@[simp] theorem State.setSpadByte_agenda (s : State) (c off : Nat) (b : Byte) : (s.setSpadByte c off b).agenda = s.agenda := rfl
@[simp] theorem State.setSpadByte_phase (s : State) (c off : Nat) (b : Byte) : (s.setSpadByte c off b).phase = s.phase := rfl
@[simp] theorem State.setSpadByte_turned (s : State) (c off : Nat) (b : Byte) : (s.setSpadByte c off b).turned = s.turned := rfl
@[simp] theorem State.setSpadByte_cur (s : State) (c off : Nat) (b : Byte) : (s.setSpadByte c off b).cur = s.cur := rfl
@[simp] theorem State.setSpadByte_fresh (s : State) (c off : Nat) (b : Byte) : (s.setSpadByte c off b).fresh = s.fresh := rfl
@[simp] theorem State.setSpadByte_serial (s : State) (c off : Nat) (b : Byte) : (s.setSpadByte c off b).serial = s.serial := rfl
@[simp] theorem State.setSpadByte_powered (s : State) (c off : Nat) (b : Byte) : (s.setSpadByte c off b).powered = s.powered := rfl
@[simp] theorem State.setSpadByte_strands (s : State) (c off : Nat) (b : Byte) : (s.setSpadByte c off b).strands = s.strands := rfl
@[simp] theorem State.setSpadByte_cores (s : State) (c off : Nat) (b : Byte) : (s.setSpadByte c off b).cores = s.cores := rfl
@[simp] theorem State.setSpadByte_domains (s : State) (c off : Nat) (b : Byte) : (s.setSpadByte c off b).domains = s.domains := rfl
@[simp] theorem State.setSpadByte_mem (s : State) (c off : Nat) (b : Byte) : (s.setSpadByte c off b).mem = s.mem := rfl
@[simp] theorem State.setSpadByte_spad (s : State) (c off : Nat) (b : Byte) : (s.setSpadByte c off b).spad = mapSet s.spad (spadKey c off) b := rfl
@[simp] theorem State.setSpadByte_footStores (s : State) (c off : Nat) (b : Byte) : (s.setSpadByte c off b).footStores = s.footStores := rfl
@[simp] theorem State.setSpadByte_poison (s : State) (c off : Nat) (b : Byte) : (s.setSpadByte c off b).poison = s.poison := rfl
@[simp] theorem State.setSpadByte_spadPoison (s : State) (c off : Nat) (b : Byte) : (s.setSpadByte c off b).spadPoison = s.spadPoison := rfl
@[simp] theorem State.setSpadByte_root (s : State) (c off : Nat) (b : Byte) : (s.setSpadByte c off b).root = s.root := rfl
@[simp] theorem State.setSpadByte_translations (s : State) (c off : Nat) (b : Byte) : (s.setSpadByte c off b).translations = s.translations := rfl
@[simp] theorem State.setSpadByte_migrations (s : State) (c off : Nat) (b : Byte) : (s.setSpadByte c off b).migrations = s.migrations := rfl
@[simp] theorem State.setSpadByte_keySlots (s : State) (c off : Nat) (b : Byte) : (s.setSpadByte c off b).keySlots = s.keySlots := rfl
@[simp] theorem State.setSpadByte_sectorKeys (s : State) (c off : Nat) (b : Byte) : (s.setSpadByte c off b).sectorKeys = s.sectorKeys := rfl
@[simp] theorem State.setSpadByte_caps (s : State) (c off : Nat) (b : Byte) : (s.setSpadByte c off b).caps = s.caps := rfl
@[simp] theorem State.setSpadByte_capsAt (s : State) (c off : Nat) (b : Byte) : (s.setSpadByte c off b).capsAt = s.capsAt := rfl
@[simp] theorem State.setSpadByte_pins (s : State) (c off : Nat) (b : Byte) : (s.setSpadByte c off b).pins = s.pins := rfl
@[simp] theorem State.setSpadByte_arenas (s : State) (c off : Nat) (b : Byte) : (s.setSpadByte c off b).arenas = s.arenas := rfl
@[simp] theorem State.setSpadByte_freeBlocks (s : State) (c off : Nat) (b : Byte) : (s.setSpadByte c off b).freeBlocks = s.freeBlocks := rfl
@[simp] theorem State.setSpadByte_blocksBack (s : State) (c off : Nat) (b : Byte) : (s.setSpadByte c off b).blocksBack = s.blocksBack := rfl
@[simp] theorem State.setSpadByte_steepBufs (s : State) (c off : Nat) (b : Byte) : (s.setSpadByte c off b).steepBufs = s.steepBufs := rfl
@[simp] theorem State.setSpadByte_steepSent (s : State) (c off : Nat) (b : Byte) : (s.setSpadByte c off b).steepSent = s.steepSent := rfl
@[simp] theorem State.setSpadByte_recordsDue (s : State) (c off : Nat) (b : Byte) : (s.setSpadByte c off b).recordsDue = s.recordsDue := rfl
@[simp] theorem State.setSpadByte_messages (s : State) (c off : Nat) (b : Byte) : (s.setSpadByte c off b).messages = s.messages := rfl
@[simp] theorem State.setSpadByte_handling (s : State) (c off : Nat) (b : Byte) : (s.setSpadByte c off b).handling = s.handling := rfl
@[simp] theorem State.setSpadByte_tickets (s : State) (c off : Nat) (b : Byte) : (s.setSpadByte c off b).tickets = s.tickets := rfl
@[simp] theorem State.setSpadByte_nextTicket (s : State) (c off : Nat) (b : Byte) : (s.setSpadByte c off b).nextTicket = s.nextTicket := rfl
@[simp] theorem State.setSpadByte_gangs (s : State) (c off : Nat) (b : Byte) : (s.setSpadByte c off b).gangs = s.gangs := rfl
@[simp] theorem State.setSpadByte_launches (s : State) (c off : Nat) (b : Byte) : (s.setSpadByte c off b).launches = s.launches := rfl
@[simp] theorem State.setSpadByte_nextLaunch (s : State) (c off : Nat) (b : Byte) : (s.setSpadByte c off b).nextLaunch = s.nextLaunch := rfl
@[simp] theorem State.setSpadByte_records (s : State) (c off : Nat) (b : Byte) : (s.setSpadByte c off b).records = s.records := rfl
@[simp] theorem State.setSpadByte_boarding (s : State) (c off : Nat) (b : Byte) : (s.setSpadByte c off b).boarding = s.boarding := rfl
@[simp] theorem State.setSpadByte_alighting (s : State) (c off : Nat) (b : Byte) : (s.setSpadByte c off b).alighting = s.alighting := rfl
@[simp] theorem State.setSpadByte_captures (s : State) (c off : Nat) (b : Byte) : (s.setSpadByte c off b).captures = s.captures := rfl
@[simp] theorem State.setSpadByte_reentries (s : State) (c off : Nat) (b : Byte) : (s.setSpadByte c off b).reentries = s.reentries := rfl
@[simp] theorem State.setSpadByte_routers (s : State) (c off : Nat) (b : Byte) : (s.setSpadByte c off b).routers = s.routers := rfl
@[simp] theorem State.setSpadByte_combining (s : State) (c off : Nat) (b : Byte) : (s.setSpadByte c off b).combining = s.combining := rfl
@[simp] theorem State.setSpadByte_addsHere (s : State) (c off : Nat) (b : Byte) : (s.setSpadByte c off b).addsHere = s.addsHere := rfl
@[simp] theorem State.setSpadByte_wordsOpen (s : State) (c off : Nat) (b : Byte) : (s.setSpadByte c off b).wordsOpen = s.wordsOpen := rfl
@[simp] theorem State.setSpadByte_ports (s : State) (c off : Nat) (b : Byte) : (s.setSpadByte c off b).ports = s.ports := rfl
@[simp] theorem State.setSpadByte_routes (s : State) (c off : Nat) (b : Byte) : (s.setSpadByte c off b).routes = s.routes := rfl
@[simp] theorem State.setSpadByte_fabric (s : State) (c off : Nat) (b : Byte) : (s.setSpadByte c off b).fabric = s.fabric := rfl
@[simp] theorem State.setSpadByte_sent (s : State) (c off : Nat) (b : Byte) : (s.setSpadByte c off b).sent = s.sent := rfl
@[simp] theorem State.setSpadByte_grants (s : State) (c off : Nat) (b : Byte) : (s.setSpadByte c off b).grants = s.grants := rfl
@[simp] theorem State.setSpadByte_demands (s : State) (c off : Nat) (b : Byte) : (s.setSpadByte c off b).demands = s.demands := rfl
@[simp] theorem State.setSpadByte_device (s : State) (c off : Nat) (b : Byte) : (s.setSpadByte c off b).device = s.device := rfl
@[simp] theorem State.setSpadByte_linkKeySel (s : State) (c off : Nat) (b : Byte) : (s.setSpadByte c off b).linkKeySel = s.linkKeySel := rfl
@[simp] theorem State.setSpadByte_linkKeyData (s : State) (c off : Nat) (b : Byte) : (s.setSpadByte c off b).linkKeyData = s.linkKeyData := rfl
@[simp] theorem State.setSpadByte_svcMode (s : State) (c off : Nat) (b : Byte) : (s.setSpadByte c off b).svcMode = s.svcMode := rfl
@[simp] theorem State.setSpadByte_kettleCtl (s : State) (c off : Nat) (b : Byte) : (s.setSpadByte c off b).kettleCtl = s.kettleCtl := rfl
@[simp] theorem State.setSpadByte_capChanged (s : State) (c off : Nat) (b : Byte) : (s.setSpadByte c off b).capChanged = s.capChanged := rfl
@[simp] theorem State.setSpadByte_samQuotaSet (s : State) (c off : Nat) (b : Byte) : (s.setSpadByte c off b).samQuotaSet = s.samQuotaSet := rfl
@[simp] theorem State.setSpadByte_pinQuotaSet (s : State) (c off : Nat) (b : Byte) : (s.setSpadByte c off b).pinQuotaSet = s.pinQuotaSet := rfl
@[simp] theorem State.setSpadByte_dbgCtl (s : State) (c off : Nat) (b : Byte) : (s.setSpadByte c off b).dbgCtl = s.dbgCtl := rfl
@[simp] theorem State.setSpadByte_dbgSel (s : State) (c off : Nat) (b : Byte) : (s.setSpadByte c off b).dbgSel = s.dbgSel := rfl
@[simp] theorem State.setSpadByte_partitions (s : State) (c off : Nat) (b : Byte) : (s.setSpadByte c off b).partitions = s.partitions := rfl
@[simp] theorem State.setSpadByte_hostLink (s : State) (c off : Nat) (b : Byte) : (s.setSpadByte c off b).hostLink = s.hostLink := rfl
@[simp] theorem State.setSpadByte_hostHoles (s : State) (c off : Nat) (b : Byte) : (s.setSpadByte c off b).hostHoles = s.hostHoles := rfl
@[simp] theorem State.setSpadByte_queues (s : State) (c off : Nat) (b : Byte) : (s.setSpadByte c off b).queues = s.queues := rfl
@[simp] theorem State.setSpadByte_service (s : State) (c off : Nat) (b : Byte) : (s.setSpadByte c off b).service = s.service := rfl
@[simp] theorem State.setSpadByte_replays (s : State) (c off : Nat) (b : Byte) : (s.setSpadByte c off b).replays = s.replays := rfl
@[simp] theorem State.setSpadByte_errors (s : State) (c off : Nat) (b : Byte) : (s.setSpadByte c off b).errors = s.errors := rfl
@[simp] theorem State.setSpadByte_image (s : State) (c off : Nat) (b : Byte) : (s.setSpadByte c off b).image = s.image := rfl
@[simp] theorem State.setSpadByte_pendingImage (s : State) (c off : Nat) (b : Byte) : (s.setSpadByte c off b).pendingImage = s.pendingImage := rfl

/-! ### `State.drawn` -/

@[simp] theorem State.drawn_cycle (s : State) : (s.drawn).cycle = s.cycle := rfl
@[simp] theorem State.drawn_agenda (s : State) : (s.drawn).agenda = s.agenda := rfl
@[simp] theorem State.drawn_phase (s : State) : (s.drawn).phase = s.phase := rfl
@[simp] theorem State.drawn_turned (s : State) : (s.drawn).turned = s.turned := rfl
@[simp] theorem State.drawn_cur (s : State) : (s.drawn).cur = s.cur := rfl
@[simp] theorem State.drawn_fresh (s : State) : (s.drawn).fresh = s.fresh + 1 := rfl
@[simp] theorem State.drawn_serial (s : State) : (s.drawn).serial = s.serial := rfl
@[simp] theorem State.drawn_powered (s : State) : (s.drawn).powered = s.powered := rfl
@[simp] theorem State.drawn_strands (s : State) : (s.drawn).strands = s.strands := rfl
@[simp] theorem State.drawn_cores (s : State) : (s.drawn).cores = s.cores := rfl
@[simp] theorem State.drawn_domains (s : State) : (s.drawn).domains = s.domains := rfl
@[simp] theorem State.drawn_mem (s : State) : (s.drawn).mem = s.mem := rfl
@[simp] theorem State.drawn_spad (s : State) : (s.drawn).spad = s.spad := rfl
@[simp] theorem State.drawn_footStores (s : State) : (s.drawn).footStores = s.footStores := rfl
@[simp] theorem State.drawn_poison (s : State) : (s.drawn).poison = s.poison := rfl
@[simp] theorem State.drawn_spadPoison (s : State) : (s.drawn).spadPoison = s.spadPoison := rfl
@[simp] theorem State.drawn_root (s : State) : (s.drawn).root = s.root := rfl
@[simp] theorem State.drawn_translations (s : State) : (s.drawn).translations = s.translations := rfl
@[simp] theorem State.drawn_migrations (s : State) : (s.drawn).migrations = s.migrations := rfl
@[simp] theorem State.drawn_keySlots (s : State) : (s.drawn).keySlots = s.keySlots := rfl
@[simp] theorem State.drawn_sectorKeys (s : State) : (s.drawn).sectorKeys = s.sectorKeys := rfl
@[simp] theorem State.drawn_caps (s : State) : (s.drawn).caps = s.caps := rfl
@[simp] theorem State.drawn_capsAt (s : State) : (s.drawn).capsAt = s.capsAt := rfl
@[simp] theorem State.drawn_pins (s : State) : (s.drawn).pins = s.pins := rfl
@[simp] theorem State.drawn_arenas (s : State) : (s.drawn).arenas = s.arenas := rfl
@[simp] theorem State.drawn_freeBlocks (s : State) : (s.drawn).freeBlocks = s.freeBlocks := rfl
@[simp] theorem State.drawn_blocksBack (s : State) : (s.drawn).blocksBack = s.blocksBack := rfl
@[simp] theorem State.drawn_steepBufs (s : State) : (s.drawn).steepBufs = s.steepBufs := rfl
@[simp] theorem State.drawn_steepSent (s : State) : (s.drawn).steepSent = s.steepSent := rfl
@[simp] theorem State.drawn_recordsDue (s : State) : (s.drawn).recordsDue = s.recordsDue := rfl
@[simp] theorem State.drawn_messages (s : State) : (s.drawn).messages = s.messages := rfl
@[simp] theorem State.drawn_handling (s : State) : (s.drawn).handling = s.handling := rfl
@[simp] theorem State.drawn_tickets (s : State) : (s.drawn).tickets = s.tickets := rfl
@[simp] theorem State.drawn_nextTicket (s : State) : (s.drawn).nextTicket = s.nextTicket := rfl
@[simp] theorem State.drawn_gangs (s : State) : (s.drawn).gangs = s.gangs := rfl
@[simp] theorem State.drawn_launches (s : State) : (s.drawn).launches = s.launches := rfl
@[simp] theorem State.drawn_nextLaunch (s : State) : (s.drawn).nextLaunch = s.nextLaunch := rfl
@[simp] theorem State.drawn_records (s : State) : (s.drawn).records = s.records := rfl
@[simp] theorem State.drawn_boarding (s : State) : (s.drawn).boarding = s.boarding := rfl
@[simp] theorem State.drawn_alighting (s : State) : (s.drawn).alighting = s.alighting := rfl
@[simp] theorem State.drawn_captures (s : State) : (s.drawn).captures = s.captures := rfl
@[simp] theorem State.drawn_reentries (s : State) : (s.drawn).reentries = s.reentries := rfl
@[simp] theorem State.drawn_routers (s : State) : (s.drawn).routers = s.routers := rfl
@[simp] theorem State.drawn_combining (s : State) : (s.drawn).combining = s.combining := rfl
@[simp] theorem State.drawn_addsHere (s : State) : (s.drawn).addsHere = s.addsHere := rfl
@[simp] theorem State.drawn_wordsOpen (s : State) : (s.drawn).wordsOpen = s.wordsOpen := rfl
@[simp] theorem State.drawn_ports (s : State) : (s.drawn).ports = s.ports := rfl
@[simp] theorem State.drawn_routes (s : State) : (s.drawn).routes = s.routes := rfl
@[simp] theorem State.drawn_fabric (s : State) : (s.drawn).fabric = s.fabric := rfl
@[simp] theorem State.drawn_sent (s : State) : (s.drawn).sent = s.sent := rfl
@[simp] theorem State.drawn_grants (s : State) : (s.drawn).grants = s.grants := rfl
@[simp] theorem State.drawn_demands (s : State) : (s.drawn).demands = s.demands := rfl
@[simp] theorem State.drawn_device (s : State) : (s.drawn).device = s.device := rfl
@[simp] theorem State.drawn_linkKeySel (s : State) : (s.drawn).linkKeySel = s.linkKeySel := rfl
@[simp] theorem State.drawn_linkKeyData (s : State) : (s.drawn).linkKeyData = s.linkKeyData := rfl
@[simp] theorem State.drawn_svcMode (s : State) : (s.drawn).svcMode = s.svcMode := rfl
@[simp] theorem State.drawn_kettleCtl (s : State) : (s.drawn).kettleCtl = s.kettleCtl := rfl
@[simp] theorem State.drawn_capChanged (s : State) : (s.drawn).capChanged = s.capChanged := rfl
@[simp] theorem State.drawn_samQuotaSet (s : State) : (s.drawn).samQuotaSet = s.samQuotaSet := rfl
@[simp] theorem State.drawn_pinQuotaSet (s : State) : (s.drawn).pinQuotaSet = s.pinQuotaSet := rfl
@[simp] theorem State.drawn_dbgCtl (s : State) : (s.drawn).dbgCtl = s.dbgCtl := rfl
@[simp] theorem State.drawn_dbgSel (s : State) : (s.drawn).dbgSel = s.dbgSel := rfl
@[simp] theorem State.drawn_partitions (s : State) : (s.drawn).partitions = s.partitions := rfl
@[simp] theorem State.drawn_hostLink (s : State) : (s.drawn).hostLink = s.hostLink := rfl
@[simp] theorem State.drawn_hostHoles (s : State) : (s.drawn).hostHoles = s.hostHoles := rfl
@[simp] theorem State.drawn_queues (s : State) : (s.drawn).queues = s.queues := rfl
@[simp] theorem State.drawn_service (s : State) : (s.drawn).service = s.service := rfl
@[simp] theorem State.drawn_replays (s : State) : (s.drawn).replays = s.replays := rfl
@[simp] theorem State.drawn_errors (s : State) : (s.drawn).errors = s.errors := rfl
@[simp] theorem State.drawn_image (s : State) : (s.drawn).image = s.image := rfl
@[simp] theorem State.drawn_pendingImage (s : State) : (s.drawn).pendingImage = s.pendingImage := rfl

end Sys2Proof.Machine
end

