-- ==== Sys2Proof/Laws/Maps.lean ====
section
/-! SUPPORT. Reading and writing the sparse maps, and the strands, cores and general registers kept in them. -/
namespace Sys2Proof.Machine

/-! ### Maps -/

@[simp] theorem mapGet_mapSet_same {α : Type} (m : Map α) (k : Nat) (v d : α) : mapGet (mapSet m k v) k d = v := by
  induction m with
  | nil => simp [mapSet, mapGet]
  | cons h t ih =>
    simp only [mapSet]
    split
    · simp [mapGet]
    · split
      · simp [mapGet]
      · simp [mapGet, *]

theorem mapGet_mapSet_ne {α : Type} (m : Map α) {j k : Nat} (v d : α) (h : j ≠ k) :
    mapGet (mapSet m k v) j d = mapGet m j d := by
  induction m with
  | nil => simp [mapSet, mapGet, Ne.symm h]
  | cons x t ih =>
    simp only [mapSet]
    split
    · rename_i e; subst e; simp [mapGet, Ne.symm h]
    · split
      · simp [mapGet, Ne.symm h]
      · simp [mapGet, ih]

/-! ### Strands, cores and domains -/

@[simp] theorem State.strand_setStrand_same (s : State) (sid : Nat) (x : Strand) : (s.setStrand sid x).strand sid = x := by
  simp [State.strand]

theorem State.strand_setStrand_ne (s : State) {i j : Nat} (x : Strand) (h : i ≠ j) :
    (s.setStrand j x).strand i = s.strand i := by
  simp [State.strand, mapGet_mapSet_ne _ _ _ h]

@[simp] theorem State.core_setCore_same (s : State) (c : Nat) (x : Core) : (s.setCore c x).core c = x := by
  simp [State.core]

theorem State.core_setCore_ne (s : State) {i j : Nat} (x : Core) (h : i ≠ j) : (s.setCore j x).core i = s.core i := by
  simp [State.core, mapGet_mapSet_ne _ _ _ h]

@[simp] theorem State.domainOf_setDomain_same (s : State) (d : BitVec 12) (x : Domain) :
    (s.setDomain d x).domainOf d = x := by
  simp [State.domainOf]

theorem State.domainOf_setDomain_ne (s : State) {i j : BitVec 12} (x : Domain) (h : i ≠ j) :
    (s.setDomain j x).domainOf i = s.domainOf i := by
  have : i.toNat ≠ j.toNat := fun e => h (BitVec.eq_of_toNat_eq e)
  simp [State.domainOf, mapGet_mapSet_ne _ _ _ this]

@[simp] theorem State.core_setStrand (s : State) (sid c : Nat) (x : Strand) : (s.setStrand sid x).core c = s.core c := rfl

@[simp] theorem State.strand_setCore (s : State) (sid c : Nat) (x : Core) : (s.setCore c x).strand sid = s.strand sid := rfl

@[simp] theorem State.strand_writeMem (s : State) (sid a n x : Nat) : (s.writeMem a n x).strand sid = s.strand sid := rfl

@[simp] theorem State.core_writeMem (s : State) (c a n x : Nat) : (s.writeMem a n x).core c = s.core c := rfl

@[simp] theorem State.setMe_cur (s : State) (x : Strand) : (s.setMe x).cur = s.cur := rfl

@[simp] theorem State.setMe_mem (s : State) (x : Strand) : (s.setMe x).mem = s.mem := rfl

@[simp] theorem State.me_setMe (s : State) (x : Strand) : (s.setMe x).me = x := by simp [State.me, State.setMe]

theorem State.strand_setMe_ne (s : State) {sid : Nat} (x : Strand) (h : sid ≠ s.cur) :
    (s.setMe x).strand sid = s.strand sid := s.strand_setStrand_ne x h

/-! ### General registers (R33) -/

@[simp] theorem Strand.getG_zero (x : Strand) : x.getG 0 = 0 := rfl

@[simp] theorem Strand.setG_zero (x : Strand) (v : Word) : x.setG 0 v = x := rfl

theorem Strand.getG_setG_same (x : Strand) {d : BitVec 5} (v : Word) (h : d ≠ 0) : (x.setG d v).getG d = v := by
  rw [Strand.getG, if_neg h, Strand.setG]
  simp only [if_neg h, Vector.getElem_set_self]

theorem Strand.getG_setG_ne (x : Strand) {a d : BitVec 5} (v : Word) (h : a ≠ d) : (x.setG d v).getG a = x.getG a := by
  have : d.toNat ≠ a.toNat := fun e => h (BitVec.eq_of_toNat_eq e.symm)
  by_cases ha : a = 0
  · rw [Strand.getG, if_pos ha, Strand.getG, if_pos ha]
  by_cases hd : d = 0
  · rw [Strand.setG, if_pos hd]
  rw [Strand.getG, if_neg ha, Strand.getG, if_neg ha, Strand.setG]
  simp only [if_neg hd, Vector.getElem_set_ne _ _ this]

end Sys2Proof.Machine
end

