-- ==== Sys2Proof/Laws/Memory.lean ====
section
/-! SUPPORT. The memory laws: what a byte reads as after a write, and that every memory operation keeps the canonical
form. -/
namespace Sys2Proof.Machine

/-! ### One byte -/

theorem memGet_filter_same (m : List Host.Cell) (a : Nat) : memGet (m.filter (fun x => x.1 != a)) a = 0 := by
  induction m with
  | nil => rfl
  | cons h t ih =>
    by_cases e : h.1 = a
    · simpa [List.filter_cons, e] using ih
    · simp [e, memGet, ih]

theorem memGet_filter_ne (m : List Host.Cell) {a b : Nat} (h : a ≠ b) :
    memGet (m.filter (fun x => x.1 != b)) a = memGet m a := by
  induction m with
  | nil => rfl
  | cons x t ih =>
    by_cases e : x.1 = b
    · simp [e, memGet, ih, Ne.symm h]
    · simp [e, memGet, ih]

theorem memGet_mapSet_same (m : List Host.Cell) (a : Nat) (b : Byte) : memGet (mapSet m a b) a = b := by
  induction m with
  | nil => simp [mapSet, memGet]
  | cons h t ih =>
    simp only [mapSet]
    split
    · simp [memGet]
    · split
      · simp [memGet]
      · simp [memGet, *]

theorem memGet_mapSet_ne (m : List Host.Cell) {a b : Nat} (v : Byte) (h : a ≠ b) :
    memGet (mapSet m b v) a = memGet m a := by
  induction m with
  | nil => simp [mapSet, memGet, Ne.symm h]
  | cons x t ih =>
    simp only [mapSet]
    split
    · rename_i e; subst e; simp [memGet, Ne.symm h]
    · split
      · simp [memGet, Ne.symm h]
      · simp [memGet, ih]

/-- A byte written reads back. -/
@[simp] theorem memGet_memSet_same (m : List Host.Cell) (a : Nat) (b : Byte) : memGet (memSet m a b) a = b := by
  unfold memSet
  split
  · rename_i h; rw [h]; exact memGet_filter_same m a
  · exact memGet_mapSet_same m a b

/-- A write of one byte leaves every other byte. -/
theorem memGet_memSet_ne (m : List Host.Cell) {a b : Nat} (v : Byte) (h : a ≠ b) :
    memGet (memSet m b v) a = memGet m a := by
  unfold memSet
  split
  · exact memGet_filter_ne m h
  · exact memGet_mapSet_ne m v h

/-! ### The canonical form -/

theorem Memory.wf_cons {k : Nat} {b : Byte} {t : List Host.Cell} :
    Memory.wf ((k, b) :: t) = true ↔ b ≠ 0 ∧ (∀ x ∈ t, k < x.1) ∧ Memory.wf t = true := by
  simp [Memory.wf, and_assoc]

theorem Memory.wf_filter {m : List Host.Cell} (h : Memory.wf m = true) (p : Host.Cell → Bool) :
    Memory.wf (m.filter p) = true := by
  induction m with
  | nil => rfl
  | cons x t ih =>
    obtain ⟨k, b⟩ := x
    obtain ⟨hb, hk, ht⟩ := Memory.wf_cons.mp h
    by_cases e : p (k, b)
    · rw [List.filter_cons_of_pos e]
      exact Memory.wf_cons.mpr ⟨hb, fun y hy => hk y (List.mem_filter.mp hy).1, ih ht⟩
    · rw [List.filter_cons_of_neg e]; exact ih ht

theorem mem_mapSet {m : List Host.Cell} {a : Nat} {b : Byte} {y : Host.Cell} (h : y ∈ mapSet m a b) :
    y = (a, b) ∨ y ∈ m := by
  induction m with
  | nil => simpa [mapSet] using h
  | cons x t ih =>
    simp only [mapSet] at h
    split at h
    · rcases List.mem_cons.mp h with h | h
      · exact .inl h
      · exact .inr (List.mem_cons_of_mem _ h)
    · split at h
      · rcases List.mem_cons.mp h with h | h
        · exact .inl h
        · exact .inr h
      · rcases List.mem_cons.mp h with h | h
        · exact .inr (h ▸ List.mem_cons_self)
        · exact (ih h).imp id (List.mem_cons_of_mem _)

theorem Memory.wf_mapSet {m : List Host.Cell} (h : Memory.wf m = true) (a : Nat) {b : Byte} (hb : b ≠ 0) :
    Memory.wf (mapSet m a b) = true := by
  induction m with
  | nil => simpa [mapSet, Memory.wf] using hb
  | cons x t ih =>
    obtain ⟨k, c⟩ := x
    obtain ⟨hc, hk, ht⟩ := Memory.wf_cons.mp h
    simp only [mapSet]
    split
    · rename_i e; subst e; exact Memory.wf_cons.mpr ⟨hb, hk, ht⟩
    · split
      · rename_i lt
        refine Memory.wf_cons.mpr ⟨hb, fun y hy => ?_, h⟩
        rcases List.mem_cons.mp hy with rfl | hy
        · exact lt
        · exact Nat.lt_trans lt (hk y hy)
      · refine Memory.wf_cons.mpr ⟨hc, fun y hy => ?_, ih ht⟩
        rcases mem_mapSet hy with rfl | hy
        · show k < a; omega
        · exact hk y hy

/-- Writing one byte keeps the canonical form. -/
theorem Memory.wf_memSet {m : List Host.Cell} (h : Memory.wf m = true) (a : Nat) (b : Byte) :
    Memory.wf (memSet m a b) = true := by
  unfold memSet
  split
  · exact Memory.wf_filter h _
  · rename_i hb; exact Memory.wf_mapSet h a hb

/-- Writing a run of bytes keeps the canonical form. -/
theorem Memory.wf_writeBytes {m : List Host.Cell} (h : Memory.wf m = true) (a n x : Nat) :
    Memory.wf (writeBytes m a n x) = true := by
  induction n generalizing m a x with
  | zero => exact h
  | succ n ih => exact ih (Memory.wf_memSet h _ _) _ _

/-- `writeMem`, the one operation the meanings store with, keeps the canonical form. -/
theorem State.wf_writeMem {s : State} (h : Memory.wf s.mem = true) (a n x : Nat) :
    Memory.wf (s.writeMem a n x).mem = true := Memory.wf_writeBytes h a n x

theorem State.wf_reset : Memory.wf State.reset.mem = true := rfl

/-! ### Runs of bytes (R5) -/

/-- A run of bytes written leaves every byte outside the run. -/
theorem memGet_writeBytes_outside (m : List Host.Cell) (a n x : Nat) {b : Nat} (h : b < a ∨ a + n ≤ b) :
    memGet (writeBytes m a n x) b = memGet m b := by
  induction n generalizing m a x with
  | zero => rfl
  | succ n ih =>
    rw [writeBytes, ih _ _ _ (by omega), memGet_memSet_ne _ _ (by omega)]

/-- A byte of a run written is that byte of the number, byte 0 lowest. -/
theorem memGet_writeBytes_inside (m : List Host.Cell) (a n x i : Nat) (h : i < n) :
    memGet (writeBytes m a n x) (a + i) = BitVec.ofNat 8 (x / 256 ^ i) := by
  induction n generalizing m a x i with
  | zero => omega
  | succ n ih =>
    rw [writeBytes]
    match i with
    | 0 => rw [memGet_writeBytes_outside _ _ _ _ (by omega)]; simp
    | i + 1 =>
      have e : a + (i + 1) = a + 1 + i := by omega
      rw [e, ih _ _ _ i (by omega), Nat.div_div_eq_div_mul, Nat.pow_succ, Nat.mul_comm]

theorem State.byteAt_writeMem_outside (s : State) (a n x : Nat) {b : Nat} (h : b < a ∨ a + n ≤ b) :
    (s.writeMem a n x).byteAt b = s.byteAt b := memGet_writeBytes_outside s.mem a n x h

theorem readBytes_congr {f g : Nat → Byte} {a n : Nat} (h : ∀ b, a ≤ b → b < a + n → f b = g b) :
    readBytes f a n = readBytes g a n := by
  induction n generalizing a with
  | zero => rfl
  | succ n ih =>
    rw [readBytes, readBytes, h a (by omega) (by omega), ih (fun b hb hb' => h b (by omega) (by omega))]

/-- Read after write: a run of bytes reads back as the number written, modulo its width. -/
theorem readBytes_writeBytes (m : List Host.Cell) (a n x : Nat) :
    readBytes (memGet (writeBytes m a n x)) a n = x % 256 ^ n := by
  induction n generalizing m a x with
  | zero => simp [readBytes, Nat.mod_one]
  | succ n ih =>
    rw [readBytes, writeBytes, memGet_writeBytes_outside _ _ _ _ (by omega), memGet_memSet_same, ih,
      Nat.pow_succ, Nat.mul_comm (256 ^ n) 256, Nat.mod_mul]
    simp

/-- Read after write elsewhere: two runs that do not meet. -/
theorem State.readMem_writeMem_outside (s : State) (a n x : Nat) {b k : Nat} (h : b + k ≤ a ∨ a + n ≤ b) :
    (s.writeMem a n x).readMem b k = s.readMem b k :=
  readBytes_congr fun c hc hc' => s.byteAt_writeMem_outside a n x (by omega)

end Sys2Proof.Machine
end

