-- ==== Sys2Proof/Laws/Encryption.lean ====
section
/-! SUPPORT. Reading and writing under a key (R315): read after write, what a write leaves, the canonical form of memory, and
that a write changes memory and the sectors' keys alone. -/
namespace Sys2Proof.Machine

/-! ### The key of a sector -/

theorem find_mapSet_same {α : Type} (m : Map α) (k : Nat) (v : α) : (mapSet m k v).find? (fun x => x.1 == k) = some (k, v) := by
  induction m with
  | nil => simp [mapSet]
  | cons x t ih =>
    simp only [mapSet]
    split
    · simp
    · split
      · simp
      · simp [*]

theorem find_mapSet_ne {α : Type} (m : Map α) {j k : Nat} (v : α) (h : j ≠ k) :
    (mapSet m k v).find? (fun x => x.1 == j) = m.find? (fun x => x.1 == j) := by
  induction m with
  | nil => simp [mapSet, Ne.symm h]
  | cons x t ih =>
    simp only [mapSet]
    split
    · rename_i e; subst e; simp [beq_false_of_ne (Ne.symm h)]
    · split
      · simp [List.find?_cons, beq_false_of_ne (Ne.symm h)]
      · simp [List.find?_cons, ih]

theorem find_mapDrop_same {α : Type} (m : Map α) (k : Nat) : (mapDrop m k).find? (fun x => x.1 == k) = none := by
  simp [mapDrop]

theorem find_mapDrop_ne {α : Type} (m : Map α) {j k : Nat} (h : j ≠ k) :
    (mapDrop m k).find? (fun x => x.1 == j) = m.find? (fun x => x.1 == j) := by
  induction m with
  | nil => rfl
  | cons x t ih =>
    by_cases e : x.1 = k
    · simp only [mapDrop, e, bne_self_eq_false, Bool.false_eq_true, not_false_eq_true, List.filter_cons_of_neg,
        List.find?_cons, beq_false_of_ne (Ne.symm h)] at ih ⊢
      exact ih
    · have e' : (x.1 != k) = true := by simp [e]
      simp only [mapDrop, e', List.filter_cons_of_pos, List.find?_cons] at ih ⊢
      rw [ih]

/-- A sector whose key is set has that key. -/
@[simp] theorem find_setSectorKey_same (m : Map (BitVec 512)) (sec : Nat) (key : Option (BitVec 512)) :
    ((setSectorKey m sec key).find? (fun x => x.1 == sec)).map Prod.snd = key := by
  cases key with
  | none => simp [setSectorKey, find_mapDrop_same]
  | some k => simp [setSectorKey, find_mapSet_same]

/-- Every other sector keeps its key. -/
theorem find_setSectorKey_ne (m : Map (BitVec 512)) {j sec : Nat} (key : Option (BitVec 512)) (h : j ≠ sec) :
    (setSectorKey m sec key).find? (fun x => x.1 == j) = m.find? (fun x => x.1 == j) := by
  cases key with
  | none => exact find_mapDrop_ne m h
  | some k => exact find_mapSet_ne m k h

@[simp] theorem State.sectorKey_writeMem (s : State) (a n x sec : Nat) : (s.writeMem a n x).sectorKey sec = s.sectorKey sec := rfl

/-! ### Taking a sector under a key -/

/-- `rekey` leaves the sector under the key. -/
@[simp] theorem State.sectorKey_rekey_same (key : Option (BitVec 512)) (a n : Nat) (s : State) (sec : Nat) :
    (s.rekey key a n sec).sectorKey sec = key := by
  unfold State.rekey
  split
  · assumption
  · split <;> simp [State.sectorKey, State.writeMem]

/-- `rekey` leaves every other sector's key. -/
theorem State.sectorKey_rekey_ne (key : Option (BitVec 512)) (a n : Nat) (s : State) {j sec : Nat} (h : j ≠ sec) :
    (s.rekey key a n sec).sectorKey j = s.sectorKey j := by
  unfold State.rekey
  split
  · rfl
  · split <;> simp [State.sectorKey, State.writeMem, find_setSectorKey_ne _ _ h]

/-- `rekey` leaves every byte outside its sector. -/
theorem State.byteAt_rekey_outside (key : Option (BitVec 512)) (a n : Nat) (s : State) {b sec : Nat} (h : b / 32 ≠ sec) :
    (s.rekey key a n sec).byteAt b = s.byteAt b := by
  unfold State.rekey
  split
  · rfl
  · split
    · rfl
    · exact State.byteAt_writeMem_outside _ _ _ _ (by omega)

/-- A byte of a number read from a run of bytes. -/
theorem readBytes_byte (f : Nat → Byte) (a n i : Nat) (h : i < n) : BitVec.ofNat 8 (readBytes f a n / 256 ^ i) = f (a + i) := by
  induction n generalizing a i with
  | zero => omega
  | succ n ih =>
    match i with
    | 0 =>
      apply BitVec.eq_of_toNat_eq
      have := (f a).isLt
      simp [readBytes]
      omega
    | i + 1 =>
      have e : readBytes f a (n + 1) / 256 ^ (i + 1) = readBytes f (a + 1) n / 256 ^ i := by
        have := (f a).isLt
        rw [Nat.pow_succ, Nat.mul_comm, ← Nat.div_div_eq_div_mul, readBytes]
        congr 1
        omega
      rw [e, ih _ _ (by omega)]
      congr 1
      omega

/-- A byte under a key is unchanged by whatever leaves its sector and its sector's key. -/
theorem State.byteUnder_congr {s t : State} {key : Option (BitVec 512)} {b : Nat}
    (hk : t.sectorKey (b / 32) = s.sectorKey (b / 32)) (h : ∀ c, c / 32 = b / 32 → t.byteAt c = s.byteAt c) :
    t.byteUnder key b = s.byteUnder key b := by
  have hr : t.readMem (32 * (b / 32)) 32 = s.readMem (32 * (b / 32)) 32 :=
    readBytes_congr fun c _ _ => h c (by omega)
  unfold State.byteUnder
  rw [hk, hr, h b rfl]

/-- `rekey` leaves every byte outside its sector, under any key. -/
theorem State.byteUnder_rekey_ne (key key' : Option (BitVec 512)) (a n : Nat) (s : State) {b sec : Nat} (h : b / 32 ≠ sec) :
    (s.rekey key a n sec).byteUnder key' b = s.byteUnder key' b :=
  byteUnder_congr (s.sectorKey_rekey_ne key a n h) fun c hc => s.byteAt_rekey_outside key a n (by omega)

/-- `rekey` leaves, under its key, every byte that the write does not store. -/
theorem State.byteUnder_rekey_outside (key : Option (BitVec 512)) (a n : Nat) (s : State) (sec : Nat) {b : Nat}
    (h : b < a ∨ a + n ≤ b) : (s.rekey key a n sec).byteUnder key b = s.byteUnder key b := by
  by_cases e : b / 32 = sec
  · rw [State.byteUnder, e, sectorKey_rekey_same, if_pos rfl]
    unfold State.rekey
    split
    · rename_i hk; rw [State.byteUnder, e, if_pos hk]
    · split
      · omega
      · have hb : b = 32 * sec + b % 32 := by omega
        show memGet (writeBytes s.mem (32 * sec) 32 (s.readUnder key (32 * sec) 32)) b = _
        conv => lhs; rw [hb]
        rw [memGet_writeBytes_inside _ _ _ _ _ (by omega), State.readUnder, readBytes_byte _ _ _ _ (by omega), ← hb]
  · exact s.byteUnder_rekey_ne key key a n e

/-! ### A write under a key -/

theorem mem_sectorsOf {a n sec : Nat} : sec ∈ sectorsOf a n ↔ 0 < n ∧ a / 32 ≤ sec ∧ sec ≤ (a + n - 1) / 32 := by
  unfold sectorsOf
  split
  · simp; omega
  · simp only [List.mem_map, List.mem_range]
    constructor
    · rintro ⟨i, hi, rfl⟩; omega
    · rintro ⟨_, h, h'⟩; exact ⟨sec - a / 32, by omega, by omega⟩

theorem State.foldl_rekey_outside (key : Option (BitVec 512)) (a n : Nat) (l : List Nat) (s : State) {b : Nat}
    (h : b < a ∨ a + n ≤ b) : (l.foldl (State.rekey key a n) s).byteUnder key b = s.byteUnder key b := by
  induction l generalizing s with
  | nil => rfl
  | cons x t ih => rw [List.foldl_cons, ih, s.byteUnder_rekey_outside key a n x h]

theorem State.foldl_rekey_elsewhere (key key' : Option (BitVec 512)) (a n : Nat) (l : List Nat) (s : State) {b : Nat}
    (h : b / 32 ∉ l) : (l.foldl (State.rekey key a n) s).byteUnder key' b = s.byteUnder key' b := by
  induction l generalizing s with
  | nil => rfl
  | cons x t ih =>
    simp only [List.mem_cons, not_or] at h
    rw [List.foldl_cons, ih _ h.2, s.byteUnder_rekey_ne key key' a n h.1]

theorem State.foldl_rekey_kept (key : Option (BitVec 512)) (a n : Nat) (l : List Nat) (s : State) {sec : Nat}
    (h : s.sectorKey sec = key) : (l.foldl (State.rekey key a n) s).sectorKey sec = key := by
  induction l generalizing s with
  | nil => exact h
  | cons x t ih =>
    refine ih _ ?_
    by_cases e : sec = x
    · subst e; exact s.sectorKey_rekey_same key a n sec
    · rw [s.sectorKey_rekey_ne key a n e, h]

theorem State.foldl_rekey_key (key : Option (BitVec 512)) (a n : Nat) (l : List Nat) (s : State) {sec : Nat} (h : sec ∈ l) :
    (l.foldl (State.rekey key a n) s).sectorKey sec = key := by
  induction l generalizing s with
  | nil => cases h
  | cons x t ih =>
    rw [List.foldl_cons]
    by_cases e : sec = x
    · subst e; exact foldl_rekey_kept key a n t _ (s.sectorKey_rekey_same key a n sec)
    · exact ih _ ((List.mem_cons.1 h).resolve_left e)

/-- A sector that a write touches is under the write's key after it. -/
theorem State.sectorKey_writeUnder (s : State) (key : Option (BitVec 512)) (a n x : Nat) {sec : Nat} (h : sec ∈ sectorsOf a n) :
    (s.writeUnder key a n x).sectorKey sec = key := foldl_rekey_key key a n _ s h

/-- A write under a key leaves, under that key, every byte it does not store. -/
theorem State.byteUnder_writeUnder_outside (s : State) (key : Option (BitVec 512)) (a n x : Nat) {b : Nat}
    (h : b < a ∨ a + n ≤ b) : (s.writeUnder key a n x).byteUnder key b = s.byteUnder key b := by
  rw [← foldl_rekey_outside key a n (sectorsOf a n) s h]
  by_cases e : b / 32 ∈ sectorsOf a n
  · rw [State.byteUnder, s.sectorKey_writeUnder key a n x e, if_pos rfl, State.byteUnder, foldl_rekey_key key a n _ s e,
      if_pos rfl]
    exact byteAt_writeMem_outside _ a n x h
  · rw [mem_sectorsOf] at e
    exact byteUnder_congr rfl fun c hc => byteAt_writeMem_outside _ a n x (by omega)

/-- A write under a key leaves every sector it does not touch, under any key. -/
theorem State.byteUnder_writeUnder_elsewhere (s : State) (key key' : Option (BitVec 512)) (a n x : Nat) {b : Nat}
    (h : b / 32 ∉ sectorsOf a n) : (s.writeUnder key a n x).byteUnder key' b = s.byteUnder key' b := by
  rw [← foldl_rekey_elsewhere key key' a n (sectorsOf a n) s h]
  rw [mem_sectorsOf] at h
  exact byteUnder_congr rfl fun c hc => byteAt_writeMem_outside _ a n x (by omega)

/-- Read after write: a byte stored reads, under the same key, as that byte of the number. -/
theorem State.byteUnder_writeUnder_inside (s : State) (key : Option (BitVec 512)) (a n x i : Nat) (h : i < n) :
    (s.writeUnder key a n x).byteUnder key (a + i) = BitVec.ofNat 8 (x / 256 ^ i) := by
  have e : (a + i) / 32 ∈ sectorsOf a n := by rw [mem_sectorsOf]; omega
  rw [State.byteUnder, s.sectorKey_writeUnder key a n x e, if_pos rfl]
  exact memGet_writeBytes_inside _ a n x i h

/-- Read after write under one key: the number written, modulo its width. -/
theorem State.readUnder_writeUnder (s : State) (key : Option (BitVec 512)) (a n x : Nat) :
    (s.writeUnder key a n x).readUnder key a n = x % 256 ^ n := by
  rw [← readBytes_writeBytes s.mem a n x]
  exact readBytes_congr fun b hb hb' => by
    obtain ⟨i, rfl⟩ := Nat.exists_eq_add_of_le hb
    rw [s.byteUnder_writeUnder_inside key a n x i (by omega), memGet_writeBytes_inside _ _ _ _ _ (by omega)]

/-- Where every sector it touches is under its key already, a write under a key is a plain write. -/
theorem State.writeUnder_plain {s : State} {key : Option (BitVec 512)} {a n : Nat}
    (h : ∀ sec ∈ sectorsOf a n, s.sectorKey sec = key) (x : Nat) : s.writeUnder key a n x = s.writeMem a n x := by
  have : ∀ l : List Nat, (∀ sec ∈ l, s.sectorKey sec = key) → l.foldl (State.rekey key a n) s = s := by
    intro l
    induction l with
    | nil => intro _; rfl
    | cons y t ih =>
      intro hl
      rw [List.foldl_cons, State.rekey, if_pos (hl y (by simp))]
      exact ih fun z hz => hl z (by simp [hz])
  rw [State.writeUnder, this _ h]

/-- Where every sector is under a key, a read under that key is a plain read. -/
theorem State.readUnder_plain {s : State} {key : Option (BitVec 512)} {a n : Nat}
    (h : ∀ sec ∈ sectorsOf a n, s.sectorKey sec = key) : s.readUnder key a n = s.readMem a n :=
  readBytes_congr fun b hb hb' => by
    rw [State.byteUnder, if_pos (h _ (mem_sectorsOf.2 ⟨by omega, by omega, by omega⟩))]

/-! ### What a write changes -/

theorem State.rekey_only (key : Option (BitVec 512)) (a n : Nat) (s : State) (sec : Nat) :
    ∃ m k, s.rekey key a n sec = { s with mem := m, sectorKeys := k } ∧ (Memory.wf s.mem = true → Memory.wf m = true) := by
  unfold State.rekey
  split
  · exact ⟨s.mem, s.sectorKeys, rfl, id⟩
  · split
    · exact ⟨s.mem, _, rfl, id⟩
    · exact ⟨_, _, rfl, fun h => Memory.wf_writeBytes h _ _ _⟩

theorem State.foldl_rekey_only (key : Option (BitVec 512)) (a n : Nat) (l : List Nat) (s : State) :
    ∃ m k, l.foldl (State.rekey key a n) s = { s with mem := m, sectorKeys := k } ∧
      (Memory.wf s.mem = true → Memory.wf m = true) := by
  induction l generalizing s with
  | nil => exact ⟨s.mem, s.sectorKeys, rfl, id⟩
  | cons x t ih =>
    obtain ⟨m, k, h, w⟩ := s.rekey_only key a n x
    obtain ⟨m', k', h', w'⟩ := ih (s.rekey key a n x)
    rw [List.foldl_cons, h']
    rw [h] at w' ⊢
    exact ⟨m', k', rfl, fun z => w' (w z)⟩

/-- A write under a key changes memory and the sectors' keys alone, and keeps memory's canonical form. -/
theorem State.writeUnder_only (s : State) (key : Option (BitVec 512)) (a n x : Nat) :
    ∃ m k, s.writeUnder key a n x = { s with mem := m, sectorKeys := k } ∧ (Memory.wf s.mem = true → Memory.wf m = true) := by
  obtain ⟨m, k, h, w⟩ := State.foldl_rekey_only key a n (sectorsOf a n) s
  rw [State.writeUnder, h]
  exact ⟨_, k, rfl, fun z => Memory.wf_writeBytes (w z) a n x⟩

/-- A run written changes memory and the sectors' keys alone, and keeps memory's canonical form. -/
theorem State.writeSpan_only (s : State) (f : Span) (n x : Nat) :
    ∃ m k, s.writeSpan f n x = { s with mem := m, sectorKeys := k } ∧ (Memory.wf s.mem = true → Memory.wf m = true) := by
  unfold State.writeSpan
  split
  · exact s.writeUnder_only _ _ _ _
  · obtain ⟨m, k, h, w⟩ := s.writeUnder_only f.key f.pa f.cut x
    obtain ⟨m', k', h', w'⟩ := State.writeUnder_only (s.writeUnder f.key f.pa f.cut x) f.restKey (f.rest + f.cut) (n - f.cut)
      (x / 256 ^ f.cut)
    rw [h']
    rw [h] at w' ⊢
    exact ⟨m', k', rfl, fun z => w' (w z)⟩

theorem State.wf_writeSpan {s : State} (h : Memory.wf s.mem = true) (f : Span) (n x : Nat) :
    Memory.wf (s.writeSpan f n x).mem = true := by
  obtain ⟨m, k, e, w⟩ := s.writeSpan_only f n x
  rw [e]; exact w h

/-- A run of 1 part is written and read under its one key. -/
theorem State.writeSpan_one (s : State) {f : Span} {n : Nat} (h : n ≤ f.cut) (x : Nat) :
    s.writeSpan f n x = s.writeUnder f.key f.pa n x := if_pos h

theorem State.readSpan_one (s : State) {f : Span} {n : Nat} (h : n ≤ f.cut) : s.readSpan f n = s.readUnder f.key f.pa n :=
  if_pos h

/-! ### `State.writeSpan`, field by field -/

@[simp] theorem State.writeSpan_cycle (s : State) (f : Span) (n x : Nat) : (s.writeSpan f n x).cycle = s.cycle := by
  obtain ⟨_, _, h, _⟩ := s.writeSpan_only f n x; rw [h]
@[simp] theorem State.writeSpan_agenda (s : State) (f : Span) (n x : Nat) : (s.writeSpan f n x).agenda = s.agenda := by
  obtain ⟨_, _, h, _⟩ := s.writeSpan_only f n x; rw [h]
@[simp] theorem State.writeSpan_phase (s : State) (f : Span) (n x : Nat) : (s.writeSpan f n x).phase = s.phase := by
  obtain ⟨_, _, h, _⟩ := s.writeSpan_only f n x; rw [h]
@[simp] theorem State.writeSpan_turned (s : State) (f : Span) (n x : Nat) : (s.writeSpan f n x).turned = s.turned := by
  obtain ⟨_, _, h, _⟩ := s.writeSpan_only f n x; rw [h]
@[simp] theorem State.writeSpan_cur (s : State) (f : Span) (n x : Nat) : (s.writeSpan f n x).cur = s.cur := by
  obtain ⟨_, _, h, _⟩ := s.writeSpan_only f n x; rw [h]
@[simp] theorem State.writeSpan_fresh (s : State) (f : Span) (n x : Nat) : (s.writeSpan f n x).fresh = s.fresh := by
  obtain ⟨_, _, h, _⟩ := s.writeSpan_only f n x; rw [h]
@[simp] theorem State.writeSpan_serial (s : State) (f : Span) (n x : Nat) : (s.writeSpan f n x).serial = s.serial := by
  obtain ⟨_, _, h, _⟩ := s.writeSpan_only f n x; rw [h]
@[simp] theorem State.writeSpan_powered (s : State) (f : Span) (n x : Nat) : (s.writeSpan f n x).powered = s.powered := by
  obtain ⟨_, _, h, _⟩ := s.writeSpan_only f n x; rw [h]
@[simp] theorem State.writeSpan_strands (s : State) (f : Span) (n x : Nat) : (s.writeSpan f n x).strands = s.strands := by
  obtain ⟨_, _, h, _⟩ := s.writeSpan_only f n x; rw [h]
@[simp] theorem State.writeSpan_cores (s : State) (f : Span) (n x : Nat) : (s.writeSpan f n x).cores = s.cores := by
  obtain ⟨_, _, h, _⟩ := s.writeSpan_only f n x; rw [h]
@[simp] theorem State.writeSpan_domains (s : State) (f : Span) (n x : Nat) : (s.writeSpan f n x).domains = s.domains := by
  obtain ⟨_, _, h, _⟩ := s.writeSpan_only f n x; rw [h]
@[simp] theorem State.writeSpan_spad (s : State) (f : Span) (n x : Nat) : (s.writeSpan f n x).spad = s.spad := by
  obtain ⟨_, _, h, _⟩ := s.writeSpan_only f n x; rw [h]
@[simp] theorem State.writeSpan_footStores (s : State) (f : Span) (n x : Nat) : (s.writeSpan f n x).footStores = s.footStores := by
  obtain ⟨_, _, h, _⟩ := s.writeSpan_only f n x; rw [h]
@[simp] theorem State.writeSpan_poison (s : State) (f : Span) (n x : Nat) : (s.writeSpan f n x).poison = s.poison := by
  obtain ⟨_, _, h, _⟩ := s.writeSpan_only f n x; rw [h]
@[simp] theorem State.writeSpan_spadPoison (s : State) (f : Span) (n x : Nat) : (s.writeSpan f n x).spadPoison = s.spadPoison := by
  obtain ⟨_, _, h, _⟩ := s.writeSpan_only f n x; rw [h]
@[simp] theorem State.writeSpan_root (s : State) (f : Span) (n x : Nat) : (s.writeSpan f n x).root = s.root := by
  obtain ⟨_, _, h, _⟩ := s.writeSpan_only f n x; rw [h]
@[simp] theorem State.writeSpan_translations (s : State) (f : Span) (n x : Nat) : (s.writeSpan f n x).translations = s.translations := by
  obtain ⟨_, _, h, _⟩ := s.writeSpan_only f n x; rw [h]
@[simp] theorem State.writeSpan_migrations (s : State) (f : Span) (n x : Nat) : (s.writeSpan f n x).migrations = s.migrations := by
  obtain ⟨_, _, h, _⟩ := s.writeSpan_only f n x; rw [h]
@[simp] theorem State.writeSpan_keySlots (s : State) (f : Span) (n x : Nat) : (s.writeSpan f n x).keySlots = s.keySlots := by
  obtain ⟨_, _, h, _⟩ := s.writeSpan_only f n x; rw [h]
@[simp] theorem State.writeSpan_caps (s : State) (f : Span) (n x : Nat) : (s.writeSpan f n x).caps = s.caps := by
  obtain ⟨_, _, h, _⟩ := s.writeSpan_only f n x; rw [h]
@[simp] theorem State.writeSpan_capsAt (s : State) (f : Span) (n x : Nat) : (s.writeSpan f n x).capsAt = s.capsAt := by
  obtain ⟨_, _, h, _⟩ := s.writeSpan_only f n x; rw [h]
@[simp] theorem State.writeSpan_pins (s : State) (f : Span) (n x : Nat) : (s.writeSpan f n x).pins = s.pins := by
  obtain ⟨_, _, h, _⟩ := s.writeSpan_only f n x; rw [h]
@[simp] theorem State.writeSpan_arenas (s : State) (f : Span) (n x : Nat) : (s.writeSpan f n x).arenas = s.arenas := by
  obtain ⟨_, _, h, _⟩ := s.writeSpan_only f n x; rw [h]
@[simp] theorem State.writeSpan_freeBlocks (s : State) (f : Span) (n x : Nat) : (s.writeSpan f n x).freeBlocks = s.freeBlocks := by
  obtain ⟨_, _, h, _⟩ := s.writeSpan_only f n x; rw [h]
@[simp] theorem State.writeSpan_blocksBack (s : State) (f : Span) (n x : Nat) : (s.writeSpan f n x).blocksBack = s.blocksBack := by
  obtain ⟨_, _, h, _⟩ := s.writeSpan_only f n x; rw [h]
@[simp] theorem State.writeSpan_steepBufs (s : State) (f : Span) (n x : Nat) : (s.writeSpan f n x).steepBufs = s.steepBufs := by
  obtain ⟨_, _, h, _⟩ := s.writeSpan_only f n x; rw [h]
@[simp] theorem State.writeSpan_steepSent (s : State) (f : Span) (n x : Nat) : (s.writeSpan f n x).steepSent = s.steepSent := by
  obtain ⟨_, _, h, _⟩ := s.writeSpan_only f n x; rw [h]
@[simp] theorem State.writeSpan_recordsDue (s : State) (f : Span) (n x : Nat) : (s.writeSpan f n x).recordsDue = s.recordsDue := by
  obtain ⟨_, _, h, _⟩ := s.writeSpan_only f n x; rw [h]
@[simp] theorem State.writeSpan_messages (s : State) (f : Span) (n x : Nat) : (s.writeSpan f n x).messages = s.messages := by
  obtain ⟨_, _, h, _⟩ := s.writeSpan_only f n x; rw [h]
@[simp] theorem State.writeSpan_handling (s : State) (f : Span) (n x : Nat) : (s.writeSpan f n x).handling = s.handling := by
  obtain ⟨_, _, h, _⟩ := s.writeSpan_only f n x; rw [h]
@[simp] theorem State.writeSpan_tickets (s : State) (f : Span) (n x : Nat) : (s.writeSpan f n x).tickets = s.tickets := by
  obtain ⟨_, _, h, _⟩ := s.writeSpan_only f n x; rw [h]
@[simp] theorem State.writeSpan_nextTicket (s : State) (f : Span) (n x : Nat) : (s.writeSpan f n x).nextTicket = s.nextTicket := by
  obtain ⟨_, _, h, _⟩ := s.writeSpan_only f n x; rw [h]
@[simp] theorem State.writeSpan_gangs (s : State) (f : Span) (n x : Nat) : (s.writeSpan f n x).gangs = s.gangs := by
  obtain ⟨_, _, h, _⟩ := s.writeSpan_only f n x; rw [h]
@[simp] theorem State.writeSpan_launches (s : State) (f : Span) (n x : Nat) : (s.writeSpan f n x).launches = s.launches := by
  obtain ⟨_, _, h, _⟩ := s.writeSpan_only f n x; rw [h]
@[simp] theorem State.writeSpan_nextLaunch (s : State) (f : Span) (n x : Nat) : (s.writeSpan f n x).nextLaunch = s.nextLaunch := by
  obtain ⟨_, _, h, _⟩ := s.writeSpan_only f n x; rw [h]
@[simp] theorem State.writeSpan_records (s : State) (f : Span) (n x : Nat) : (s.writeSpan f n x).records = s.records := by
  obtain ⟨_, _, h, _⟩ := s.writeSpan_only f n x; rw [h]
@[simp] theorem State.writeSpan_boarding (s : State) (f : Span) (n x : Nat) : (s.writeSpan f n x).boarding = s.boarding := by
  obtain ⟨_, _, h, _⟩ := s.writeSpan_only f n x; rw [h]
@[simp] theorem State.writeSpan_alighting (s : State) (f : Span) (n x : Nat) : (s.writeSpan f n x).alighting = s.alighting := by
  obtain ⟨_, _, h, _⟩ := s.writeSpan_only f n x; rw [h]
@[simp] theorem State.writeSpan_captures (s : State) (f : Span) (n x : Nat) : (s.writeSpan f n x).captures = s.captures := by
  obtain ⟨_, _, h, _⟩ := s.writeSpan_only f n x; rw [h]
@[simp] theorem State.writeSpan_reentries (s : State) (f : Span) (n x : Nat) : (s.writeSpan f n x).reentries = s.reentries := by
  obtain ⟨_, _, h, _⟩ := s.writeSpan_only f n x; rw [h]
@[simp] theorem State.writeSpan_routers (s : State) (f : Span) (n x : Nat) : (s.writeSpan f n x).routers = s.routers := by
  obtain ⟨_, _, h, _⟩ := s.writeSpan_only f n x; rw [h]
@[simp] theorem State.writeSpan_combining (s : State) (f : Span) (n x : Nat) : (s.writeSpan f n x).combining = s.combining := by
  obtain ⟨_, _, h, _⟩ := s.writeSpan_only f n x; rw [h]
@[simp] theorem State.writeSpan_addsHere (s : State) (f : Span) (n x : Nat) : (s.writeSpan f n x).addsHere = s.addsHere := by
  obtain ⟨_, _, h, _⟩ := s.writeSpan_only f n x; rw [h]
@[simp] theorem State.writeSpan_wordsOpen (s : State) (f : Span) (n x : Nat) : (s.writeSpan f n x).wordsOpen = s.wordsOpen := by
  obtain ⟨_, _, h, _⟩ := s.writeSpan_only f n x; rw [h]
@[simp] theorem State.writeSpan_ports (s : State) (f : Span) (n x : Nat) : (s.writeSpan f n x).ports = s.ports := by
  obtain ⟨_, _, h, _⟩ := s.writeSpan_only f n x; rw [h]
@[simp] theorem State.writeSpan_routes (s : State) (f : Span) (n x : Nat) : (s.writeSpan f n x).routes = s.routes := by
  obtain ⟨_, _, h, _⟩ := s.writeSpan_only f n x; rw [h]
@[simp] theorem State.writeSpan_fabric (s : State) (f : Span) (n x : Nat) : (s.writeSpan f n x).fabric = s.fabric := by
  obtain ⟨_, _, h, _⟩ := s.writeSpan_only f n x; rw [h]
@[simp] theorem State.writeSpan_sent (s : State) (f : Span) (n x : Nat) : (s.writeSpan f n x).sent = s.sent := by
  obtain ⟨_, _, h, _⟩ := s.writeSpan_only f n x; rw [h]
@[simp] theorem State.writeSpan_grants (s : State) (f : Span) (n x : Nat) : (s.writeSpan f n x).grants = s.grants := by
  obtain ⟨_, _, h, _⟩ := s.writeSpan_only f n x; rw [h]
@[simp] theorem State.writeSpan_demands (s : State) (f : Span) (n x : Nat) : (s.writeSpan f n x).demands = s.demands := by
  obtain ⟨_, _, h, _⟩ := s.writeSpan_only f n x; rw [h]
@[simp] theorem State.writeSpan_device (s : State) (f : Span) (n x : Nat) : (s.writeSpan f n x).device = s.device := by
  obtain ⟨_, _, h, _⟩ := s.writeSpan_only f n x; rw [h]
@[simp] theorem State.writeSpan_linkKeySel (s : State) (f : Span) (n x : Nat) : (s.writeSpan f n x).linkKeySel = s.linkKeySel := by
  obtain ⟨_, _, h, _⟩ := s.writeSpan_only f n x; rw [h]
@[simp] theorem State.writeSpan_linkKeyData (s : State) (f : Span) (n x : Nat) : (s.writeSpan f n x).linkKeyData = s.linkKeyData := by
  obtain ⟨_, _, h, _⟩ := s.writeSpan_only f n x; rw [h]
@[simp] theorem State.writeSpan_svcMode (s : State) (f : Span) (n x : Nat) : (s.writeSpan f n x).svcMode = s.svcMode := by
  obtain ⟨_, _, h, _⟩ := s.writeSpan_only f n x; rw [h]
@[simp] theorem State.writeSpan_kettleCtl (s : State) (f : Span) (n x : Nat) : (s.writeSpan f n x).kettleCtl = s.kettleCtl := by
  obtain ⟨_, _, h, _⟩ := s.writeSpan_only f n x; rw [h]
@[simp] theorem State.writeSpan_capChanged (s : State) (f : Span) (n x : Nat) : (s.writeSpan f n x).capChanged = s.capChanged := by
  obtain ⟨_, _, h, _⟩ := s.writeSpan_only f n x; rw [h]
@[simp] theorem State.writeSpan_samQuotaSet (s : State) (f : Span) (n x : Nat) : (s.writeSpan f n x).samQuotaSet = s.samQuotaSet := by
  obtain ⟨_, _, h, _⟩ := s.writeSpan_only f n x; rw [h]
@[simp] theorem State.writeSpan_pinQuotaSet (s : State) (f : Span) (n x : Nat) : (s.writeSpan f n x).pinQuotaSet = s.pinQuotaSet := by
  obtain ⟨_, _, h, _⟩ := s.writeSpan_only f n x; rw [h]
@[simp] theorem State.writeSpan_dbgCtl (s : State) (f : Span) (n x : Nat) : (s.writeSpan f n x).dbgCtl = s.dbgCtl := by
  obtain ⟨_, _, h, _⟩ := s.writeSpan_only f n x; rw [h]
@[simp] theorem State.writeSpan_dbgSel (s : State) (f : Span) (n x : Nat) : (s.writeSpan f n x).dbgSel = s.dbgSel := by
  obtain ⟨_, _, h, _⟩ := s.writeSpan_only f n x; rw [h]
@[simp] theorem State.writeSpan_partitions (s : State) (f : Span) (n x : Nat) : (s.writeSpan f n x).partitions = s.partitions := by
  obtain ⟨_, _, h, _⟩ := s.writeSpan_only f n x; rw [h]
@[simp] theorem State.writeSpan_hostLink (s : State) (f : Span) (n x : Nat) : (s.writeSpan f n x).hostLink = s.hostLink := by
  obtain ⟨_, _, h, _⟩ := s.writeSpan_only f n x; rw [h]
@[simp] theorem State.writeSpan_hostHoles (s : State) (f : Span) (n x : Nat) : (s.writeSpan f n x).hostHoles = s.hostHoles := by
  obtain ⟨_, _, h, _⟩ := s.writeSpan_only f n x; rw [h]
@[simp] theorem State.writeSpan_queues (s : State) (f : Span) (n x : Nat) : (s.writeSpan f n x).queues = s.queues := by
  obtain ⟨_, _, h, _⟩ := s.writeSpan_only f n x; rw [h]
@[simp] theorem State.writeSpan_service (s : State) (f : Span) (n x : Nat) : (s.writeSpan f n x).service = s.service := by
  obtain ⟨_, _, h, _⟩ := s.writeSpan_only f n x; rw [h]
@[simp] theorem State.writeSpan_replays (s : State) (f : Span) (n x : Nat) : (s.writeSpan f n x).replays = s.replays := by
  obtain ⟨_, _, h, _⟩ := s.writeSpan_only f n x; rw [h]
@[simp] theorem State.writeSpan_errors (s : State) (f : Span) (n x : Nat) : (s.writeSpan f n x).errors = s.errors := by
  obtain ⟨_, _, h, _⟩ := s.writeSpan_only f n x; rw [h]
@[simp] theorem State.writeSpan_image (s : State) (f : Span) (n x : Nat) : (s.writeSpan f n x).image = s.image := by
  obtain ⟨_, _, h, _⟩ := s.writeSpan_only f n x; rw [h]
@[simp] theorem State.writeSpan_pendingImage (s : State) (f : Span) (n x : Nat) : (s.writeSpan f n x).pendingImage = s.pendingImage := by
  obtain ⟨_, _, h, _⟩ := s.writeSpan_only f n x; rw [h]

@[simp] theorem State.strand_writeSpan (s : State) (f : Span) (n x sid : Nat) : (s.writeSpan f n x).strand sid = s.strand sid := by
  simp [State.strand]

@[simp] theorem State.core_writeSpan (s : State) (f : Span) (n x c : Nat) : (s.writeSpan f n x).core c = s.core c := by
  simp [State.core]

end Sys2Proof.Machine
end

