-- ==== Sys2Proof/Laws/Exec.lean ====
section
/-! SUPPORT. `exec` at each constructor: the meaning it calls. -/
namespace Sys2Proof.Machine
variable (st : State)

@[simp] theorem exec_add (d a b : BitVec 5) : exec (.add d a b) st = execAdd d a b st := rfl
@[simp] theorem exec_sub (d a b : BitVec 5) : exec (.sub d a b) st = execSub d a b st := rfl
@[simp] theorem exec_and (d a b : BitVec 5) : exec (.and d a b) st = execAnd d a b st := rfl
@[simp] theorem exec_or (d a b : BitVec 5) : exec (.or d a b) st = execOr d a b st := rfl
@[simp] theorem exec_xor (d a b : BitVec 5) : exec (.xor d a b) st = execXor d a b st := rfl
@[simp] theorem exec_andn (d a b : BitVec 5) : exec (.andn d a b) st = execAndn d a b st := rfl
@[simp] theorem exec_orn (d a b : BitVec 5) : exec (.orn d a b) st = execOrn d a b st := rfl
@[simp] theorem exec_sll (d a b : BitVec 5) : exec (.sll d a b) st = execSll d a b st := rfl
@[simp] theorem exec_srl (d a b : BitVec 5) : exec (.srl d a b) st = execSrl d a b st := rfl
@[simp] theorem exec_sra (d a b : BitVec 5) : exec (.sra d a b) st = execSra d a b st := rfl
@[simp] theorem exec_rol (d a b : BitVec 5) : exec (.rol d a b) st = execRol d a b st := rfl
@[simp] theorem exec_ror (d a b : BitVec 5) : exec (.ror d a b) st = execRor d a b st := rfl
@[simp] theorem exec_slt (d a b : BitVec 5) : exec (.slt d a b) st = execSlt d a b st := rfl
@[simp] theorem exec_sltu (d a b : BitVec 5) : exec (.sltu d a b) st = execSltu d a b st := rfl
@[simp] theorem exec_min (d a b : BitVec 5) : exec (.min d a b) st = execMin d a b st := rfl
@[simp] theorem exec_max (d a b : BitVec 5) : exec (.max d a b) st = execMax d a b st := rfl
@[simp] theorem exec_minu (d a b : BitVec 5) : exec (.minu d a b) st = execMinu d a b st := rfl
@[simp] theorem exec_maxu (d a b : BitVec 5) : exec (.maxu d a b) st = execMaxu d a b st := rfl
@[simp] theorem exec_sel (d a b : BitVec 5) : exec (.sel d a b) st = execSel d a b st := rfl
@[simp] theorem exec_mul (d a b : BitVec 5) : exec (.mul d a b) st = execMul d a b st := rfl
@[simp] theorem exec_mulh (d a b : BitVec 5) : exec (.mulh d a b) st = execMulh d a b st := rfl
@[simp] theorem exec_mulhu (d a b : BitVec 5) : exec (.mulhu d a b) st = execMulhu d a b st := rfl
@[simp] theorem exec_mulhsu (d a b : BitVec 5) : exec (.mulhsu d a b) st = execMulhsu d a b st := rfl
@[simp] theorem exec_div (d a b : BitVec 5) : exec (.div d a b) st = execDiv d a b st := rfl
@[simp] theorem exec_divu (d a b : BitVec 5) : exec (.divu d a b) st = execDivu d a b st := rfl
@[simp] theorem exec_rem (d a b : BitVec 5) : exec (.rem d a b) st = execRem d a b st := rfl
@[simp] theorem exec_remu (d a b : BitVec 5) : exec (.remu d a b) st = execRemu d a b st := rfl
@[simp] theorem exec_clz (d a : BitVec 5) : exec (.clz d a) st = execClz d a st := rfl
@[simp] theorem exec_ctz (d a : BitVec 5) : exec (.ctz d a) st = execCtz d a st := rfl
@[simp] theorem exec_popc (d a : BitVec 5) : exec (.popc d a) st = execPopc d a st := rfl
@[simp] theorem exec_bswap (d a : BitVec 5) : exec (.bswap d a) st = execBswap d a st := rfl
@[simp] theorem exec_sextb (d a : BitVec 5) : exec (.sextb d a) st = execSextb d a st := rfl
@[simp] theorem exec_sexth (d a : BitVec 5) : exec (.sexth d a) st = execSexth d a st := rfl
@[simp] theorem exec_sextw (d a : BitVec 5) : exec (.sextw d a) st = execSextw d a st := rfl
@[simp] theorem exec_zextw (d a : BitVec 5) : exec (.zextw d a) st = execZextw d a st := rfl
@[simp] theorem exec_addi (d a : BitVec 5) (i : BitVec 16) : exec (.addi d a i) st = execAddi d a i st := rfl
@[simp] theorem exec_andi (d a : BitVec 5) (i : BitVec 16) : exec (.andi d a i) st = execAndi d a i st := rfl
@[simp] theorem exec_ori (d a : BitVec 5) (i : BitVec 16) : exec (.ori d a i) st = execOri d a i st := rfl
@[simp] theorem exec_xori (d a : BitVec 5) (i : BitVec 16) : exec (.xori d a i) st = execXori d a i st := rfl
@[simp] theorem exec_slli (d a : BitVec 5) (s : BitVec 6) : exec (.slli d a s) st = execSlli d a s st := rfl
@[simp] theorem exec_srli (d a : BitVec 5) (s : BitVec 6) : exec (.srli d a s) st = execSrli d a s st := rfl
@[simp] theorem exec_srai (d a : BitVec 5) (s : BitVec 6) : exec (.srai d a s) st = execSrai d a s st := rfl
@[simp] theorem exec_rori (d a : BitVec 5) (s : BitVec 6) : exec (.rori d a s) st = execRori d a s st := rfl
@[simp] theorem exec_ldi (d : BitVec 5) (i : BitVec 16) : exec (.ldi d i) st = execLdi d i st := rfl
@[simp] theorem exec_ldis (d : BitVec 5) (i : BitVec 16) : exec (.ldis d i) st = execLdis d i st := rfl
@[simp] theorem exec_slti (d a : BitVec 5) (i : BitVec 16) : exec (.slti d a i) st = execSlti d a i st := rfl
@[simp] theorem exec_sltiu (d a : BitVec 5) (i : BitVec 16) : exec (.sltiu d a i) st = execSltiu d a i st := rfl
@[simp] theorem exec_fadd (d a b : BitVec 5) (f : BitVec 2) : exec (.fadd d a b f) st = execFadd d a b f st := rfl
@[simp] theorem exec_fsub (d a b : BitVec 5) (f : BitVec 2) : exec (.fsub d a b f) st = execFsub d a b f st := rfl
@[simp] theorem exec_fmul (d a b : BitVec 5) (f : BitVec 2) : exec (.fmul d a b f) st = execFmul d a b f st := rfl
@[simp] theorem exec_fdiv (d a b : BitVec 5) (f : BitVec 2) : exec (.fdiv d a b f) st = execFdiv d a b f st := rfl
@[simp] theorem exec_fsqrt (d a : BitVec 5) (f : BitVec 2) : exec (.fsqrt d a f) st = execFsqrt d a f st := rfl
@[simp] theorem exec_fmin (d a b : BitVec 5) (f : BitVec 2) : exec (.fmin d a b f) st = execFmin d a b f st := rfl
@[simp] theorem exec_fmax (d a b : BitVec 5) (f : BitVec 2) : exec (.fmax d a b f) st = execFmax d a b f st := rfl
@[simp] theorem exec_fsgnj (d a b : BitVec 5) (f : BitVec 2) : exec (.fsgnj d a b f) st = execFsgnj d a b f st := rfl
@[simp] theorem exec_fsgnjn (d a b : BitVec 5) (f : BitVec 2) : exec (.fsgnjn d a b f) st = execFsgnjn d a b f st := rfl
@[simp] theorem exec_fsgnjx (d a b : BitVec 5) (f : BitVec 2) : exec (.fsgnjx d a b f) st = execFsgnjx d a b f st := rfl
@[simp] theorem exec_feq (d a b : BitVec 5) (f : BitVec 2) : exec (.feq d a b f) st = execFeq d a b f st := rfl
@[simp] theorem exec_flt (d a b : BitVec 5) (f : BitVec 2) : exec (.flt d a b f) st = execFlt d a b f st := rfl
@[simp] theorem exec_fle (d a b : BitVec 5) (f : BitVec 2) : exec (.fle d a b f) st = execFle d a b f st := rfl
@[simp] theorem exec_fclass (d a : BitVec 5) (f : BitVec 2) : exec (.fclass d a f) st = execFclass d a f st := rfl
@[simp] theorem exec_fcvti (d a : BitVec 5) (f : BitVec 2) : exec (.fcvti d a f) st = execFcvti d a f st := rfl
@[simp] theorem exec_fcvtu (d a : BitVec 5) (f : BitVec 2) : exec (.fcvtu d a f) st = execFcvtu d a f st := rfl
@[simp] theorem exec_fcvtf (d a : BitVec 5) (f : BitVec 2) : exec (.fcvtf d a f) st = execFcvtf d a f st := rfl
@[simp] theorem exec_fcvtfu (d a : BitVec 5) (f : BitVec 2) : exec (.fcvtfu d a f) st = execFcvtfu d a f st := rfl
@[simp] theorem exec_fcvtff (d a : BitVec 5) (s f : BitVec 2) : exec (.fcvtff d a s f) st = execFcvtff d a s f st := rfl
@[simp] theorem exec_fmadd (d a b c : BitVec 5) (f : BitVec 2) : exec (.fmadd d a b c f) st = execFmadd d a b c f st := rfl
@[simp] theorem exec_fmsub (d a b c : BitVec 5) (f : BitVec 2) : exec (.fmsub d a b c f) st = execFmsub d a b c f st := rfl
@[simp] theorem exec_fnmadd (d a b c : BitVec 5) (f : BitVec 2) : exec (.fnmadd d a b c f) st = execFnmadd d a b c f st := rfl
@[simp] theorem exec_fnmsub (d a b c : BitVec 5) (f : BitVec 2) : exec (.fnmsub d a b c f) st = execFnmsub d a b c f st := rfl
@[simp] theorem exec_lb (d s : BitVec 5) (c : BitVec 4) (h : BitVec 2) (o : BitVec 10) : exec (.lb d s c h o) st = execLb d s c h o st := rfl
@[simp] theorem exec_lbu (d s : BitVec 5) (c : BitVec 4) (h : BitVec 2) (o : BitVec 10) : exec (.lbu d s c h o) st = execLbu d s c h o st := rfl
@[simp] theorem exec_lh (d s : BitVec 5) (c : BitVec 4) (h : BitVec 2) (o : BitVec 10) : exec (.lh d s c h o) st = execLh d s c h o st := rfl
@[simp] theorem exec_lhu (d s : BitVec 5) (c : BitVec 4) (h : BitVec 2) (o : BitVec 10) : exec (.lhu d s c h o) st = execLhu d s c h o st := rfl
@[simp] theorem exec_lw (d s : BitVec 5) (c : BitVec 4) (h : BitVec 2) (o : BitVec 10) : exec (.lw d s c h o) st = execLw d s c h o st := rfl
@[simp] theorem exec_lwu (d s : BitVec 5) (c : BitVec 4) (h : BitVec 2) (o : BitVec 10) : exec (.lwu d s c h o) st = execLwu d s c h o st := rfl
@[simp] theorem exec_ld (d s : BitVec 5) (c : BitVec 4) (h : BitVec 2) (o : BitVec 10) : exec (.ld d s c h o) st = execLd d s c h o st := rfl
@[simp] theorem exec_sb (d s : BitVec 5) (c : BitVec 4) (h : BitVec 2) (o : BitVec 10) : exec (.sb d s c h o) st = execSb d s c h o st := rfl
@[simp] theorem exec_sh (d s : BitVec 5) (c : BitVec 4) (h : BitVec 2) (o : BitVec 10) : exec (.sh d s c h o) st = execSh d s c h o st := rfl
@[simp] theorem exec_sw (d s : BitVec 5) (c : BitVec 4) (h : BitVec 2) (o : BitVec 10) : exec (.sw d s c h o) st = execSw d s c h o st := rfl
@[simp] theorem exec_sd (d s : BitVec 5) (c : BitVec 4) (h : BitVec 2) (o : BitVec 10) : exec (.sd d s c h o) st = execSd d s c h o st := rfl
@[simp] theorem exec_loadDataReturn (sid : Nat) : exec (.loadDataReturn sid) st = execLoadDataReturn sid st := rfl
@[simp] theorem exec_amoSwap (d a b : BitVec 5) (c : BitVec 4) (q r w : BitVec 1) : exec (.amoSwap d a b c q r w) st = execAmoSwap d a b c q r w st := rfl
@[simp] theorem exec_amoAdd (d a b : BitVec 5) (c : BitVec 4) (q r w : BitVec 1) : exec (.amoAdd d a b c q r w) st = execAmoAdd d a b c q r w st := rfl
@[simp] theorem exec_amoAnd (d a b : BitVec 5) (c : BitVec 4) (q r w : BitVec 1) : exec (.amoAnd d a b c q r w) st = execAmoAnd d a b c q r w st := rfl
@[simp] theorem exec_amoOr (d a b : BitVec 5) (c : BitVec 4) (q r w : BitVec 1) : exec (.amoOr d a b c q r w) st = execAmoOr d a b c q r w st := rfl
@[simp] theorem exec_amoXor (d a b : BitVec 5) (c : BitVec 4) (q r w : BitVec 1) : exec (.amoXor d a b c q r w) st = execAmoXor d a b c q r w st := rfl
@[simp] theorem exec_amoMin (d a b : BitVec 5) (c : BitVec 4) (q r w : BitVec 1) : exec (.amoMin d a b c q r w) st = execAmoMin d a b c q r w st := rfl
@[simp] theorem exec_amoMax (d a b : BitVec 5) (c : BitVec 4) (q r w : BitVec 1) : exec (.amoMax d a b c q r w) st = execAmoMax d a b c q r w st := rfl
@[simp] theorem exec_amoMinu (d a b : BitVec 5) (c : BitVec 4) (q r w : BitVec 1) : exec (.amoMinu d a b c q r w) st = execAmoMinu d a b c q r w st := rfl
@[simp] theorem exec_amoMaxu (d a b : BitVec 5) (c : BitVec 4) (q r w : BitVec 1) : exec (.amoMaxu d a b c q r w) st = execAmoMaxu d a b c q r w st := rfl
@[simp] theorem exec_amoFadd (d a b : BitVec 5) (c : BitVec 4) (q r w : BitVec 1) : exec (.amoFadd d a b c q r w) st = execAmoFadd d a b c q r w st := rfl
@[simp] theorem exec_cas (d a b : BitVec 5) (c : BitVec 4) (q r w : BitVec 1) : exec (.cas d a b c q r w) st = execCas d a b c q r w st := rfl
@[simp] theorem exec_amoResponse (sid : Nat) : exec (.amoResponse sid) st = execAmoResponse sid st := rfl
@[simp] theorem exec_fence (k : BitVec 2) (s : BitVec 3) (m : BitVec 16) : exec (.fence k s m) st = execFence k s m st := rfl
@[simp] theorem exec_fenceCompletion (sid : Nat) : exec (.fenceCompletion sid) st = execFenceCompletion sid st := rfl
@[simp] theorem exec_vdrain (m : BitVec 16) : exec (.vdrain m) st = execVdrain m st := rfl
@[simp] theorem exec_ifence : exec .ifence st = execIfence st := rfl
@[simp] theorem exec_beq (a b : BitVec 5) (o : BitVec 13) : exec (.beq a b o) st = execBeq a b o st := rfl
@[simp] theorem exec_bne (a b : BitVec 5) (o : BitVec 13) : exec (.bne a b o) st = execBne a b o st := rfl
@[simp] theorem exec_blt (a b : BitVec 5) (o : BitVec 13) : exec (.blt a b o) st = execBlt a b o st := rfl
@[simp] theorem exec_bge (a b : BitVec 5) (o : BitVec 13) : exec (.bge a b o) st = execBge a b o st := rfl
@[simp] theorem exec_bltu (a b : BitVec 5) (o : BitVec 13) : exec (.bltu a b o) st = execBltu a b o st := rfl
@[simp] theorem exec_bgeu (a b : BitVec 5) (o : BitVec 13) : exec (.bgeu a b o) st = execBgeu a b o st := rfl
@[simp] theorem exec_j (o : BitVec 26) : exec (.j o) st = execJ o st := rfl
@[simp] theorem exec_jal (o : BitVec 26) : exec (.jal o) st = execJal o st := rfl
@[simp] theorem exec_jalr (d a : BitVec 5) (i : BitVec 16) : exec (.jalr d a i) st = execJalr d a i st := rfl
@[simp] theorem exec_csrrw (d a : BitVec 5) (n : BitVec 14) : exec (.csrrw d a n) st = execCsrrw d a n st := rfl
@[simp] theorem exec_csrrs (d a : BitVec 5) (n : BitVec 14) : exec (.csrrs d a n) st = execCsrrs d a n st := rfl
@[simp] theorem exec_csrrc (d a : BitVec 5) (n : BitVec 14) : exec (.csrrc d a n) st = execCsrrc d a n st := rfl
@[simp] theorem exec_csrrd (d : BitVec 5) (n : BitVec 14) : exec (.csrrd d n) st = execCsrrd d n st := rfl
@[simp] theorem exec_ecall : exec .ecall st = execEcall st := rfl
@[simp] theorem exec_ebreak : exec .ebreak st = execEbreak st := rfl
@[simp] theorem exec_eret : exec .eret st = execEret st := rfl
@[simp] theorem exec_wfi : exec .wfi st = execWfi st := rfl
@[simp] theorem exec_wakeCondition (sid : Nat) : exec (.wakeCondition sid) st = execWakeCondition sid st := rfl
@[simp] theorem exec_yield : exec .yield st = execYield st := rfl
@[simp] theorem exec_pause : exec .pause st = execPause st := rfl
@[simp] theorem exec_plbinv (a : BitVec 5) : exec (.plbinv a) st = execPlbinv a st := rfl
@[simp] theorem exec_htinv (a : BitVec 5) : exec (.htinv a) st = execHtinv a st := rfl
@[simp] theorem exec_htinvMigrate (a : BitVec 5) : exec (.htinvMigrate a) st = execHtinvMigrate a st := rfl
@[simp] theorem exec_strandpark (a : BitVec 5) : exec (.strandpark a) st = execStrandpark a st := rfl
@[simp] theorem exec_strandwake (a : BitVec 5) : exec (.strandwake a) st = execStrandwake a st := rfl
@[simp] theorem exec_vcfg (d a : BitVec 5) (i : BitVec 16) : exec (.vcfg d a i) st = execVcfg d a i st := rfl
@[simp] theorem exec_vsetl (d a : BitVec 5) (w : BitVec 4) : exec (.vsetl d a w) st = execVsetl d a w st := rfl
@[simp] theorem exec_vacq (d a : BitVec 5) : exec (.vacq d a) st = execVacq d a st := rfl
@[simp] theorem exec_vrelease : exec .vrelease st = execVrelease st := rfl
@[simp] theorem exec_vgettag (d a : BitVec 5) : exec (.vgettag d a) st = execVgettag d a st := rfl
@[simp] theorem exec_vadd (d a b : BitVec 5) (f : BitVec 2) (p : BitVec 3) : exec (.vadd d a b f p) st = execVadd d a b f p st := rfl
@[simp] theorem exec_vsub (d a b : BitVec 5) (f : BitVec 2) (p : BitVec 3) : exec (.vsub d a b f p) st = execVsub d a b f p st := rfl
@[simp] theorem exec_vrsub (d a b : BitVec 5) (f : BitVec 2) (p : BitVec 3) : exec (.vrsub d a b f p) st = execVrsub d a b f p st := rfl
@[simp] theorem exec_vmul (d a b : BitVec 5) (f : BitVec 2) (p : BitVec 3) : exec (.vmul d a b f p) st = execVmul d a b f p st := rfl
@[simp] theorem exec_vmulh (d a b : BitVec 5) (f : BitVec 2) (p : BitVec 3) : exec (.vmulh d a b f p) st = execVmulh d a b f p st := rfl
@[simp] theorem exec_vdiv (d a b : BitVec 5) (f : BitVec 2) (p : BitVec 3) : exec (.vdiv d a b f p) st = execVdiv d a b f p st := rfl
@[simp] theorem exec_vrem (d a b : BitVec 5) (f : BitVec 2) (p : BitVec 3) : exec (.vrem d a b f p) st = execVrem d a b f p st := rfl
@[simp] theorem exec_vmin (d a b : BitVec 5) (f : BitVec 2) (p : BitVec 3) : exec (.vmin d a b f p) st = execVmin d a b f p st := rfl
@[simp] theorem exec_vmax (d a b : BitVec 5) (f : BitVec 2) (p : BitVec 3) : exec (.vmax d a b f p) st = execVmax d a b f p st := rfl
@[simp] theorem exec_vabs (d a : BitVec 5) (p : BitVec 3) : exec (.vabs d a p) st = execVabs d a p st := rfl
@[simp] theorem exec_vneg (d a : BitVec 5) (p : BitVec 3) : exec (.vneg d a p) st = execVneg d a p st := rfl
@[simp] theorem exec_vabsd (d a b : BitVec 5) (f : BitVec 2) (p : BitVec 3) : exec (.vabsd d a b f p) st = execVabsd d a b f p st := rfl
@[simp] theorem exec_vsadd (d a b : BitVec 5) (f : BitVec 2) (p : BitVec 3) : exec (.vsadd d a b f p) st = execVsadd d a b f p st := rfl
@[simp] theorem exec_vssub (d a b : BitVec 5) (f : BitVec 2) (p : BitVec 3) : exec (.vssub d a b f p) st = execVssub d a b f p st := rfl
@[simp] theorem exec_vsqrt (d a : BitVec 5) (p : BitVec 3) : exec (.vsqrt d a p) st = execVsqrt d a p st := rfl
@[simp] theorem exec_vand (d a b : BitVec 5) (f : BitVec 2) (p : BitVec 3) : exec (.vand d a b f p) st = execVand d a b f p st := rfl
@[simp] theorem exec_vor (d a b : BitVec 5) (f : BitVec 2) (p : BitVec 3) : exec (.vor d a b f p) st = execVor d a b f p st := rfl
@[simp] theorem exec_vxor (d a b : BitVec 5) (f : BitVec 2) (p : BitVec 3) : exec (.vxor d a b f p) st = execVxor d a b f p st := rfl
@[simp] theorem exec_vnot (d a : BitVec 5) (p : BitVec 3) : exec (.vnot d a p) st = execVnot d a p st := rfl
@[simp] theorem exec_vsll (d a b : BitVec 5) (f : BitVec 2) (p : BitVec 3) : exec (.vsll d a b f p) st = execVsll d a b f p st := rfl
@[simp] theorem exec_vsrl (d a b : BitVec 5) (f : BitVec 2) (p : BitVec 3) : exec (.vsrl d a b f p) st = execVsrl d a b f p st := rfl
@[simp] theorem exec_vsra (d a b : BitVec 5) (f : BitVec 2) (p : BitVec 3) : exec (.vsra d a b f p) st = execVsra d a b f p st := rfl
@[simp] theorem exec_vrol (d a b : BitVec 5) (f : BitVec 2) (p : BitVec 3) : exec (.vrol d a b f p) st = execVrol d a b f p st := rfl
@[simp] theorem exec_vclz (d a : BitVec 5) (p : BitVec 3) : exec (.vclz d a p) st = execVclz d a p st := rfl
@[simp] theorem exec_vpopc (d a : BitVec 5) (p : BitVec 3) : exec (.vpopc d a p) st = execVpopc d a p st := rfl
@[simp] theorem exec_vmerge (d a b : BitVec 5) (f : BitVec 2) (p : BitVec 3) : exec (.vmerge d a b f p) st = execVmerge d a b f p st := rfl
@[simp] theorem exec_vmov (d a : BitVec 5) (p : BitVec 3) : exec (.vmov d a p) st = execVmov d a p st := rfl
@[simp] theorem exec_vmacc (d a b : BitVec 5) (f : BitVec 2) (p : BitVec 3) : exec (.vmacc d a b f p) st = execVmacc d a b f p st := rfl
@[simp] theorem exec_vnmsac (d a b : BitVec 5) (f : BitVec 2) (p : BitVec 3) : exec (.vnmsac d a b f p) st = execVnmsac d a b f p st := rfl
@[simp] theorem exec_vmadd (d a b : BitVec 5) (f : BitVec 2) (p : BitVec 3) : exec (.vmadd d a b f p) st = execVmadd d a b f p st := rfl
@[simp] theorem exec_vnmsub (d a b : BitVec 5) (f : BitVec 2) (p : BitVec 3) : exec (.vnmsub d a b f p) st = execVnmsub d a b f p st := rfl
@[simp] theorem exec_vdot4 (d a b : BitVec 5) (f : BitVec 2) (p : BitVec 3) : exec (.vdot4 d a b f p) st = execVdot4 d a b f p st := rfl
@[simp] theorem exec_vceq (d : BitVec 3) (a b : BitVec 5) (f : BitVec 2) (p : BitVec 3) : exec (.vceq d a b f p) st = execVceq d a b f p st := rfl
@[simp] theorem exec_vcne (d : BitVec 3) (a b : BitVec 5) (f : BitVec 2) (p : BitVec 3) : exec (.vcne d a b f p) st = execVcne d a b f p st := rfl
@[simp] theorem exec_vclt (d : BitVec 3) (a b : BitVec 5) (f : BitVec 2) (p : BitVec 3) : exec (.vclt d a b f p) st = execVclt d a b f p st := rfl
@[simp] theorem exec_vcle (d : BitVec 3) (a b : BitVec 5) (f : BitVec 2) (p : BitVec 3) : exec (.vcle d a b f p) st = execVcle d a b f p st := rfl
@[simp] theorem exec_vcgt (d : BitVec 3) (a b : BitVec 5) (f : BitVec 2) (p : BitVec 3) : exec (.vcgt d a b f p) st = execVcgt d a b f p st := rfl
@[simp] theorem exec_vcge (d : BitVec 3) (a b : BitVec 5) (f : BitVec 2) (p : BitVec 3) : exec (.vcge d a b f p) st = execVcge d a b f p st := rfl
@[simp] theorem exec_vcun (d : BitVec 3) (a b : BitVec 5) (f : BitVec 2) (p : BitVec 3) : exec (.vcun d a b f p) st = execVcun d a b f p st := rfl
@[simp] theorem exec_vcvt (d a : BitVec 5) (p : BitVec 3) : exec (.vcvt d a p) st = execVcvt d a p st := rfl
@[simp] theorem exec_vfrint (d a : BitVec 5) (p : BitVec 3) : exec (.vfrint d a p) st = execVfrint d a p st := rfl
@[simp] theorem exec_vfexp2f (d a : BitVec 5) (p : BitVec 3) : exec (.vfexp2f d a p) st = execVfexp2f d a p st := rfl
@[simp] theorem exec_vfscale (d a b : BitVec 5) (f : BitVec 2) (p : BitVec 3) : exec (.vfscale d a b f p) st = execVfscale d a b f p st := rfl
@[simp] theorem exec_vfrexp (d a : BitVec 5) (p : BitVec 3) : exec (.vfrexp d a p) st = execVfrexp d a p st := rfl
@[simp] theorem exec_vfmant (d a : BitVec 5) (p : BitVec 3) : exec (.vfmant d a p) st = execVfmant d a p st := rfl
@[simp] theorem exec_vrecipe (d a : BitVec 5) (p : BitVec 3) : exec (.vrecipe d a p) st = execVrecipe d a p st := rfl
@[simp] theorem exec_vrsqrte (d a : BitVec 5) (p : BitVec 3) : exec (.vrsqrte d a p) st = execVrsqrte d a p st := rfl
@[simp] theorem exec_vclass (d a : BitVec 5) (p : BitVec 3) : exec (.vclass d a p) st = execVclass d a p st := rfl
@[simp] theorem exec_vbxpack (d a : BitVec 5) (p : BitVec 3) : exec (.vbxpack d a p) st = execVbxpack d a p st := rfl
@[simp] theorem exec_vslideup (d a b : BitVec 5) (f : BitVec 2) (p : BitVec 3) : exec (.vslideup d a b f p) st = execVslideup d a b f p st := rfl
@[simp] theorem exec_vslidedn (d a b : BitVec 5) (f : BitVec 2) (p : BitVec 3) : exec (.vslidedn d a b f p) st = execVslidedn d a b f p st := rfl
@[simp] theorem exec_vpermute (d a b : BitVec 5) (f : BitVec 2) (p : BitVec 3) : exec (.vpermute d a b f p) st = execVpermute d a b f p st := rfl
@[simp] theorem exec_vcompress (d a : BitVec 5) (p : BitVec 3) : exec (.vcompress d a p) st = execVcompress d a p st := rfl
@[simp] theorem exec_vexpand (d a : BitVec 5) (p : BitVec 3) : exec (.vexpand d a p) st = execVexpand d a p st := rfl
@[simp] theorem exec_vbcast (d b : BitVec 5) (f : BitVec 2) (p : BitVec 3) : exec (.vbcast d b f p) st = execVbcast d b f p st := rfl
@[simp] theorem exec_vextr (d a b : BitVec 5) (f : BitVec 2) (p : BitVec 3) : exec (.vextr d a b f p) st = execVextr d a b f p st := rfl
@[simp] theorem exec_vins (d a b : BitVec 5) (f : BitVec 2) (p : BitVec 3) : exec (.vins d a b f p) st = execVins d a b f p st := rfl
@[simp] theorem exec_vrev (d a : BitVec 5) (p : BitVec 3) : exec (.vrev d a p) st = execVrev d a p st := rfl
@[simp] theorem exec_vzip (d a b : BitVec 5) (f : BitVec 2) (p : BitVec 3) : exec (.vzip d a b f p) st = execVzip d a b f p st := rfl
@[simp] theorem exec_vunzip (d a b : BitVec 5) (f : BitVec 2) (p : BitVec 3) : exec (.vunzip d a b f p) st = execVunzip d a b f p st := rfl
@[simp] theorem exec_vid (d : BitVec 5) (p : BitVec 3) : exec (.vid d p) st = execVid d p st := rfl
@[simp] theorem exec_vmvix (d a : BitVec 5) (p : BitVec 3) : exec (.vmvix d a p) st = execVmvix d a p st := rfl
@[simp] theorem exec_vredsum (d a b : BitVec 5) (f : BitVec 2) (p : BitVec 3) : exec (.vredsum d a b f p) st = execVredsum d a b f p st := rfl
@[simp] theorem exec_vredmin (d a b : BitVec 5) (f : BitVec 2) (p : BitVec 3) : exec (.vredmin d a b f p) st = execVredmin d a b f p st := rfl
@[simp] theorem exec_vredmax (d a b : BitVec 5) (f : BitVec 2) (p : BitVec 3) : exec (.vredmax d a b f p) st = execVredmax d a b f p st := rfl
@[simp] theorem exec_vredand (d a b : BitVec 5) (f : BitVec 2) (p : BitVec 3) : exec (.vredand d a b f p) st = execVredand d a b f p st := rfl
@[simp] theorem exec_vredor (d a b : BitVec 5) (f : BitVec 2) (p : BitVec 3) : exec (.vredor d a b f p) st = execVredor d a b f p st := rfl
@[simp] theorem exec_vredxor (d a b : BitVec 5) (f : BitVec 2) (p : BitVec 3) : exec (.vredxor d a b f p) st = execVredxor d a b f p st := rfl
@[simp] theorem exec_vfredosum (d a b : BitVec 5) (f : BitVec 2) (p : BitVec 3) : exec (.vfredosum d a b f p) st = execVfredosum d a b f p st := rfl
@[simp] theorem exec_vscanadd (d a b : BitVec 5) (f : BitVec 2) (p : BitVec 3) : exec (.vscanadd d a b f p) st = execVscanadd d a b f p st := rfl
@[simp] theorem exec_vscanmax (d a b : BitVec 5) (f : BitVec 2) (p : BitVec 3) : exec (.vscanmax d a b f p) st = execVscanmax d a b f p st := rfl
@[simp] theorem exec_vscanmin (d a b : BitVec 5) (f : BitVec 2) (p : BitVec 3) : exec (.vscanmin d a b f p) st = execVscanmin d a b f p st := rfl
@[simp] theorem exec_vrecur (d a b : BitVec 5) (f : BitVec 2) (p : BitVec 3) : exec (.vrecur d a b f p) st = execVrecur d a b f p st := rfl
@[simp] theorem exec_pand (d a b p : BitVec 3) : exec (.pand d a b p) st = execPand d a b p st := rfl
@[simp] theorem exec_por (d a b p : BitVec 3) : exec (.por d a b p) st = execPor d a b p st := rfl
@[simp] theorem exec_pxor (d a b p : BitVec 3) : exec (.pxor d a b p) st = execPxor d a b p st := rfl
@[simp] theorem exec_pandn (d a b p : BitVec 3) : exec (.pandn d a b p) st = execPandn d a b p st := rfl
@[simp] theorem exec_pnot (d a p : BitVec 3) : exec (.pnot d a p) st = execPnot d a p st := rfl
@[simp] theorem exec_pset (d p : BitVec 3) : exec (.pset d p) st = execPset d p st := rfl
@[simp] theorem exec_pclr (d p : BitVec 3) : exec (.pclr d p) st = execPclr d p st := rfl
@[simp] theorem exec_pcnt (d : BitVec 5) (a p : BitVec 3) : exec (.pcnt d a p) st = execPcnt d a p st := rfl
@[simp] theorem exec_pfirst (d : BitVec 5) (a p : BitVec 3) : exec (.pfirst d a p) st = execPfirst d a p st := rfl
@[simp] theorem exec_pfromv (d : BitVec 3) (a : BitVec 5) (p : BitVec 3) : exec (.pfromv d a p) st = execPfromv d a p st := rfl
@[simp] theorem exec_ptov (d : BitVec 5) (a p : BitVec 3) : exec (.ptov d a p) st = execPtov d a p st := rfl
@[simp] theorem exec_vld (d s : BitVec 5) (c : BitVec 4) (h : BitVec 2) (p : BitVec 3) : exec (.vld d s c h p) st = execVld d s c h p st := rfl
@[simp] theorem exec_vst (d s : BitVec 5) (c : BitVec 4) (h : BitVec 2) (p : BitVec 3) : exec (.vst d s c h p) st = execVst d s c h p st := rfl
@[simp] theorem exec_vldff (d s : BitVec 5) (c : BitVec 4) (h : BitVec 2) (p : BitVec 3) : exec (.vldff d s c h p) st = execVldff d s c h p st := rfl
@[simp] theorem exec_vlds (d s b : BitVec 5) (c : BitVec 4) (h : BitVec 2) (p : BitVec 3) : exec (.vlds d s b c h p) st = execVlds d s b c h p st := rfl
@[simp] theorem exec_vsts (d s b : BitVec 5) (c : BitVec 4) (h : BitVec 2) (p : BitVec 3) : exec (.vsts d s b c h p) st = execVsts d s b c h p st := rfl
@[simp] theorem exec_vldx (d s b : BitVec 5) (c : BitVec 4) (h : BitVec 2) (p : BitVec 3) : exec (.vldx d s b c h p) st = execVldx d s b c h p st := rfl
@[simp] theorem exec_vstx (d s b : BitVec 5) (c : BitVec 4) (h : BitVec 2) (p : BitVec 3) : exec (.vstx d s b c h p) st = execVstx d s b c h p st := rfl
@[simp] theorem exec_vstxo (d s b : BitVec 5) (c : BitVec 4) (h : BitVec 2) (p : BitVec 3) : exec (.vstxo d s b c h p) st = execVstxo d s b c h p st := rfl
@[simp] theorem exec_vldsc (d s b : BitVec 5) (c : BitVec 4) (h : BitVec 2) (p : BitVec 3) : exec (.vldsc d s b c h p) st = execVldsc d s b c h p st := rfl
@[simp] theorem exec_vstsc (d s b : BitVec 5) (c : BitVec 4) (h : BitVec 2) (p : BitVec 3) : exec (.vstsc d s b c h p) st = execVstsc d s b c h p st := rfl
@[simp] theorem exec_ticketServed : exec .ticketServed st = execTicketServed st := rfl
@[simp] theorem exec_elds (e : BitVec 4) (a : BitVec 5) : exec (.elds e a) st = execElds e a st := rfl
@[simp] theorem exec_ests (e : BitVec 4) (a : BitVec 5) : exec (.ests e a) st = execEsts e a st := rfl
@[simp] theorem exec_ezero (e : BitVec 4) : exec (.ezero e) st = execEzero e st := rfl
@[simp] theorem exec_repf (c : BitVec 4) (r : BitVec 6) (x y z : BitVec 3) : exec (.repf c r x y z) st = execRepf c r x y z st := rfl
@[simp] theorem exec_mma (x : BitVec 2) (y z : BitVec 5) (e : BitVec 4) (a b : BitVec 1) : exec (.mma x y z e a b) st = execMma x y z e a b st := rfl
@[simp] theorem exec_mmaz (x : BitVec 2) (y z : BitVec 5) (e : BitVec 4) (a b : BitVec 1) : exec (.mmaz x y z e a b) st = execMmaz x y z e a b st := rfl
@[simp] theorem exec_mmas (x : BitVec 2) (y z : BitVec 5) (e : BitVec 4) (a b : BitVec 1) : exec (.mmas x y z e a b) st = execMmas x y z e a b st := rfl
@[simp] theorem exec_mmaCompletion (core : Nat) : exec (.mmaCompletion core) st = execMmaCompletion core st := rfl
@[simp] theorem exec_tld (t : BitVec 3) (y z : BitVec 5) : exec (.tld t y z) st = execTld t y z st := rfl
@[simp] theorem exec_tst (t : BitVec 3) (y z : BitVec 5) : exec (.tst t y z) st = execTst t y z st := rfl
@[simp] theorem exec_tldm (t : BitVec 3) (y : BitVec 5) : exec (.tldm t y) st = execTldm t y st := rfl
@[simp] theorem exec_tstm (t : BitVec 3) (y : BitVec 5) : exec (.tstm t y) st = execTstm t y st := rfl
@[simp] theorem exec_tzero (t : BitVec 3) : exec (.tzero t) st = execTzero t st := rfl
@[simp] theorem exec_tmov (t s : BitVec 3) : exec (.tmov t s) st = execTmov t s st := rfl
@[simp] theorem exec_ttrans (t s : BitVec 3) : exec (.ttrans t s) st = execTtrans t s st := rfl
@[simp] theorem exec_tcfg (t : BitVec 3) (y : BitVec 5) : exec (.tcfg t y) st = execTcfg t y st := rfl
@[simp] theorem exec_trowv (x : BitVec 5) (t : BitVec 3) (z : BitVec 5) : exec (.trowv x t z) st = execTrowv x t z st := rfl
@[simp] theorem exec_vtrow (t : BitVec 3) (y z : BitVec 5) : exec (.vtrow t y z) st = execVtrow t y z st := rfl
@[simp] theorem exec_tcolv (x : BitVec 5) (t : BitVec 3) (z : BitVec 5) : exec (.tcolv x t z) st = execTcolv x t z st := rfl
@[simp] theorem exec_accz (x : BitVec 2) : exec (.accz x) st = execAccz x st := rfl
@[simp] theorem exec_accst (x : BitVec 2) (y z : BitVec 5) (e : BitVec 4) : exec (.accst x y z e) st = execAccst x y z e st := rfl
@[simp] theorem exec_accrd (x : BitVec 2) (y z : BitVec 5) : exec (.accrd x y z) st = execAccrd x y z st := rfl
@[simp] theorem exec_accwr (x : BitVec 2) (y z : BitVec 5) : exec (.accwr x y z) st = execAccwr x y z st := rfl
@[simp] theorem exec_accadd (x y : BitVec 2) : exec (.accadd x y) st = execAccadd x y st := rfl
@[simp] theorem exec_accscl (x : BitVec 2) (y : BitVec 5) : exec (.accscl x y) st = execAccscl x y st := rfl
@[simp] theorem exec_gbar (d a : BitVec 5) : exec (.gbar d a) st = execGbar d a st := rfl
@[simp] theorem exec_barrierPhaseComplete (gang : Nat) : exec (.barrierPhaseComplete gang) st = execBarrierPhaseComplete gang st := rfl
@[simp] theorem exec_gbarTimeout (sid : Nat) : exec (.gbarTimeout sid) st = execGbarTimeout sid st := rfl
@[simp] theorem exec_gtmcast (d : BitVec 3) (a : BitVec 5) : exec (.gtmcast d a) st = execGtmcast d a st := rfl
@[simp] theorem exec_grank (d a : BitVec 5) : exec (.grank d a) st = execGrank d a st := rfl
@[simp] theorem exec_sempost (s : BitVec 3) : exec (.sempost s) st = execSempost s st := rfl
@[simp] theorem exec_semwait (s : BitVec 3) : exec (.semwait s) st = execSemwait s st := rfl
@[simp] theorem exec_semtry (d : BitVec 5) (s : BitVec 3) : exec (.semtry d s) st = execSemtry d s st := rfl
@[simp] theorem exec_secopy (d a : BitVec 5) : exec (.secopy d a) st = execSecopy d a st := rfl
@[simp] theorem exec_seload2d (d a : BitVec 5) : exec (.seload2d d a) st = execSeload2d d a st := rfl
@[simp] theorem exec_sestore2d (d a : BitVec 5) : exec (.sestore2d d a) st = execSestore2d d a st := rfl
@[simp] theorem exec_segather (d a : BitVec 5) : exec (.segather d a) st = execSegather d a st := rfl
@[simp] theorem exec_sefoot (d a : BitVec 5) : exec (.sefoot d a) st = execSefoot d a st := rfl
@[simp] theorem exec_sewait (a : BitVec 5) : exec (.sewait a) st = execSewait a st := rfl
@[simp] theorem exec_cardStart (core : Nat) : exec (.cardStart core) st = execCardStart core st := rfl
@[simp] theorem exec_cardComplete (core card : Nat) : exec (.cardComplete core card) st = execCardComplete core card st := rfl
@[simp] theorem exec_cardStop (core card : Nat) : exec (.cardStop core card) st = execCardStop core card st := rfl
@[simp] theorem exec_cpref (d a b : BitVec 5) (c : BitVec 4) : exec (.cpref d a b c) st = execCpref d a b c st := rfl
@[simp] theorem exec_prefetch (core : Nat) : exec (.prefetch core) st = execPrefetch core st := rfl
@[simp] theorem exec_cflush (d a b : BitVec 5) (c : BitVec 4) : exec (.cflush d a b c) st = execCflush d a b c st := rfl
@[simp] theorem exec_cinv (d a b : BitVec 5) (c : BitVec 4) : exec (.cinv d a b c) st = execCinv d a b c st := rfl
@[simp] theorem exec_cpin (d a b : BitVec 5) (c : BitVec 4) : exec (.cpin d a b c) st = execCpin d a b c st := rfl
@[simp] theorem exec_cunpin (d a b : BitVec 5) (c : BitVec 4) : exec (.cunpin d a b c) st = execCunpin d a b c st := rfl
@[simp] theorem exec_cpri (d a b : BitVec 5) (c : BitVec 4) : exec (.cpri d a b c) st = execCpri d a b c st := rfl
@[simp] theorem exec_samBoard (d a b : BitVec 5) (c : BitVec 4) : exec (.samBoard d a b c) st = execSamBoard d a b c st := rfl
@[simp] theorem exec_boardFill (sid : Nat) : exec (.boardFill sid) st = execBoardFill sid st := rfl
@[simp] theorem exec_samAlight (d a : BitVec 5) (c : BitVec 4) : exec (.samAlight d a c) st = execSamAlight d a c st := rfl
@[simp] theorem exec_samLd (d a : BitVec 5) (c : BitVec 4) (w : BitVec 3) : exec (.samLd d a c w) st = execSamLd d a c w st := rfl
@[simp] theorem exec_samSt (d a b : BitVec 5) (c : BitVec 4) (w : BitVec 3) : exec (.samSt d a b c w) st = execSamSt d a b c w st := rfl
@[simp] theorem exec_samAdd (d a b : BitVec 5) (c : BitVec 4) (w : BitVec 3) : exec (.samAdd d a b c w) st = execSamAdd d a b c w st := rfl
@[simp] theorem exec_samMin (d a b : BitVec 5) (c : BitVec 4) (w : BitVec 3) : exec (.samMin d a b c w) st = execSamMin d a b c w st := rfl
@[simp] theorem exec_samMax (d a b : BitVec 5) (c : BitVec 4) (w : BitVec 3) : exec (.samMax d a b c w) st = execSamMax d a b c w st := rfl
@[simp] theorem exec_samCas (d a b : BitVec 5) (c : BitVec 4) (w : BitVec 3) : exec (.samCas d a b c w) st = execSamCas d a b c w st := rfl
@[simp] theorem exec_samCapture (d a b : BitVec 5) (c : BitVec 4) : exec (.samCapture d a b c) st = execSamCapture d a b c st := rfl
@[simp] theorem exec_samCld (d a : BitVec 5) (c : BitVec 4) (w : BitVec 3) : exec (.samCld d a c w) st = execSamCld d a c w st := rfl
@[simp] theorem exec_samCst (d a b : BitVec 5) (c : BitVec 4) (w : BitVec 3) : exec (.samCst d a b c w) st = execSamCst d a b c w st := rfl
@[simp] theorem exec_samRelease (d a : BitVec 5) (c : BitVec 4) : exec (.samRelease d a c) st = execSamRelease d a c st := rfl
@[simp] theorem exec_samWaitrev (d a : BitVec 5) (c : BitVec 4) : exec (.samWaitrev d a c) st = execSamWaitrev d a c st := rfl
@[simp] theorem exec_samovarPassage (sid : Nat) : exec (.samovarPassage sid) st = execSamovarPassage sid st := rfl
@[simp] theorem exec_recordReentry (sid : Nat) : exec (.recordReentry sid) st = execRecordReentry sid st := rfl
@[simp] theorem exec_captureHoldExpiry (sid : Nat) : exec (.captureHoldExpiry sid) st = execCaptureHoldExpiry sid st := rfl
@[simp] theorem exec_samNotag (sid : Nat) : exec (.samNotag sid) st = execSamNotag sid st := rfl
@[simp] theorem exec_rstw (a b : BitVec 5) (c : BitVec 4) : exec (.rstw a b c) st = execRstw a b c st := rfl
@[simp] theorem exec_rstd (a b : BitVec 5) (c : BitVec 4) : exec (.rstd a b c) st = execRstd a b c st := rfl
@[simp] theorem exec_ramo (d a b : BitVec 5) (c : BitVec 4) : exec (.ramo d a b c) st = execRamo d a b c st := rfl
@[simp] theorem exec_ramow (d a b : BitVec 5) (c : BitVec 4) : exec (.ramow d a b c) st = execRamow d a b c st := rfl
@[simp] theorem exec_sflush : exec .sflush st = execSflush st := rfl
@[simp] theorem exec_sflushw (d : BitVec 5) : exec (.sflushw d) st = execSflushw d st := rfl
@[simp] theorem exec_sfrec (d a : BitVec 5) : exec (.sfrec d a) st = execSfrec d a st := rfl
@[simp] theorem exec_steepAgeTrigger (cluster : Nat) : exec (.steepAgeTrigger cluster) st = execSteepAgeTrigger cluster st := rfl
@[simp] theorem exec_steepAck : exec .steepAck st = execSteepAck st := rfl
@[simp] theorem exec_steepAsync (sid : Nat) : exec (.steepAsync sid) st = execSteepAsync sid st := rfl
@[simp] theorem exec_amsend (d a b : BitVec 5) : exec (.amsend d a b) st = execAmsend d a b st := rfl
@[simp] theorem exec_amsendw (d a b : BitVec 5) : exec (.amsendw d a b) st = execAmsendw d a b st := rfl
@[simp] theorem exec_amreply (d a b : BitVec 5) : exec (.amreply d a b) st = execAmreply d a b st := rfl
@[simp] theorem exec_amdone : exec .amdone st = execAmdone st := rfl
@[simp] theorem exec_rcmask (c : BitVec 4) : exec (.rcmask c) st = execRcmask c st := rfl
@[simp] theorem exec_rcunmask (c : BitVec 4) : exec (.rcunmask c) st = execRcunmask c st := rfl
@[simp] theorem exec_messageArrival : exec .messageArrival st = execMessageArrival st := rfl
@[simp] theorem exec_amsendAnswer (sid : Nat) : exec (.amsendAnswer sid) st = execAmsendAnswer sid st := rfl
@[simp] theorem exec_messageDispatch (sid : Nat) : exec (.messageDispatch sid) st = execMessageDispatch sid st := rfl
@[simp] theorem exec_handlerOverrun (sid : Nat) : exec (.handlerOverrun sid) st = execHandlerOverrun sid st := rfl
@[simp] theorem exec_gnext (d a : BitVec 5) : exec (.gnext d a) st = execGnext d a st := rfl
@[simp] theorem exec_gfield (d : BitVec 5) (f : BitVec 3) : exec (.gfield d f) st = execGfield d f st := rfl
@[simp] theorem exec_gdone : exec .gdone st = execGdone st := rfl
@[simp] theorem exec_groupRetire (sid : Nat) : exec (.groupRetire sid) st = execGroupRetire sid st := rfl
@[simp] theorem exec_launch (d a : BitVec 5) : exec (.launch d a) st = execLaunch d a st := rfl
@[simp] theorem exec_lwait (d a : BitVec 5) : exec (.lwait d a) st = execLwait d a st := rfl
@[simp] theorem exec_groupAssign (launch : Nat) : exec (.groupAssign launch) st = execGroupAssign launch st := rfl
@[simp] theorem exec_footprintFetchComplete (sid : Nat) : exec (.footprintFetchComplete sid) st = execFootprintFetchComplete sid st := rfl
@[simp] theorem exec_reassign (sid : Nat) : exec (.reassign sid) st = execReassign sid st := rfl
@[simp] theorem exec_groupBudget (sid : Nat) : exec (.groupBudget sid) st = execGroupBudget sid st := rfl
@[simp] theorem exec_balloc (d s : BitVec 5) : exec (.balloc d s) st = execBalloc d s st := rfl
@[simp] theorem exec_bfree (a : BitVec 5) : exec (.bfree a) st = execBfree a st := rfl
@[simp] theorem exec_blockReturn : exec .blockReturn st = execBlockReturn st := rfl
@[simp] theorem exec_illegalInstr (word : BitVec 32) : exec (.illegalInstr word) st = execIllegalInstr word st := rfl
@[simp] theorem exec_trapEntry (sid : Nat) : exec (.trapEntry sid) st = execTrapEntry sid st := rfl
@[simp] theorem exec_timer (sid : Nat) : exec (.timer sid) st = execTimer sid st := rfl
@[simp] theorem exec_machineCheck (sid : Nat) (unit index : BitVec 8) : exec (.machineCheck sid unit index) st = execMachineCheck sid unit index st := rfl
@[simp] theorem exec_poisonMark (where_ : PoisonPlace) : exec (.poisonMark where_) st = execPoisonMark where_ st := rfl
@[simp] theorem exec_softErrorCorrected (unit : BitVec 16) (place : BitVec 64) : exec (.softErrorCorrected unit place) st = execSoftErrorCorrected unit place st := rfl
@[simp] theorem exec_thermalTrip : exec .thermalTrip st = execThermalTrip st := rfl
@[simp] theorem exec_status (v : BitVec 64) : exec (.status v) st = execStatus v st := rfl
@[simp] theorem exec_tileOwner (v : BitVec 64) : exec (.tileOwner v) st = execTileOwner v st := rfl
@[simp] theorem exec_ttags (v : BitVec 64) : exec (.ttags v) st = execTtags v st := rfl
@[simp] theorem exec_atags (v : BitVec 64) : exec (.atags v) st = execAtags v st := rfl
@[simp] theorem exec_steepAgeMax (v : BitVec 64) : exec (.steepAgeMax v) st = execSteepAgeMax v st := rfl
@[simp] theorem exec_vl (v : BitVec 64) : exec (.vl v) st = execVl v st := rfl
@[simp] theorem exec_vhwe (n : BitVec 5) (v : BitVec 64) : exec (.vhwe n v) st = execVhwe n v st := rfl
@[simp] theorem exec_fflags (op : BitVec 2) (v : BitVec 64) : exec (.fflags op v) st = execFflags op v st := rfl
@[simp] theorem exec_csrWrite (csr : BitVec 14) (v : BitVec 64) : exec (.csrWrite csr v) st = execCsrWrite csr v st := rfl
@[simp] theorem exec_gangSetMembership (v : BitVec 64) : exec (.gangSetMembership v) st = execGangSetMembership v st := rfl
@[simp] theorem exec_gangStop (v : BitVec 64) : exec (.gangStop v) st = execGangStop v st := rfl
@[simp] theorem exec_gangResume (v : BitVec 64) : exec (.gangResume v) st = execGangResume v st := rfl
@[simp] theorem exec_debugHalt (core : Nat) : exec (.debugHalt core) st = execDebugHalt core st := rfl
@[simp] theorem exec_debugResume (core : Nat) : exec (.debugResume core) st = execDebugResume core st := rfl
@[simp] theorem exec_dbgData (v : BitVec 64) : exec (.dbgData v) st = execDbgData v st := rfl
@[simp] theorem exec_kettleCtl (v : BitVec 64) : exec (.kettleCtl v) st = execKettleCtl v st := rfl
@[simp] theorem exec_kettleAdjust (cluster : Nat) (vlStep mStep : CapStep) : exec (.kettleAdjust cluster vlStep mStep) st = execKettleAdjust cluster vlStep mStep st := rfl
@[simp] theorem exec_svcMode (v : BitVec 64) : exec (.svcMode v) st = execSvcMode v st := rfl
@[simp] theorem exec_samQuotaSet (v : BitVec 64) : exec (.samQuotaSet v) st = execSamQuotaSet v st := rfl
@[simp] theorem exec_pinQuotaSet (v : BitVec 64) : exec (.pinQuotaSet v) st = execPinQuotaSet v st := rfl
@[simp] theorem exec_plbFill (sid : Nat) (va : BitVec 64) : exec (.plbFill sid va) st = execPlbFill sid va st := rfl
@[simp] theorem exec_translationWalk (kind : AccessKind) (va : BitVec 64) : exec (.translationWalk kind va) st = execTranslationWalk kind va st := rfl
@[simp] theorem exec_migrationSectorCopy (slot : Nat) : exec (.migrationSectorCopy slot) st = execMigrationSectorCopy slot st := rfl
@[simp] theorem exec_migrationComplete (slot : Nat) : exec (.migrationComplete slot) st = execMigrationComplete slot st := rfl
@[simp] theorem exec_start (q : Nat) (f : ReqFrame) : exec (.start q f) st = execStart q f st := rfl
@[simp] theorem exec_launchFrame (q : Nat) (f : ReqFrame) : exec (.launchFrame q f) st = execLaunchFrame q f st := rfl
@[simp] theorem exec_launchFrameCompletion (launch : Nat) : exec (.launchFrameCompletion launch) st = execLaunchFrameCompletion launch st := rfl
@[simp] theorem exec_replay (q : Nat) (f : ReqFrame) : exec (.replay q f) st = execReplay q f st := rfl
@[simp] theorem exec_replayNodeLaunch (replay node : Nat) : exec (.replayNodeLaunch replay node) st = execReplayNodeLaunch replay node st := rfl
@[simp] theorem exec_patch (q : Nat) (f : ReqFrame) : exec (.patch q f) st = execPatch q f st := rfl
@[simp] theorem exec_abort (q : Nat) (f : ReqFrame) : exec (.abort q f) st = execAbort q f st := rfl
@[simp] theorem exec_rerun (q : Nat) (f : ReqFrame) : exec (.rerun q f) st = execRerun q f st := rfl
@[simp] theorem exec_notify (q : Nat) (f : ReqFrame) : exec (.notify q f) st = execNotify q f st := rfl
@[simp] theorem exec_arena (q : Nat) (f : ReqFrame) : exec (.arena q f) st = execArena q f st := rfl
@[simp] theorem exec_key (q : Nat) (f : ReqFrame) : exec (.key q f) st = execKey q f st := rfl
@[simp] theorem exec_quota (q : Nat) (f : ReqFrame) : exec (.quota q f) st = execQuota q f st := rfl
@[simp] theorem exec_partition (q : Nat) (f : ReqFrame) : exec (.partition q f) st = execPartition q f st := rfl
@[simp] theorem exec_teardown (q : Nat) (f : ReqFrame) : exec (.teardown q f) st = execTeardown q f st := rfl
@[simp] theorem exec_attest (q : Nat) (f : ReqFrame) : exec (.attest q f) st = execAttest q f st := rfl
@[simp] theorem exec_errlog (q : Nat) (f : ReqFrame) : exec (.errlog q f) st = execErrlog q f st := rfl
@[simp] theorem exec_firmware (q : Nat) (f : ReqFrame) : exec (.firmware q f) st = execFirmware q f st := rfl
@[simp] theorem exec_firmwareTakeover : exec .firmwareTakeover st = execFirmwareTakeover st := rfl
@[simp] theorem exec_retry (q : Nat) : exec (.retry q) st = execRetry q st := rfl
@[simp] theorem exec_completionPost (q : Nat) : exec (.completionPost q) st = execCompletionPost q st := rfl
@[simp] theorem exec_sqPoll (q : Nat) : exec (.sqPoll q) st = execSqPoll q st := rfl
@[simp] theorem exec_qpdPost (qpd : BitVec 64) : exec (.qpdPost qpd) st = execQpdPost qpd st := rfl
@[simp] theorem exec_functionLevelReset : exec .functionLevelReset st = execFunctionLevelReset st := rfl
@[simp] theorem exec_reset : exec .reset st = execReset st := rfl
@[simp] theorem exec_starvationToken (router port : Nat) : exec (.starvationToken router port) st = execStarvationToken router port st := rfl
@[simp] theorem exec_combineBatch (cluster queue : Nat) : exec (.combineBatch cluster queue) st = execCombineBatch cluster queue st := rfl
@[simp] theorem exec_combiningQueueClose (cluster queue : Nat) : exec (.combiningQueueClose cluster queue) st = execCombiningQueueClose cluster queue st := rfl
@[simp] theorem exec_bridgeLinkFailure (link : Nat) (retrained : Bool) : exec (.bridgeLinkFailure link retrained) st = execBridgeLinkFailure link retrained st := rfl
@[simp] theorem exec_read (p : Packet) : exec (.read p) st = execRead p st := rfl
@[simp] theorem exec_write (p : Packet) : exec (.write p) st = execWrite p st := rfl
@[simp] theorem exec_atomic (p : Packet) : exec (.atomic p) st = execAtomic p st := rfl
@[simp] theorem exec_vread (p : Packet) : exec (.vread p) st = execVread p st := rfl
@[simp] theorem exec_vwrite (p : Packet) : exec (.vwrite p) st = execVwrite p st := rfl
@[simp] theorem exec_words (p : Packet) : exec (.words p) st = execWords p st := rfl
@[simp] theorem exec_msg (p : Packet) : exec (.msg p) st = execMsg p st := rfl
@[simp] theorem exec_rsp (p : Packet) : exec (.rsp p) st = execRsp p st := rfl
@[simp] theorem exec_ack (p : Packet) : exec (.ack p) st = execAck p st := rfl
@[simp] theorem exec_demand (p : Packet) : exec (.demand p) st = execDemand p st := rfl
@[simp] theorem exec_grant (p : Packet) : exec (.grant p) st = execGrant p st := rfl
@[simp] theorem exec_grantLapse (dev : Nat) : exec (.grantLapse dev) st = execGrantLapse dev st := rfl
@[simp] theorem exec_blockReplay (port : Nat) (receive : Bool) : exec (.blockReplay port receive) st = execBlockReplay port receive st := rfl
@[simp] theorem exec_keyRotation (port : Nat) : exec (.keyRotation port) st = execKeyRotation port st := rfl
@[simp] theorem exec_keyExhausted (port : Nat) : exec (.keyExhausted port) st = execKeyExhausted port st := rfl
@[simp] theorem exec_portStop (port : Nat) : exec (.portStop port) st = execPortStop port st := rfl
@[simp] theorem exec_linkKeySelect (v : BitVec 64) : exec (.linkKeySelect v) st = execLinkKeySelect v st := rfl
@[simp] theorem exec_linkKeyStage (v : BitVec 64) : exec (.linkKeyStage v) st = execLinkKeyStage v st := rfl
@[simp] theorem exec_linkKeyInstall (v : BitVec 64) : exec (.linkKeyInstall v) st = execLinkKeyInstall v st := rfl
@[simp] theorem exec_linkPortStop (v : BitVec 64) : exec (.linkPortStop v) st = execLinkPortStop v st := rfl
@[simp] theorem exec_linkRetrain (v : BitVec 64) : exec (.linkRetrain v) st = execLinkRetrain v st := rfl
@[simp] theorem exec_linkKeyData (v : BitVec 64) : exec (.linkKeyData v) st = execLinkKeyData v st := rfl
@[simp] theorem exec_ramowResponse (sid : Nat) : exec (.ramowResponse sid) st = execRamowResponse sid st := rfl
@[simp] theorem exec_gtmcastCopiesWritten (sid : Nat) : exec (.gtmcastCopiesWritten sid) st = execGtmcastCopiesWritten sid st := rfl
@[simp] theorem exec_writebackComplete (sid : Nat) : exec (.writebackComplete sid) st = execWritebackComplete sid st := rfl
@[simp] theorem exec_badPacket (p : Packet) : exec (.badPacket p) st = execBadPacket p st := rfl
@[simp] theorem exec_linkTrained (port : Nat) : exec (.linkTrained port) st = execLinkTrained port st := rfl
@[simp] theorem exec_captureMarkerClear (sid : Nat) : exec (.captureMarkerClear sid) st = execCaptureMarkerClear sid st := rfl
@[simp] theorem exec_pauseExpiry (sid : Nat) : exec (.pauseExpiry sid) st = execPauseExpiry sid st := rfl

end Sys2Proof.Machine
end

