-- ==== Sys2Proof/Laws/Ops.lean ====
section
/-! SUPPORT. What the shared operations do: completing an instruction, writing a register, waiting, a jump, taking a trap. One
lemma for each says everything it can do; the fields it leaves alone follow by `rfl`. -/
namespace Sys2Proof.Machine

/-! ### Completing an instruction -/

/-- An instruction that completes moves the place of control, ends the wait and what it had gathered, and changes nothing else of its strand. -/
theorem Strand.retire_place (x : Strand) : ∃ pc f, x.retire = { x with pc := pc, frame := f, wait := .none, gathered := [] } := by
  unfold Strand.retire
  split
  · rename_i h; exact ⟨x.pc + 4, none, by rw [h]⟩
  · split
    · rename_i f' _; exact ⟨x.pc, some f', rfl⟩
    · exact ⟨_, none, rfl⟩

/-- Outside a frame the next word follows. -/
theorem Strand.retire_word {x : Strand} (h : x.frame = none) : x.retire = { x with pc := x.pc + 4, wait := .none, gathered := [] } := by
  unfold Strand.retire; rw [h]

@[simp] theorem Strand.retire_g (x : Strand) : x.retire.g = x.g := by
  obtain ⟨_, _, h⟩ := x.retire_place; rw [h]
@[simp] theorem Strand.retire_v (x : Strand) : x.retire.v = x.v := by
  obtain ⟨_, _, h⟩ := x.retire_place; rw [h]
@[simp] theorem Strand.retire_p (x : Strand) : x.retire.p = x.p := by
  obtain ⟨_, _, h⟩ := x.retire_place; rw [h]
@[simp] theorem Strand.retire_e (x : Strand) : x.retire.e = x.e := by
  obtain ⟨_, _, h⟩ := x.retire_place; rw [h]
@[simp] theorem Strand.retire_vl (x : Strand) : x.retire.vl = x.vl := by
  obtain ⟨_, _, h⟩ := x.retire_place; rw [h]
@[simp] theorem Strand.retire_vstart (x : Strand) : x.retire.vstart = x.vstart := by
  obtain ⟨_, _, h⟩ := x.retire_place; rw [h]
@[simp] theorem Strand.retire_status (x : Strand) : x.retire.status = x.status := by
  obtain ⟨_, _, h⟩ := x.retire_place; rw [h]
@[simp] theorem Strand.retire_frm (x : Strand) : x.retire.frm = x.frm := by
  obtain ⟨_, _, h⟩ := x.retire_place; rw [h]
@[simp] theorem Strand.retire_fflags (x : Strand) : x.retire.fflags = x.fflags := by
  obtain ⟨_, _, h⟩ := x.retire_place; rw [h]
@[simp] theorem Strand.retire_domain (x : Strand) : x.retire.domain = x.domain := by
  obtain ⟨_, _, h⟩ := x.retire_place; rw [h]
@[simp] theorem Strand.retire_handler (x : Strand) : x.retire.handler = x.handler := by
  obtain ⟨_, _, h⟩ := x.retire_place; rw [h]
@[simp] theorem Strand.retire_ipend (x : Strand) : x.retire.ipend = x.ipend := by
  obtain ⟨_, _, h⟩ := x.retire_place; rw [h]
@[simp] theorem Strand.retire_ien (x : Strand) : x.retire.ien = x.ien := by
  obtain ⟨_, _, h⟩ := x.retire_place; rw [h]
@[simp] theorem Strand.retire_tvec (x : Strand) : x.retire.tvec = x.tvec := by
  obtain ⟨_, _, h⟩ := x.retire_place; rw [h]
@[simp] theorem Strand.retire_trapCause (x : Strand) : x.retire.trapCause = x.trapCause := by
  obtain ⟨_, _, h⟩ := x.retire_place; rw [h]
@[simp] theorem Strand.retire_trapPc (x : Strand) : x.retire.trapPc = x.trapPc := by
  obtain ⟨_, _, h⟩ := x.retire_place; rw [h]
@[simp] theorem Strand.retire_trapAddr (x : Strand) : x.retire.trapAddr = x.trapAddr := by
  obtain ⟨_, _, h⟩ := x.retire_place; rw [h]
@[simp] theorem Strand.retire_trapElem (x : Strand) : x.retire.trapElem = x.trapElem := by
  obtain ⟨_, _, h⟩ := x.retire_place; rw [h]
@[simp] theorem Strand.retire_trapInfo (x : Strand) : x.retire.trapInfo = x.trapInfo := by
  obtain ⟨_, _, h⟩ := x.retire_place; rw [h]
@[simp] theorem Strand.retire_parked (x : Strand) : x.retire.parked = x.parked := by
  obtain ⟨_, _, h⟩ := x.retire_place; rw [h]
@[simp] theorem Strand.retire_stopped (x : Strand) : x.retire.stopped = x.stopped := by
  obtain ⟨_, _, h⟩ := x.retire_place; rw [h]
@[simp] theorem Strand.retire_thread (x : Strand) : x.retire.thread = x.thread := by
  obtain ⟨_, _, h⟩ := x.retire_place; rw [h]
@[simp] theorem Strand.retire_wait (x : Strand) : x.retire.wait = .none := by
  obtain ⟨_, _, h⟩ := x.retire_place; rw [h]
@[simp] theorem Strand.retire_getG (x : Strand) (a : BitVec 5) : x.retire.getG a = x.getG a := by
  simp [Strand.getG]

/-! ### The running strand after each operation -/

@[simp] theorem State.me_setG (s : State) (d : BitVec 5) (v : Word) : (s.setG d v).me = s.me.setG d v := State.me_setMe s _
@[simp] theorem State.me_retire (s : State) : s.retire.me = s.me.retire := State.me_setMe s _
@[simp] theorem State.me_jump (s : State) (a : Word) : (s.jump a).me = { s.me with pc := a, wait := .none, gathered := [] } := State.me_setMe s _
@[simp] theorem State.me_waiting (s : State) (w : Wait) : (s.waiting w).me = { s.me with wait := w } := State.me_setMe s _
@[simp] theorem State.me_writeG (s : State) (d : BitVec 5) (v : Word) : (s.writeG d v).me = (s.me.setG d v).retire := by
  simp [State.writeG]

/-- Every one of them replaces the running strand and does nothing else. -/
theorem State.setG_only (s : State) (d : BitVec 5) (v : Word) : s.setG d v = s.setMe (s.me.setG d v) := rfl
theorem State.retire_only (s : State) : s.retire = s.setMe s.me.retire := rfl
theorem State.jump_only (s : State) (a : Word) : s.jump a = s.setMe { s.me with pc := a, wait := .none, gathered := [] } := rfl
theorem State.waiting_only (s : State) (w : Wait) : s.waiting w = s.setMe { s.me with wait := w } := rfl

/-! ### Taking a trap -/

/-- A trap releases the strand's capture, if it holds one, and enters the strand; nothing else changes. -/
theorem State.trapOn_only (s : State) (sid : Nat) (t : Trap) :
    ∃ c r, s.trapOn sid t = { s.setStrand sid ((s.strand sid).enter t) with captures := c, reentries := r } := by
  unfold State.trapOn State.releaseCapture
  split
  · exact ⟨s.captures, s.reentries, rfl⟩
  · exact ⟨_, _, rfl⟩

theorem State.trapOn_strand (s : State) (sid : Nat) (t : Trap) : (s.trapOn sid t).strand sid = (s.strand sid).enter t := by
  obtain ⟨_, _, h⟩ := s.trapOn_only sid t
  rw [h]
  exact State.strand_setStrand_same s sid _

theorem State.trapOn_other (s : State) {sid i : Nat} (t : Trap) (h : i ≠ sid) : (s.trapOn sid t).strand i = s.strand i := by
  obtain ⟨_, _, e⟩ := s.trapOn_only sid t
  rw [e]
  exact State.strand_setStrand_ne s _ h

/-! ### The fields `State.setMe` leaves alone -/

@[simp] theorem State.setMe_cycle (s : State) (x : Strand) : (s.setMe x).cycle = s.cycle := rfl
@[simp] theorem State.setMe_agenda (s : State) (x : Strand) : (s.setMe x).agenda = s.agenda := rfl
@[simp] theorem State.setMe_phase (s : State) (x : Strand) : (s.setMe x).phase = s.phase := rfl
@[simp] theorem State.setMe_turned (s : State) (x : Strand) : (s.setMe x).turned = s.turned := rfl
@[simp] theorem State.setMe_fresh (s : State) (x : Strand) : (s.setMe x).fresh = s.fresh := rfl
@[simp] theorem State.setMe_serial (s : State) (x : Strand) : (s.setMe x).serial = s.serial := rfl
@[simp] theorem State.setMe_powered (s : State) (x : Strand) : (s.setMe x).powered = s.powered := rfl
@[simp] theorem State.setMe_cores (s : State) (x : Strand) : (s.setMe x).cores = s.cores := rfl
@[simp] theorem State.setMe_domains (s : State) (x : Strand) : (s.setMe x).domains = s.domains := rfl
@[simp] theorem State.setMe_spad (s : State) (x : Strand) : (s.setMe x).spad = s.spad := rfl
@[simp] theorem State.setMe_footStores (s : State) (x : Strand) : (s.setMe x).footStores = s.footStores := rfl
@[simp] theorem State.setMe_poison (s : State) (x : Strand) : (s.setMe x).poison = s.poison := rfl
@[simp] theorem State.setMe_spadPoison (s : State) (x : Strand) : (s.setMe x).spadPoison = s.spadPoison := rfl
@[simp] theorem State.setMe_root (s : State) (x : Strand) : (s.setMe x).root = s.root := rfl
@[simp] theorem State.setMe_translations (s : State) (x : Strand) : (s.setMe x).translations = s.translations := rfl
@[simp] theorem State.setMe_migrations (s : State) (x : Strand) : (s.setMe x).migrations = s.migrations := rfl
@[simp] theorem State.setMe_keySlots (s : State) (x : Strand) : (s.setMe x).keySlots = s.keySlots := rfl
@[simp] theorem State.setMe_sectorKeys (s : State) (x : Strand) : (s.setMe x).sectorKeys = s.sectorKeys := rfl
@[simp] theorem State.setMe_caps (s : State) (x : Strand) : (s.setMe x).caps = s.caps := rfl
@[simp] theorem State.setMe_capsAt (s : State) (x : Strand) : (s.setMe x).capsAt = s.capsAt := rfl
@[simp] theorem State.setMe_pins (s : State) (x : Strand) : (s.setMe x).pins = s.pins := rfl
@[simp] theorem State.setMe_arenas (s : State) (x : Strand) : (s.setMe x).arenas = s.arenas := rfl
@[simp] theorem State.setMe_freeBlocks (s : State) (x : Strand) : (s.setMe x).freeBlocks = s.freeBlocks := rfl
@[simp] theorem State.setMe_blocksBack (s : State) (x : Strand) : (s.setMe x).blocksBack = s.blocksBack := rfl
@[simp] theorem State.setMe_steepBufs (s : State) (x : Strand) : (s.setMe x).steepBufs = s.steepBufs := rfl
@[simp] theorem State.setMe_steepSent (s : State) (x : Strand) : (s.setMe x).steepSent = s.steepSent := rfl
@[simp] theorem State.setMe_recordsDue (s : State) (x : Strand) : (s.setMe x).recordsDue = s.recordsDue := rfl
@[simp] theorem State.setMe_messages (s : State) (x : Strand) : (s.setMe x).messages = s.messages := rfl
@[simp] theorem State.setMe_handling (s : State) (x : Strand) : (s.setMe x).handling = s.handling := rfl
@[simp] theorem State.setMe_tickets (s : State) (x : Strand) : (s.setMe x).tickets = s.tickets := rfl
@[simp] theorem State.setMe_nextTicket (s : State) (x : Strand) : (s.setMe x).nextTicket = s.nextTicket := rfl
@[simp] theorem State.setMe_gangs (s : State) (x : Strand) : (s.setMe x).gangs = s.gangs := rfl
@[simp] theorem State.setMe_launches (s : State) (x : Strand) : (s.setMe x).launches = s.launches := rfl
@[simp] theorem State.setMe_nextLaunch (s : State) (x : Strand) : (s.setMe x).nextLaunch = s.nextLaunch := rfl
@[simp] theorem State.setMe_records (s : State) (x : Strand) : (s.setMe x).records = s.records := rfl
@[simp] theorem State.setMe_boarding (s : State) (x : Strand) : (s.setMe x).boarding = s.boarding := rfl
@[simp] theorem State.setMe_alighting (s : State) (x : Strand) : (s.setMe x).alighting = s.alighting := rfl
@[simp] theorem State.setMe_captures (s : State) (x : Strand) : (s.setMe x).captures = s.captures := rfl
@[simp] theorem State.setMe_reentries (s : State) (x : Strand) : (s.setMe x).reentries = s.reentries := rfl
@[simp] theorem State.setMe_routers (s : State) (x : Strand) : (s.setMe x).routers = s.routers := rfl
@[simp] theorem State.setMe_combining (s : State) (x : Strand) : (s.setMe x).combining = s.combining := rfl
@[simp] theorem State.setMe_addsHere (s : State) (x : Strand) : (s.setMe x).addsHere = s.addsHere := rfl
@[simp] theorem State.setMe_wordsOpen (s : State) (x : Strand) : (s.setMe x).wordsOpen = s.wordsOpen := rfl
@[simp] theorem State.setMe_ports (s : State) (x : Strand) : (s.setMe x).ports = s.ports := rfl
@[simp] theorem State.setMe_routes (s : State) (x : Strand) : (s.setMe x).routes = s.routes := rfl
@[simp] theorem State.setMe_fabric (s : State) (x : Strand) : (s.setMe x).fabric = s.fabric := rfl
@[simp] theorem State.setMe_sent (s : State) (x : Strand) : (s.setMe x).sent = s.sent := rfl
@[simp] theorem State.setMe_grants (s : State) (x : Strand) : (s.setMe x).grants = s.grants := rfl
@[simp] theorem State.setMe_demands (s : State) (x : Strand) : (s.setMe x).demands = s.demands := rfl
@[simp] theorem State.setMe_device (s : State) (x : Strand) : (s.setMe x).device = s.device := rfl
@[simp] theorem State.setMe_linkKeySel (s : State) (x : Strand) : (s.setMe x).linkKeySel = s.linkKeySel := rfl
@[simp] theorem State.setMe_linkKeyData (s : State) (x : Strand) : (s.setMe x).linkKeyData = s.linkKeyData := rfl
@[simp] theorem State.setMe_svcMode (s : State) (x : Strand) : (s.setMe x).svcMode = s.svcMode := rfl
@[simp] theorem State.setMe_kettleCtl (s : State) (x : Strand) : (s.setMe x).kettleCtl = s.kettleCtl := rfl
@[simp] theorem State.setMe_capChanged (s : State) (x : Strand) : (s.setMe x).capChanged = s.capChanged := rfl
@[simp] theorem State.setMe_samQuotaSet (s : State) (x : Strand) : (s.setMe x).samQuotaSet = s.samQuotaSet := rfl
@[simp] theorem State.setMe_pinQuotaSet (s : State) (x : Strand) : (s.setMe x).pinQuotaSet = s.pinQuotaSet := rfl
@[simp] theorem State.setMe_dbgCtl (s : State) (x : Strand) : (s.setMe x).dbgCtl = s.dbgCtl := rfl
@[simp] theorem State.setMe_dbgSel (s : State) (x : Strand) : (s.setMe x).dbgSel = s.dbgSel := rfl
@[simp] theorem State.setMe_partitions (s : State) (x : Strand) : (s.setMe x).partitions = s.partitions := rfl
@[simp] theorem State.setMe_hostLink (s : State) (x : Strand) : (s.setMe x).hostLink = s.hostLink := rfl
@[simp] theorem State.setMe_hostHoles (s : State) (x : Strand) : (s.setMe x).hostHoles = s.hostHoles := rfl
@[simp] theorem State.setMe_queues (s : State) (x : Strand) : (s.setMe x).queues = s.queues := rfl
@[simp] theorem State.setMe_service (s : State) (x : Strand) : (s.setMe x).service = s.service := rfl
@[simp] theorem State.setMe_replays (s : State) (x : Strand) : (s.setMe x).replays = s.replays := rfl
@[simp] theorem State.setMe_errors (s : State) (x : Strand) : (s.setMe x).errors = s.errors := rfl
@[simp] theorem State.setMe_image (s : State) (x : Strand) : (s.setMe x).image = s.image := rfl
@[simp] theorem State.setMe_pendingImage (s : State) (x : Strand) : (s.setMe x).pendingImage = s.pendingImage := rfl

/-! ### The fields `State.setG` leaves alone -/

@[simp] theorem State.setG_cycle (s : State) (d : BitVec 5) (v : Word) : (s.setG d v).cycle = s.cycle := rfl
@[simp] theorem State.setG_agenda (s : State) (d : BitVec 5) (v : Word) : (s.setG d v).agenda = s.agenda := rfl
@[simp] theorem State.setG_phase (s : State) (d : BitVec 5) (v : Word) : (s.setG d v).phase = s.phase := rfl
@[simp] theorem State.setG_turned (s : State) (d : BitVec 5) (v : Word) : (s.setG d v).turned = s.turned := rfl
@[simp] theorem State.setG_cur (s : State) (d : BitVec 5) (v : Word) : (s.setG d v).cur = s.cur := rfl
@[simp] theorem State.setG_fresh (s : State) (d : BitVec 5) (v : Word) : (s.setG d v).fresh = s.fresh := rfl
@[simp] theorem State.setG_serial (s : State) (d : BitVec 5) (v : Word) : (s.setG d v).serial = s.serial := rfl
@[simp] theorem State.setG_powered (s : State) (d : BitVec 5) (v : Word) : (s.setG d v).powered = s.powered := rfl
@[simp] theorem State.setG_cores (s : State) (d : BitVec 5) (v : Word) : (s.setG d v).cores = s.cores := rfl
@[simp] theorem State.setG_domains (s : State) (d : BitVec 5) (v : Word) : (s.setG d v).domains = s.domains := rfl
@[simp] theorem State.setG_mem (s : State) (d : BitVec 5) (v : Word) : (s.setG d v).mem = s.mem := rfl
@[simp] theorem State.setG_spad (s : State) (d : BitVec 5) (v : Word) : (s.setG d v).spad = s.spad := rfl
@[simp] theorem State.setG_footStores (s : State) (d : BitVec 5) (v : Word) : (s.setG d v).footStores = s.footStores := rfl
@[simp] theorem State.setG_poison (s : State) (d : BitVec 5) (v : Word) : (s.setG d v).poison = s.poison := rfl
@[simp] theorem State.setG_spadPoison (s : State) (d : BitVec 5) (v : Word) : (s.setG d v).spadPoison = s.spadPoison := rfl
@[simp] theorem State.setG_root (s : State) (d : BitVec 5) (v : Word) : (s.setG d v).root = s.root := rfl
@[simp] theorem State.setG_translations (s : State) (d : BitVec 5) (v : Word) : (s.setG d v).translations = s.translations := rfl
@[simp] theorem State.setG_migrations (s : State) (d : BitVec 5) (v : Word) : (s.setG d v).migrations = s.migrations := rfl
@[simp] theorem State.setG_keySlots (s : State) (d : BitVec 5) (v : Word) : (s.setG d v).keySlots = s.keySlots := rfl
@[simp] theorem State.setG_sectorKeys (s : State) (d : BitVec 5) (v : Word) : (s.setG d v).sectorKeys = s.sectorKeys := rfl
@[simp] theorem State.setG_caps (s : State) (d : BitVec 5) (v : Word) : (s.setG d v).caps = s.caps := rfl
@[simp] theorem State.setG_capsAt (s : State) (d : BitVec 5) (v : Word) : (s.setG d v).capsAt = s.capsAt := rfl
@[simp] theorem State.setG_pins (s : State) (d : BitVec 5) (v : Word) : (s.setG d v).pins = s.pins := rfl
@[simp] theorem State.setG_arenas (s : State) (d : BitVec 5) (v : Word) : (s.setG d v).arenas = s.arenas := rfl
@[simp] theorem State.setG_freeBlocks (s : State) (d : BitVec 5) (v : Word) : (s.setG d v).freeBlocks = s.freeBlocks := rfl
@[simp] theorem State.setG_blocksBack (s : State) (d : BitVec 5) (v : Word) : (s.setG d v).blocksBack = s.blocksBack := rfl
@[simp] theorem State.setG_steepBufs (s : State) (d : BitVec 5) (v : Word) : (s.setG d v).steepBufs = s.steepBufs := rfl
@[simp] theorem State.setG_steepSent (s : State) (d : BitVec 5) (v : Word) : (s.setG d v).steepSent = s.steepSent := rfl
@[simp] theorem State.setG_recordsDue (s : State) (d : BitVec 5) (v : Word) : (s.setG d v).recordsDue = s.recordsDue := rfl
@[simp] theorem State.setG_messages (s : State) (d : BitVec 5) (v : Word) : (s.setG d v).messages = s.messages := rfl
@[simp] theorem State.setG_handling (s : State) (d : BitVec 5) (v : Word) : (s.setG d v).handling = s.handling := rfl
@[simp] theorem State.setG_tickets (s : State) (d : BitVec 5) (v : Word) : (s.setG d v).tickets = s.tickets := rfl
@[simp] theorem State.setG_nextTicket (s : State) (d : BitVec 5) (v : Word) : (s.setG d v).nextTicket = s.nextTicket := rfl
@[simp] theorem State.setG_gangs (s : State) (d : BitVec 5) (v : Word) : (s.setG d v).gangs = s.gangs := rfl
@[simp] theorem State.setG_launches (s : State) (d : BitVec 5) (v : Word) : (s.setG d v).launches = s.launches := rfl
@[simp] theorem State.setG_nextLaunch (s : State) (d : BitVec 5) (v : Word) : (s.setG d v).nextLaunch = s.nextLaunch := rfl
@[simp] theorem State.setG_records (s : State) (d : BitVec 5) (v : Word) : (s.setG d v).records = s.records := rfl
@[simp] theorem State.setG_boarding (s : State) (d : BitVec 5) (v : Word) : (s.setG d v).boarding = s.boarding := rfl
@[simp] theorem State.setG_alighting (s : State) (d : BitVec 5) (v : Word) : (s.setG d v).alighting = s.alighting := rfl
@[simp] theorem State.setG_captures (s : State) (d : BitVec 5) (v : Word) : (s.setG d v).captures = s.captures := rfl
@[simp] theorem State.setG_reentries (s : State) (d : BitVec 5) (v : Word) : (s.setG d v).reentries = s.reentries := rfl
@[simp] theorem State.setG_routers (s : State) (d : BitVec 5) (v : Word) : (s.setG d v).routers = s.routers := rfl
@[simp] theorem State.setG_combining (s : State) (d : BitVec 5) (v : Word) : (s.setG d v).combining = s.combining := rfl
@[simp] theorem State.setG_addsHere (s : State) (d : BitVec 5) (v : Word) : (s.setG d v).addsHere = s.addsHere := rfl
@[simp] theorem State.setG_wordsOpen (s : State) (d : BitVec 5) (v : Word) : (s.setG d v).wordsOpen = s.wordsOpen := rfl
@[simp] theorem State.setG_ports (s : State) (d : BitVec 5) (v : Word) : (s.setG d v).ports = s.ports := rfl
@[simp] theorem State.setG_routes (s : State) (d : BitVec 5) (v : Word) : (s.setG d v).routes = s.routes := rfl
@[simp] theorem State.setG_fabric (s : State) (d : BitVec 5) (v : Word) : (s.setG d v).fabric = s.fabric := rfl
@[simp] theorem State.setG_sent (s : State) (d : BitVec 5) (v : Word) : (s.setG d v).sent = s.sent := rfl
@[simp] theorem State.setG_grants (s : State) (d : BitVec 5) (v : Word) : (s.setG d v).grants = s.grants := rfl
@[simp] theorem State.setG_demands (s : State) (d : BitVec 5) (v : Word) : (s.setG d v).demands = s.demands := rfl
@[simp] theorem State.setG_device (s : State) (d : BitVec 5) (v : Word) : (s.setG d v).device = s.device := rfl
@[simp] theorem State.setG_linkKeySel (s : State) (d : BitVec 5) (v : Word) : (s.setG d v).linkKeySel = s.linkKeySel := rfl
@[simp] theorem State.setG_linkKeyData (s : State) (d : BitVec 5) (v : Word) : (s.setG d v).linkKeyData = s.linkKeyData := rfl
@[simp] theorem State.setG_svcMode (s : State) (d : BitVec 5) (v : Word) : (s.setG d v).svcMode = s.svcMode := rfl
@[simp] theorem State.setG_kettleCtl (s : State) (d : BitVec 5) (v : Word) : (s.setG d v).kettleCtl = s.kettleCtl := rfl
@[simp] theorem State.setG_capChanged (s : State) (d : BitVec 5) (v : Word) : (s.setG d v).capChanged = s.capChanged := rfl
@[simp] theorem State.setG_samQuotaSet (s : State) (d : BitVec 5) (v : Word) : (s.setG d v).samQuotaSet = s.samQuotaSet := rfl
@[simp] theorem State.setG_pinQuotaSet (s : State) (d : BitVec 5) (v : Word) : (s.setG d v).pinQuotaSet = s.pinQuotaSet := rfl
@[simp] theorem State.setG_dbgCtl (s : State) (d : BitVec 5) (v : Word) : (s.setG d v).dbgCtl = s.dbgCtl := rfl
@[simp] theorem State.setG_dbgSel (s : State) (d : BitVec 5) (v : Word) : (s.setG d v).dbgSel = s.dbgSel := rfl
@[simp] theorem State.setG_partitions (s : State) (d : BitVec 5) (v : Word) : (s.setG d v).partitions = s.partitions := rfl
@[simp] theorem State.setG_hostLink (s : State) (d : BitVec 5) (v : Word) : (s.setG d v).hostLink = s.hostLink := rfl
@[simp] theorem State.setG_hostHoles (s : State) (d : BitVec 5) (v : Word) : (s.setG d v).hostHoles = s.hostHoles := rfl
@[simp] theorem State.setG_queues (s : State) (d : BitVec 5) (v : Word) : (s.setG d v).queues = s.queues := rfl
@[simp] theorem State.setG_service (s : State) (d : BitVec 5) (v : Word) : (s.setG d v).service = s.service := rfl
@[simp] theorem State.setG_replays (s : State) (d : BitVec 5) (v : Word) : (s.setG d v).replays = s.replays := rfl
@[simp] theorem State.setG_errors (s : State) (d : BitVec 5) (v : Word) : (s.setG d v).errors = s.errors := rfl
@[simp] theorem State.setG_image (s : State) (d : BitVec 5) (v : Word) : (s.setG d v).image = s.image := rfl
@[simp] theorem State.setG_pendingImage (s : State) (d : BitVec 5) (v : Word) : (s.setG d v).pendingImage = s.pendingImage := rfl

/-! ### The fields `State.retire` leaves alone -/

@[simp] theorem State.retire_cycle (s : State) : (s.retire).cycle = s.cycle := rfl
@[simp] theorem State.retire_agenda (s : State) : (s.retire).agenda = s.agenda := rfl
@[simp] theorem State.retire_phase (s : State) : (s.retire).phase = s.phase := rfl
@[simp] theorem State.retire_turned (s : State) : (s.retire).turned = s.turned := rfl
@[simp] theorem State.retire_cur (s : State) : (s.retire).cur = s.cur := rfl
@[simp] theorem State.retire_fresh (s : State) : (s.retire).fresh = s.fresh := rfl
@[simp] theorem State.retire_serial (s : State) : (s.retire).serial = s.serial := rfl
@[simp] theorem State.retire_powered (s : State) : (s.retire).powered = s.powered := rfl
@[simp] theorem State.retire_cores (s : State) : (s.retire).cores = s.cores := rfl
@[simp] theorem State.retire_domains (s : State) : (s.retire).domains = s.domains := rfl
@[simp] theorem State.retire_mem (s : State) : (s.retire).mem = s.mem := rfl
@[simp] theorem State.retire_spad (s : State) : (s.retire).spad = s.spad := rfl
@[simp] theorem State.retire_footStores (s : State) : (s.retire).footStores = s.footStores := rfl
@[simp] theorem State.retire_poison (s : State) : (s.retire).poison = s.poison := rfl
@[simp] theorem State.retire_spadPoison (s : State) : (s.retire).spadPoison = s.spadPoison := rfl
@[simp] theorem State.retire_root (s : State) : (s.retire).root = s.root := rfl
@[simp] theorem State.retire_translations (s : State) : (s.retire).translations = s.translations := rfl
@[simp] theorem State.retire_migrations (s : State) : (s.retire).migrations = s.migrations := rfl
@[simp] theorem State.retire_keySlots (s : State) : (s.retire).keySlots = s.keySlots := rfl
@[simp] theorem State.retire_sectorKeys (s : State) : (s.retire).sectorKeys = s.sectorKeys := rfl
@[simp] theorem State.retire_caps (s : State) : (s.retire).caps = s.caps := rfl
@[simp] theorem State.retire_capsAt (s : State) : (s.retire).capsAt = s.capsAt := rfl
@[simp] theorem State.retire_pins (s : State) : (s.retire).pins = s.pins := rfl
@[simp] theorem State.retire_arenas (s : State) : (s.retire).arenas = s.arenas := rfl
@[simp] theorem State.retire_freeBlocks (s : State) : (s.retire).freeBlocks = s.freeBlocks := rfl
@[simp] theorem State.retire_blocksBack (s : State) : (s.retire).blocksBack = s.blocksBack := rfl
@[simp] theorem State.retire_steepBufs (s : State) : (s.retire).steepBufs = s.steepBufs := rfl
@[simp] theorem State.retire_steepSent (s : State) : (s.retire).steepSent = s.steepSent := rfl
@[simp] theorem State.retire_recordsDue (s : State) : (s.retire).recordsDue = s.recordsDue := rfl
@[simp] theorem State.retire_messages (s : State) : (s.retire).messages = s.messages := rfl
@[simp] theorem State.retire_handling (s : State) : (s.retire).handling = s.handling := rfl
@[simp] theorem State.retire_tickets (s : State) : (s.retire).tickets = s.tickets := rfl
@[simp] theorem State.retire_nextTicket (s : State) : (s.retire).nextTicket = s.nextTicket := rfl
@[simp] theorem State.retire_gangs (s : State) : (s.retire).gangs = s.gangs := rfl
@[simp] theorem State.retire_launches (s : State) : (s.retire).launches = s.launches := rfl
@[simp] theorem State.retire_nextLaunch (s : State) : (s.retire).nextLaunch = s.nextLaunch := rfl
@[simp] theorem State.retire_records (s : State) : (s.retire).records = s.records := rfl
@[simp] theorem State.retire_boarding (s : State) : (s.retire).boarding = s.boarding := rfl
@[simp] theorem State.retire_alighting (s : State) : (s.retire).alighting = s.alighting := rfl
@[simp] theorem State.retire_captures (s : State) : (s.retire).captures = s.captures := rfl
@[simp] theorem State.retire_reentries (s : State) : (s.retire).reentries = s.reentries := rfl
@[simp] theorem State.retire_routers (s : State) : (s.retire).routers = s.routers := rfl
@[simp] theorem State.retire_combining (s : State) : (s.retire).combining = s.combining := rfl
@[simp] theorem State.retire_addsHere (s : State) : (s.retire).addsHere = s.addsHere := rfl
@[simp] theorem State.retire_wordsOpen (s : State) : (s.retire).wordsOpen = s.wordsOpen := rfl
@[simp] theorem State.retire_ports (s : State) : (s.retire).ports = s.ports := rfl
@[simp] theorem State.retire_routes (s : State) : (s.retire).routes = s.routes := rfl
@[simp] theorem State.retire_fabric (s : State) : (s.retire).fabric = s.fabric := rfl
@[simp] theorem State.retire_sent (s : State) : (s.retire).sent = s.sent := rfl
@[simp] theorem State.retire_grants (s : State) : (s.retire).grants = s.grants := rfl
@[simp] theorem State.retire_demands (s : State) : (s.retire).demands = s.demands := rfl
@[simp] theorem State.retire_device (s : State) : (s.retire).device = s.device := rfl
@[simp] theorem State.retire_linkKeySel (s : State) : (s.retire).linkKeySel = s.linkKeySel := rfl
@[simp] theorem State.retire_linkKeyData (s : State) : (s.retire).linkKeyData = s.linkKeyData := rfl
@[simp] theorem State.retire_svcMode (s : State) : (s.retire).svcMode = s.svcMode := rfl
@[simp] theorem State.retire_kettleCtl (s : State) : (s.retire).kettleCtl = s.kettleCtl := rfl
@[simp] theorem State.retire_capChanged (s : State) : (s.retire).capChanged = s.capChanged := rfl
@[simp] theorem State.retire_samQuotaSet (s : State) : (s.retire).samQuotaSet = s.samQuotaSet := rfl
@[simp] theorem State.retire_pinQuotaSet (s : State) : (s.retire).pinQuotaSet = s.pinQuotaSet := rfl
@[simp] theorem State.retire_dbgCtl (s : State) : (s.retire).dbgCtl = s.dbgCtl := rfl
@[simp] theorem State.retire_dbgSel (s : State) : (s.retire).dbgSel = s.dbgSel := rfl
@[simp] theorem State.retire_partitions (s : State) : (s.retire).partitions = s.partitions := rfl
@[simp] theorem State.retire_hostLink (s : State) : (s.retire).hostLink = s.hostLink := rfl
@[simp] theorem State.retire_hostHoles (s : State) : (s.retire).hostHoles = s.hostHoles := rfl
@[simp] theorem State.retire_queues (s : State) : (s.retire).queues = s.queues := rfl
@[simp] theorem State.retire_service (s : State) : (s.retire).service = s.service := rfl
@[simp] theorem State.retire_replays (s : State) : (s.retire).replays = s.replays := rfl
@[simp] theorem State.retire_errors (s : State) : (s.retire).errors = s.errors := rfl
@[simp] theorem State.retire_image (s : State) : (s.retire).image = s.image := rfl
@[simp] theorem State.retire_pendingImage (s : State) : (s.retire).pendingImage = s.pendingImage := rfl

/-! ### The fields `State.writeG` leaves alone -/

@[simp] theorem State.writeG_cycle (s : State) (d : BitVec 5) (v : Word) : (s.writeG d v).cycle = s.cycle := rfl
@[simp] theorem State.writeG_agenda (s : State) (d : BitVec 5) (v : Word) : (s.writeG d v).agenda = s.agenda := rfl
@[simp] theorem State.writeG_phase (s : State) (d : BitVec 5) (v : Word) : (s.writeG d v).phase = s.phase := rfl
@[simp] theorem State.writeG_turned (s : State) (d : BitVec 5) (v : Word) : (s.writeG d v).turned = s.turned := rfl
@[simp] theorem State.writeG_cur (s : State) (d : BitVec 5) (v : Word) : (s.writeG d v).cur = s.cur := rfl
@[simp] theorem State.writeG_fresh (s : State) (d : BitVec 5) (v : Word) : (s.writeG d v).fresh = s.fresh := rfl
@[simp] theorem State.writeG_serial (s : State) (d : BitVec 5) (v : Word) : (s.writeG d v).serial = s.serial := rfl
@[simp] theorem State.writeG_powered (s : State) (d : BitVec 5) (v : Word) : (s.writeG d v).powered = s.powered := rfl
@[simp] theorem State.writeG_cores (s : State) (d : BitVec 5) (v : Word) : (s.writeG d v).cores = s.cores := rfl
@[simp] theorem State.writeG_domains (s : State) (d : BitVec 5) (v : Word) : (s.writeG d v).domains = s.domains := rfl
@[simp] theorem State.writeG_mem (s : State) (d : BitVec 5) (v : Word) : (s.writeG d v).mem = s.mem := rfl
@[simp] theorem State.writeG_spad (s : State) (d : BitVec 5) (v : Word) : (s.writeG d v).spad = s.spad := rfl
@[simp] theorem State.writeG_footStores (s : State) (d : BitVec 5) (v : Word) : (s.writeG d v).footStores = s.footStores := rfl
@[simp] theorem State.writeG_poison (s : State) (d : BitVec 5) (v : Word) : (s.writeG d v).poison = s.poison := rfl
@[simp] theorem State.writeG_spadPoison (s : State) (d : BitVec 5) (v : Word) : (s.writeG d v).spadPoison = s.spadPoison := rfl
@[simp] theorem State.writeG_root (s : State) (d : BitVec 5) (v : Word) : (s.writeG d v).root = s.root := rfl
@[simp] theorem State.writeG_translations (s : State) (d : BitVec 5) (v : Word) : (s.writeG d v).translations = s.translations := rfl
@[simp] theorem State.writeG_migrations (s : State) (d : BitVec 5) (v : Word) : (s.writeG d v).migrations = s.migrations := rfl
@[simp] theorem State.writeG_keySlots (s : State) (d : BitVec 5) (v : Word) : (s.writeG d v).keySlots = s.keySlots := rfl
@[simp] theorem State.writeG_sectorKeys (s : State) (d : BitVec 5) (v : Word) : (s.writeG d v).sectorKeys = s.sectorKeys := rfl
@[simp] theorem State.writeG_caps (s : State) (d : BitVec 5) (v : Word) : (s.writeG d v).caps = s.caps := rfl
@[simp] theorem State.writeG_capsAt (s : State) (d : BitVec 5) (v : Word) : (s.writeG d v).capsAt = s.capsAt := rfl
@[simp] theorem State.writeG_pins (s : State) (d : BitVec 5) (v : Word) : (s.writeG d v).pins = s.pins := rfl
@[simp] theorem State.writeG_arenas (s : State) (d : BitVec 5) (v : Word) : (s.writeG d v).arenas = s.arenas := rfl
@[simp] theorem State.writeG_freeBlocks (s : State) (d : BitVec 5) (v : Word) : (s.writeG d v).freeBlocks = s.freeBlocks := rfl
@[simp] theorem State.writeG_blocksBack (s : State) (d : BitVec 5) (v : Word) : (s.writeG d v).blocksBack = s.blocksBack := rfl
@[simp] theorem State.writeG_steepBufs (s : State) (d : BitVec 5) (v : Word) : (s.writeG d v).steepBufs = s.steepBufs := rfl
@[simp] theorem State.writeG_steepSent (s : State) (d : BitVec 5) (v : Word) : (s.writeG d v).steepSent = s.steepSent := rfl
@[simp] theorem State.writeG_recordsDue (s : State) (d : BitVec 5) (v : Word) : (s.writeG d v).recordsDue = s.recordsDue := rfl
@[simp] theorem State.writeG_messages (s : State) (d : BitVec 5) (v : Word) : (s.writeG d v).messages = s.messages := rfl
@[simp] theorem State.writeG_handling (s : State) (d : BitVec 5) (v : Word) : (s.writeG d v).handling = s.handling := rfl
@[simp] theorem State.writeG_tickets (s : State) (d : BitVec 5) (v : Word) : (s.writeG d v).tickets = s.tickets := rfl
@[simp] theorem State.writeG_nextTicket (s : State) (d : BitVec 5) (v : Word) : (s.writeG d v).nextTicket = s.nextTicket := rfl
@[simp] theorem State.writeG_gangs (s : State) (d : BitVec 5) (v : Word) : (s.writeG d v).gangs = s.gangs := rfl
@[simp] theorem State.writeG_launches (s : State) (d : BitVec 5) (v : Word) : (s.writeG d v).launches = s.launches := rfl
@[simp] theorem State.writeG_nextLaunch (s : State) (d : BitVec 5) (v : Word) : (s.writeG d v).nextLaunch = s.nextLaunch := rfl
@[simp] theorem State.writeG_records (s : State) (d : BitVec 5) (v : Word) : (s.writeG d v).records = s.records := rfl
@[simp] theorem State.writeG_boarding (s : State) (d : BitVec 5) (v : Word) : (s.writeG d v).boarding = s.boarding := rfl
@[simp] theorem State.writeG_alighting (s : State) (d : BitVec 5) (v : Word) : (s.writeG d v).alighting = s.alighting := rfl
@[simp] theorem State.writeG_captures (s : State) (d : BitVec 5) (v : Word) : (s.writeG d v).captures = s.captures := rfl
@[simp] theorem State.writeG_reentries (s : State) (d : BitVec 5) (v : Word) : (s.writeG d v).reentries = s.reentries := rfl
@[simp] theorem State.writeG_routers (s : State) (d : BitVec 5) (v : Word) : (s.writeG d v).routers = s.routers := rfl
@[simp] theorem State.writeG_combining (s : State) (d : BitVec 5) (v : Word) : (s.writeG d v).combining = s.combining := rfl
@[simp] theorem State.writeG_addsHere (s : State) (d : BitVec 5) (v : Word) : (s.writeG d v).addsHere = s.addsHere := rfl
@[simp] theorem State.writeG_wordsOpen (s : State) (d : BitVec 5) (v : Word) : (s.writeG d v).wordsOpen = s.wordsOpen := rfl
@[simp] theorem State.writeG_ports (s : State) (d : BitVec 5) (v : Word) : (s.writeG d v).ports = s.ports := rfl
@[simp] theorem State.writeG_routes (s : State) (d : BitVec 5) (v : Word) : (s.writeG d v).routes = s.routes := rfl
@[simp] theorem State.writeG_fabric (s : State) (d : BitVec 5) (v : Word) : (s.writeG d v).fabric = s.fabric := rfl
@[simp] theorem State.writeG_sent (s : State) (d : BitVec 5) (v : Word) : (s.writeG d v).sent = s.sent := rfl
@[simp] theorem State.writeG_grants (s : State) (d : BitVec 5) (v : Word) : (s.writeG d v).grants = s.grants := rfl
@[simp] theorem State.writeG_demands (s : State) (d : BitVec 5) (v : Word) : (s.writeG d v).demands = s.demands := rfl
@[simp] theorem State.writeG_device (s : State) (d : BitVec 5) (v : Word) : (s.writeG d v).device = s.device := rfl
@[simp] theorem State.writeG_linkKeySel (s : State) (d : BitVec 5) (v : Word) : (s.writeG d v).linkKeySel = s.linkKeySel := rfl
@[simp] theorem State.writeG_linkKeyData (s : State) (d : BitVec 5) (v : Word) : (s.writeG d v).linkKeyData = s.linkKeyData := rfl
@[simp] theorem State.writeG_svcMode (s : State) (d : BitVec 5) (v : Word) : (s.writeG d v).svcMode = s.svcMode := rfl
@[simp] theorem State.writeG_kettleCtl (s : State) (d : BitVec 5) (v : Word) : (s.writeG d v).kettleCtl = s.kettleCtl := rfl
@[simp] theorem State.writeG_capChanged (s : State) (d : BitVec 5) (v : Word) : (s.writeG d v).capChanged = s.capChanged := rfl
@[simp] theorem State.writeG_samQuotaSet (s : State) (d : BitVec 5) (v : Word) : (s.writeG d v).samQuotaSet = s.samQuotaSet := rfl
@[simp] theorem State.writeG_pinQuotaSet (s : State) (d : BitVec 5) (v : Word) : (s.writeG d v).pinQuotaSet = s.pinQuotaSet := rfl
@[simp] theorem State.writeG_dbgCtl (s : State) (d : BitVec 5) (v : Word) : (s.writeG d v).dbgCtl = s.dbgCtl := rfl
@[simp] theorem State.writeG_dbgSel (s : State) (d : BitVec 5) (v : Word) : (s.writeG d v).dbgSel = s.dbgSel := rfl
@[simp] theorem State.writeG_partitions (s : State) (d : BitVec 5) (v : Word) : (s.writeG d v).partitions = s.partitions := rfl
@[simp] theorem State.writeG_hostLink (s : State) (d : BitVec 5) (v : Word) : (s.writeG d v).hostLink = s.hostLink := rfl
@[simp] theorem State.writeG_hostHoles (s : State) (d : BitVec 5) (v : Word) : (s.writeG d v).hostHoles = s.hostHoles := rfl
@[simp] theorem State.writeG_queues (s : State) (d : BitVec 5) (v : Word) : (s.writeG d v).queues = s.queues := rfl
@[simp] theorem State.writeG_service (s : State) (d : BitVec 5) (v : Word) : (s.writeG d v).service = s.service := rfl
@[simp] theorem State.writeG_replays (s : State) (d : BitVec 5) (v : Word) : (s.writeG d v).replays = s.replays := rfl
@[simp] theorem State.writeG_errors (s : State) (d : BitVec 5) (v : Word) : (s.writeG d v).errors = s.errors := rfl
@[simp] theorem State.writeG_image (s : State) (d : BitVec 5) (v : Word) : (s.writeG d v).image = s.image := rfl
@[simp] theorem State.writeG_pendingImage (s : State) (d : BitVec 5) (v : Word) : (s.writeG d v).pendingImage = s.pendingImage := rfl

/-! ### The fields `State.jump` leaves alone -/

@[simp] theorem State.jump_cycle (s : State) (a : Word) : (s.jump a).cycle = s.cycle := rfl
@[simp] theorem State.jump_agenda (s : State) (a : Word) : (s.jump a).agenda = s.agenda := rfl
@[simp] theorem State.jump_phase (s : State) (a : Word) : (s.jump a).phase = s.phase := rfl
@[simp] theorem State.jump_turned (s : State) (a : Word) : (s.jump a).turned = s.turned := rfl
@[simp] theorem State.jump_cur (s : State) (a : Word) : (s.jump a).cur = s.cur := rfl
@[simp] theorem State.jump_fresh (s : State) (a : Word) : (s.jump a).fresh = s.fresh := rfl
@[simp] theorem State.jump_serial (s : State) (a : Word) : (s.jump a).serial = s.serial := rfl
@[simp] theorem State.jump_powered (s : State) (a : Word) : (s.jump a).powered = s.powered := rfl
@[simp] theorem State.jump_cores (s : State) (a : Word) : (s.jump a).cores = s.cores := rfl
@[simp] theorem State.jump_domains (s : State) (a : Word) : (s.jump a).domains = s.domains := rfl
@[simp] theorem State.jump_mem (s : State) (a : Word) : (s.jump a).mem = s.mem := rfl
@[simp] theorem State.jump_spad (s : State) (a : Word) : (s.jump a).spad = s.spad := rfl
@[simp] theorem State.jump_footStores (s : State) (a : Word) : (s.jump a).footStores = s.footStores := rfl
@[simp] theorem State.jump_poison (s : State) (a : Word) : (s.jump a).poison = s.poison := rfl
@[simp] theorem State.jump_spadPoison (s : State) (a : Word) : (s.jump a).spadPoison = s.spadPoison := rfl
@[simp] theorem State.jump_root (s : State) (a : Word) : (s.jump a).root = s.root := rfl
@[simp] theorem State.jump_translations (s : State) (a : Word) : (s.jump a).translations = s.translations := rfl
@[simp] theorem State.jump_migrations (s : State) (a : Word) : (s.jump a).migrations = s.migrations := rfl
@[simp] theorem State.jump_keySlots (s : State) (a : Word) : (s.jump a).keySlots = s.keySlots := rfl
@[simp] theorem State.jump_sectorKeys (s : State) (a : Word) : (s.jump a).sectorKeys = s.sectorKeys := rfl
@[simp] theorem State.jump_caps (s : State) (a : Word) : (s.jump a).caps = s.caps := rfl
@[simp] theorem State.jump_capsAt (s : State) (a : Word) : (s.jump a).capsAt = s.capsAt := rfl
@[simp] theorem State.jump_pins (s : State) (a : Word) : (s.jump a).pins = s.pins := rfl
@[simp] theorem State.jump_arenas (s : State) (a : Word) : (s.jump a).arenas = s.arenas := rfl
@[simp] theorem State.jump_freeBlocks (s : State) (a : Word) : (s.jump a).freeBlocks = s.freeBlocks := rfl
@[simp] theorem State.jump_blocksBack (s : State) (a : Word) : (s.jump a).blocksBack = s.blocksBack := rfl
@[simp] theorem State.jump_steepBufs (s : State) (a : Word) : (s.jump a).steepBufs = s.steepBufs := rfl
@[simp] theorem State.jump_steepSent (s : State) (a : Word) : (s.jump a).steepSent = s.steepSent := rfl
@[simp] theorem State.jump_recordsDue (s : State) (a : Word) : (s.jump a).recordsDue = s.recordsDue := rfl
@[simp] theorem State.jump_messages (s : State) (a : Word) : (s.jump a).messages = s.messages := rfl
@[simp] theorem State.jump_handling (s : State) (a : Word) : (s.jump a).handling = s.handling := rfl
@[simp] theorem State.jump_tickets (s : State) (a : Word) : (s.jump a).tickets = s.tickets := rfl
@[simp] theorem State.jump_nextTicket (s : State) (a : Word) : (s.jump a).nextTicket = s.nextTicket := rfl
@[simp] theorem State.jump_gangs (s : State) (a : Word) : (s.jump a).gangs = s.gangs := rfl
@[simp] theorem State.jump_launches (s : State) (a : Word) : (s.jump a).launches = s.launches := rfl
@[simp] theorem State.jump_nextLaunch (s : State) (a : Word) : (s.jump a).nextLaunch = s.nextLaunch := rfl
@[simp] theorem State.jump_records (s : State) (a : Word) : (s.jump a).records = s.records := rfl
@[simp] theorem State.jump_boarding (s : State) (a : Word) : (s.jump a).boarding = s.boarding := rfl
@[simp] theorem State.jump_alighting (s : State) (a : Word) : (s.jump a).alighting = s.alighting := rfl
@[simp] theorem State.jump_captures (s : State) (a : Word) : (s.jump a).captures = s.captures := rfl
@[simp] theorem State.jump_reentries (s : State) (a : Word) : (s.jump a).reentries = s.reentries := rfl
@[simp] theorem State.jump_routers (s : State) (a : Word) : (s.jump a).routers = s.routers := rfl
@[simp] theorem State.jump_combining (s : State) (a : Word) : (s.jump a).combining = s.combining := rfl
@[simp] theorem State.jump_addsHere (s : State) (a : Word) : (s.jump a).addsHere = s.addsHere := rfl
@[simp] theorem State.jump_wordsOpen (s : State) (a : Word) : (s.jump a).wordsOpen = s.wordsOpen := rfl
@[simp] theorem State.jump_ports (s : State) (a : Word) : (s.jump a).ports = s.ports := rfl
@[simp] theorem State.jump_routes (s : State) (a : Word) : (s.jump a).routes = s.routes := rfl
@[simp] theorem State.jump_fabric (s : State) (a : Word) : (s.jump a).fabric = s.fabric := rfl
@[simp] theorem State.jump_sent (s : State) (a : Word) : (s.jump a).sent = s.sent := rfl
@[simp] theorem State.jump_grants (s : State) (a : Word) : (s.jump a).grants = s.grants := rfl
@[simp] theorem State.jump_demands (s : State) (a : Word) : (s.jump a).demands = s.demands := rfl
@[simp] theorem State.jump_device (s : State) (a : Word) : (s.jump a).device = s.device := rfl
@[simp] theorem State.jump_linkKeySel (s : State) (a : Word) : (s.jump a).linkKeySel = s.linkKeySel := rfl
@[simp] theorem State.jump_linkKeyData (s : State) (a : Word) : (s.jump a).linkKeyData = s.linkKeyData := rfl
@[simp] theorem State.jump_svcMode (s : State) (a : Word) : (s.jump a).svcMode = s.svcMode := rfl
@[simp] theorem State.jump_kettleCtl (s : State) (a : Word) : (s.jump a).kettleCtl = s.kettleCtl := rfl
@[simp] theorem State.jump_capChanged (s : State) (a : Word) : (s.jump a).capChanged = s.capChanged := rfl
@[simp] theorem State.jump_samQuotaSet (s : State) (a : Word) : (s.jump a).samQuotaSet = s.samQuotaSet := rfl
@[simp] theorem State.jump_pinQuotaSet (s : State) (a : Word) : (s.jump a).pinQuotaSet = s.pinQuotaSet := rfl
@[simp] theorem State.jump_dbgCtl (s : State) (a : Word) : (s.jump a).dbgCtl = s.dbgCtl := rfl
@[simp] theorem State.jump_dbgSel (s : State) (a : Word) : (s.jump a).dbgSel = s.dbgSel := rfl
@[simp] theorem State.jump_partitions (s : State) (a : Word) : (s.jump a).partitions = s.partitions := rfl
@[simp] theorem State.jump_hostLink (s : State) (a : Word) : (s.jump a).hostLink = s.hostLink := rfl
@[simp] theorem State.jump_hostHoles (s : State) (a : Word) : (s.jump a).hostHoles = s.hostHoles := rfl
@[simp] theorem State.jump_queues (s : State) (a : Word) : (s.jump a).queues = s.queues := rfl
@[simp] theorem State.jump_service (s : State) (a : Word) : (s.jump a).service = s.service := rfl
@[simp] theorem State.jump_replays (s : State) (a : Word) : (s.jump a).replays = s.replays := rfl
@[simp] theorem State.jump_errors (s : State) (a : Word) : (s.jump a).errors = s.errors := rfl
@[simp] theorem State.jump_image (s : State) (a : Word) : (s.jump a).image = s.image := rfl
@[simp] theorem State.jump_pendingImage (s : State) (a : Word) : (s.jump a).pendingImage = s.pendingImage := rfl

/-! ### The fields `State.waiting` leaves alone -/

@[simp] theorem State.waiting_cycle (s : State) (w : Wait) : (s.waiting w).cycle = s.cycle := rfl
@[simp] theorem State.waiting_agenda (s : State) (w : Wait) : (s.waiting w).agenda = s.agenda := rfl
@[simp] theorem State.waiting_phase (s : State) (w : Wait) : (s.waiting w).phase = s.phase := rfl
@[simp] theorem State.waiting_turned (s : State) (w : Wait) : (s.waiting w).turned = s.turned := rfl
@[simp] theorem State.waiting_cur (s : State) (w : Wait) : (s.waiting w).cur = s.cur := rfl
@[simp] theorem State.waiting_fresh (s : State) (w : Wait) : (s.waiting w).fresh = s.fresh := rfl
@[simp] theorem State.waiting_serial (s : State) (w : Wait) : (s.waiting w).serial = s.serial := rfl
@[simp] theorem State.waiting_powered (s : State) (w : Wait) : (s.waiting w).powered = s.powered := rfl
@[simp] theorem State.waiting_cores (s : State) (w : Wait) : (s.waiting w).cores = s.cores := rfl
@[simp] theorem State.waiting_domains (s : State) (w : Wait) : (s.waiting w).domains = s.domains := rfl
@[simp] theorem State.waiting_mem (s : State) (w : Wait) : (s.waiting w).mem = s.mem := rfl
@[simp] theorem State.waiting_spad (s : State) (w : Wait) : (s.waiting w).spad = s.spad := rfl
@[simp] theorem State.waiting_footStores (s : State) (w : Wait) : (s.waiting w).footStores = s.footStores := rfl
@[simp] theorem State.waiting_poison (s : State) (w : Wait) : (s.waiting w).poison = s.poison := rfl
@[simp] theorem State.waiting_spadPoison (s : State) (w : Wait) : (s.waiting w).spadPoison = s.spadPoison := rfl
@[simp] theorem State.waiting_root (s : State) (w : Wait) : (s.waiting w).root = s.root := rfl
@[simp] theorem State.waiting_translations (s : State) (w : Wait) : (s.waiting w).translations = s.translations := rfl
@[simp] theorem State.waiting_migrations (s : State) (w : Wait) : (s.waiting w).migrations = s.migrations := rfl
@[simp] theorem State.waiting_keySlots (s : State) (w : Wait) : (s.waiting w).keySlots = s.keySlots := rfl
@[simp] theorem State.waiting_sectorKeys (s : State) (w : Wait) : (s.waiting w).sectorKeys = s.sectorKeys := rfl
@[simp] theorem State.waiting_caps (s : State) (w : Wait) : (s.waiting w).caps = s.caps := rfl
@[simp] theorem State.waiting_capsAt (s : State) (w : Wait) : (s.waiting w).capsAt = s.capsAt := rfl
@[simp] theorem State.waiting_pins (s : State) (w : Wait) : (s.waiting w).pins = s.pins := rfl
@[simp] theorem State.waiting_arenas (s : State) (w : Wait) : (s.waiting w).arenas = s.arenas := rfl
@[simp] theorem State.waiting_freeBlocks (s : State) (w : Wait) : (s.waiting w).freeBlocks = s.freeBlocks := rfl
@[simp] theorem State.waiting_blocksBack (s : State) (w : Wait) : (s.waiting w).blocksBack = s.blocksBack := rfl
@[simp] theorem State.waiting_steepBufs (s : State) (w : Wait) : (s.waiting w).steepBufs = s.steepBufs := rfl
@[simp] theorem State.waiting_steepSent (s : State) (w : Wait) : (s.waiting w).steepSent = s.steepSent := rfl
@[simp] theorem State.waiting_recordsDue (s : State) (w : Wait) : (s.waiting w).recordsDue = s.recordsDue := rfl
@[simp] theorem State.waiting_messages (s : State) (w : Wait) : (s.waiting w).messages = s.messages := rfl
@[simp] theorem State.waiting_handling (s : State) (w : Wait) : (s.waiting w).handling = s.handling := rfl
@[simp] theorem State.waiting_tickets (s : State) (w : Wait) : (s.waiting w).tickets = s.tickets := rfl
@[simp] theorem State.waiting_nextTicket (s : State) (w : Wait) : (s.waiting w).nextTicket = s.nextTicket := rfl
@[simp] theorem State.waiting_gangs (s : State) (w : Wait) : (s.waiting w).gangs = s.gangs := rfl
@[simp] theorem State.waiting_launches (s : State) (w : Wait) : (s.waiting w).launches = s.launches := rfl
@[simp] theorem State.waiting_nextLaunch (s : State) (w : Wait) : (s.waiting w).nextLaunch = s.nextLaunch := rfl
@[simp] theorem State.waiting_records (s : State) (w : Wait) : (s.waiting w).records = s.records := rfl
@[simp] theorem State.waiting_boarding (s : State) (w : Wait) : (s.waiting w).boarding = s.boarding := rfl
@[simp] theorem State.waiting_alighting (s : State) (w : Wait) : (s.waiting w).alighting = s.alighting := rfl
@[simp] theorem State.waiting_captures (s : State) (w : Wait) : (s.waiting w).captures = s.captures := rfl
@[simp] theorem State.waiting_reentries (s : State) (w : Wait) : (s.waiting w).reentries = s.reentries := rfl
@[simp] theorem State.waiting_routers (s : State) (w : Wait) : (s.waiting w).routers = s.routers := rfl
@[simp] theorem State.waiting_combining (s : State) (w : Wait) : (s.waiting w).combining = s.combining := rfl
@[simp] theorem State.waiting_addsHere (s : State) (w : Wait) : (s.waiting w).addsHere = s.addsHere := rfl
@[simp] theorem State.waiting_wordsOpen (s : State) (w : Wait) : (s.waiting w).wordsOpen = s.wordsOpen := rfl
@[simp] theorem State.waiting_ports (s : State) (w : Wait) : (s.waiting w).ports = s.ports := rfl
@[simp] theorem State.waiting_routes (s : State) (w : Wait) : (s.waiting w).routes = s.routes := rfl
@[simp] theorem State.waiting_fabric (s : State) (w : Wait) : (s.waiting w).fabric = s.fabric := rfl
@[simp] theorem State.waiting_sent (s : State) (w : Wait) : (s.waiting w).sent = s.sent := rfl
@[simp] theorem State.waiting_grants (s : State) (w : Wait) : (s.waiting w).grants = s.grants := rfl
@[simp] theorem State.waiting_demands (s : State) (w : Wait) : (s.waiting w).demands = s.demands := rfl
@[simp] theorem State.waiting_device (s : State) (w : Wait) : (s.waiting w).device = s.device := rfl
@[simp] theorem State.waiting_linkKeySel (s : State) (w : Wait) : (s.waiting w).linkKeySel = s.linkKeySel := rfl
@[simp] theorem State.waiting_linkKeyData (s : State) (w : Wait) : (s.waiting w).linkKeyData = s.linkKeyData := rfl
@[simp] theorem State.waiting_svcMode (s : State) (w : Wait) : (s.waiting w).svcMode = s.svcMode := rfl
@[simp] theorem State.waiting_kettleCtl (s : State) (w : Wait) : (s.waiting w).kettleCtl = s.kettleCtl := rfl
@[simp] theorem State.waiting_capChanged (s : State) (w : Wait) : (s.waiting w).capChanged = s.capChanged := rfl
@[simp] theorem State.waiting_samQuotaSet (s : State) (w : Wait) : (s.waiting w).samQuotaSet = s.samQuotaSet := rfl
@[simp] theorem State.waiting_pinQuotaSet (s : State) (w : Wait) : (s.waiting w).pinQuotaSet = s.pinQuotaSet := rfl
@[simp] theorem State.waiting_dbgCtl (s : State) (w : Wait) : (s.waiting w).dbgCtl = s.dbgCtl := rfl
@[simp] theorem State.waiting_dbgSel (s : State) (w : Wait) : (s.waiting w).dbgSel = s.dbgSel := rfl
@[simp] theorem State.waiting_partitions (s : State) (w : Wait) : (s.waiting w).partitions = s.partitions := rfl
@[simp] theorem State.waiting_hostLink (s : State) (w : Wait) : (s.waiting w).hostLink = s.hostLink := rfl
@[simp] theorem State.waiting_hostHoles (s : State) (w : Wait) : (s.waiting w).hostHoles = s.hostHoles := rfl
@[simp] theorem State.waiting_queues (s : State) (w : Wait) : (s.waiting w).queues = s.queues := rfl
@[simp] theorem State.waiting_service (s : State) (w : Wait) : (s.waiting w).service = s.service := rfl
@[simp] theorem State.waiting_replays (s : State) (w : Wait) : (s.waiting w).replays = s.replays := rfl
@[simp] theorem State.waiting_errors (s : State) (w : Wait) : (s.waiting w).errors = s.errors := rfl
@[simp] theorem State.waiting_image (s : State) (w : Wait) : (s.waiting w).image = s.image := rfl
@[simp] theorem State.waiting_pendingImage (s : State) (w : Wait) : (s.waiting w).pendingImage = s.pendingImage := rfl

/-! ### The fields `State.trapOn` leaves alone -/

@[simp] theorem State.trapOn_cycle (s : State) (sid : Nat) (t : Trap) : (s.trapOn sid t).cycle = s.cycle := by
  obtain ⟨_, _, h⟩ := s.trapOn_only sid t; rw [h]; rfl
@[simp] theorem State.trapOn_agenda (s : State) (sid : Nat) (t : Trap) : (s.trapOn sid t).agenda = s.agenda := by
  obtain ⟨_, _, h⟩ := s.trapOn_only sid t; rw [h]; rfl
@[simp] theorem State.trapOn_phase (s : State) (sid : Nat) (t : Trap) : (s.trapOn sid t).phase = s.phase := by
  obtain ⟨_, _, h⟩ := s.trapOn_only sid t; rw [h]; rfl
@[simp] theorem State.trapOn_turned (s : State) (sid : Nat) (t : Trap) : (s.trapOn sid t).turned = s.turned := by
  obtain ⟨_, _, h⟩ := s.trapOn_only sid t; rw [h]; rfl
@[simp] theorem State.trapOn_cur (s : State) (sid : Nat) (t : Trap) : (s.trapOn sid t).cur = s.cur := by
  obtain ⟨_, _, h⟩ := s.trapOn_only sid t; rw [h]; rfl
@[simp] theorem State.trapOn_fresh (s : State) (sid : Nat) (t : Trap) : (s.trapOn sid t).fresh = s.fresh := by
  obtain ⟨_, _, h⟩ := s.trapOn_only sid t; rw [h]; rfl
@[simp] theorem State.trapOn_serial (s : State) (sid : Nat) (t : Trap) : (s.trapOn sid t).serial = s.serial := by
  obtain ⟨_, _, h⟩ := s.trapOn_only sid t; rw [h]; rfl
@[simp] theorem State.trapOn_powered (s : State) (sid : Nat) (t : Trap) : (s.trapOn sid t).powered = s.powered := by
  obtain ⟨_, _, h⟩ := s.trapOn_only sid t; rw [h]; rfl
@[simp] theorem State.trapOn_cores (s : State) (sid : Nat) (t : Trap) : (s.trapOn sid t).cores = s.cores := by
  obtain ⟨_, _, h⟩ := s.trapOn_only sid t; rw [h]; rfl
@[simp] theorem State.trapOn_domains (s : State) (sid : Nat) (t : Trap) : (s.trapOn sid t).domains = s.domains := by
  obtain ⟨_, _, h⟩ := s.trapOn_only sid t; rw [h]; rfl
@[simp] theorem State.trapOn_mem (s : State) (sid : Nat) (t : Trap) : (s.trapOn sid t).mem = s.mem := by
  obtain ⟨_, _, h⟩ := s.trapOn_only sid t; rw [h]; rfl
@[simp] theorem State.trapOn_spad (s : State) (sid : Nat) (t : Trap) : (s.trapOn sid t).spad = s.spad := by
  obtain ⟨_, _, h⟩ := s.trapOn_only sid t; rw [h]; rfl
@[simp] theorem State.trapOn_footStores (s : State) (sid : Nat) (t : Trap) : (s.trapOn sid t).footStores = s.footStores := by
  obtain ⟨_, _, h⟩ := s.trapOn_only sid t; rw [h]; rfl
@[simp] theorem State.trapOn_poison (s : State) (sid : Nat) (t : Trap) : (s.trapOn sid t).poison = s.poison := by
  obtain ⟨_, _, h⟩ := s.trapOn_only sid t; rw [h]; rfl
@[simp] theorem State.trapOn_spadPoison (s : State) (sid : Nat) (t : Trap) : (s.trapOn sid t).spadPoison = s.spadPoison := by
  obtain ⟨_, _, h⟩ := s.trapOn_only sid t; rw [h]; rfl
@[simp] theorem State.trapOn_root (s : State) (sid : Nat) (t : Trap) : (s.trapOn sid t).root = s.root := by
  obtain ⟨_, _, h⟩ := s.trapOn_only sid t; rw [h]; rfl
@[simp] theorem State.trapOn_translations (s : State) (sid : Nat) (t : Trap) : (s.trapOn sid t).translations = s.translations := by
  obtain ⟨_, _, h⟩ := s.trapOn_only sid t; rw [h]; rfl
@[simp] theorem State.trapOn_migrations (s : State) (sid : Nat) (t : Trap) : (s.trapOn sid t).migrations = s.migrations := by
  obtain ⟨_, _, h⟩ := s.trapOn_only sid t; rw [h]; rfl
@[simp] theorem State.trapOn_keySlots (s : State) (sid : Nat) (t : Trap) : (s.trapOn sid t).keySlots = s.keySlots := by
  obtain ⟨_, _, h⟩ := s.trapOn_only sid t; rw [h]; rfl
@[simp] theorem State.trapOn_sectorKeys (s : State) (sid : Nat) (t : Trap) : (s.trapOn sid t).sectorKeys = s.sectorKeys := by
  obtain ⟨_, _, h⟩ := s.trapOn_only sid t; rw [h]; rfl
@[simp] theorem State.trapOn_caps (s : State) (sid : Nat) (t : Trap) : (s.trapOn sid t).caps = s.caps := by
  obtain ⟨_, _, h⟩ := s.trapOn_only sid t; rw [h]; rfl
@[simp] theorem State.trapOn_capsAt (s : State) (sid : Nat) (t : Trap) : (s.trapOn sid t).capsAt = s.capsAt := by
  obtain ⟨_, _, h⟩ := s.trapOn_only sid t; rw [h]; rfl
@[simp] theorem State.trapOn_pins (s : State) (sid : Nat) (t : Trap) : (s.trapOn sid t).pins = s.pins := by
  obtain ⟨_, _, h⟩ := s.trapOn_only sid t; rw [h]; rfl
@[simp] theorem State.trapOn_arenas (s : State) (sid : Nat) (t : Trap) : (s.trapOn sid t).arenas = s.arenas := by
  obtain ⟨_, _, h⟩ := s.trapOn_only sid t; rw [h]; rfl
@[simp] theorem State.trapOn_freeBlocks (s : State) (sid : Nat) (t : Trap) : (s.trapOn sid t).freeBlocks = s.freeBlocks := by
  obtain ⟨_, _, h⟩ := s.trapOn_only sid t; rw [h]; rfl
@[simp] theorem State.trapOn_blocksBack (s : State) (sid : Nat) (t : Trap) : (s.trapOn sid t).blocksBack = s.blocksBack := by
  obtain ⟨_, _, h⟩ := s.trapOn_only sid t; rw [h]; rfl
@[simp] theorem State.trapOn_steepBufs (s : State) (sid : Nat) (t : Trap) : (s.trapOn sid t).steepBufs = s.steepBufs := by
  obtain ⟨_, _, h⟩ := s.trapOn_only sid t; rw [h]; rfl
@[simp] theorem State.trapOn_steepSent (s : State) (sid : Nat) (t : Trap) : (s.trapOn sid t).steepSent = s.steepSent := by
  obtain ⟨_, _, h⟩ := s.trapOn_only sid t; rw [h]; rfl
@[simp] theorem State.trapOn_recordsDue (s : State) (sid : Nat) (t : Trap) : (s.trapOn sid t).recordsDue = s.recordsDue := by
  obtain ⟨_, _, h⟩ := s.trapOn_only sid t; rw [h]; rfl
@[simp] theorem State.trapOn_messages (s : State) (sid : Nat) (t : Trap) : (s.trapOn sid t).messages = s.messages := by
  obtain ⟨_, _, h⟩ := s.trapOn_only sid t; rw [h]; rfl
@[simp] theorem State.trapOn_handling (s : State) (sid : Nat) (t : Trap) : (s.trapOn sid t).handling = s.handling := by
  obtain ⟨_, _, h⟩ := s.trapOn_only sid t; rw [h]; rfl
@[simp] theorem State.trapOn_tickets (s : State) (sid : Nat) (t : Trap) : (s.trapOn sid t).tickets = s.tickets := by
  obtain ⟨_, _, h⟩ := s.trapOn_only sid t; rw [h]; rfl
@[simp] theorem State.trapOn_nextTicket (s : State) (sid : Nat) (t : Trap) : (s.trapOn sid t).nextTicket = s.nextTicket := by
  obtain ⟨_, _, h⟩ := s.trapOn_only sid t; rw [h]; rfl
@[simp] theorem State.trapOn_gangs (s : State) (sid : Nat) (t : Trap) : (s.trapOn sid t).gangs = s.gangs := by
  obtain ⟨_, _, h⟩ := s.trapOn_only sid t; rw [h]; rfl
@[simp] theorem State.trapOn_launches (s : State) (sid : Nat) (t : Trap) : (s.trapOn sid t).launches = s.launches := by
  obtain ⟨_, _, h⟩ := s.trapOn_only sid t; rw [h]; rfl
@[simp] theorem State.trapOn_nextLaunch (s : State) (sid : Nat) (t : Trap) : (s.trapOn sid t).nextLaunch = s.nextLaunch := by
  obtain ⟨_, _, h⟩ := s.trapOn_only sid t; rw [h]; rfl
@[simp] theorem State.trapOn_records (s : State) (sid : Nat) (t : Trap) : (s.trapOn sid t).records = s.records := by
  obtain ⟨_, _, h⟩ := s.trapOn_only sid t; rw [h]; rfl
@[simp] theorem State.trapOn_boarding (s : State) (sid : Nat) (t : Trap) : (s.trapOn sid t).boarding = s.boarding := by
  obtain ⟨_, _, h⟩ := s.trapOn_only sid t; rw [h]; rfl
@[simp] theorem State.trapOn_alighting (s : State) (sid : Nat) (t : Trap) : (s.trapOn sid t).alighting = s.alighting := by
  obtain ⟨_, _, h⟩ := s.trapOn_only sid t; rw [h]; rfl
@[simp] theorem State.trapOn_routers (s : State) (sid : Nat) (t : Trap) : (s.trapOn sid t).routers = s.routers := by
  obtain ⟨_, _, h⟩ := s.trapOn_only sid t; rw [h]; rfl
@[simp] theorem State.trapOn_combining (s : State) (sid : Nat) (t : Trap) : (s.trapOn sid t).combining = s.combining := by
  obtain ⟨_, _, h⟩ := s.trapOn_only sid t; rw [h]; rfl
@[simp] theorem State.trapOn_addsHere (s : State) (sid : Nat) (t : Trap) : (s.trapOn sid t).addsHere = s.addsHere := by
  obtain ⟨_, _, h⟩ := s.trapOn_only sid t; rw [h]; rfl
@[simp] theorem State.trapOn_wordsOpen (s : State) (sid : Nat) (t : Trap) : (s.trapOn sid t).wordsOpen = s.wordsOpen := by
  obtain ⟨_, _, h⟩ := s.trapOn_only sid t; rw [h]; rfl
@[simp] theorem State.trapOn_ports (s : State) (sid : Nat) (t : Trap) : (s.trapOn sid t).ports = s.ports := by
  obtain ⟨_, _, h⟩ := s.trapOn_only sid t; rw [h]; rfl
@[simp] theorem State.trapOn_routes (s : State) (sid : Nat) (t : Trap) : (s.trapOn sid t).routes = s.routes := by
  obtain ⟨_, _, h⟩ := s.trapOn_only sid t; rw [h]; rfl
@[simp] theorem State.trapOn_fabric (s : State) (sid : Nat) (t : Trap) : (s.trapOn sid t).fabric = s.fabric := by
  obtain ⟨_, _, h⟩ := s.trapOn_only sid t; rw [h]; rfl
@[simp] theorem State.trapOn_sent (s : State) (sid : Nat) (t : Trap) : (s.trapOn sid t).sent = s.sent := by
  obtain ⟨_, _, h⟩ := s.trapOn_only sid t; rw [h]; rfl
@[simp] theorem State.trapOn_grants (s : State) (sid : Nat) (t : Trap) : (s.trapOn sid t).grants = s.grants := by
  obtain ⟨_, _, h⟩ := s.trapOn_only sid t; rw [h]; rfl
@[simp] theorem State.trapOn_demands (s : State) (sid : Nat) (t : Trap) : (s.trapOn sid t).demands = s.demands := by
  obtain ⟨_, _, h⟩ := s.trapOn_only sid t; rw [h]; rfl
@[simp] theorem State.trapOn_device (s : State) (sid : Nat) (t : Trap) : (s.trapOn sid t).device = s.device := by
  obtain ⟨_, _, h⟩ := s.trapOn_only sid t; rw [h]; rfl
@[simp] theorem State.trapOn_linkKeySel (s : State) (sid : Nat) (t : Trap) : (s.trapOn sid t).linkKeySel = s.linkKeySel := by
  obtain ⟨_, _, h⟩ := s.trapOn_only sid t; rw [h]; rfl
@[simp] theorem State.trapOn_linkKeyData (s : State) (sid : Nat) (t : Trap) : (s.trapOn sid t).linkKeyData = s.linkKeyData := by
  obtain ⟨_, _, h⟩ := s.trapOn_only sid t; rw [h]; rfl
@[simp] theorem State.trapOn_svcMode (s : State) (sid : Nat) (t : Trap) : (s.trapOn sid t).svcMode = s.svcMode := by
  obtain ⟨_, _, h⟩ := s.trapOn_only sid t; rw [h]; rfl
@[simp] theorem State.trapOn_kettleCtl (s : State) (sid : Nat) (t : Trap) : (s.trapOn sid t).kettleCtl = s.kettleCtl := by
  obtain ⟨_, _, h⟩ := s.trapOn_only sid t; rw [h]; rfl
@[simp] theorem State.trapOn_capChanged (s : State) (sid : Nat) (t : Trap) : (s.trapOn sid t).capChanged = s.capChanged := by
  obtain ⟨_, _, h⟩ := s.trapOn_only sid t; rw [h]; rfl
@[simp] theorem State.trapOn_samQuotaSet (s : State) (sid : Nat) (t : Trap) : (s.trapOn sid t).samQuotaSet = s.samQuotaSet := by
  obtain ⟨_, _, h⟩ := s.trapOn_only sid t; rw [h]; rfl
@[simp] theorem State.trapOn_pinQuotaSet (s : State) (sid : Nat) (t : Trap) : (s.trapOn sid t).pinQuotaSet = s.pinQuotaSet := by
  obtain ⟨_, _, h⟩ := s.trapOn_only sid t; rw [h]; rfl
@[simp] theorem State.trapOn_dbgCtl (s : State) (sid : Nat) (t : Trap) : (s.trapOn sid t).dbgCtl = s.dbgCtl := by
  obtain ⟨_, _, h⟩ := s.trapOn_only sid t; rw [h]; rfl
@[simp] theorem State.trapOn_dbgSel (s : State) (sid : Nat) (t : Trap) : (s.trapOn sid t).dbgSel = s.dbgSel := by
  obtain ⟨_, _, h⟩ := s.trapOn_only sid t; rw [h]; rfl
@[simp] theorem State.trapOn_partitions (s : State) (sid : Nat) (t : Trap) : (s.trapOn sid t).partitions = s.partitions := by
  obtain ⟨_, _, h⟩ := s.trapOn_only sid t; rw [h]; rfl
@[simp] theorem State.trapOn_hostLink (s : State) (sid : Nat) (t : Trap) : (s.trapOn sid t).hostLink = s.hostLink := by
  obtain ⟨_, _, h⟩ := s.trapOn_only sid t; rw [h]; rfl
@[simp] theorem State.trapOn_hostHoles (s : State) (sid : Nat) (t : Trap) : (s.trapOn sid t).hostHoles = s.hostHoles := by
  obtain ⟨_, _, h⟩ := s.trapOn_only sid t; rw [h]; rfl
@[simp] theorem State.trapOn_queues (s : State) (sid : Nat) (t : Trap) : (s.trapOn sid t).queues = s.queues := by
  obtain ⟨_, _, h⟩ := s.trapOn_only sid t; rw [h]; rfl
@[simp] theorem State.trapOn_service (s : State) (sid : Nat) (t : Trap) : (s.trapOn sid t).service = s.service := by
  obtain ⟨_, _, h⟩ := s.trapOn_only sid t; rw [h]; rfl
@[simp] theorem State.trapOn_replays (s : State) (sid : Nat) (t : Trap) : (s.trapOn sid t).replays = s.replays := by
  obtain ⟨_, _, h⟩ := s.trapOn_only sid t; rw [h]; rfl
@[simp] theorem State.trapOn_errors (s : State) (sid : Nat) (t : Trap) : (s.trapOn sid t).errors = s.errors := by
  obtain ⟨_, _, h⟩ := s.trapOn_only sid t; rw [h]; rfl
@[simp] theorem State.trapOn_image (s : State) (sid : Nat) (t : Trap) : (s.trapOn sid t).image = s.image := by
  obtain ⟨_, _, h⟩ := s.trapOn_only sid t; rw [h]; rfl
@[simp] theorem State.trapOn_pendingImage (s : State) (sid : Nat) (t : Trap) : (s.trapOn sid t).pendingImage = s.pendingImage := by
  obtain ⟨_, _, h⟩ := s.trapOn_only sid t; rw [h]; rfl

end Sys2Proof.Machine
end

