-- ==== Sys2Proof/Tests/Slice0.lean ====
section
/-! SUPPORT. The model's own tests: well-formedness, decoding of the spec's printed words, and for each statement with
hypotheses a state that meets them. -/
set_option Elab.async false

open Sys2Proof Sys2Proof.Machine

namespace Sys2Proof.Tests

/-! ### Well-formedness (R113, R114, R148): one ill-formed term per check -/

theorem test_wf_fence_kind : (Instr.fence 3 0 0).wellFormed = false ∧ (Instr.fence 2 0 0).wellFormed = true := by decide
theorem test_wf_fence_scope : (Instr.fence 0 7 0).wellFormed = false ∧ (Instr.fence 0 6 0).wellFormed = true := by decide
theorem test_wf_width_class : (Instr.vsetl 1 2 5).wellFormed = false ∧ (Instr.vsetl 1 2 4).wellFormed = true := by decide
theorem test_wf_steep_op : (Instr.ramo 10 1 2 0).wellFormed = false ∧ (Instr.ramow 25 1 2 0).wellFormed = true := by decide
theorem test_wf_form_vv_vx : (Instr.vdot4 1 2 3 1 0).wellFormed = false ∧ (Instr.vzip 1 2 3 3 0).wellFormed = true := by
  decide
theorem test_wf_form_vs_vi : (Instr.vslideup 1 2 3 0 0).wellFormed = false ∧ (Instr.vins 1 2 3 1 0).wellFormed = true := by
  decide
theorem test_wf_form_no_imm : (Instr.vmacc 1 2 3 2 0).wellFormed = false ∧ (Instr.vmadd 1 2 3 3 0).wellFormed = true := by
  decide
theorem test_wf_field_number : (Instr.gfield 1 6).wellFormed = false ∧ (Instr.gfield 1 5).wellFormed = true := by decide
theorem test_wf_size_class : (Instr.balloc 1 9).wellFormed = false ∧ (Instr.balloc 1 8).wellFormed = true := by decide
theorem test_wf_stored_format : (Instr.accst 0 1 2 4).wellFormed = false ∧ (Instr.accst 0 1 2 3).wellFormed = true := by
  decide
theorem test_wf_sam_word : (Instr.samLd 1 2 0 6).wellFormed = false ∧ (Instr.samCst 1 2 3 0 5).wellFormed = true := by decide
theorem test_wf_even_register : (Instr.tldm 0 9).wellFormed = false ∧ (Instr.tstm 0 8).wellFormed = true := by decide
theorem test_wf_mma_operand :
    (Instr.mma 0 9 0 0 1 0).wellFormed = false ∧ (Instr.mma 0 8 0 0 0 0).wellFormed = false ∧
      (Instr.mma 0 8 7 0 1 0).wellFormed = true := by decide

/-- An ill-formed word is refused by the decoder as well: VSETL with width class 5, from R111's fields. -/
theorem test_decode_refuses_ill_formed :
    decode ((0x22 : BitVec 6) ++ (1 : BitVec 5) ++ (2 : BitVec 5) ++ (0 : BitVec 2) ++ (0 : BitVec 10) ++ (5 : BitVec 4)) =
      .error .outOfRange := rfl

/-! ### Decoding: the words the spec prints beside their assembly text (06, 07, 08, 09, 10, 11) -/

/-- Whether each word decodes to the instruction beside it. -/
abbrev reads (l : List (InstrWord × Instr)) : Prop := ∀ r ∈ l, (decode r.1).toOption = some r.2

theorem test_decode_integer : reads
    [(0x08A5FFFF, .addi 5 5 0xFFFF), (0x186400BF, .srai 3 4 63), (0x1C80FEF0, .ldi 4 0xFEF0),
      (0x20806A50, .ldis 4 0x6A50)] := by decide +kernel
theorem test_decode_floating : reads
    [(0x2C642800, .fadd 3 4 5 0), (0x2C642A02, .fmul 3 4 5 1), (0x2C640424, .fcvtff 3 4 0 2),
      (0x2C641824, .fcvtff 3 4 3 0), (0x30642980, .fmadd 3 4 5 6 0)] := by decide +kernel
theorem test_decode_memory : reads
    [(0x4CA62C08, .ld 5 6 2 3 8), (0x5CA62008, .sd 5 6 2 0 8), (0x64853080, .cas 4 5 6 1 0 0 0),
      (0x68130006, .fence 2 3 6), (0x68200002, .vdrain 2), (0x68400000, .ifence)] := by decide +kernel
theorem test_decode_branch : reads
    [(0x6CA03FFD, .bne 5 0 0x1FFD), (0x74000040, .jal 0x40)] := by decide +kernel
theorem test_decode_system : reads
    [(0x7C80F000, .csrrd 4 0x3000), (0x7C058001, .csrrc 0 5 1), (0x80200000, .ebreak), (0x80600000, .wfi),
      (0x80800000, .yield), (0x80A00000, .pause), (0x80C50000, .plbinv 5), (0x80E50000, .htinv 5),
      (0x81050000, .strandpark 5), (0x81250000, .strandwake 5)] := by decide +kernel
theorem test_decode_vector : reads
    [(0x88850003, .vsetl 4 5 3), (0x88854000, .vacq 4 5), (0x8C22ECC0, .vadd 1 2 29 2 3), (0x8C223E00, .vadd 1 2 7 3 0),
      (0x95008000, .vmacc 8 0 16 0 0), (0x98442840, .vceq 2 4 5 0 1), (0x9C611003, .vfscale 3 1 2 0 0),
      (0xA0C3000C, .vmvix 6 3 0), (0xA4C2020A, .vrecur 6 2 0 1 0), (0xA8221800, .pand 1 2 3 0)] := by decide +kernel
theorem test_decode_vector_memory : reads
    [(0xACA60002, .vldff 5 6 0 0 0), (0xBC660000, .elds 3 6), (0xBC664000, .ests 3 6), (0xBC608000, .ezero 3)] := by
  decide +kernel
theorem test_decode_tiles : reads
    [(0xC4000800, .mma 0 0 1 0 0 0), (0xC4432001, .mmaz 2 3 4 0 0 0), (0xC4653002, .mmas 3 5 6 0 0 0),
      (0xC4285060, .mma 1 8 10 0 1 1), (0xC8653001, .tst 3 5 6), (0xC8480003, .tstm 2 8), (0xC8040007, .tcfg 0 4),
      (0xCC253081, .accst 1 5 6 1), (0xCC253803, .accwr 1 5 7), (0xD0453801, .vtrow 2 5 7)] := by decide +kernel
theorem test_decode_engines : reads
    [(0xD8830002, .semtry 4 3), (0xD4850000, .gbar 4 5), (0xD4460001, .gtmcast 2 6), (0xDC940003, .segather 4 20),
      (0xDC040005, .sewait 4), (0xE0853081, .cflush 4 5 6 1), (0xE8053081, .rstd 5 6 1), (0xEA253203, .ramow 17 5 6 4),
      (0xE8850006, .sfrec 4 5), (0xEC853002, .amreply 4 5 6), (0xEC030005, .rcunmask 3)] := by decide +kernel
theorem test_decode_groups : reads
    [(0xF0850000, .gnext 4 5), (0xF0820001, .gfield 4 2), (0xF0000002, .gdone), (0xF4830000, .balloc 4 3),
      (0xF4050001, .bfree 5)] := by decide +kernel

/-- REPF and SAM.ST, laid out field by field from R111 and R113 (no word is printed). -/
theorem test_decode_repf_and_sam : reads
    [((0x30 : BitVec 6) ++ (3 : BitVec 4) ++ (7 : BitVec 6) ++ (1 : BitVec 3) ++ (2 : BitVec 3) ++ (4 : BitVec 3) ++
        (0 : BitVec 7), .repf 3 7 1 2 4),
      ((0x39 : BitVec 6) ++ (4 : BitVec 5) ++ (5 : BitVec 5) ++ (6 : BitVec 5) ++ (9 : BitVec 4) ++ (2 : BitVec 3) ++
        (3 : BitVec 4), .samSt 4 5 6 9 2)] := by decide +kernel

/-- R114: the reserved majors, a reserved function value, a nonzero unused field, an odd descriptor register. -/
theorem test_decode_rejects :
    decode 0xFC000000 = .error .reservedMajor ∧ decode 0xD8030003 = .error .reservedFunction ∧
      decode 0x80400001 = .error .unusedNotZero ∧ decode 0xC8490002 = .error .outOfRange := ⟨rfl, rfl, rfl, rfl⟩

/-! ### Witnesses: states that meet the hypotheses of the statements -/

/-- A strand in U-mode, out of parking, with lanes. -/
def user : Strand := { Strand.reset with status := 0, parked := false, thread := true, pc := 0x1000, share := 8 }

/-- The same in S-mode. -/
def super : Strand := { user with status := 1 }

/-- A core with a carve and every right in its PLB. -/
def core0 : Core := { Core.reset with carve := 1, plb := [⟨0, 0, 56, 15⟩] }

/-- A machine whose strand 0 runs, with 64 GiB translated to themselves. -/
def on (x : Strand) : State :=
  { State.reset with strands := [(0, x)], cores := [(0, core0)], translations := (List.range 48).map (fun a => ⟨0, 36, 0xEF, 0, a⟩) }

/-- The registers with g1 set. -/
def g1 (v : Word) : Vector Word 32 := (Vector.replicate 32 0).set 1 v

theorem witness_CountsSwapsAndExtensions :
    ((on user).g 1).toNat < 2 ^ (64 - 64) ∧ ((on user).g 1).toNat % 2 ^ 64 = 0 ∧
      ((on { user with g := g1 0x8000000000000001 }).g 1).toNat < 2 ^ (64 - 0) ∧
      2 ^ (63 - 0) ≤ ((on { user with g := g1 0x8000000000000001 }).g 1).toNat ∧
      ((on { user with g := g1 0x8000000000000001 }).g 1).getLsbD 0 = true ∧
      (∀ i, i < 8 → (0 : Word).extractLsb' (8 * i) 8 = ((on user).g 1).extractLsb' (8 * (7 - i)) 8) := by decide

theorem witness_IntegerEncodings : (1 : BitVec 5) ≠ 0 := by decide

theorem witness_RegisterResultFrame : (on user).me.frame = none := rfl

theorem witness_DecodedNumbers : 0x3F80 < 2 ^ FFmt.bf16.width ∧ (FFmt.bf16.decode 0x3F80).isNan = false := by decide

theorem witness_FloatingInstructions :
    (on user).scalarMode = some .rne ∧ 5 ≤ ((on { user with frm := 5 }).me.frm.extractLsb' 0 3).toNat ∧
      encode (.fadd 1 2 3 0) = some 0x2C221800 := by decide

theorem witness_FlagDelivery :
    (1 : BitVec 5) &&& (on user).me.frm.extractLsb' 8 5 = 0 ∧
      (1 : BitVec 5) &&& (on { user with frm := 0x100 }).me.frm.extractLsb' 8 5 ≠ 0 ∧ (on user).me.frame = none := by
  decide

/-- The running strand reaches a place with an access of a kind: what `State.accessible` asks. -/
theorem witness_accessible_load :
    ∃ p s1, (on { user with g := g1 0x2000 }).accessible .load 0x2000 8 0 p s1 ∧ s1.placePoisoned p 8 = false ∧
      (on { user with g := g1 0x2000 }).g 1 + BitVec.ofInt 64 ((0 : BitVec 10).toInt * 8) = 0x2000 :=
  ⟨_, _, ⟨by decide, rfl, by decide, by intros; nofun⟩, by decide, by decide⟩

theorem witness_accessible_store :
    ∃ p s1, (on user).accessible .store 0xFEF0000000F80000 4 1 p s1 :=
  ⟨_, _, ⟨by decide, rfl, by decide, by intros; nofun⟩⟩

theorem witness_AtomicsComplete :
    ∃ p s0 s1, (on { user with g := g1 0x2000 }).accessible .atomic ((on { user with g := g1 0x2000 }).g 1) 8 0 p s0 ∧
      s0.takeTurn (on user).actor p 8 = .ok s1 ∧ s1.placePoisoned p 8 = false ∧
      s0.coveredEntries 0 (placeScope 0 p) 1 = [] ∧ s0.combineAmo p 0x2000 8 1 5 = none :=
  ⟨_, _, _, ⟨by decide, rfl, by decide, by intros; nofun⟩, rfl, by decide, by decide, by decide⟩

theorem witness_AccessTrapsInOrder :
    (0x2001 : Word).toNat % 8 ≠ 0 ∧ (0x2000 : Word).toNat % 8 = 0 ∧
      Instr.lw 3 1 0 0 0 ∈ loadForms 4 3 1 0 0 0 ++ storeForms 4 3 1 0 0 0 ∧ Instr.sb 3 1 0 0 0 ∈ storeForms 1 3 1 0 0 0 ∧
      (∃ t s1, (on user).resolve (on user).actor .load 0x0100000000000000 8 = .error (.trap t, s1)) ∧
      (∃ t s1, ({ on user with cores := [] } : State).resolve (on user).actor .store 0x2000 8 = .error (.trap t, s1)) ∧
      (∃ p s1, ({ on user with poison := [0x100] } : State).accessible .load 0x2000 8 0 p s1 ∧
        s1.placePoisoned p 8 = true) :=
  ⟨by decide, by decide, by decide, by decide, ⟨_, _, rfl⟩, ⟨_, _, rfl⟩, _, _, ⟨by decide, rfl, by decide, by intros; nofun⟩, by decide⟩

/-- Strand 0 as the one who accesses. -/
def me0 : Actor := ⟨0, 0, 0, false⟩

theorem witness_AddressChecksInOrder :
    classOf 0x0100000000000000 = .none ∧ classOf 0xFEF0000000000000 = .window ∧ classOf 0x2000 = .ordinary ∧
      (∃ t, (on user).windowPlace 0 .load 0xFEF0000000FFFFF8 8 = .error t) ∧
      (({ on { user with plbCtl := 0x3000 } with
        cores := [], svcMode := 2, pendingImage := some ⟨⟨2, 0⟩, 0, 0⟩ } : State).fillWaits ⟨0, 0, 0x3000, false⟩ 0x2000) =
        true ∧
      ({ on user with cores := [] } : State).fillWaits me0 0x2000 = false ∧
      (({ on user with cores := [] } : State).plbGrants me0 (rightsNeeded .load) 0x2000).1 = false ∧
      (∃ s1, ({ on user with translations := [] } : State).plbGrants me0 (rightsNeeded .load) 0x2000 = (true, s1) ∧
        s1.walkWaits 0x2000 = false ∧ s1.translate .load 0x2000 = none) ∧
      (∃ s1 s2 p, (on user).plbGrants me0 (rightsNeeded .load) 0x2000 = (true, s1) ∧ s1.walkWaits 0x2000 = false ∧
        s1.translate .load 0x2000 = some (p, s2) ∧ ∃ s3, s2.takeTurn me0 p 8 = .ok s3) ∧
      ∃ p s1 s3, ({ on user with combining := [(0, ⟨0x2000, false, 8, [.amo 1 4 0 5], 0⟩)] } : State).translate .load 0x2000 = some (p, s1) ∧
        s1.takeTurn me0 p 8 = .error s3 :=
  ⟨by decide, by decide, by decide, ⟨_, rfl⟩, by decide, by decide, by decide, ⟨_, rfl, by decide, rfl⟩,
    ⟨_, _, _, rfl, by decide, rfl, _, rfl⟩, _, _, _, rfl, rfl⟩

theorem witness_AddressCheckFrame :
    (∃ p s1, (on user).resolve me0 .store 0x2000 8 = .ok (p, s1)) ∧ (on user).offLeaf .store 0x2000 0x2000 :=
  ⟨⟨_, _, rfl⟩, rfl, fun l h => .inr (by cases h; decide)⟩

theorem witness_LoadAndStoreFrame :
    Instr.ld 3 1 0 0 0 ∈ loadForms 8 3 1 0 0 0 ∧ Instr.sd 3 1 0 0 0 ∈ storeForms 8 3 1 0 0 0 ∧
      (∃ t, exec (.ld 3 1 0 0 0) (on { user with g := g1 0x2000 }) = .next t) ∧
      (∃ t, exec (.sd 3 1 0 0 0) (on { user with g := g1 0x2000 }) = .next t) := ⟨by decide, by decide, ⟨_, rfl⟩, ⟨_, rfl⟩⟩

-- The bytes just beside a store's: off its leaf, not stored to, their sector under the store's key.
theorem witness_LoadAndStoreFrame_beside :
    let s := on { user with g := g1 0x2000 }
    ∃ f s1, (0x2000 : Word).toNat % 8 = 0 ∧ s.resolve s.actor .store 0x2000 8 = .ok (.mem f, s1) ∧
      (∀ x ∈ [0x1FFF, 0x2008], s.offLeaf .store 0x2000 x ∧ (∀ i, i < 8 → x ≠ f.byte i) ∧
        s.sectorKey (x / 32) = f.keyOf 0) :=
  ⟨_, _, by decide, rfl, fun x hx => ⟨⟨rfl, fun l h => .inr (by cases h; revert x; decide)⟩, by revert x; decide⟩⟩

/-- The sector at 0x2000 written under a key that is not the device's own. -/
def otherSector : State := { on user with sectorKeys := [(0x100, 5)] }

theorem witness_BytesUnderKeys :
    otherSector.sectorKey (0x2000 / 32) ≠ none ∧ otherSector.sectorKey (0x201F / 32) ≠ some 6 ∧
      otherSector.sectorKey (0x2020 / 32) ≠ some 5 := by decide +kernel

/-- A request of strand 0 to another device, answered. -/
def answered (st : Nat) : FabricReq :=
  ⟨7, 0, { emptyPacket with mask := 0xFF }, .load 0, 0, some (st, [1, 2, 3, 4]), false, 0⟩

theorem witness_RemoteAnswersComplete :
    (∀ st ∈ [0, 1, 2, 3], ({ on user with fabric := [answered st] } : State).fabricReq 7 = some (answered st) ∧
      (answered st).answer = some (st, [1, 2, 3, 4])) ∧
      (({ on { user with wait := .load 7 1 4 false 0x2000 } with fabric := [answered 0] } : State).strand 0).wait =
        .load 7 1 4 false 0x2000 ∧
      (({ on { user with wait := .amo 7 1 4 true 0x2000 } with fabric := [answered 0] } : State).strand 0).wait =
        .amo 7 1 4 true 0x2000 := by decide

/-- A store of class 0 of strand 0 to another device, not answered. -/
def storing : State := { on user with fabric := [{ answered 0 with purpose := .store 0 0x2000 0 1, answer := none }] }

/-- Strand 0 with a stopped card. -/
def stopped : State :=
  { on user with cores := [(0, { core0 with stoppedCards := [⟨⟨1, 0, 0, 0, 1, 0x3000, 0x4000, 0, 0, 64, 1, 0, 0, 0, 0, .reset, none,
    none, true⟩, addrTrap causeFaultRead 0x3000, false, false, false⟩] })] }

theorem witness_FencesRun :
    (on user).resolveScope 3 = 3 ∧ ((on user).fenceCards 0 3).1 = none ∧
      (((on user).flushCovered 0 3 6).fenceDone 0 2 3 6) = true ∧ ((on user).flushCovered 0 3 6).refusedOf 6 = [] ∧
      storing.fenceDone 0 2 5 1 = false ∧ (∃ t, (stopped.fenceCards 0 0).1 = some t) ∧
      ((on { user with wait := .fence 2 3 6 }).strand 0).wait = .fence 2 3 6 ∧
      (on { user with wait := .fence 2 3 6 }).fenceDone 0 2 3 6 = true ∧
      (1 : BitVec 16).getLsbD 0 = true ∧ (∃ r ∈ storing.fabric, ∃ k, r.storeOf storing.cur = some (0, k)) ∧
      (on user).storesAnswered (on user).cur (BitVec.allOnes 16) = true ∧
      storing.storesAnswered storing.cur (BitVec.allOnes 16) = false := by
  refine ⟨by decide, by decide, by decide, by decide, by decide, ⟨_, rfl⟩, by decide, by decide, by decide, ?_, by decide,
    by decide⟩
  exact ⟨_, .head _, _, rfl⟩

theorem witness_FenceReportsRefusedStores :
    (on user).refusedOf 4 = [] ∧ ((on user).me.refused.map Refused.order).Pairwise (· ≤ ·) ∧
      (on { user with refused := [⟨0x2000, 2, 5⟩, ⟨0x3000, 1, 6⟩] }).refusedOf 4 = [⟨0x2000, 2, 5⟩] ∧
      (on user).me.frame = none := by decide

theorem witness_TrapReleasesCapture :
    ∃ c, ({ on user with captures := [(0, some ⟨⟨0, 5, false, false, 0x2000, 0, 0, 3, Vector.replicate 6 0, 0, 0, 0⟩, 2, 9⟩)] } :
      State).captureOf 0 = some c := ⟨_, rfl⟩

theorem witness_EnvironmentCallsTrap :
    (on user).myCore.ebrk = false ∧
      ({ on user with cores := [(0, { core0 with ebrk := true })] } : State).myCore.ebrk = true := by decide

theorem witness_ReturnToProgram :
    (on super).me.mode ≠ .u ∧ ((on super).me.status.extractLsb' 2 2).toNat < 2 ∧
      (on super).me.trapInfo.getLsbD 63 = false := by decide

/-- A supervisor whose trap came from a frame of one word at 0x2000, at replay `k`. -/
def inFrame (k : BitVec 6) : State :=
  { on { super with trapPc := 0x2000, trapInfo := (1 : BitVec 1) ++ (0 : BitVec 1) ++ k ++ (0 : BitVec 56) } with
    mem := [(0x2003, 0xC0)] }

theorem witness_ReturnToProgram_noRepf :
    let s := on { super with trapPc := 0x1000, trapInfo := 0x8000000000000000 }
    s.me.trapInfo.getLsbD 63 = true ∧
      ∃ w s1, s.fetchWord 0 0x1000 = .ok (w, s1) ∧ ¬(w.extractLsb' 26 6 = 0x30 ∧ w.extractLsb' 0 7 = 0) ∧
        s.resumePoint = .ok (none, s1) := ⟨by decide, _, _, rfl, by decide, rfl⟩

theorem witness_ReturnIntoFrame :
    encode .eret = some 0x80400000 ∧ 2 ≤ ((on { super with status := 9 }).me.status.extractLsb' 2 2).toNat ∧
      (∃ f s1, (inFrame 0).resumePoint = .ok (some f, s1)) ∧ (∃ u, (inFrame 1).resumePoint = .error u) :=
  ⟨by decide, by decide, ⟨_, _, rfl⟩, ⟨_, rfl⟩⟩

theorem witness_SupervisorInstructions :
    (on user).me.mode = .u ∧ ∀ i ∈ supervisorInstrs 5, (encode i).isSome = true := by decide

theorem witness_WaitsAndWakes :
    (on { user with ipend := 8 }).wakeHolds 0 = true ∧ (on user).wakeHolds 0 = false ∧
      ((on { user with wait := .wfi, ipend := 8 }).strand 0).wait = .wfi ∧
      ((on { user with wait := .pause 0 true }).strand 0).wait = .pause 0 true ∧ 0 ≤ (on user).cycle ∧
      (on { user with wait := .pause 64 true, ipend := 8 }).wakeHolds 0 = true := by decide

/-- Strand 0 in S-mode with a strand number in g1, and strand 1 as given, in one partition. -/
def pair (n : Word) (x : Strand) : State :=
  { on super with
    strands := [(0, { super with g := g1 n }), (1, x)]
    partitions := [⟨0, 0, 4, 1, [], 0, 0, ⟨0, 0, 0, 0, 0, 0⟩⟩] }

theorem witness_ParkAndWake :
    (pair 96 user).parkTarget ((pair 96 user).g 1) = none ∧ (pair 0 user).parkTarget ((pair 0 user).g 1) = some 0 ∧
      (pair 1 user).parkTarget ((pair 1 user).g 1) = some 1 ∧ ((pair 1 user).strand 1).wait = .none ∧
      ((pair 1 user).strand 1).parked = false ∧ ((pair 1 { user with parked := true }).strand 1).parked = true ∧
      ((pair 1 { user with wait := .wfi }).strand 1).wait = .wfi ∧
      ((pair 1 { user with wait := .pause 64 true }).strand 1).wait = .pause 64 true := by
  decide

theorem witness_CsrInstructionsComplete :
    (∃ old, (on super).csrRead 0 0x1006 = some old) ∧ (on super).csrMustWait 0x1006 = false ∧
      (on super).csrDenied 0x1006 (on super).me.mode false = none ∧
      (on super).csrDenied 0x1006 (on super).me.mode true = none ∧
      (∃ s1, (on super).csrStore 0 0x1006 ((on super).g 1) = .done s1) :=
  ⟨⟨_, rfl⟩, by decide, by decide, by decide, _, rfl⟩

theorem witness_CsrAccessTraps :
    isServiceCsr 0x2001 = true ∧ ((on user).superCsr 0 0x1006).isSome = true ∧ (on user).me.mode = .u ∧
      isServiceCsr 0x0FFF = false ∧ (on user).csrRead 0 0x0FFF = none ∧ 0x3000 ≤ (0x3000 : BitVec 14).toNat ∧
      (encode (.csrrw 1 2 0x0FFF)).isSome = true ∧ (encode (.csrrd 1 0x2001)).isSome = true ∧
      (0x0011 : BitVec 14).toNat = 0x0011 ∧ (0x0010 : BitVec 14).toNat = 0x0010 ∧ (0x011F : BitVec 14).toNat < 0x0120 := by
  decide

theorem witness_CsrWriteRules :
    (on user).tilesQuiet 0 = true ∧ (on user).myCore.matrix = [] ∧ strandExists 0 = true := by decide

theorem witness_EventsInOrder :
    (on user).quietStrand 0 ∧ user.ipend.getLsbD 3 = false ∧ ({ user with ipend := 8 } : Strand).ipend.getLsbD 3 = true ∧
      (∃ h, ({ user with handler := some ⟨0, .u, true, 0, 3, 0, 1, true⟩ } : Strand).handler = some h ∧ h.left = 0) ∧
      ({ user with running := some (1, 0), groupBudget := 0 } : Strand).running.isSome = true ∧
      (on user).captureOf 0 = none ∧ ({ user with asyncDue := some 2 } : Strand).asyncDue = some 2 ∧
      ((on { user with ipend := 6, ien := 15, timecmp := 0 }).ipendNow 0 &&& 15) = 7 ∧
      ((on { user with ipend := 2, ien := 15 }).ipendNow 0 &&& 15) = 2 ∧
      ((on { user with ien := 15, timecmp := 0 }).ipendNow 0 &&& 15) = 1 :=
  ⟨by unfold State.quietStrand; decide, by decide, by decide, ⟨_, rfl, rfl⟩, by decide, by decide, by decide, by decide, by decide, by decide⟩

theorem witness_ErrorsAndTimer :
    (on { user with timecmp := 0 }).timerPending 0 = true ∧ strandExists 0 = true ∧ (4 : BitVec 8) ≠ 8 ∧
      (4 : BitVec 8) ≠ 10 := by decide

/-- Strand 0 before captured words: REPF at 0x1000, `w` behind it. -/
def beforeFrame (w : Nat) (x : Strand) : State := { on x with mem := writeBytes [] 0x1004 4 w }

theorem witness_IllegalWordsAndFrames :
    (∃ ws s1, (beforeFrame 0x8C223E00 user).fetchWords 0 0x1004 1 = .ok (ws, s1) ∧ badCapture ws = none ∧
      s1.me.share ≠ 0) ∧
    (∃ ws s1, (beforeFrame 0x8C223E00 { user with share := 0 }).fetchWords 0 0x1004 1 = .ok (ws, s1) ∧
      badCapture ws = none ∧ s1.me.share = 0) ∧
    (∃ ws s1 b, (beforeFrame 0x80000000 user).fetchWords 0 0x1004 1 = .ok (ws, s1) ∧ badCapture ws = some b) :=
  ⟨⟨_, _, rfl, rfl, by decide⟩, ⟨_, _, rfl, rfl, by decide⟩, ⟨_, _, _, rfl, rfl⟩⟩

theorem witness_FrameOrder :
    let f : Frame := ⟨[0x8C223E00, 0x8C223E00], 2, 0, 0, 0, 0, 0, false⟩
    ({ user with frame := some f } : Strand).frame = some f ∧ f.j < f.words.length ∧ f.k < f.replays ∧
      f.j + 1 < f.words.length ∧ ({ f with j := 1 } : Frame).j + 1 = f.words.length ∧ f.k + 1 < f.replays ∧
      ({ f with k := 1 } : Frame).k + 1 = f.replays := by decide

/-- A check that passes and leaves a state, by computation. -/
theorem leavesState (q : Checked Unit) (t : State)
    (h : (match q with | .ok (_, s1) => decide (s1 = t) | .error _ => false) = true) : q = .ok ((), t) := by
  match q, h with
  | .ok ((), s1), h => exact congrArg (fun u => Except.ok ((), u)) (of_decide_eq_true h)

theorem witness_InvalidationsComplete :
    (on super).me.mode ≠ .u ∧ (on super).g 1 &&& 0x7FFFFFFFFFFFF000 = 0 ∧
      ((on super).flushAll 0).ownPerformed = true ∧ (storing.flushAll 0).ownPerformed = false ∧
      ((((on super).flushAll 0).dropPlb (plbinvPick 0)).sendDomains (plbinvPick 0)).passedOpen (plbinvPick 0) = ([], []) ∧
      (∃ k ∈ (storing.passedOpen (plbinvPick 0)).1, (storing.fabricReq k).any (fun r => r.answer.isNone) = true) ∧
      ((on super).g 1).extractLsb' 0 2 = 0 ∧ ((on super).g 1).extractLsb' 4 12 = 0 ∧
      (∃ s1, (on super).htinvPasses ((on super).g 1) 0 65536 s1 ∧ (s1.flushAll 0).ownPerformed = true ∧
        (s1.flushAll 0).translatedOpen 0 65536 = [] ∧ (s1.flushAll 0).combiningOpen 0 65536 = []) ∧
      (on { super with g := g1 0xC }).htinvPasses 0xC 0 (2 ^ 64) (on { super with g := g1 0xC }) ∧
      (on super).alightsQueued = false ∧ (on { super with wait := .alightTurn 1 (plainSpan 0x2000) ⟨0, 71, false, false, 0x2000, 0, 0, 4, Vector.replicate 6 7, 0, 0, 0⟩ }).alightsQueued = true :=
  ⟨by decide, by decide, by decide, by decide +kernel, by decide +kernel, ⟨7, by decide, by decide⟩, by decide, by decide,
    ⟨on super, .inl ⟨by decide, by decide, by decide, leavesState _ _ (by decide +kernel)⟩, by decide, by decide, by decide⟩,
    .inr ⟨by decide, by decide, rfl, rfl, by decide, rfl⟩, by decide, by decide⟩

/-- A page table of four levels at 0x100000 whose first 64 KiB page is its own frame, and a descriptor at 0x800 that asks
for that page at the frame behind it. -/
def tables (new : Nat) : State :=
  { on { super with g := g1 0x801 } with
    root := some 0x100000
    mem := writeBytes (writeBytes (writeBytes (writeBytes (writeBytes [] 0x808 8 new) 0x100000 8 0x102001) 0x102000 8
      0x104001) 0x104000 8 0x106001) 0x106000 8 0x8F }

theorem witness_MigrationBegins :
    let s := tables 0x10008F
    s.me.mode ≠ .u ∧ (s.g 1).extractLsb' 0 6 = 1 ∧
      classOf (s.g 1 &&& ~~~(0x3F : Word)) = .ordinary ∧ s.ownWaits 0x800 64 = false ∧
      s.agentBusy (plainSpan 0x106000) 8 = false ∧
      ({ s with combining := [(0, ⟨0x800, false, 8, [.amo 1 4 0 5], 0⟩)] } : State).ownWaits 0x800 64 = true ∧
      ∃ s2 s3 q f, s.plbRange s.actor 8 0 65536 2 = .ok ((), s) ∧ s.inFlight.length < 4 ∧ s.assistedWaits 0 = false ∧
        s.translate .load 0x800 = some (.mem q, s2) ∧ s2.placePoisoned (.mem q) 64 = false ∧
        s2.translate .store 0x800 = some (.mem f, s3) ∧
        s3.migrationOf (s2.readSpan q 64 % 256 ^ 8) (s2.readSpan q 64 / 256 ^ 8 % 256 ^ 8) (s2.readSpan q 64 / 256 ^ 32 % 256 ^ 32) =
          some (0x106000, 0x8F, 0x10008F) :=
  ⟨by decide, by decide, by decide, by decide, by decide, by decide +kernel, _, _, _, _, leavesState _ _ (by decide +kernel), by decide, by decide, rfl,
    by decide, rfl, by decide +kernel⟩

-- A descriptor at no address, in a page that the rights cover.
theorem witness_MigrationBegins_nowhere :
    let a : Word := 0x0100000000000000
    let s : State := { on { super with g := g1 (a ||| 1) } with cores := [(0, { core0 with plb := [⟨0, 0, 64, 15⟩] })] }
    s.me.mode ≠ .u ∧ (s.g 1).extractLsb' 0 6 = 1 ∧ s.plbRange s.actor 8 a.toNat (a.toNat + 65536) 2 = .ok ((), s) ∧
      s.inFlight.length < 4 ∧ s.assistedWaits 0 = false ∧ classOf a ≠ .ordinary :=
  ⟨by decide, by decide, leavesState _ _ (by decide +kernel), by decide, by decide, by decide⟩

theorem witness_MigrationBegins_refused :
    (tables 0x8F).migrationOf ((tables 0x8F).readMem 0x800 8) ((tables 0x8F).readMem 0x808 8)
      ((tables 0x8F).readMem 0x820 32) = none := rfl

/-- A migration of that page, its pointer at `k`; the old leaf stands in the table with TRANSIT. -/
def migrating (k : Nat) (now : Nat) : State :=
  { tables 0 with
    mem := writeBytes (tables 0).mem 0x106000 8 now
    migrations := [⟨0x800, 0, 0x106000, 0x8F, 0x10008F, 0x48F, k, false⟩] }

theorem witness_MigrationCopiesAndCompletes :
    (∃ m, (migrating 3 0x48F).migrations[0]? = some m ∧ m.lingering = false ∧ m.pointer < 2048) ∧
      (∃ m, (migrating 2048 0x48F).migrations[0]? = some m ∧ m.lingering = false ∧ 2048 ≤ m.pointer ∧
        BitVec.ofNat 64 ((migrating 2048 0x48F).readMem m.leafAt 8) = m.inTransit) ∧
      (∃ m, (migrating 2048 0x4AF).migrations[0]? = some m ∧ m.lingering = false ∧ 2048 ≤ m.pointer ∧
        BitVec.ofNat 64 ((migrating 2048 0x4AF).readMem m.leafAt 8) ≠ m.inTransit) ∧
      (∀ k ∈ [3, 2048], ∀ m ∈ (migrating k 0x48F).migrations, (migrating k 0x48F).copyWaits m = false) ∧
      (let s : State := { migrating 2048 0x4AF with
          migrations := (migrating 2048 0x4AF).migrations.map (fun m => { m with lingering := true }) }
       (s.migrations.find? (fun m => m.lingering && m.va == 0x2000 / 65536 * 65536)).isSome = true) :=
  ⟨⟨_, rfl, by decide, by decide⟩, ⟨_, rfl, by decide, by decide, by decide⟩, ⟨_, rfl, by decide, by decide, by decide⟩,
    by decide, by decide⟩

/-- A partition of cluster 0 whose list grants every right below 2^21. -/
def listed : State :=
  { tables 0 with
    cores := []
    translations := []
    partitions := [⟨0, 0, 4, 1, [((0x150F : BitVec 64) ++ (0 : BitVec 64))], 0, 0, ⟨0, 0, 0, 0, 0, 0⟩⟩] }

theorem witness_FillsAndWalks :
    (∃ e s1, listed.assistedWaits 1 = false ∧ listed.plbEntry 0 0 0x2000 = none ∧
        listed.fillEntry 0 0 0 0x2000 = (some e, s1)) ∧
      (∃ e at_ level, listed.assistedWaits 0 = false ∧ listed.cachedFor 0x2000 = none ∧ listed.walk 0x2000 = some (e, at_, level) ∧
        leafGrants e .store = true) ∧
      ({ listed with svcMode := 3, pendingImage := some ⟨⟨2, 0⟩, 0, 0⟩ } : State).assistedWaits 1 = true ∧
      ({ listed with svcMode := 3, pendingImage := some ⟨⟨2, 0⟩, 0, 0⟩ } : State).assistedWaits 0 = true :=
  ⟨⟨_, _, by decide, by decide, rfl⟩, ⟨_, _, _, by decide, by decide, rfl, by decide⟩, by decide, by decide⟩

/-- A register of a type with its low elements given as one number. -/
def vreg (tag : BitVec 8) (bits : Nat) : VReg := ⟨BitVec.ofNat 8192 bits, (0 : BitVec 8) ++ tag, 0, 0⟩

/-- Strand 0 with four elements: v1, v2, v3 of 32-bit integers, v4, v5 of 8-bit ones, v6, v7, v8 of FP32, v9 BX8, v10 FP16, v11 and
v12 of 8-bit floating numbers, v0 DEAD; p1 leaves out element 2. -/
def vec : Strand :=
  { user with
    vl := 4
    v := ((((((((((((Vector.replicate 32 VReg.reset).set 1 (vreg 3 0x64000000070000000500000003)).set 2
      (vreg 3 0x300000000FFFFFFFF00000002)).set 3 (vreg 3 9)).set 4 (vreg 1 0x817F02FE)).set 5 (vreg 1 0x01020304)).set 6
      (vreg 0x11 0x40490FDB3F800000C0000000)).set 7 (vreg 0x11 0x3F8000007FC000003F000000)).set 8 (vreg 0x11 0)).set 9
      ⟨0, 0x2818, 0, 0⟩).set 10 (vreg 0x12 0)).set 11 (vreg 0x14 0x3840424448484C50)).set 12 (vreg 0x15 0x3C3C3C3C)
    p := Strand.reset.p.set 1 0xB }

theorem witness_VectorConfiguration :
    vtypeOk 0x0003 = true ∧ (1 : BitVec 5).toNat + (30 : BitVec 5).toNat < 32 ∧ vtypeOk 0x0005 = false ∧
      (encode (.vcfg 1 1 5)).isSome = true ∧ (2 : BitVec 4).toNat ≤ 4 ∧ (on vec).me.share ≠ 0 ∧
      (on { vec with share := 0 }).me.share = 0 := by decide +kernel

theorem witness_IntegerElements :
    let x := (on vec).me
    elemOf (vtypeTag (x.destVtype 3 3)) = .int 32 true ∧ x.resolveWith [1] (.vec 2) = .ok (.int 32 true) 3 ∧
      x.Fits (.int 32 true) [1, 2] ∧ x.resolveWith [1] .none = .ok (.int 32 true) 3 ∧
      x.resolveWith [1, 3] (.vec 2) = .ok (.int 32 true) 3 ∧ elemOf (vtypeTag (x.destVtype 0 3)) = .int 32 true := by
  unfold Strand.Fits; decide +kernel

/-- R147: a VS scalar beside an E4M3 va is BF16, the result tag of a DEAD vd. -/
theorem test_scalar_tag :
    (match exec (.vadd 13 11 5 1 0) (on { vec with g := (g1 0).set 5 0x3F80 }) with
      | .next t => (t.me.getV 13).vtype
      | _ => 0) = 0x13 := by decide +kernel

theorem witness_IntegersIntoFloating :
    let x := (on vec).me
    (x.getV 10).elemType = .fp .fp16 ∧ x.roundingOf (x.getV 10).vtype = some .rne ∧
      x.resolveWith [1] (.vec 2) = .ok (.int 32 true) 3 ∧ x.Fits (.fp .fp16) [1, 2] ∧ x.resolveWith [1] .none = .ok (.int 32 true) 3 ∧
      (x.getV 8).elemType = .fp .fp32 ∧ x.roundingOf (x.getV 8).vtype = some .rne ∧
      x.resolveWith [1, 10] (.vec 2) = .none ∧ (x.getV 10).elemType ≠ .dead ∧ (x.getV 10).elemType.isInt = false ∧
      (x.getV 9).elemType = .bx .bx8 ∧ x.vstart < x.vl ∧ x.roundingOf (x.getV 9).vtype = some .rne ∧ x.Fits (.bx .bx8) [1, 2] ∧
      (let y : Strand := { x with frm := 5 }
       y.roundingOf (y.getV 10).vtype = none ∧ (y.roundingOf (y.getV 10).vtype).getD .rne = .rne ∧
         y.resolveWith [1] (.vec 2) = .ok (.int 32 true) 3) := by
  unfold Strand.Fits; decide +kernel

theorem witness_BitwiseAndDotProducts :
    let x := (on vec).me
    (x.getV 1).elemType ≠ .dead ∧ (x.getV 3).elemType ≠ .dead ∧ (x.getV 3).elemType.width = 32 ∧
      x.Fits (.int 32 true) [1, 2] ∧ (x.getV 2).elemType.width = 32 ∧ isInt8 (x.getV 4).elemType = true ∧
      isInt8 (x.getV 5).elemType = true ∧ (x.getV 3).elemType = .int 32 true ∧ x.vl ≤ 256 := by
  unfold Strand.Fits; decide +kernel

theorem witness_FloatingElements :
    let x := (on vec).me
    x.destVtype 8 0x11 = 0x11 ∧ elemOf 0x11 ≠ .dead ∧ (∀ q, elemOf 0x11 ≠ .bx q) ∧ x.roundingOf 0x11 = some .rne ∧
      x.resolveWith [6] (.vec 7) = .ok .float 0x11 ∧ x.Fits (.fp .fp32) [6, 7] ∧ x.resolveWith [6] .none = .ok .float 0x11 ∧
      x.resolveWith [6, 8] (.vec 7) = .ok .float 0x11 ∧ (exp2Tag (.fp .fp32)).getD 0x11 = 0x11 ∧
      (exp2Tag (.fp .fp32)) ≠ some 0x10 ∧ classDest (x.getV 8).elemType = false ∧ classDest (x.getV 0).elemType = true ∧
      x.destVtype 0 0x0A = 0x0A ∧ elemOf 0x0A ≠ .dead ∧ (∀ q, elemOf 0x0A ≠ .bx q) ∧ x.roundingOf 0x0A = some .rne ∧
      x.Fits (elemOf 0x0A) [6] ∧ isFloat8 (x.getV 11).elemType = true ∧ isFloat8 (x.getV 12).elemType = true ∧
      elemOf (vtypeTag (x.destVtype 8 0x11)) = .fp .fp32 ∧ (x.getV 8).elemType ≠ .dead ∧
      4 * x.vl ≤ (x.getV 11).elemType.vlmax ∧ 4 * x.vl ≤ (x.getV 12).elemType.vlmax ∧ (x.getV 7).elemType ≠ .dead ∧
      x.vl ≤ (x.getV 7).elemType.vlmax := by
  unfold Strand.Fits
  repeat' refine And.intro ?_ ?_
  all_goals first | decide +kernel | exact fun q => by cases q <;> decide

theorem witness_BlockPacking :
    let x := (on vec).me
    elemOf (vtypeTag (packVtype (x.getV 9).vtype)) = .bx .bx8 ∧ x.roundingOf (packVtype (x.getV 9).vtype) = some .rne ∧
      (x.getV 6).elemType ≠ .dead ∧ x.Fits (.bx .bx8) [6] ∧ 3 ∈ x.active 1 ∧ x.vstart < x.vl ∧
      ({ x with vstart := 4 } : Strand).vl ≤ ({ x with vstart := 4 } : Strand).vstart ∧ (x.getV 9).elemType = .bx .bx8 ∧
      x.roundingOf (x.getV 9).vtype = some .rne ∧ x.resolveWith [6] (.vec 7) = .ok .float 0x11 ∧
      x.Fits (.bx .bx8) [6, 7] ∧ x.resolveWith [6] .none = .ok .float 0x11 ∧
      x.resolveWith [6, 9] (.vec 7) = .ok .float 0x11 ∧ x.resolveWith [9] (.vec 9) = .ok .float 0x18 ∧
      elemOf (vtypeTag (x.destVtype 0 0x18)) = .bx .bx8 ∧ x.roundingOf (x.destVtype 0 0x18) = some .rne := by
  unfold Strand.Fits; decide +kernel

theorem witness_ComparisonsAndPredicates :
    let x := (on vec).me
    x.share ≠ 0 ∧ x.vl ≤ 2048 ∧ x.vstart < 2048 ∧ (∀ n ∈ [(1 : BitVec 5), 2, 6, 7], x.vl ≤ (x.getV n).elemType.vlmax) ∧
      (x.getP 1).getLsbD 0 = true ∧ (x.getP 2).getLsbD 0 = false ∧
      x.resolveWith [1] (.vec 2) = .ok (.int 32 true) 3 ∧ x.resolveWith [6] (.vec 7) = .ok .float 0x11 ∧ x.vstart < x.vl ∧
      ({ x with vstart := 4 } : Strand).vl ≤ ({ x with vstart := 4 } : Strand).vstart ∧
      elemOf (vtypeTag (x.destVtype 5 0x09)) = .int 8 true ∧ x.vl ≤ 8192 / 8 := by decide +kernel

theorem witness_Permutes :
    let x := (on { vec with g := g1 1 }).me
    (x.getV 1).elemType ≠ .dead ∧ (x.getV 3).elemType ≠ .dead ∧ vtypeTag (x.getV 3).vtype = vtypeTag (x.getV 1).vtype ∧
      x.Fits (x.getV 1).elemType [1] ∧ 0 ≤ (x.getG 1).toInt ∧ (x.getG 1).toInt < x.vl ∧ (x.getP 1).getLsbD 1 = true ∧
      (x.getV 2).elemType ≠ .dead ∧ x.vl ≤ (x.getV 2).elemType.vlmax ∧ (x.getV 2).elemType.isInt = true ∧
      vtypeTag (x.getV 2).vtype = vtypeTag (x.getV 1).vtype ∧ (x.getV 0).elemType = .dead := by
  unfold Strand.Fits; decide +kernel

/-- R59, R162: #-1 into UINT8 with SAT 1 is 255. -/
theorem test_vbcast_extends :
    (match exec (.vbcast 3 0x1F 2 0) (on { vec with v := vec.v.set 3 (vreg 0x109 0) }) with
      | .next t => (t.me.getV 3).raw 0
      | _ => 0) = 255 := by decide +kernel

theorem witness_SingleElementsAndFills :
    let x := (on { vec with g := (g1 1).set 2 3 }).me
    x.share ≠ 0 ∧ (x.getV 1).elemType ≠ .dead ∧ x.vl ≤ (x.getV 1).elemType.vlmax ∧
      x.vl ≤ (elemOf (vtypeTag (x.destVtype 3 0x04))).vlmax ∧ x.vl ≤ (elemOf (vtypeTag (x.destVtype 0 0x0A))).vlmax ∧
      (∀ q, elemOf (vtypeTag (x.destVtype 3 0x04)) ≠ .bx q) ∧ (elemOf (vtypeTag (x.destVtype 3 0x04))).isInt = true ∧
      x.roundingOf (x.destVtype 8 0x04) = some .rne ∧ (x.getV ((x.getG 0).extractLsb' 0 5)).elemType = .dead ∧
      (x.getV ((x.getG 2).extractLsb' 0 5)).elemType.width = (x.getV 1).elemType.width := by
  repeat' refine And.intro ?_ ?_
  all_goals first | decide +kernel | exact fun q => by cases q <;> decide +kernel

theorem witness_ReductionsAndScans :
    let x := (on vec).me
    x.resolveWith [1] (.vec 2) = .ok (.int 32 true) 3 ∧ elemOf (vtypeTag (x.destVtype 3 3)) = .int 32 true ∧
      x.Fits (.int 32 true) [1, 2] ∧ 0 < x.vl ∧ x.resolveWith [6] (.vec 7) = .ok .float 0x11 ∧
      elemOf (vtypeTag (x.destVtype 8 (redTag 0x11))) = .fp .fp32 ∧ redFormat (.fp .fp32) = some .fp32 ∧
      x.roundingOf (x.destVtype 8 (redTag 0x11)) = some .rne ∧ x.Fits (.fp .fp32) [6, 7] ∧
      x.resolveWith [6, 8] (.vec 7) = .ok .float 0x11 ∧ (x.getV 8).elemType = .fp .fp32 ∧
      x.roundingOf (x.getV 8).vtype = some .rne := by
  unfold Strand.Fits; decide +kernel

theorem witness_VectorChecksInOrder :
    let x := (on vec).me
    encode (.vadd 3 1 2 0 1) = some 0x8C611040 ∧ x.resolveWith [1] (.vec 6) = .none ∧
      x.resolveWith [1] (.vec 2) = .ok (.int 32 true) 3 ∧ (elemOf (vtypeTag (x.destVtype 3 3))).isInt = true ∧
      x.resolveWith [1] (.vec 0) = .dead ∧ (x.getV 3).elemType.isInt = true ∧ (on { vec with share := 0 }).me.share = 0 ∧
      (encode (.vsll 3 6 0 0 1)).isSome = true ∧ (∃ n ∈ (6 : BitVec 5) :: x.formRegs 0 0, (x.getV n).elemType ≠ .dead ∧
        (x.getV n).elemType.isInt = false) ∧ (encode (.vzip 3 6 0 0 1)).isSome = true ∧
      (∃ n ∈ [6, x.vb 0 0, 3], ∃ m ∈ [6, x.vb 0 0, 3], (x.getV n).elemType ≠ .dead ∧ (x.getV m).elemType ≠ .dead ∧
        vtypeTag (x.getV n).vtype ≠ vtypeTag (x.getV m).vtype) ∧
      (x.getV 2).elemType.vlmax < (on { vec with vl := 257 }).me.vl := by decide +kernel

/-- A strand whose g1 is 0x2000 and whose vector state is that of `vec`. -/
def vmem : State := on { vec with g := g1 0x2000 }

theorem witness_ElementPlaces :
    (vmem.me.getV 1).elemType ≠ .dead ∧ 2 < (vmem.me.getV 1).elemType.vlmax ∧ (vmem.me.getV 1).elemType.width ≠ 4 ∧
      (⟨0, 0x2819, 0, 0⟩ : VReg).elemType.width = 4 := by decide +kernel

/-- A load whose active elements 0, 1 and 3 are all performed. -/
theorem witness_VectorMemoryCompletes :
    let o : VmOp := ⟨false, false, .unit_, 1, 1, 0, 0, 1⟩
    vmem.me.wait = .none ∧ vmem.drainHolds vmem.cur 0 = false ∧ vmem.me.vmReady o ∧ vmem.me.active 1 = [0, 1, 3] ∧
      ∃ t, State.Performed vmem.me o vmem [0, 1, 3] t := by
  refine ⟨rfl, by decide, ?_, by decide +kernel, _, _, _, rfl, by decide, by decide +kernel, _, _, rfl, by decide, by decide +kernel,
    _, _, rfl, by decide, by decide +kernel, rfl⟩
  unfold Strand.vmReady
  decide +kernel

/-- A load at the end of what is translated: element 0 is performed and element 1 has no translation. -/
theorem witness_VectorMemoryFaults :
    let s : State := { vmem with translations := (List.range 48).map (fun a => ⟨0x2000, 2, 0xEF, 0, a⟩) }
    let o : VmOp := ⟨false, true, .unit_, 1, 1, 0, 0, 1⟩
    s.me.active 1 = [0, 1, 3] ∧ ∃ t tr, State.Performed s.me o s [0] t ∧ t.elemCheck s.me o 1 = .error (.trap tr, t) ∧
      tr.cause ≠ 0x03 :=
  ⟨by decide +kernel, _, _, ⟨_, _, rfl, by decide, by decide +kernel, rfl⟩, rfl, by decide⟩

/-- A result that is there, taken apart with what is asked of it. -/
theorem passed_with {ε α β : Type} (q : Except ε (α × β)) (f : α → β → Bool)
    (h : (match q with | .ok r => f r.1 r.2 | .error _ => false) = true) : ∃ a b, q = .ok (a, b) ∧ f a b = true := by
  match q, h with
  | .ok (a, b), h => exact ⟨a, b, rfl, h⟩

/-- An option that is there, taken apart with what is asked of it. -/
theorem got {α β : Type} (q : Option (α × β)) (f : α → β → Bool)
    (h : (match q with | some r => f r.1 r.2 | none => false) = true) : ∃ a b, q = some (a, b) ∧ f a b = true := by
  match q, h with
  | some (a, b), h => exact ⟨a, b, rfl, h⟩

/-- A trap, taken apart. -/
theorem trapped {α : Type} (q : Except (Stop × State) α)
    (h : (match q with | .error (.trap _, _) => true | _ => false) = true) : ∃ t s1, q = .error (.trap t, s1) := by
  match q, h with
  | .error (.trap t, s1), _ => exact ⟨t, s1, rfl⟩

/-- A check that passed, taken apart. -/
theorem passed {ε α β : Type} (q : Except ε (α × β)) (f : α → Bool)
    (h : (match q with | .ok r => f r.1 | .error _ => false) = true) : ∃ a b, q = .ok (a, b) ∧ f a = true := by
  match q, h with
  | .ok (a, b), h => exact ⟨a, b, rfl, h⟩

theorem witness_TicketsAreServed :
    let o : VmOp := ⟨false, false, .indexed, 1, 1, 2, 0, 1⟩
    let s : State := { on { vec with g := g1 0x2000, wait := .ticket 3 false 1 1 2 0 1 } with tickets := [3] }
    let s0 : State := { s with tickets := [], cur := 0 }
    vmem.me.vmReady o ∧ vmem.me.vstart < vmem.me.vl ∧ (on { vec with vstart := 4 }).me.vl ≤ 4 ∧
      s.ticketHolder 3 = some 0 ∧ (s.strand 0).wait = .ticket 3 false 1 1 2 0 1 ∧ s.fenceDone 0 0 3 1 = true ∧
      ∃ l s1, s0.elemCheckAll (s.strand 0) ⟨false, false, .indexed, 4, 1, 3, 0, 1⟩ ((s.strand 0).active 1) = .ok (l, s1) ∧
        l.all (fun q => !q.2.remote) = true := by
  unfold Strand.vmReady
  repeat' refine And.intro ?_ ?_
  any_goals decide +kernel
  exact passed _ _ (by decide +kernel)

/-- Pieces looked up one after the other on the own package. -/
def findPieces (kind : AccessKind) (n : Nat) : State → List Word → Option (List (Place × Nat) × State)
  | s, [] => some ([], s)
  | s, a :: as =>
    match s.resolve s.actor kind a n with
    | .ok (p, s1) =>
      if p.remote || s1.placePoisoned p n then none
      else (findPieces kind n s1 as).map (fun r => ((p, s1.readPlace p n) :: r.1, r.2))
    | .error _ => none

theorem findPieces_found (kind : AccessKind) (n : Nat) (as : List Word) (s : State)
    (h : (findPieces kind n s as).isSome = true) : ∃ l t, s.PiecesFound kind n as l t := by
  induction as generalizing s with
  | nil => exact ⟨_, _, rfl, rfl⟩
  | cons a as ih =>
    unfold findPieces at h
    split at h
    · rename_i p s1 hr
      split at h
      · cases h
      · rename_i hp
        obtain ⟨l, t, hl⟩ := ih s1 (by simpa using h)
        simp only [Bool.or_eq_true, not_or, Bool.not_eq_true] at hp
        exact ⟨_, t, p, s1, _, l, rfl, hr, hp.1, fun _ => ⟨hp.2, rfl⟩, hl⟩
    · cases h

theorem witness_ScaleRegistersMove :
    let at_ := (List.range 32).map (fun k => vmem.g 1 + BitVec.ofNat 64 (8 * k))
    vmem.me.share ≠ 0 ∧ (vmem.g 1).toNat % 256 = 0 ∧ vmem.mayTarget vmem.cur 0 none = true ∧
      (∃ l s1, vmem.PiecesFound .load 8 at_ l s1) ∧ (∃ l s1, vmem.PiecesFound .store 8 at_ l s1) :=
  ⟨by decide, by decide, by decide, findPieces_found _ _ _ _ (by decide +kernel),
    findPieces_found _ _ _ _ (by decide +kernel)⟩

theorem witness_TilesUnavailable :
    (on user).myCore.owns (on user).cur = false ∧ (encode (.tld 1 2 3)).isSome = true ∧
      (encode (.mma 0 1 2 0 0 0)).isSome = true ∧ (encode (.accrd 1 6 2)).isSome = true ∧
      (encode (.trowv 6 1 2)).isSome = true ∧ isTileTag 0x04 = false := by decide

/-- What a transfer of 16-byte pieces from 0x2000 may go ahead on. -/
theorem ready_pieces (s : State) (kind : AccessKind) (base pitch : Word) (chunks : Nat) (h : base.toNat % 16 = 0)
    (h' : pitch.toNat % 16 = 0) (hf : (findPieces kind 16 s (rowPieces base pitch 64 chunks)).isSome = true)
    (hm : s.mayTarget s.cur 0 none = true) : ∃ l s1, s.PiecesReady s1 kind base pitch chunks l :=
  let ⟨l, t, hl⟩ := findPieces_found _ _ _ _ hf
  ⟨l, t, h, h', hl, hm⟩

/-- A core whose tiles strand 0 owns: tile 1 of INT8, tile 2 of FP16, accumulator 1 of FP32. -/
def tiled : Core :=
  { core0 with
    tileOwner := 4
    tileTags := ((Vector.replicate 8 0).set 1 0x01).set 2 0x12
    accTags := (Vector.replicate 4 0).set 1 0x11 }

/-- The tile owner with g1 an address and g2:g3 a descriptor of its scratchpad. -/
def owner : State :=
  { on { vec with g := ((g1 0x2000).set 2 0xFEF0000000F80000).set 3 0x40 } with cores := [(0, tiled)] }

theorem witness_TilesMove :
    owner.myCore.owns owner.cur = true ∧ owner.myCore.tileTag 1 = 0x01 ∧ owner.myCore.tileTag 2 ≠ 0 ∧
      (∃ l s1, owner.PiecesReady s1 .load (owner.g 1) (owner.g 0) 4 l) ∧
      (∃ l s1, owner.PiecesReady s1 .store (owner.g 1) (owner.g 0) 4 l) ∧
      (∃ core, owner.DescReady (owner.me.desc 2) core ∧
        owner.descPoison core (owner.me.desc 2) ((List.range 64).map (fun r => (r, 0))) = none) ∧
      windowAlias (owner.me.desc 2).base = 0 ∧ isTileTag ((0x12 : Word).setWidth 8) = true ∧ (0x12 : Word).toNat < 256 :=
  ⟨by decide, by decide, by decide, ready_pieces _ _ _ _ _ (by decide) (by decide) (by decide +kernel) (by decide),
    ready_pieces _ _ _ _ _ (by decide) (by decide) (by decide +kernel) (by decide), ⟨_, ⟨by decide +kernel, by decide +kernel, rfl, by decide +kernel⟩, by decide +kernel⟩, by decide, by decide,
    by decide⟩

theorem witness_TileVectorTransfers :
    owner.me.share ≠ 0 ∧ isTileTag (owner.myCore.tileTag 1) = true ∧ vtypeTag (owner.me.getV 0).vtype = 0 ∧
      isTileTag (vtypeTag (owner.me.getV 4).vtype) = true ∧ vtypeTag (owner.me.getV 4).vtype = owner.myCore.tileTag 1 := by
  decide +kernel

theorem witness_AccumulatorsComplete :
    owner.myCore.accBusy [1, 2] = false ∧ vtypeTag (owner.me.getV 6).vtype = 0x11 ∧ owner.myCore.accTag 1 = 0x11 ∧
      owner.myCore.accTag 2 = 0 ∧ owner.myCore.accMark 1 = none ∧
      (∃ l s1, owner.PiecesReady s1 .store (owner.g 1) (owner.g 0) (4 * accBytes 1) l) :=
  ⟨by decide, by decide +kernel, by decide, by decide, by decide,
    ready_pieces _ _ _ _ _ (by decide) (by decide) (by decide +kernel) (by decide)⟩

/-- MMAZ of INT8 tiles 1 and 1 into accumulator 0, and the unit with a job. -/
theorem witness_MatrixProducts :
    let s : State := { owner with cores := [(0, { tiled with accTags := Vector.replicate 4 0x03 })] }
    (∃ ca cb, s.MmaReady 0 0 0 (s.me.matSrc 1 0) (s.me.matSrc 1 0) 0x01 0x01 0x03 8 4 64 ca cb) ∧
      (∃ j rest, ({ tiled with matrix := [⟨0, 1, 0, 0x11, 0, none, 0⟩] } : Core).matrix = j :: rest ∧ j.acc < 4) := by
  refine ⟨⟨0, 0, ?_⟩, _, _, rfl, by decide⟩
  repeat' first | rfl | (refine And.intro ?_ ?_)
  all_goals decide +kernel

theorem witness_MatrixElements : 0 < 2 ∧ [EVal.int 1, .int 2, .int 3, .int 4].length = 2 * 2 := by decide

/-- Strands 0 and 4 are ranks 0 and 1 of gang 5, strand 0 at `x`, the gang as `g`. -/
def ganged (x : Strand) (g : Gang) : State :=
  { on x with
    strands := [(0, { x with gangId := 5, gangRank := 0, gangSize := 2 }),
      (4, { user with gangId := 5, gangRank := 1, gangSize := 2, wait := .gbar 3 })]
    cores := [(0, tiled), (1, tiled)]
    gangs := [(5, g)] }

/-- Gang 5, in phase 2. -/
def gang5 : Gang := ⟨2, [(0, 0), (1, 4)], false, 2, [], [], [], none⟩

theorem witness_BarriersComplete :
    let s := ganged user { gang5 with arrivals := [(0, 1)] }
    let w := ganged { user with wait := .gbar 3 } { gang5 with arrivals := [(0, 2)], deadlines := [(0, 0)] }
    (on user).me.gangId = 0 ∧ s.me.gangId ≠ 0 ∧ (s.gang 5).members ≠ [] ∧ s.coveredEntries 0 3 0xFFFF = [] ∧
      (s.gang 5).expired = [] ∧ (s.gang 5).arrival 0 = some 1 ∧ 1 < (s.gang 5).phase ∧
      ((ganged user gang5).gang 5).arrival 0 = none ∧
      ((ganged user { gang5 with completeAt := some 0 }).gang 5).completeAt = some 0 ∧
      ((ganged user gang5).strand 4).wait = .gbar 3 ∧ (0, 0) ∈ (w.gang 5).deadlines ∧ (w.gang 5).completeAt = none ∧
      (0, (w.gang 5).phase) ∈ (w.gang 5).arrivals ∧ (w.strand 0).wait = .gbar 3 := by decide

theorem witness_GangQueriesAndMulticast :
    let s := ganged { user with g := g1 1 } gang5
    s.me.gangId ≠ 0 ∧ (s.g 1).toNat < s.me.gangSize.toNat ∧
      (s.gang 5).members = [(0, 0)] ++ ((s.g 1).toNat, 4) :: [] ∧ (∀ q ∈ [(0, 0)], q.1 ≠ (s.g 1).toNat) ∧
      s.myCore.owns s.cur = true ∧ (s.g 1).extractLsb' 48 16 = 0 ∧ s.myCore.tileTag 1 ≠ 0 ∧
      ((ganged { user with wait := .gtmcast 3 1 [1] 1 } gang5).strand 0).wait = .gtmcast 3 (1 : BitVec 3).toNat [1] 1 := by
  decide

theorem witness_SemaphoresComplete :
    (∀ q ∈ core0.semQueue, q.2 ≠ (3 : BitVec 3).toNat) ∧
      ({ core0 with semQueue := [(1, 2), (3, 3)] } : Core).semQueue = [(1, 2)] ++ (3, (3 : BitVec 3).toNat) :: [] ∧
      0 < ({ core0 with sems := Vector.replicate 8 65535 } : Core).sems[3] ∧ core0.sems[3] = 0 := by decide

/-- Strand 0 with the address of a card in g1: a copy of 1 row of 64 bytes from memory to its scratchpad. -/
def carded (rows : Nat) : State :=
  { on { user with g := g1 0x2000 } with
    mem := writeBytes [] 0x2000 64
      (0x3000 + 2 ^ 64 * 0xFEF0000000F80000 + 2 ^ 128 * 64 + 2 ^ 160 * 64 + 2 ^ 192 * 64 + 2 ^ 224 * rows) }

/-- That card as it is queued under number 1. -/
def card1 : Card :=
  ⟨1, 0, 0, 0, 1, 0x3000, 0xFEF0000000F80000, 64, 64, 64, 1, 0, 0, 0, 0, .reset, none, none, false⟩

/-- The same strand with 16 cards in the queue. -/
def full : State :=
  { carded 1 with cores := [(0, { core0 with cards := List.replicate 16 card1 })] }

theorem witness_CardsAreQueued :
    (∃ x s1, (carded 1).readBlock (carded 1).actor 0x2000 64 = .ok (x, s1) ∧
      s1.cardCheck (cardOf 1 0 0 0 0 x) 0xDC810001 0x2000 0 0 = none ∧
      (s1.myCore.stoppedCards.filter (fun y => y.card.sid == 0 && !y.restart)).length < 4 ∧
      s1.myCore.cards.length < 16) ∧
    (∃ x s1, (carded 0).readBlock (carded 0).actor 0x2000 64 = .ok (x, s1) ∧
      (s1.cardCheck (cardOf 1 0 0 0 0 x) 0xDC810001 0x2000 0 0).isSome = true) ∧
    (∃ x s1, full.readBlock full.actor 0x2000 64 = .ok (x, s1) ∧
      (s1.cardCheck (cardOf 1 0 0 0 0 x) 0xDC810001 0x2000 0 0 == none && decide (16 ≤ s1.myCore.cards.length)) = true) ∧
    (∃ tr s1, ({ carded 1 with translations := [] } : State).readBlock (carded 1).actor 0x2000 64 = .error (.trap tr, s1)) ∧
    ((on { user with g := g1 0x2001 }).g 1).toNat % 64 ≠ 0 ∧ encode (.seload2d 4 1) = some 0xDC810001 :=
  ⟨⟨_, _, rfl, by decide +kernel, by decide, by decide⟩, passed_with _ (fun _ _ => _) (by decide +kernel),
    passed_with _ (fun _ _ => _) (by decide +kernel), trapped _ (by decide +kernel), by decide, by decide⟩

theorem witness_CardsRun :
    let c : Core := { core0 with cards := [card1], seIssued := 1 }
    let f : Core := { core0 with cards := [{ card1 with inFlight := true }], seIssued := 1 }
    let s : State := { on user with cores := [(0, f)] }
    card1 ∈ c.cards ∧ c.startable 7 card1 = true ∧ c.startable 8 card1 = false ∧ (∀ x ∈ c.cards, card1.num ≤ x.num) ∧
      f.card 1 = some { card1 with inFlight := true } ∧ card1.mover.asked = none ∧ card1.failed = none ∧
      (f.stoppedCards.filter (fun y => y.card.sid == card1.sid && !y.restart)).length < 4 ∧
      (s.cardOutcome { card1 with inFlight := true }).2.2 = none ∧ s.cardFlying 0 1 = false ∧
      (∃ tr, ({ s with translations := [] }.cardOutcome { card1 with inFlight := true }).2.2 = some (.trap tr)) ∧
      (let q : State := { s with
         translations := (List.range 48).map (fun a => ⟨0, 36, 0x20200000000000EF, 0, a⟩)
         routes := [(2, [3])]
         ports := [(3, { LinkPort.reset with trained := true })] }
       ∃ cl dev pa n, (q.cardOutcome { card1 with inFlight := true }).2.2 = some (.need cl dev pa n) ∧
         (q.sendRequest dev (.cardRead 0 1) (readPacket 0 pa n)).isSome = true) ∧
      min ((on user).g 1).toNat (on user).myCore.seIssued ≤ (on user).myCore.seSeq (on user).me.domain ∧
      (on user).myCore.stoppedCards = [] ∧
      ({ on { user with g := g1 1 } with cores := [(0, c)] } : State).myCore.seSeq 0 <
        min (((on { user with g := g1 1 }).g 1).toNat) c.seIssued ∧
      (stopped.myCore.stoppedCards.map (fun x => (x.card.num, x.told, x.restart))) = [(1, false, false)] := by
  repeat' apply And.intro
  all_goals first | decide +kernel | exact ⟨_, rfl⟩ | exact ⟨_, _, _, _, rfl, by decide +kernel⟩

theorem witness_CompletedPrefix :
    let c : Core := { core0 with cards := [card1], seIssued := 1 }
    (∀ k ∈ c.openCards, 1 ≤ k.num) ∧ c.seSeq 0 < c.seIssued ∧ card1.domain = 0 := by decide

/-- Strand 0 with an address in g1 and an operand in g2. -/
def cached (a v : Word) : State := on { user with g := (g1 a).set 2 v }

theorem witness_CacheControlCompletes :
    ((cached 0x2000 3).g 2).toNat % 4 = 3 ∧
      (∃ x s1, (cached 0x2000 1).readBlockOf (cached 0x2000 1).actor 2 0x2000 32 = .ok (x, s1) ∧
        s1.myCore.prefetchQ.length < 8) ∧
      (let q : State := { cached 0x2000 1 with
         cores := [(0, { core0 with prefetchQ := List.replicate 8 ⟨0, 0, 0⟩ })] }
       ∃ x s1, q.readBlockOf q.actor 2 0x2000 32 = .ok (x, s1) ∧ decide (8 ≤ s1.myCore.prefetchQ.length) = true) ∧
      (∃ s1, (cached 0x2000 64).rangeRights 1 0x2000 64 = .ok ((), s1) ∧ s1.mayTarget 0 2 none = true ∧
        s1.pinnedIn 0x2000 64 = false) ∧
      (∃ s1, ({ cached 0x2000 64 with poison := [0x100] } : State).rangeRights 3 0x2000 64 = .ok ((), s1) ∧
        s1.mayTarget 0 2 none = true ∧ s1.pinnedIn 0x2000 64 = false ∧ s1.poison = [0x100] ∧
        ∃ f s2, s1.translate .load (65536 * (0x203F / 65536)) = some (.mem f, s2)) ∧
      (∃ s1, ({ cached 0x2000 64 with pins := [⟨0, 3, 0⟩] } : State).rangeRights 3 0x2000 64 = .ok ((), s1) ∧
        s1.mayTarget 0 2 none = true ∧ s1.pinnedIn 0x2000 64 = true) ∧
      ((on { user with wait := .writeback 4 0x2000 64 }).strand 0).wait = .writeback 4 0x2000 64 ∧
      ((cached 0x2000 (BitVec.ofNat 64 (2 ^ 34))).g 2).toNat / 2 ^ 34 ≠ 0 ∧ ((cached 0x2000 64).g 2).toNat < 2 ^ 34 :=
  ⟨by decide, ⟨_, _, rfl, by decide⟩, passed_with _ (fun _ _ => _) (by decide +kernel), ⟨_, rfl, by decide, by decide⟩,
    ⟨_, rfl, by decide, by decide, by decide, _, _, rfl⟩, ⟨_, rfl, by decide, by decide⟩, by decide, by decide, by decide⟩

/-- Strand 0 about to pin one unit of 1 MiB at 1 MiB into vault 3, under a quota. -/
def pinning (quota : Nat) (pins : List Pin) (v : Word) : State :=
  { cached 0x100000 v with
    domains := [(0, { Domain.reset with pinQuota := quota })]
    root := some 0x100000
    mem := (tables 0).mem
    pins := pins }

theorem witness_PinsComplete :
    ((cached 0x2000 0x103).g 1).toNat % 2 ^ 20 ≠ 0 ∧ ((pinning 4 [] 0x103).g 1).toNat % 2 ^ 20 = 0 ∧
      (let low := { pinning 4 [] 0x103 with mem := writeBytes (writeBytes [] 0x100000 8 0x102001) 0x102000 8 0x8F }
       (∀ s ∈ [pinning 4 [] 0x103, pinning 4 [⟨1, 5, 0⟩] 0x103, pinning 0 [] 0x103, low],
         s.rangeRights 3 0x100000 (1 * 2 ^ 20) = .ok ((), s)) ∧ low.unpinnable 1 = true) ∧
      (pinning 4 [] 0x103).unpinnable 1 = false ∧ (∃ p ∈ (pinning 4 [⟨1, 5, 0⟩] 0x103).pins, p.unit = 1) ∧
      ((pinning 0 [] 0x103).domainOf 0).pinQuota < ((pinning 0 [] 0x103).pins.filter (fun p => p.domain == 0)).length + 1 ∧
      12 < ((pinning 4 (List.replicate 12 ⟨9, 3, 1⟩) 0x103).pins.filter (fun p => p.vault == 3)).length + 1 ∧
      ((pinning 4 [] 0x140).g 2).toNat % 256 ≠ 63 ∧ 48 ≤ ((pinning 4 [] 0x140).g 2).toNat % 256 :=
  ⟨by decide, by decide, ⟨fun s hs => leavesState _ _ (by revert s; decide +kernel), by decide +kernel⟩, by decide +kernel,
    by decide, by decide, by decide, by decide, by decide⟩

/-- Strand 0 with a shadow address in g1 and a name in g2, under a Samovar quota. -/
def boarding (quota : Nat) : State :=
  { on { user with g := (g1 0x2000).set 2 4 } with domains := [(0, { Domain.reset with samQuota := quota })] }

/-- A live record of name 4 on ring 0. -/
def rec4 (pos : Nat) : Record := ⟨0, pos, false, false, 0x2000, 0, 0, 4, Vector.replicate 6 7, 0, 0, 0⟩

theorem witness_RecordsBoard :
    (boarding 1).captureOf 0 = none ∧ ((boarding 1).g 1).toNat % 64 = 0 ∧ classOf ((boarding 1).g 1) = .ordinary ∧
      (boarding 1).fillWaits (boarding 1).actor 0x2000 = false ∧ (∀ s : State, s.fabric = [] → s.classWaits 2 = false) ∧
      (∃ s1, (boarding 1).plbGrants (boarding 1).actor 3 0x2000 = (true, s1) ∧ s1.fabric = [] ∧ (∀ n, (n, 0, 4) ∉ s1.registered) ∧
        ¬ (s1.domainOf 0).samQuota ≤ s1.domainRecords 0 ∧ s1.ringUse 0 ≠ 1184) ∧
      ((boarding 0).domainOf 0).samQuota ≤ (boarding 0).domainRecords 0 ∧
      (0, 0, 4) ∈ ({ boarding 1 with records := [rec4 9] } : State).registered ∧
      ({ boarding 1 with records := List.replicate 1184 (rec4 9) } : State).ringUse 0 = 1184 ∧
      (let w := on { user with wait := .board 3 0x2000 4 0 }
       (w.strand 0).wait = .board 3 0x2000 4 0 ∧ w.posEmpty 0 (posAtStop 0 0 w.cycle) = true ∧
         w.firstBoarder 0 0 = some 0 ∧ (∃ x s1, w.readShadow (w.actorOf 0) 0x2000 = .ok (x, s1)) ∧
         (∃ tr s1, ({ w with translations := [] } : State).readShadow (w.actorOf 0) 0x2000 = .error (.trap tr, s1)) ∧
         ∀ n ∈ [0x100, 0x101], ∃ f s2, ({ w with poison := [n] } : State).resolve me0 .load 0x2000 48 = .ok (.mem f, s2) ∧
           s2.placePoisoned (.mem f) 32 = decide (n = 0x100) ∧
           s2.placePoisoned (.mem (f.skip 32)) 16 = decide (n = 0x101)) := by
  refine ⟨by decide, by decide, by decide, by decide, fun s h => ?_, ⟨boarding 1, rfl, rfl, fun n h => (by cases h), by decide,
    by decide⟩, by decide, by decide, by decide +kernel, by decide, by decide, by decide, ⟨_, _, rfl⟩, ⟨_, _, rfl⟩, ?_⟩
  · simp [State.classWaits, State.storesAnswered, h]
  · intro n h
    simp only [List.mem_cons, List.not_mem_nil, or_false] at h
    obtain rfl | rfl := h <;> exact ⟨_, _, rfl, by decide, by decide⟩

/-- Strand 0 waits with an operation on the record that is at its stop in this cycle. -/
def atStop (op : RingOp) : State :=
  { on { user with wait := .ring 4 3 2 op 0 0 } with cycle := 1, records := [rec4 71] }

theorem witness_RingOperationsComplete :
    (on user).captureOf 0 = none ∧ (on user).classWaits 2 = false ∧ storing.classWaits 0 = true ∧
      ({ on user with captures := [(0, some ⟨rec4 0, 2, 9⟩)] } : State).captureOf 0 ≠ none ∧
      (∀ op ∈ [RingOp.ld 0, .st 5 3, .capture 8, .waitrev, .alight], ((atStop op).strand 0).wait = .ring 4 3 2 op 0 0 ∧
        (atStop op).liveRecord 0 4 = some (rec4 71) ∧ placeAt 71 (atStop op).cycle = stopPlace 0 0 ∧
        (atStop op).headOfStop 0 = true ∧ 0 < (atStop op).cycle ∧ (rec4 71).served ≤ (atStop op).cycle) ∧
      ({ rec4 71 with served := 2 } : Record).served = (atStop .alight).cycle + 1 ∧
      (rec4 71).marks.getLsbD 5 = false ∧
      (∃ pa s1, (atStop .alight).resolve me0 .store (rec4 71).shadow 48 = .ok (.mem pa, s1)) ∧
      let q : State := { atStop .alight with
        translations := (List.range 48).map (fun a => ⟨0, 36, 0x20200000000000EF, 0, a⟩)
        routes := [(2, [3])]
        ports := [(3, { LinkPort.reset with trained := true })] }
      ∃ dev pa s1, q.resolve me0 .store (rec4 71).shadow 48 = .ok (.fabric dev pa, s1) ∧
        (s1.sendRequest dev (.store 0 0x2000 2 s1.serial) (writePacket 2 pa 48 (rec4 71).payload)).isSome = true :=
  ⟨by decide, by decide, by decide, by decide, by decide, by decide, by decide, ⟨_, _, rfl⟩, _, _, _, rfl, by decide +kernel⟩

/-- Strand 0 holds name 4 captured, at `cycle`, and names `n` in g1. -/
def holding (n : Word) (marks : BitVec 6) : State :=
  { on { user with g := g1 n } with cycle := 9, captures := [(0, some ⟨{ rec4 0 with marks := marks }, 2, 9⟩)] }

theorem witness_CapturesComplete :
    (on user).captureOf 0 = none ∧ (on user).classWaits 2 = false ∧
      ({ storing with captures := [(0, some ⟨rec4 0, 2, 9⟩)] } : State).classWaits 0 = true ∧ (holding 4 0).captureOf 0 = some ⟨rec4 0, 2, 9⟩ ∧
      (rec4 0).tag ≠ ((holding 6 0).g 1).toNat % 2 ^ 20 ∧ (rec4 0).tag = ((holding 4 0).g 1).toNat % 2 ^ 20 ∧
      ({ rec4 0 with marks := 2 } : Record).marks.getLsbD 1 = true ∧ (rec4 0).marks.getLsbD 1 = false ∧
      9 ≤ (holding 4 0).cycle := by decide

theorem witness_RecordsReturn :
    let s : State := { on user with reentries := [⟨rec4 5, 0⟩] }
    let w : State := { on { user with wait := .ring 4 3 2 .waitrev 0 0 } with cycle := 2368 }
    s.reentries = [⟨rec4 5, 0⟩] ∧ 0 = coreOf 0 ∧ s.posEmpty 0 (posAtStop 0 (coreOf 0) s.cycle) = true ∧
      (∃ m, ({ s with records := [{ rec4 72 with capturedMark := true }] } : State).ownMarker ⟨rec4 5, 0⟩ = some m ∧
        m.pos = posAtStop 0 0 0) ∧
      (w.strand 0).wait = .ring 4 3 2 .waitrev 0 0 ∧ 0 + 2368 ≤ w.cycle ∧ w.records = [] ∧
      (∃ m ∈ (atStop .waitrev).records, m.domain = 0 ∧ m.tag = 4 ∧ placeAt m.pos (atStop .waitrev).cycle = stopPlace m.ring 0) := by
  repeat' apply And.intro
  all_goals decide

theorem witness_RemoteWordsIssue :
    (∃ s1, (on { user with g := g1 0x2000 }).steepCheck .store 0x2000 8 = .ok s1) ∧
      (∃ s1, (on { user with g := g1 0x2000 }).steepCheck .atomic 0x2000 4 = .ok s1) ∧
      (on user).mayTarget 0 2 (destDevice ((on user).steepDest 0 0x2000)) = true ∧
      ((on { user with wait := .ramow 7 (some (0, 1)) 0x2000 }).strand 0).wait = .ramow 7 (some (0, 1)) 0x2000 :=
  ⟨⟨_, rfl⟩, ⟨_, rfl⟩, by decide, by decide⟩

/-- An entry of strand 0 on its way to its home agent. -/
def word7 (kind : Nat) : SteepEntry := ⟨7, 0, 0, kind, 8, 1, 2, 0x2000, 5, 0x1000, false, 16, 0⟩

theorem witness_RemoteWordsArrive :
    let s (x : Strand) (kind : Nat) : State := { on x with steepSent := [(0, [word7 kind])] }
    let w : Strand := { user with wait := .ramow 7 none 0x2000 }
    (s user 2).steepSent = (0, word7 2 :: []) :: [] ∧ (word7 2).poisoned = false ∧ classOf (word7 2).addr = .ordinary ∧
      (word7 2).op < 10 ∧ (word7 2).width = 8 ∧ (s user 2).entryWaits (word7 2) = false ∧
      destDevice (word7 2).dest = none ∧ (word7 2).isAdd = true ∧
      { s user 2 with steepSent := [] }.entryJoins (word7 2) = none ∧ (s user 2).storeOwed = none ∧
      (let q : State := { s user 2 with combining := [(16, ⟨0x2000, false, 8, [.amo 1 0 0 3], 0⟩)], steepSent := [] }
       (q.entryJoins (word7 2)).isSome = true) ∧
      (let f : State := on { user with steepFlog := 0x7000 }
       (∃ slot p s2, f.me.logSlot = some slot ∧ f.resolve ⟨0, 0, 0, true⟩ .store slot 32 = .ok (p, s2) ∧
         ¬ (∃ dev pa, p = .fabric dev pa)) ∧ f.assistedWaits 5 = false ∧
       { f with svcMode := 32, pendingImage := some ⟨⟨2, 0⟩, 0, 0⟩ }.assistedWaits 5 = true ∧
       ∃ s2, ({ f with combining := [(16, ⟨0x7000, false, 8, [.amo 1 0 0 3], 0⟩)] } : State).resolve ⟨0, 0, 0, true⟩ .store 0x7000 32 =
         .error (.busy, s2)) ∧
      (∃ pa s', { s user 2 with steepSent := [] }.translate .atomic 0x2000 = some (.mem pa, s') ∧
        s'.placePoisoned (.mem pa) 8 = false) ∧
      (∃ pa s', { s user 1 with steepSent := [] }.translate .store 0x2000 = some (.mem pa, s')) ∧
      { s user 2 with steepSent := [], translations := [] }.translate .atomic 0x2000 = none ∧
      ((s w 3).strand 0).wait = .ramow (word7 3).num none 0x2000 ∧ ({ user with steepFlog := 16 } : Strand).steepFlog.getLsbD 4 = true :=
  ⟨rfl, rfl, by decide, by decide, rfl, by decide, by decide, by decide, by decide +kernel, by decide, by decide +kernel,
    ⟨⟨_, _, _, rfl, rfl, by rintro ⟨_, _, h⟩; cases h⟩, by decide, by decide, _, rfl⟩, ⟨_, _, rfl, by decide⟩, ⟨_, _, rfl⟩, rfl,
    by decide, by decide⟩

theorem witness_FlushesComplete :
    (on user).openEntries 0 = [] ∧ ({ on user with steepSent := [(0, [word7 1])] } : State).openEntries 0 ≠ [] ∧
      ((on { user with wait := .sflushw 3 }).strand 0).wait = .sflushw 3 ∧
      ({ user with faultRecords := [(1, 0), (0, 5)] } : Strand).faultRecords =
        [(1, 0)] ++ (((on user).g 1).toNat / 4, 5) :: [] ∧ (∀ q ∈ user.faultRecords, q.1 ≠ 0) := by decide

/-- Strand 0 with a destination word in g1 and a payload address in g2. -/
def sending (dest : Word) : State := on { user with g := (g1 dest).set 2 0x2000 }

/-- A message for class 3, under way. -/
def msg5 : Msg := ⟨5, 3, 0, 4, 0, true, false, false, none, none⟩

theorem witness_MessagesAreSent :
    (∃ p s1, (sending 0x100000013).readWords (sending 0x100000013).actor 0x2000 7 = .ok (p, s1)) ∧
      (sending 0x100000013).mayTarget 0 0 none = true ∧ coreExists (((sending 0x100000013).g 1).toNat / 16 % 4096) = true ∧
      ((sending 0x100000013).g 1).getLsbD 32 = true ∧ ((sending 0x100000013).g 1).extractLsb' 16 8 = 0 ∧
      ((sending 0x100000013).g 1).extractLsb' 33 31 = 0 ∧ ((sending 0x10013).g 1).extractLsb' 16 8 ≠ 0 ∧
      coreExists (((sending 0x180).g 1).toNat / 16 % 4096) = false ∧
      (let w : State := { on { user with wait := .amsend 3 5 true } with
         messages := [⟨msg5, 0, 0, true, some 0, none⟩], handling := [(5, 0)] }
       (w.strand 0).wait = .amsend 3 5 true ∧ w.messages = [] ++ ⟨msg5, 0, 0, true, some 0, none⟩ :: [] ∧
         ∃ q, (5, q) ∈ w.handling) :=
  by
  refine ⟨⟨_, _, rfl⟩, ?_⟩
  repeat' first | exact ⟨0, by decide +kernel⟩ | (refine And.intro ?_ ?_)
  all_goals decide +kernel

/-- Cluster 0 for domain 0, which may reach what lies below 2^21; its launch rights at 0x6000. -/
def part1 : Partition := ⟨1, 0, 1, 1, [((0x150F : BitVec 64) ++ (0 : BitVec 64))], 0x6000, 0, ⟨0, 0, 0, 0, 0, 0⟩⟩

/-- Core 0 with a route for class 3 to strand 0, landing at 0x3000, entry 0x4000, domain 1; `n` messages in its mailbox. -/
def routed (n : Nat) : State :=
  { on user with
    cores := [(0, { core0 with routeTable := 0x5000, mailbox := List.replicate n msg5, plb := [⟨0, 0, 56, 15⟩, ⟨1, 0, 56, 15⟩] })]
    mem := writeBytes [] 0x5060 24 (0x4000 + 2 ^ 64 * 0x3000 + 2 ^ 128 * 0x10001), partitions := [part1]
    messages := [⟨msg5, 0, 0, true, none, none⟩] }

/-- The same where all memory is device 2's. -/
def away (n : Nat) : State := { routed n with
  translations := (List.range 48).map (fun a => ⟨0, 36, 0x20200000000000EF, 0, a⟩)
  routes := [(2, [3])]
  ports := [(3, { LinkPort.reset with trained := true })] }

theorem witness_MessagesArrive :
    (routed 0).nextArrivals = [⟨msg5, 0, 0, true, none, none⟩] ∧ msg5.reply = false ∧ msg5.poisoned = false ∧ msg5.entry = none ∧
      ({ routed 0 with messages := [⟨msg5, 0, 0, true, none, none⟩, ⟨{ msg5 with num := 6 }, 0, 0, true, none, none⟩,
        ⟨{ msg5 with num := 7, fromStrand := 8 }, 0, 0, true, none, none⟩] } : State).nextArrivals.map (fun f => f.msg.num) =
        [5, 7] ∧ (routed 0).routeOf 0 msg5 ≠ none ∧
      (on user).routeOf 0 msg5 = none ∧ ((routed 32).core 0).mailbox.length = 32 ∧
      ((routed 0).core 0).mailbox.length < 32 ∧ (match ((routed 0).routeLoad 0 3).1 with | .far _ _ => false | _ => true) = true ∧
      (match ((away 0).routeLoad 0 3).1 with
        | .far dev pa => (((away 0).routeLoad 0 3).2.sendRequest dev (.route 5) (readPacket 0 pa 32)).isSome
        | _ => false) = true ∧ ((away 0).routeLoad 0 3).2.routeAsked 5 = none ∧
      ({ away 0 with fabric := [⟨7, 0, { readPacket 0 0x5060 32 with mask := 0xFF }, .route 5, 0, some (0, [1, 2]), false, 0⟩] } :
        State).routeAsked 5 ≠ none := by decide +kernel

theorem witness_MessagesDispatch :
    ((routed 1).strand 0).wait = .none ∧ (routed 1).dispatchOpen 0 = true ∧ (routed 1).routeUnread 0 = none ∧
      ((away 1).strand 0).handler = none ∧ (away 1).dispatchOpen 0 = true ∧ (away 1).routeUnread 0 = some msg5 ∧
      ((away 1).touchRoute 0 3).routeAsked 5 = none ∧
      (routed 1).messageFor 0 = some (msg5, ⟨0x4000, 0x3000, 1, 0⟩) ∧
      (∃ u pa, (routed 1).resolve ⟨0, 1, 0, false⟩ .store 0x3000 72 = .ok (.mem pa, u) ∧ u.mayTarget 0 0 none = true) ∧
      (∃ tr s1, ({ routed 1 with cores := [], partitions := [] } : State).resolve ⟨0, 1, 0, false⟩ .store 0x3000 72 = .error (.trap tr, s1)) ∧
      (∃ tags u, (away 1).landingStore 0 0x3000 msg5 = .ok (tags, u) ∧ (!tags.isEmpty) = true) ∧
      (0x3000 : Word).toNat % 128 = 0 ∧ (0x3040 : Word).toNat % 128 ≠ 0 :=
  by
    repeat' apply And.intro
    all_goals first
      | decide +kernel
      | exact ⟨_, _, rfl, by decide⟩
      | exact trapped _ (by decide +kernel)

theorem witness_HandlersComplete :
    let x : Strand := { user with g := (g1 0).set 2 0x2000, handler := some ⟨0x1000, .u, true, 0, 3, 9, 5, true⟩ }
    let s : State := { routed 1 with strands := [(0, x)] }
    (on user).me.handler = none ∧ s.me.handler = some ⟨0x1000, .u, true, 0, 3, 9, 5, true⟩ ∧ s.me.mode = .u ∧
      (s.g 2).toNat % 8 = 0 ∧
      ∃ p s1, s.readWords s.actor (s.g 2) 7 = .ok (p, s1) ∧
        s1.servedBy 0 ⟨0x1000, .u, true, 0, 3, 9, 5, true⟩ = some msg5 ∧ msg5.fromOwn = true :=
  ⟨by decide, by decide, by decide, by decide, _, _, rfl, by decide +kernel, by decide⟩


/-- A header of two groups on one axis, swept 0 to 5, with a budget of 100: as bytes and as read. -/
def headerBytes : Nat :=
  0x1000 + 256 ^ 8 * 0x2000 + 256 ^ 0x10 * 2 + 256 ^ 0x18 + 256 ^ 0x20 + 256 ^ 0x28 + 256 ^ 0x30 + 256 ^ 0x38 +
    256 ^ 0x40 + 256 ^ 0x60 * 0x050403020100 + 256 ^ 0x70 * 100

def header2 : Header :=
  ⟨0x1000, 0x2000, [2, 1, 1, 1, 1, 1], [1, 0, 0, 0, 0, 0], List.replicate 4 [0, 0, 0, 0, 0, 0], [0, 1, 2, 3, 4, 5], 0, 0, 100,
    0, 0, []⟩

/-- Strand 0 in gang 5 with a header at 0x2000, its domain's rights `rights`, `n` launches active. -/
def launching (rights : Nat) (l : List Launch) : State :=
  { on { user with g := g1 0x2000, gangId := 5 } with
    mem := writeBytes (writeBytes [] 0x2000 128 headerBytes) 0x6000 8 rights
    partitions := [part1], launches := l, nextLaunch := 7 }

/-- An active launch of gang 5. -/
def launch3 : Launch := ⟨3, 5, 0, header2, .strand, 0, [], [], [], false, false, 0, false⟩

theorem witness_LaunchesBegin :
    (on user).me.gangId = 0 ∧ encode (.launch 3 1) ≠ none ∧
      (let s := launching 0x1F02 []
       s.me.gangId ≠ 0 ∧ s.openEntries s.cur = [] ∧ (s.g 1).toNat % 128 = 0 ∧ s.mayTarget s.cur 0 none = true ∧
        headerBytes / 256 ^ 0x77 % 256 = 0 ∧
        s.partitionOf (clusterOf s.cur) = some part1 ∧ s.kindAllowed part1 s.me.domain 2 = true ∧
        s.belowMaxl part1 s.me.domain = true ∧ s.activeLaunches < 16 ∧
        (launching 0x1F00 []).kindAllowed part1 s.me.domain 2 = false ∧ (on user).partitionOf 0 = none) := by
  decide +kernel

theorem witness_LaunchesBegin_reads :
    ∃ x s1 s2, (launching 0x1F02 []).readBlock (launching 0x1F02 []).actor 0x2000 128 = .ok (x, s1) ∧
      s1.readBlocks s1.actor 0 0 = .ok ([], s2) ∧ (checkHeader x [] (carveBytes s2.myCore)).toOption = some header2 ∧
      (checkHeader (x + 256 ^ 0x78) [] (carveBytes s2.myCore)).toOption = none :=
  ⟨_, _, _, rfl, rfl, by decide +kernel, by decide +kernel⟩

theorem witness_LaunchesBegin_full :
    let s := launching 0x1F02 (List.replicate 16 { launch3 with domain := 9 })
    16 ≤ s.activeLaunches ∧ s.kindAllowed part1 s.me.domain 2 = true ∧ s.belowMaxl part1 s.me.domain = true := by
  decide +kernel

/-- Strand 0 in gang 5 names launch 3 in g1. -/
def grouped (x : Strand) (l : Launch) : State :=
  { on { x with g := g1 (3 * 2 ^ 32), gangId := 5 } with launches := [l], gangs := [(5, gang5)], partitions := [part1] }

/-- The group held ahead, its footprint here. -/
def ahead1 : Ahead := ⟨3, 1, true, none, false, 0, 0, .reset⟩

theorem witness_GroupsRun :
    let s := grouped user launch3
    let h := grouped { user with ahead := some ahead1 } launch3
    let r := grouped { user with running := some (3, 1) } launch3
    let w := grouped { user with running := some (3, 1), wait := .gdone } launch3
    s.me.running = none ∧ (on user).launchOf (((on user).g 1).toNat / 2 ^ 32) = none ∧
      s.launchOf ((s.g 1).toNat / 2 ^ 32) = some launch3 ∧ launch3.gang = s.me.gangId.toNat ∧ s.me.ahead = none ∧
      ({ launch3 with base := 2 } : Launch).left = 0 ∧ launch3.left ≠ 0 ∧ h.me.ahead = some ahead1 ∧
      r.me.running = some (3, 1) ∧ encode (.gnext 3 1) ≠ none ∧ encode .gdone ≠ none ∧
      (∀ k ∈ r.myCore.openCards, k.sid = r.cur → k.num ≤ r.me.cardsBefore) ∧ r.openEntries r.cur = [] ∧
      (w.strand 0).wait = .gdone ∧ (w.strand 0).running = some (3, 1) ∧
      (grouped user { launch3 with done := true }).launchOf 3 = some { launch3 with done := true } := by decide

/-- A header with one region of one row of 16 bytes, read to the scratchpad. -/
def footed (base : Word) : Header :=
  { header2 with regions := [⟨base, [0, 0, 0, 0, 0, 0], 16, 1, 16, 0⟩] }

/-- Strand 0 with a group ahead and nothing translated. -/
def faulted : State :=
  { grouped { user with ahead := some { ahead1 with ready := false } } { launch3 with header := footed 0x2000 } with
    translations := [] }

theorem witness_GroupsAreAssigned :
    let s := grouped { user with wait := .gnext 3 } launch3
    let f := grouped { user with ahead := some { ahead1 with ready := false } } launch3
    s.launchOf launch3.id = some launch3 ∧ launch3.firstAssignable (2 ^ 20) launch3.base = some 0 ∧
      s.candidates launch3 (launch3.header.workAt 0) ≠ [] ∧ s.assistedWaits 2 = false ∧
      ahead1.mover.asked = none ∧
      (f.fetchRegions 0 launch3.header 1 0 launch3.header.regions 0 0 .reset).2.2.2 = none ∧
      (∀ g ∈ launch3.header.regions, ∀ x ∈ f.footStores, g.noted 0 0 x = false) ∧
      (faulted.fetchRegions 0 (footed 0x2000) 1 0 (footed 0x2000).regions 0 0 .reset).2.2.2.isSome = true ∧
      (f.strand 0).ahead = some { ahead1 with ready := false } ∧ f.launchOf 3 = some launch3 ∧
      ({ user with reassignCount := some 20000 } : Strand).reassignCount = some 20000 ∧
      (s.core (coreOf 0)).reassignDelay ≤ 20000 := by decide +kernel

/-- A free block of 512 bytes of cluster 0 and the arena it is from; an arena of cluster 1. -/
def block1 : BlockTransit := ⟨0, 1, 0, 0x10000⟩
def arena1 : Arena := ⟨0, 1, 0, 0x10000, 0x400⟩

theorem witness_BlocksComplete :
    let s (v : Word) : State := { on { user with g := g1 v } with freeBlocks := [block1], arenas := [arena1] }
    let far : State := { s 0x10200 with arenas := [{ arena1 with cluster := 1 }] }
    9 ≤ (9 : BitVec 5).toNat % 16 ∧ encode (.balloc 3 9) ≠ none ∧
      (∀ x ∈ (on user).freeBlocks, ¬ (x.cluster = clusterOf 0 ∧ x.cls = 1 ∧ x.domain = user.domain)) ∧
      (s 0).freeBlocks = [] ++ block1 :: [] ∧ block1.cluster = clusterOf 0 ∧ block1.cls = (1 : BitVec 5).toNat % 16 ∧
      block1.domain = user.domain ∧
      (∀ x ∈ (s 0).arenas, ¬ (x.domain = 0 ∧ x.base ≤ ((s 0).g 1).toNat ∧ ((s 0).g 1).toNat < x.base + x.bytes)) ∧
      (s 0x10200).arenas = [] ++ arena1 :: [] ∧
      (arena1.domain = (s 0x10200).me.domain ∧ arena1.base ≤ ((s 0x10200).g 1).toNat ∧
        ((s 0x10200).g 1).toNat < arena1.base + arena1.bytes) ∧
      ((s 0x10200).g 1).toNat % (256 * 2 ^ arena1.cls) = 0 ∧ ((s 0x10240).g 1).toNat % (256 * 2 ^ arena1.cls) ≠ 0 ∧
      far.arenas = [] ++ { arena1 with cluster := 1 } :: [] ∧ (1 : Nat) ≠ clusterOf far.cur ∧
      ({ s 0 with blocksBack := [block1] } : State).blocksBack = block1 :: [] ∧ arena1 ∈ (s 0).arenas := by decide

theorem witness_HandlersComplete_super :
    let s := on { super with status := super.status ||| 0x80, handler := some ⟨0x1000, .u, true, 0, 3, 9, 5, true⟩ }
    s.me.mode ≠ .u ∧ s.me.status.getLsbD 7 = true ∧ s.me.handler.isSome = true ∧
      (on super).me.mode ≠ .u ∧ (on super).me.status.getLsbD 7 = false ∧ (encode .amdone).isSome = true := by decide

theorem witness_GangControlCompletes :
    let s := on user
    let v : Word := 0x0005000000020000
    let g := grouped user launch3
    let out : Word := 0x0000000000020000
    (out.extractLsb' 48 16).toNat = 0 ∧ (out.extractLsb' 16 16).toNat = 2 ∧ (out.extractLsb' 32 16).toNat < 2 ∧
      ((0 : Word).extractLsb' 16 16).toNat < 1 ∧ ((0x0000000200020000 : Word).extractLsb' 16 16).toNat ≤
        ((0x0000000200020000 : Word).extractLsb' 32 16).toNat ∧
    s.me.workId = 0 ∧ (v.extractLsb' 48 16).toNat = 5 ∧ (v.extractLsb' 16 16).toNat = 2 ∧ (v.extractLsb' 32 16).toNat = 0 ∧
      (s.gang 5).members = [] ∧ s.me.gangId = 0 ∧ g.me.gangId ≠ 0 ∧ (g.gang 5).members ≠ [] ∧
      (∀ m ∈ (g.gang 5).members, g.samePartition (clusterOf g.cur) (clusterOf m.2) = true) := by decide

theorem witness_ServiceRegistersComplete :
    let h : State := { on user with cores := [(0, { core0 with halted := true })] }
    let c : State := { h with dbgCtl := 0x0001 }
    coreExists 0 = true ∧ (∀ k, k < 4 → ((on user).strand (4 * 0 + k)).frame = none) ∧
      (∀ k, k < 4 → ((on user).strand (4 * 0 + k)).wait = .none) ∧ ((on user).core 0).matrix = [] ∧
      ((({ on user with strands := [(0, { user with frame := some ⟨[0x8C223E00], 2, 0, 0, 0, 0, 0, false⟩ })] } : State).strand
        0).frame).isSome = true ∧
      c.dbgCtl = (1 : Word) &&& 0x07FF0005 ∧ (c.dbgCtl.extractLsb' 16 11).toNat = 0 ∧
      coreExists (coreOf ({ h with dbgCtl := 0x07FF0000 } : State).dbgStrand) = false ∧
      9 ≤ ({ h with dbgSel := 0x90000000 } : State).dbgFile ∧ 32 ≤ ({ h with dbgSel := 32 } : State).dbgIndex ∧
      coreOf h.dbgStrand = 0 ∧
      h.haltedNow 0 = true ∧ (on user).haltedNow (coreOf (on user).dbgStrand) = false ∧
      h.dbgFile = 0 ∧ h.dbgIndex = 0 ∧ ({ h with dbgSel := 0x80000000 } : State).dbgFile = 8 ∧
      ({ h with dbgSel := 0x80000000 } : State).dbgIndex = 0 ∧
      (on user).kettleCtl.getLsbD 0 = true ∧ (on user).capsRested 0 = true := by decide

/-- A frame by its KIND and ARGS, of TENANT 0. -/
def frameOfArgs (kind : BitVec 16) (args : BitVec 384) : ReqFrame := ⟨kind, 0, 0, 0, 0x77, args⟩

/-- The host queue with frames held. -/
def hostQ (l : List (ReqFrame × Nat)) : Queue :=
  ⟨.host, 0x10000, 0x20000, 4, 4, false, 0x30000, 0x30004, 0x30008, 0, 0, none, 0, l, [], 0, true⟩

/-- A machine whose firmware runs: domain 0 in partition 1 of cluster 0 with every launch right, and a frame held. -/
def serving (f : ReqFrame) : State :=
  { on user with
    mem := writeBytes [] 0x6000 8 0x1F7F, partitions := [part1], image := some ⟨3, 5⟩
    queues := [(0, hostQ [(f, 0)])] }

theorem witness_FramesAreChecked :
    let f := frameOfArgs 1 0x2000
    let g := { f with rsv0 := 1 }
    frameStep 0 f (.start 0 f) 1 none ∧ frameStep 0 f (.key 0 f) 5 (some 2) ∧ (serving f).heldFirst 0 = some f ∧
      (serving f).pendingImage = none ∧ (serving f).notServing 0 f ∧ f.args.toNat < 256 ^ 3 ∧
      (serving { f with tenant := 4095, args := 0 }).tenantAllowed 0 { f with tenant := 4095, args := 0 } = false ∧
      ({ serving f with image := none } : State).image = none ∧ (serving g).heldFirst 0 = some g ∧ g.rsv0 ≠ 0 := by
  refine ⟨?_, ?_, ?_⟩
  · exact List.mem_cons_self
  · exact List.mem_of_getElem? (i := 5) rfl
  · decide +kernel

/-- A START record: pc 0x1000, argument 7, strands 4 and 8, stride 4, mode S, SHARE 0, no route. -/
def startRecord : Nat :=
  0x1000 + 256 ^ 8 * 7 + 256 ^ 0x20 * 4 + 256 ^ 0x22 * 2 + 256 ^ 0x24 * 4 + 256 ^ 0x2C

theorem witness_StartsComplete :
    let f := frameOfArgs 1 0x2000
    let s := { serving f with mem := writeBytes (serving f).mem 0x2000 64 startRecord }
    let s0 := s.admitted 0 f
    let list := s0.frameList f
    s.admits 0 f ∧ f.kind = 1 ∧ f.args.toNat < 256 ^ 8 ∧ argOf f 0 8 % 64 = 0 ∧
      (∃ r s1, s0.svcRead list 0x2000 64 = .ok (r, s1) ∧ (r == startRecord && startRsvOk r &&
        s1.startAllowed r (tenantOf f) && startFieldsOk r (tenantOf f) && !s1.startConflict r && !s1.carvesBusy r &&
        (s1.startAll list r (tenantOf f)).isOk) = true) ∧ s.notServing 0 f ∧
      s0.startAllowed (startRecord + 256 ^ 0x20 * 256) (tenantOf f) = false ∧
      startRsvOk (startRecord + 256 ^ 0x2F) = false ∧
      ({ s0 with strands := [(4, user)] } : State).startConflict startRecord = true ∧
      (({ s0 with translations := [] } : State).svcRead list 0x2000 64).isOk = false ∧
      (let busy : State := { s0 with cores := [(1, { core0 with carve := 1, cards := [{ card1 with sid := 4, dst := 0xFEF0000004FF0000 }] })] }
       busy.carvesBusy startRecord = true ∧ busy.startConflict startRecord = false) ∧
      (let w : InService := ⟨0, f, 0, startRecord, .reset, none⟩
       let v : State := { s0 with service := [w] }
       v.serving 0 f = some w ∧ w.rows = startRecord) :=
  by
    repeat' apply And.intro
    all_goals first | decide +kernel | exact passed_with _ (fun _ _ => _) (by decide +kernel)

/-- A launch of gang 5 and its strand in S-mode with a group of it. -/
def rerunning (f : ReqFrame) : State :=
  { serving f with
    strands := [(0, { super with running := some (3, 1), gangId := 5 })]
    launches := [{ launch3 with header := { header2 with flags := 1 }, assigned := [(1, 0)] }], gangs := [(5, gang5)] }

theorem witness_ControlFramesComplete :
    let notify := frameOfArgs 7 0
    let patch := frameOfArgs 4 (BitVec.ofNat 384 (0x2000 + 2 ^ 80 * 3))
    let abort := frameOfArgs 6 (BitVec.ofNat 384 (1 + 2 ^ 32 * 3))
    let rerun := frameOfArgs 6 (BitVec.ofNat 384 (2 + 2 ^ 32 * 3))
    let p := { serving patch with mem := writeBytes (serving patch).mem 0x2000 8 1 }
    let list := (p.admitted 0 patch).frameList patch
    (serving notify).admits 0 notify ∧ strandExists (argOf notify 0 2) = true ∧
      (serving notify).clusterFor (tenantOf notify) 0 = true ∧ strandExists 0xFFFF = false ∧
      p.admits 0 patch ∧ argOf patch 10 1 = 3 ∧ argOf patch 11 5 = 0 ∧ patch.args.toNat < 256 ^ 0x20 ∧
      argOf patch 8 2 = 0 ∧ (∃ nn s1, (p.admitted 0 patch).svcRead list 0x2000 2 = .ok (nn, s1) ∧
        (nn == 1 && (match s1.svcRead list 0x2040 16 with
          | .ok (old, s2) => old == 0 && (s2.svcWrite list 0x2040 16 0).isOk
          | .error _ => false)) = true) ∧
      (({ p with translations := [] } : State).svcRead list 0x2000 2).isOk = false ∧
      (({ p with translations := [] } : State).svcWrite list 0x2040 16 0).isOk = false ∧
      (rerunning abort).admits 0 abort ∧ argOf abort 0 2 = 1 ∧ argOf abort 2 2 = 0 ∧ abort.args.toNat < 256 ^ 8 ∧
      argOf abort 4 4 = 3 ∧ ((rerunning abort).admitted 0 abort).launchOf 3 ≠ none ∧
      ((rerunning abort).admitted 0 abort).gangFor (tenantOf abort) 5 = true ∧
      ((serving abort).admitted 0 abort).launchOf 3 = none ∧
      (rerunning rerun).admits 0 rerun ∧ argOf rerun 0 2 = 2 ∧ (rerunning rerun).notServing 0 rerun ∧
      ((rerunning rerun).admitted 0 rerun).clusterFor 0 0 = true ∧ ((rerunning rerun).admitted 0 rerun).clusterFor 0 3 = false ∧
      ((serving notify).admitted 0 notify).clusterFor (tenantOf notify) 3 = false ∧
      (((rerunning rerun).admitted 0 rerun).gangFor (tenantOf rerun) 5) = true ∧ ((serving rerun).admitted 0 rerun).launchOf 3 = none ∧
      ((rerunning rerun).strand 0).running = some (3, 1) ∧ ((rerunning rerun).strand 0).mode = .s ∧
      (∀ k ∈ ((rerunning rerun).core 0).openCards, k.sid = 0 → k.num ≤ ((rerunning rerun).strand 0).cardsBefore) := by
  repeat' refine And.intro ?_ ?_
  any_goals decide +kernel
  exact passed_with _ (fun _ _ => _) (by decide +kernel)

theorem witness_ControlFramesComplete_fetch :
    let s0 := (rerunning (frameOfArgs 6 0)).admitted 0 (frameOfArgs 6 0)
    (s0.fetchRegions 0 header2 1 0 header2.regions 0 0 .reset).2.2.2 = none ∧
      (faulted.fetchRegions 0 (footed 0x2000) 1 0 (footed 0x2000).regions 0 0 .reset).2.2.2.any
        (fun e => match e with | .trap _ => true | _ => false) = true := by decide +kernel

/-- A replay of one node, and the node. -/
def node1 : GraphNode := ⟨headerBytes, [], 0x3000, [], none, false⟩
def replay1 : Replay := ⟨4, 0, 0x77, 0, 5, [node1], none⟩

theorem witness_LaunchFramesComplete :
    let f := frameOfArgs 2 (BitVec.ofNat 384 (0x2000 + 2 ^ 64 * 5))
    let r := frameOfArgs 3 0x2000
    let s := { serving f with mem := writeBytes (serving f).mem 0x2000 128 headerBytes, gangs := [(5, gang5)] }
    let s0 := s.admitted 0 f
    let list := s0.frameList f
    let full := { s with launches := List.replicate 16 { launch3 with domain := 9 } }
    let u := { serving r with mem := writeBytes (serving r).mem 0x2000 8 (1 + 65536 * 5), gangs := [(5, gang5)] }
    let n := { s with replays := [replay1] }
    let done := { s with launches := [{ launch3 with done := true, owner := .frame 0 0x77 }] }
    s.admits 0 f ∧ f.args.toNat < 256 ^ 10 ∧ argOf f 8 2 = 5 ∧ s0.gangFor (tenantOf f) 5 = true ∧
      (s0.svcHeader list 0x2000).toOption.map Prod.fst = some (headerBytes, []) ∧
      (checkHeader headerBytes [] (s0.rankZeroCarve 5)).toOption = some header2 ∧
      ({ s0 with gangs := [(6, { gang5 with members := [(0, 256)] })] } : State).gangFor (tenantOf f) 6 = false ∧
      s0.partitionOfDomain (tenantOf f) = some part1 ∧ s0.belowMaxl part1 (tenantOf f) = true ∧ s0.activeLaunches < 16 ∧
      16 ≤ (full.admitted 0 f).activeLaunches ∧ (full.admitted 0 f).belowMaxl part1 (tenantOf f) = true ∧
      u.admits 0 r ∧ ((u.admitted 0 r).svcRead list 0x2000 64).toOption.map Prod.fst = some (1 + 65536 * 5) ∧
      (u.admitted 0 r).gangFor (tenantOf r) 5 = true ∧
      ((u.admitted 0 r).readNodes list (0x2000 + 64) 0 1).isOk = true ∧
      n.replayOf 4 = some replay1 ∧ replay1.nodes[0]? = some node1 ∧ replay1.nodeDue node1 = true ∧
      (checkHeader node1.raw node1.foot (n.rankZeroCarve 5)).toOption = some header2 ∧
      n.kindAllowed part1 0 2 = true ∧ n.belowMaxl part1 0 = true ∧
      done.launchOf 3 = some { launch3 with done := true, owner := .frame 0 0x77 } ∧ (done.queue 0).fetching = true := by
  decide +kernel

/-- The firmware runs and the tables and the rights list of `listed` stand in memory. -/
def listing (f : ReqFrame) : State :=
  { listed with
    mem := writeBytes listed.mem 0x6000 8 0x1F7F, image := some ⟨3, 5⟩, queues := [(0, hostQ [(f, 0)])]
    partitions := listed.partitions.map (fun p => { p with dfirst := 0, dcount := 1, lrt := 0x6000 }) }

theorem witness_MemoryFramesComplete :
    let key := frameOfArgs 5 (BitVec.ofNat 384 (2 + 65536 * 3 + 2 ^ 64 * 0x1000))
    let quota (slot v : Nat) := frameOfArgs 5 (BitVec.ofNat 384 (3 + 65536 * slot + 2 ^ 64 * v))
    let arena := frameOfArgs 5 (BitVec.ofNat 384 (1 + 2 ^ 24 + 2 ^ 64 * 0x8000 + 2 ^ 128 * 0x400))
    let s := listing arena
    (serving key).admits 0 key ∧ argOf key 0 2 = 2 ∧ argOf key 3 1 = 0 ∧ argOf key 4 2 < 4096 ∧ argOf key 6 2 = 0 ∧
      key.args.toNat < 256 ^ 16 ∧ argOf key 2 1 ≠ 0 ∧ ((serving key).admitted 0 key).domainReachable 0 0 = true ∧ (serving key).notServing 0 key ∧
      (((serving key).admitted 0 key).frameRead 0 key 0x1000 64).isOk = true ∧
      (({ serving key with hostHoles := [1] } : State).frameRead 0 key 0x1000 64).isOk = false ∧
      ({ serving key with queues := [(1, { hostQ [] with owner := .part 7 })] } : State).domainReachable 1 0 = false ∧
      (serving (quota 0 2368)).admits 0 (quota 0 2368) ∧ argOf (quota 0 2368) 0 2 = 3 ∧ argOf (quota 0 2368) 8 8 = 2368 ∧
      argOf (quota 1 576) 2 1 = 1 ∧ argOf (quota 1 576) 8 8 = 576 ∧
      s.admits 0 arena ∧ arena.args.toNat < 256 ^ 0x18 ∧ argOf arena 0 2 = 1 ∧ argOf arena 3 1 = 1 ∧
      argOf arena 8 8 = 0x8000 ∧ argOf arena 16 8 = 0x400 ∧ (s.admitted 0 arena).clusterFor (tenantOf arena) 0 = true ∧
      (s.admitted 0 arena).clusterFor (tenantOf arena) 9 = false ∧ (s.admitted 0 arena).domainReachable 0 0 = true ∧
      ((s.admitted 0 arena).partitionOfDomain 0).any (fun p =>
        ((s.admitted 0 arena).domainLists p 0).2.ownRange ((s.admitted 0 arena).domainLists p 0).1 0x8000 0x8400
          (0x400 / 65536 + 2)) = true ∧
      0x8000 + 0x400 ≤ 2 ^ 56 ∧ s.arenas = [] := by decide +kernel

theorem witness_PartitionsComplete :
    let f := frameOfArgs 5 (BitVec.ofNat 384 (4 + 65536 * 2 + 2 ^ 32 * 8 + 2 ^ 48 * 4 + 2 ^ 64 * 2 + 2 ^ 128 * 0x2000 + 2 ^ 192 * 0x6000))
    let t := frameOfArgs 5 (BitVec.ofNat 384 (5 + 2 ^ 32 * 8))
    let s := serving f
    s.admits 0 f ∧ argOf f 0 2 = 4 ∧ argOf f 3 1 = 0 ∧ argOf f 14 2 = 0 ∧ f.args.toNat < 256 ^ 0x20 ∧ argOf f 2 1 = 2 ∧
      argOf f 4 2 = 8 ∧ argOf f 6 2 = 4 ∧ argOf f 8 6 = 2 ∧ argOf f 0x18 8 % 4096 = 0 ∧
      (∀ p ∈ s.partitions, p.num ≠ 2) ∧
      (∀ p ∈ s.partitions, p.clusters &&& 2 = 0 ∧ (8 + 4 ≤ p.dfirst ∨ p.dfirst + p.dcount ≤ 8)) ∧
      (s.admitted 0 f).domainReachable 0 8 = true ∧ ((s.admitted 0 f).readList 0x2000 256).toOption.map Prod.fst = some [] ∧ argOf f 0x10 8 % 4096 = 0 ∧ s.drainedNow ∧
      s.notServing 0 f ∧
      (∃ p ∈ ({ s with partitions := [{ part1 with clusters := 3 }] } : State).partitions, p.clusters &&& 2 ≠ 0) ∧
      (serving t).admits 0 t ∧ argOf t 0 2 = 5 ∧ argOf t 2 2 = 0 ∧ argOf t 4 2 = 8 ∧ argOf t 6 2 = 0 ∧
      ((serving t).admitted 0 t).domainReachable 0 8 = true ∧ (serving t).notServing 0 t ∧
      (∃ sid, (({ serving t with strands := [(0, { user with domain := 8 })] } : State).strand sid).domain = 8 ∧
        (({ serving t with strands := [(0, { user with domain := 8 })] } : State).strand sid).parked = false) := by
  repeat' first | exact ⟨0, by decide +kernel⟩ | (refine And.intro ?_ ?_)
  all_goals decide +kernel

-- A TEARDOWN frame in service that awaits request 7 and entry 7, and one that awaits nothing more.
theorem witness_PartitionsComplete_drain :
    let t := frameOfArgs 5 5
    let w : InService := ⟨0, t, 0, 0, .reset, some ([7], [7], 3)⟩
    let s : State := { serving t with service := [w] }
    let o : State := { s with fabric := [{ answered 0 with answer := none }] }
    frameStep 0 t (.teardown 0 t) 5 (some 5) ∧ argOf t 0 2 = 5 ∧ s.serving 0 t = some w ∧
      s.fabric = [] ∧ s.allEntries = [] ∧ s.waiters (fun _ => true) = [] ∧ s.alightsQueued = false ∧
      s.refusedAlights [7] = [] ∧ (o.fabricReq 7).map (fun r => r.answer) = some none := by
  refine ⟨?_, by decide +kernel⟩
  exact List.mem_of_getElem? (i := 8) rfl

theorem witness_PartitionsComplete_parked (sid : Nat) (_ : (State.reset.strand sid).domain = 0) :
    (State.reset.strand sid).parked = true := rfl

/-- The bytes of an image with nothing behind its first page. -/
def imageBytes : Nat := 0x534657494D470001

theorem witness_FirmwareFramesComplete :
    let errlog := frameOfArgs 5 (BitVec.ofNat 384 (7 + 2 ^ 64 * 0x1000 + 2 ^ 128 * 64))
    let attest := frameOfArgs 5 (BitVec.ofNat 384 (6 + 2 ^ 320 * 0x1000))
    let fw := frameOfArgs 5 (BitVec.ofNat 384 (8 + 2 ^ 64 * 0x10000 + 2 ^ 128 * 0x1000))
    let s := { serving fw with mem := writeBytes (serving fw).mem (hostBase + 0x10000) 8 imageBytes }
    let p := { serving fw with pendingImage := some ⟨⟨4, 6⟩, 0, 0x77⟩, cycle := 21000000 }
    (serving errlog).admits 0 errlog ∧ argOf errlog 0 2 = 7 ∧ argOf errlog 2 6 = 0 ∧ errlog.args.toNat < 256 ^ 0x18 ∧
      (serving attest).admits 0 attest ∧ argOf attest 0 2 = 6 ∧ argOf attest 2 6 = 0 ∧ argOf attest 0x28 8 % 4096 = 0 ∧
      ((serving attest).queue 0).owner = .host ∧
      s.admits 0 fw ∧ argOf fw 0 2 = 8 ∧ fw.args.toNat < 256 ^ 0x18 ∧ argOf fw 8 8 % 4096 = 0 ∧ argOf fw 16 8 = 0x1000 ∧
      imageFormOk imageBytes 0x1000 = true ∧ imageFormOk 0 0x1000 = false ∧
      p.pendingImage = some ⟨⟨4, 6⟩, 0, 0x77⟩ ∧ p.service = [] ∧ (serving fw).notServing 0 fw ∧ (p.queue 0).fetching = true ∧
      (p.queue 0).held = (fw, 0) :: [] ∧ 0 + 21000000 ≤ p.cycle := by decide +kernel

theorem witness_FirmwareFramesComplete_image :
    let fw := frameOfArgs 5 0
    let s := { serving fw with mem := writeBytes (serving fw).mem (hostBase + 0x10000) 8 imageBytes }
    s.hostRead 0x10000 0x1000 = some imageBytes ∧ ({ s with hostHoles := [16] } : State).hostRead 0x10000 0x1000 = none ∧
      s.hostAnswers 0x10000 64 = true ∧ ({ s with hostHoles := [16] } : State).hostAnswers 0x10000 64 = false ∧
      (s.hostWrite 0x10000 3852 1).isSome = true ∧
      (({ s with hostHoles := [16] } : State).hostWrite 0x10000 3852 1).isNone = true := by decide +kernel

theorem witness_QueuesComplete :
    let s : State := { on user with queues := [(0, { hostQ [] with pending := [⟨1, 0, 2, 0⟩] })] }
    (s.queue 0).fetching = true ∧ (s.queue 0).nextPoll ≤ s.cycle ∧ (s.queue 0).owner = .host ∧
      (s.queue 0).sqHead < (s.queue 0).sqn ∧ (s.queue 0).pending = ⟨1, 0, 2, 0⟩ :: [] ∧
      s.hostRead 0x30000 4 = some 0 ∧ s.hostRead 0x30004 4 = some 0 ∧ ((s.queue 0).cqTail + 1) % (s.queue 0).cqn ≠ 0 ∧
      (({ s with mem := writeBytes [] (hostBase + 0x30000) 4 2 } : State).hostRead 0x30000 4) = some 2 ∧
      (∀ i, i < 2 → s.hostRead (BitVec.ofNat 64 (0x10000 + 64 * i)) 64 ≠ none) ∧ (s.queue 0).lastDelivery = none ∧
      ((s.hostWrite 0x20000 32 1).bind (fun t => t.hostWrite 0x30008 4 1)).isSome = true ∧
      s.hostLink.state = 0 ∧ ({ s with hostLink := ⟨1, 0x1000, 0, 0⟩ } : State).hostLink.state = 1 ∧
      (0x1001 : Word).toNat % 64 ≠ 0 ∧ (s.hostRead 0x1000 64).map descriptorOk = some false ∧
      (({ s with hostHoles := [1] } : State).hostRead 0x1000 64) = none ∧
      (({ s with mem := writeBytes [] (hostBase + 0x1010) 4 0x100010 } : State).hostRead 0x1000 64).map descriptorOk =
        some true := by
  decide +kernel

/-- Port 0 trained and the way to device 2. -/
def fabricked (mem : List Host.Cell) : State :=
  { on user with mem := mem, ports := [(0, { LinkPort.reset with trained := true })], routes := [(2, [0])] }

/-- A packet from device 2. -/
def from2 (kind : BitVec 8) (addr : Word) : Packet :=
  { emptyPacket with kind := kind, sdev := 2, addr := addr, mask := 0xFF, nelem := 2, esz := 2, data := [1, 2, 3, 4, 5, 6, 7, 8] }

theorem witness_RequestsAreAnswered :
    let s := fabricked []
    let top : Word := BitVec.ofNat 64 Config.hbmBytes
    s.ArrivesFree (from2 0x01 0x2000) 0x01 ∧ 0x2000 + 128 ≤ Config.hbmBytes ∧ s.maskPoisoned (from2 0x01 0x2000) = false ∧
      ({ s with poison := [0x2000 / 32] } : State).maskPoisoned (from2 0x01 0x2000) = true ∧
      s.ArrivesFree (from2 0x01 top) 0x01 ∧ ¬ top.toNat / 128 * 128 + 128 ≤ Config.hbmBytes ∧
      s.ArrivesFree (from2 0x02 0x2000) 0x02 ∧ (from2 0x02 0x2000).aux = 0 ∧
      s.ArrivesFree { from2 0x03 0x2000 with aux := 16 } 0x03 ∧
      s.poisonedAt 0x2000 8 = false ∧ ({ s with poison := [0x100] } : State).poisonedAt 0x2000 8 = true ∧
      s.ArrivesFree { from2 0x03 0x2000 with aux := 31 } 0x03 ∧ s.ArrivesFree { from2 0x03 0x2000 with aux := 10 } 0x03 ∧
      s.Arrives (from2 0x06 0) 0x06 ∧ (from2 0x06 0).data.length ≠ 24 * (from2 0x06 0).nelem.toNat := by
  decide +kernel

/-- A WORDS packet of device 2: one 8-byte ADD of 5 at 0x2000. -/
def wordsOne : Packet :=
  { from2 0x06 0 with nelem := 1, data := [0, 0x20, 0, 0, 0, 0, 0, 0, 5, 0, 0, 0, 0, 0, 0, 0, 0x51, 0, 0, 0, 0, 0, 0, 0] }

theorem witness_RequestsAreAnswered_words :
    let s := fabricked []
    s.Arrives wordsOne 0x06 ∧ wordsOne.nelem.toNat = 1 ∧ wordsOne.data.length = 24 ∧
      s.wordsOpen = [] ∧ s.combining = [] ∧ s.steepSent = [] ∧ s.addsHere = [] := by decide +kernel

theorem witness_RequestsAreAnswered_adds (at_ w : Nat) :
    let adds := ((List.range wordsOne.nelem.toNat).map (packetWord wordsOne)).filter
      (fun e => decide (2 ≤ e.kind) && e.op == 1 && e.addr.toNat == at_ && e.width == w)
    (((fabricked []).addsHere.filter (fun x => x == (at_, w))).length + adds.length) ≤ 2 := by
  intro adds
  have h : adds.length ≤ 1 := List.length_filter_le _ _
  exact Nat.le_trans (Nat.add_le_add_left h _) (show 0 + 1 ≤ 2 by decide)

/-- Two ADDs of other devices have come to 0x2000. -/
def expecting : State := { fabricked [] with addsHere := [(0x2000, 8), (0x2000, 8)] }

theorem witness_RequestsAreAnswered_joins :
    let p := { from2 0x03 0x2000 with aux := 17 }
    let here : State := { expecting.heard wordsOne with
      serial := expecting.serial + 1, wordsOpen := [⟨expecting.serial, wordsOne, 0, 0, 0, []⟩] }
    expecting.ArrivesFree p 0x03 ∧ ((expecting.heard p).combine none 0x2000 8 (.packet p)).isSome = true ∧
      (((fabricked []).heard p).combine none 0x2000 8 (.packet p)).isNone = true ∧
      expecting.wordsOpen = [] ∧ (here.wordJoins expecting.serial (packetWord wordsOne 0)).isSome = true := by
  decide +kernel

theorem witness_RequestsAreAnswered_queued :
    let q : State := { fabricked [] with combining := [(0, ⟨0x2000, false, 8, [.amo 1 4 0 5], 0⟩)] }
    memoryRequest (from2 0x01 0x2000) (.read (from2 0x01 0x2000)) 1 ∧ q.Arrives (from2 0x01 0x2000) 1 ∧
      (q.packetQueue (from2 0x01 0x2000)).map Prod.fst = some 0 := ⟨.head _, by decide +kernel, by decide +kernel⟩

theorem witness_VectorRequestsAnswered :
    let s := fabricked (writeBytes [] 0x5060 24 (0x4000 + 2 ^ 64 * 0x3000 + 2 ^ 128 * 0x10001))
    let m (n : Nat) : State := { s with cores := [(0, { core0 with routeTable := 0x5000, mailbox := List.replicate n msg5 })], partitions := [part1] }
    s.ArrivesFree { from2 0x04 0x2000 with aux := 4 } 0x04 ∧
      (∀ i, i < 2 → 0x2000 + i * 4 + 4 ≤ Config.hbmBytes ∧ (0x2000 + i * 4) % 4 = 0 ∧
        s.poisonedAt (0x2000 + i * 4) 4 = false) ∧
      (0x2001 % 4 ≠ 0 ∧ ({ s with poison := [0x100] } : State).poisonedAt 0x2004 4 = true) ∧
      s.ArrivesFree { from2 0x05 0x2000 with index := [0, 4] } 0x05 ∧
      s.Arrives { from2 0x07 0 with data := [3] } 0x07 ∧ coreExists 0 = true ∧ coreExists 0x1000 = false ∧
      (m 0).msgWaits ⟨msg5, 0, 2, false, none, none⟩ = false ∧
      ({ m 0 with messages := [⟨msg5, 0, 2, false, none, none⟩] } : State).msgWaits ⟨msg5, 0, 2, false, none, none⟩ = true ∧
      (m 0).routeEntry 0 3 ≠ none ∧ s.routeEntry 0 3 = none ∧ 32 ≤ ((m 32).core 0).mailbox.length ∧
      ((m 0).core 0).mailbox.length < 32 ∧
      { from2 0x04 0 with rsv := true }.ddev.toNat = s.device ∧ 0x0B < (from2 0x0C 0).kind.toNat ∧
      s.routeTo (from2 0x0C 0).sdev.toNat ≠ none := by decide +kernel

/-- An open request to device 2. -/
def open7 (purpose : Purpose) : FabricReq :=
  ⟨7, 0, { emptyPacket with ddev := 2, xtag := 7 }, purpose, 0, none, false, 0⟩

theorem witness_ResponsesAreTaken :
    let p : Packet := { from2 0x08 0 with xtag := 7 }
    let s (x : Strand) (u : Purpose) : State := { fabricked [] with strands := [(0, x)], fabric := [open7 u] }
    p.ddev.toNat = (s user (.load 0)).device ∧ p.rsv = false ∧ open7 (.load 0) ∈ (s user (.load 0)).fabric ∧
      (open7 (.load 0)).queued = false ∧ (open7 (.load 0)).answer = none ∧ (open7 (.load 0)).xtag = p.xtag.toNat ∧
      (open7 (.load 0)).packet.ddev = p.sdev ∧
      (∀ q ∈ (s user (.load 0)).fabric, q.xtag = (open7 (.load 0)).xtag → q = open7 (.load 0)) ∧
      (s { user with wait := .load 7 3 8 false 0x2000 } (.load 0)).awaits 7 0 = true ∧
      (s { user with wait := .amo 7 3 8 false 0x2000 } (.amo 0)).awaits 7 0 = true ∧
      (s user (.steep [word7 1])).fabric = [open7 (.steep [word7 1])] ∧ p.status = 0 ∧
      { p with kind := 0x09 }.nmerge.toNat ≤ 1 := by decide

theorem witness_PacingCompletes :
    let s := fabricked []
    (from2 0x0A 0).ddev.toNat = s.device ∧ (from2 0x0A 0).rsv = false ∧ s.queuedFor 2 = [] ∧
      ({ emptyPacket with kind := 0x0B, ddev := 2 } : Packet).sdev.toNat = s.device ∧ (2 : BitVec 8).toNat ≠ s.device ∧
      ({ s with demands := [(2, 40)] } : State).demands = (2, 40) :: [] ∧ s.reaches 2 ∧
      (let r : FabricReq := { open7 (.load 0) with queued := true }
       let q : State := { s with fabric := [r] }
       q.queuedFor 2 = [r] ∧ (∀ x ∈ q.fabric, x.xtag = r.xtag → x = r) ∧ (q.port r.port).up = true ∧
         packetFlits r.packet - (64 - q.inFlightTo 2) ≤ q.grantedBy 2 + 40) ∧
      (let q : State := { s with grants := [(2, [⟨5, 0⟩, ⟨4, 1⟩])], cycle := 8192 }
       ⟨5, 0⟩ ∈ mapGet q.grants 2 [] ∧ 0 + 8192 ≤ q.cycle ∧ q.cycle < 1 + 8192) := by decide +kernel

theorem witness_LinksComplete :
    let s : State := { fabricked [] with fabric := [open7 (.load 0)], strands := [(0, { user with wait := .load 7 3 8 false 0x2000 })] }
    let l := s.port 0
    let full : LinkDir := { l.tx with staged := Vector.replicate 4 (some 9), counter := BitVec.allOnes 48 }
    (full.counter = BitVec.allOnes 48 ∧ ({ s with ports := [(0, { l with tx := full })] } : State).port 0 = { l with tx := full }) ∧
    (({ l with exhausted := true } : LinkPort).exhausted = true ∧ (open7 (.load 0)).port = 0 ∧ (open7 (.load 0)).answer = none) ∧
    l.tx.counter.toNat + 33 < 2 ^ 48 ∧ l.down = false ∧ l.needKey = false ∧ l.failures < 7 ∧ 7 ≤ ({ l with failures := 7 } : LinkPort).failures ∧
      l.exhausted = false ∧ ({ l with replay := [⟨emptyPacket, 0, 1, 0, 0, false⟩] } : LinkPort).replay ≠ [] ∧
      s.hwRotation 0 = true ∧ (∀ n < 36, n ≠ 0 → (s.port n).trained = false) ∧ (2 ^ 47 : Nat) ≤ (full.counter).toNat ∧
      s.fabric = [open7 (.load 0)] ∧ s.awaits 7 0 = true ∧ full.counter = BitVec.allOnes 48 ∧ full.stagedKey ≠ none ∧
      ({ s with svcMode := 16 } : State).hwRotation 0 = false ∧
      ((0x0001 : Word).extractLsb' 16 4).toNat = 0 ∧ ((0x20000 : Word).extractLsb' 16 4).toNat = 2 ∧
      ((0x40000 : Word).extractLsb' 16 4).toNat = 4 ∧ ((0x40000 : Word).extractLsb' 40 8).toNat < 36 := by decide

/-- Strands 0 and 4 wait with an ADD each at a combining queue of router 3, output 2. -/
def combined (ops : List CombOp) : State :=
  { on user with
    cycle := 64, strands := [(0, { user with wait := .amo (combineTag 1) 3 8 false 0x2000 }), (4, { user with wait := .amo (combineTag 2) 4 8 false 0x2000 })]
    combining := [(3 * 16 + 2, ⟨0x2000, false, 8, ops, 0⟩)]
    routers := [(3 * 16 + 2, ⟨[⟨0, false, .req, 9⟩, ⟨0, true, .req, 8⟩], []⟩)] }

theorem witness_MeshCompletes :
    let s := combined [.amo 1 0 0 5, .amo 2 4 0 6]
    let e := { s with combining := mapSet s.combining (3 * 16 + 2) ⟨0x2000, false, 8, [], s.cycle⟩ }
    let p := combined [.packet (from2 0x01 0x2000)]
    let w := { combined [.turn 0 (some 0x1000)] with strands := [(0, user)] }
    let o := mapGet s.routers (3 * 16 + 2) ⟨[], []⟩
    (∃ f ∈ queueHeads o.queue, f.since + 16 ≤ s.cycle) ∧ o.granted s.cycle = none ∧ (o.pick s.cycle).isSome = true ∧
      ({ o with token := [(64, ⟨0, false, .req, 9⟩)] } : RouterPort).token = (s.cycle, ⟨0, false, .req, 9⟩) :: [] ∧
      s.combining = [] ++ (3 * 16 + 2, ⟨0x2000, false, 8, [.amo 1 0 0 5, .amo 2 4 0 6], 0⟩) :: [] ∧ s.walkAssisted 0x2000 = false ∧
      (∃ w s1, e.translate .atomic 0x2000 = some (.mem w, s1) ∧ s1.placePoisoned (.mem w) 8 = false) ∧
      (s.strand 0).wait = .amo (combineTag 1) 3 8 false 0x2000 ∧ (s.strand 4).wait = .amo (combineTag 2) 4 8 false 0x2000 ∧
      p.combining = [] ++ (3 * 16 + 2, ⟨0x2000, false, 8, .packet (from2 0x01 0x2000) :: [], 0⟩) :: [] ∧
      (⟨0x2000, false, 8, [.packet (from2 0x01 0x2000)], 0⟩ : CombQueue).batch = [] ∧ p.walkAssisted 0x2000 = false ∧
      w.combining = [] ++ (3 * 16 + 2, ⟨0x2000, false, 8, .turn 0 (some 0x1000) :: [], 0⟩) :: [] ∧ w.turnLive 0 (some 0x1000) = true ∧
      (combined []).combining = [] ++ (3 * 16 + 2, ⟨0x2000, false, 8, [], 0⟩) :: [] ∧ 0 + 64 ≤ (combined []).cycle := by
  repeat' apply And.intro
  all_goals first | decide | exact ⟨_, _, rfl, by decide⟩

/-- The turn of strand 0 on a machine that runs, with the word `add g1, g2, g3` (or another) at its pc. -/
def turning (w : Nat) : State :=
  { on user with powered := true, agenda := [.strand 0], mem := writeBytes [] 0x1000 4 w }

theorem witness_StepRunsTheDecodedInstruction :
    let s0 (w : Nat) : State := { { turning w with agenda := [] } with cur := 0, turned := 0 :: (turning w).turned }
    (turning 0).powered = true ∧ (turning 0).agenda = .strand 0 :: [] ∧
      (s0 0).passageDue 0 = none ∧ (s0 0).inRotation 0 = true ∧ (s0 0).takeDue 0 = none ∧ (s0 0).dispatch 0 = none ∧
      ((s0 0).strand 0).landingDue = false ∧ ((s0 0).strand 0).wait.retries = true ∧
      ((s0 0x04221800).candidate 0).toOption.map Prod.fst = some 0x04221800 ∧
      (decode 0x04221800).toOption = some (.add 1 2 3) ∧
      ((s0 0).candidate 0).toOption.map Prod.fst = some 0 ∧ (decode 0).toOption = none ∧
      (({ s0 0 with translations := [] } : State).candidate 0).toOption = none ∧
      (match ({ s0 0 with translations := [] } : State).candidate 0 with | .error (.trap _, _) => true | _ => false) = true := by
  decide +kernel

theorem witness_StepRunsTheDecodedInstruction_order :
    let s : State := { turning 0x04221800 with agenda := [] }
    s.powered = true ∧ s.agenda = [] ∧ (s.nextTurn.map Prod.snd) = some 0 := by decide +kernel

theorem witness_OnlyPowerOffStops :
    ({ State.reset with powered := false } : State).powered = false ∧ State.reset.powered = true := by decide

theorem witness_EncodedInstructionsDecode :
    (Instr.add 1 2 3).wellFormed = true ∧ encode (.add 1 2 3) = some 0x04221800 ∧
      (decode 0x04221800).toOption = some (.add 1 2 3) := by decide

theorem witness_invariants : State.reset.StrandsSound ∧ State.reset.MemoryCanonical := by
  exact ⟨fun _ => (by decide +kernel : Strand.reset.sound = true), rfl⟩

theorem witness_invariants_meant : { user with status := 2 }.sound = false ∧ { user with status := 0x41 }.sound = false ∧
    Memory.wf [(5, 1), (3, 1)] = false ∧ Memory.wf [(5, 0)] = false := by decide +kernel

/-! ### Effects worked out by hand from the rules, one step each -/

/-- What one instruction does, seen through one question about the state it leaves. -/
def leaves (r : Result) (f : State → Bool) : Bool := match r with | .next t => f t | _ => false

/-- Strand 0 in U-mode with two registers set and memory from 0x2000 on. -/
def two (x y : Word) (m : Nat) : State :=
  { on { user with g := (g1 x).set 2 y } with mem := writeBytes [] 0x2000 16 m }

-- R126: −1 + 2 wraps to 1; the pc moves to the next word.
theorem test_add_wraps : leaves (execAdd 3 1 2 (two (BitVec.allOnes 64) 2 0)) (fun t =>
    t.me.getG 3 == 1 && t.me.pc == 0x1004) = true := by decide

-- R48: the most negative number by −1 wraps; a zero divisor leaves the dividend.
theorem test_div_overflow : leaves (execDiv 3 1 2 (two 0x8000000000000000 (BitVec.allOnes 64) 0)) (fun t =>
    t.me.getG 3 == 0x8000000000000000) = true := by decide
theorem test_rem_zero : leaves (execRem 1 1 2 (two 7 0 0)) (fun t => t.me.getG 1 == 7) = true := by decide

-- R126: bits [127:64] of (−1) × (2^64 − 1) with x signed and y unsigned are all ones.
theorem test_mulhsu : leaves (execMulhsu 3 1 2 (two (BitVec.allOnes 64) (BitVec.allOnes 64) 0)) (fun t =>
    t.me.getG 3 == BitVec.allOnes 64) = true := by decide

-- R33: g0 stays zero.
theorem test_g0 : leaves (execAddi 0 1 5 (two 1 0 0)) (fun t => t.me.getG 0 == 0 && t.me.pc == 0x1004) = true := by
  decide

-- R138: a branch taken back by three words.
theorem test_branch_back : leaves (execBne 1 0 (BitVec.ofInt 13 (-3)) (two 1 0 0)) (fun t => t.me.pc == 0xFF4) = true := by
  decide

-- R139: a JALR to an address that is no multiple of 4 traps and writes no link.
theorem test_jalr_misaligned : leaves (execJalr 5 1 1 (two 0x2000 0 0)) (fun t =>
    t.me.trapCause == 0x03 && t.me.trapAddr == 0x2001 && t.me.getG 5 == 0 && t.me.trapPc == 0x1000) = true := by decide

-- R131: LB extends the sign; a store of a halfword leaves the bytes beside it.
theorem test_load_sign : leaves (execLb 3 1 0 0 0 (two 0x2001 0 0x1280FF)) (fun t =>
    t.me.getG 3 == BitVec.ofInt 64 (-128)) = true := by decide +kernel
theorem test_store_half : leaves (execSh 2 1 0 0 0 (two 0x2002 0xABCDEF 0x1122334455667788)) (fun t =>
    t.readMem 0x2000 8 == 0x11223344CDEF7788) = true := by decide +kernel

-- R288, R142: ECALL saves its own address, goes to TVEC and to S-mode with IE off.
theorem test_ecall : leaves (execEcall (on { user with tvec := 0x9000, status := 0x10 })) (fun t =>
    t.me.trapCause == 0x0C && t.me.trapPc == 0x1000 && t.me.pc == 0x9000 && t.me.status == 0x21) = true := by decide

-- R290: ERET gives back MODE and IE and goes to TRAP_PC.
theorem test_eret : leaves (execEret (on { super with status := 0x21, trapPc := 0x1004 })) (fun t =>
    t.me.pc == 0x1004 && t.me.status == 0x30) = true := by decide

-- R10: a supervisor instruction in U-mode traps PRIVILEGED.
theorem test_privileged : leaves (execEret (on user)) (fun t => t.me.trapCause == 0x02) = true := by decide

-- R128: 1.0 + 2^-24 in binary32 rounds to even, and is inexact (flag bit 0).
theorem test_fadd_even : leaves (execFadd 3 1 2 0 (two 0x3F800000 0x33800000 0)) (fun t =>
    t.me.getG 3 == 0x3F800000 && t.me.fflags == 1) = true := by decide +kernel

-- R134: an AMO ADD of 32 bits returns the old word with its sign and wraps in memory.
theorem test_amo_add : leaves (execAmoAdd 3 1 2 0 0 0 0 (two 0x2000 1 0xFFFFFFFF)) (fun t =>
    t.me.getG 3 == BitVec.allOnes 64 && t.readMem 0x2000 8 == 0) = true := by decide +kernel

/-! ### A fetch from the first step after reset -/

-- R12, R111, R127: `addi g3, g0, 5` placed for the first step after reset runs in it.
theorem test_first_step : leaves (step (State.reset.withFetchWord 32 0x08600005)) (fun t =>
    (t.strand 0).getG 3 == 5 && (t.strand 0).pc == (State.reset.strand 0).pc + 4) = true := by decide +kernel

-- R114: the word 0 is no instruction; the strand traps with it in TRAP_INFO.
theorem test_first_step_illegal : leaves (step (State.reset.withFetchWord 32 0x7)) (fun t =>
    (t.strand 0).trapCause == 0x01 && (t.strand 0).trapInfo == 0x7) = true := by decide +kernel

/-- A page whose leaf names KEY 5, the slot loaded; the sector at 0x2000 written under that key. -/
def keyed (slotKey : BitVec 512) : State :=
  { two 0x2000 9 0x1122334455667788 with
    keySlots := [(5, slotKey)]
    sectorKeys := [(0x100, 77)]
    translations := [⟨0, 36, 0x50EF, 0, 16⟩] }

-- R315: under the key it was written with the page reads and stores as plain memory.
theorem test_key_same : leaves (execLd 3 1 0 0 0 (keyed 77)) (fun t => t.me.getG 3 == 0x1122334455667788) = true := by
  decide +kernel
theorem test_key_store : leaves (execSd 2 1 0 0 0 (keyed 77)) (fun t =>
    t.readUnder (some 77) 0x2000 8 == 9 && t.sectorKeys == [(0x100, 77)]) = true := by decide +kernel

-- R315: a slot loaded with another key does not show what the first one wrote.
theorem test_key_other : (keyed 78).byteUnder (some 78) 0x2000 =
    (Config.otherKey (some 77) (some 78) 0x100 0x1122334455667788).extractLsb' 0 8 := by
  have h : (keyed 78).sectorKey (0x2000 / 32) = some 77 := rfl
  have hr : (keyed 78).readMem (32 * (0x2000 / 32)) 32 = 0x1122334455667788 := by decide +kernel
  rw [State.byteUnder, h, hr, if_neg (by decide +kernel)]
  rfl

-- R317: with the pointer at sector 3, bytes 0x40 on come from the new frame and bytes 0x60 on from the old one.
theorem test_transit_split :
    let s : State := { migrating 3 0x48F with mem := [(0x58, 7), (0x60, 9), (0x1005F, 1), (0x10060, 2)] }
    s.readSpan (s.physical ⟨0, 16, 0x48F, 0x106000, 0⟩ 0x58) 16 = 2 ^ 56 + 9 * 2 ^ 64 := by decide +kernel

-- R315, R317: the copy of a sector leaves it, in the new frame, under NEW.KEY.
theorem test_copy_rekeys : leaves (execMigrationSectorCopy 0 { migrating 0 0x48F with
      mem := [(5, 7)], keySlots := [(5, 77)], migrations := [⟨0x800, 0, 0x106000, 0x8F, 0x10508F, 0x48F, 0, false⟩] })
    (fun t => t.sectorKey 0x800 == some 77 && t.sectorKey 0 == none && t.byteAt 0x10005 == 7) = true := by decide +kernel
end Sys2Proof.Tests
end

section
namespace Sys2Proof.Machine

/-! ### O9: reads after writes (R5, R315) -/

theorem Claims.plainBytes : Claims.PlainBytes := by
  intro s a n x
  refine ⟨readBytes_writeBytes s.mem a n x, fun i hi => ?_, fun b hb => ?_⟩
  · exact memGet_writeBytes_inside s.mem a n x i hi
  · exact s.byteAt_writeMem_outside a n x hb

/-- The bytes of a sector under a key it was not written with are those `Config.otherKey` leaves open (log entry 26). -/
theorem State.byteUnder_otherKey (s : State) (b : Nat) {other : Option (BitVec 512)} (h : s.sectorKey (b / 32) ≠ other) :
    s.byteUnder other b = (Config.otherKey (s.sectorKey (b / 32)) other (b / 32)
      (BitVec.ofNat 256 (s.readMem (b / 32 * 32) 32))).extractLsb' (8 * (b % 32)) 8 := by
  rw [State.byteUnder, if_neg h, Nat.mul_comm 32]

theorem Claims.bytesUnderKeys : Claims.BytesUnderKeys := by
  intro s key a n x
  refine ⟨fun sec hn hlo hhi => ?_, s.readUnder_writeUnder key a n x, fun i hi => ?_, fun b hb => ?_,
    fun b other hb => ?_, fun b other ho => s.byteUnder_otherKey b ho⟩
  · exact s.sectorKey_writeUnder key a n x (mem_sectorsOf.2 ⟨hn, hlo, hhi⟩)
  · exact s.byteUnder_writeUnder_inside key a n x i hi
  · exact s.byteUnder_writeUnder_outside key a n x hb
  · refine s.byteUnder_writeUnder_elsewhere key other a n x fun hm => ?_
    obtain ⟨-, hlo, hhi⟩ := mem_sectorsOf.1 hm
    omega

end Sys2Proof.Machine

/-- Settles O9: plain writes by the rules of `writeBytes`, keyed ones by those of `State.writeUnder`. -/
theorem memoryReadAfterWrite : Obligations.MemoryReadAfterWrite :=
  ⟨Sys2Proof.Machine.Claims.plainBytes, Sys2Proof.Machine.Claims.bytesUnderKeys⟩
end

section
/-! ### O58: every step keeps the memory canonical

The memory of a state changes in few places only: a write (`writeMem`, `writeUnder`, `writeSpan`) and the filter of a reset,
and each of them keeps the canonical form (Laws/Memory, Laws/Encryption). What follows carries that through the model,
function by function in the model's own order. A function that leaves the memory as it is has a lemma `f_mem`, an equation;
one that may write it has a lemma `wf_f`: from a canonical memory it answers only states with a canonical memory. For an
answer that is not a plain state the predicates below say which states it holds.

The proofs follow the definition. Where no branch touches the memory, the branches are split and `simp` closes each with the
`f_mem` equations; where a branch goes through a function that may write, `grind` follows the branches with the lemmas of
the functions called; a recursion or a fold is an induction (`wf_foldl`). An instruction that is one shared operation with
its own operands has no lemma: `wf_exec` cites the operation's. -/
namespace Sys2Proof.Machine

-- One lemma after the other: `grind` waits for the lemmas it is given, and every proof that waits keeps a thread's stack.
set_option Elab.async false

/-- The state of an optional answer, if there is one, has a canonical memory. -/
@[simp] def WfSome {α : Type} (get : α → State) : Option α → Prop
  | some x => Memory.wf (get x).mem
  | none => True

/-- Of an answer that may be an error, the state of either kind has a canonical memory. -/
@[simp] def WfBoth {ε α : Type} (e : ε → State) (get : α → State) : Except ε α → Prop
  | .ok x => Memory.wf (get x).mem
  | .error x => Memory.wf (e x).mem

/-- The next state of an outcome, if there is one, has a canonical memory. -/
@[simp] def WfNext : Result → Prop
  | .next t => Memory.wf t.mem
  | .fault _ => True
  | .refused _ => True

/-- A unit's work, if any is due, leaves a canonical memory. -/
@[simp] def WfSomeNext : Option Result → Prop
  | some r => WfNext r
  | none => True

/-- The state in which the handling of a frame ends has a canonical memory. -/
@[simp] def WfEnd : FrameEnd → Prop
  | .done _ _ t => Memory.wf t.mem
  | .later t => Memory.wf t.mem
  | .waits _ _ t => Memory.wf t.mem
  | .drains _ _ _ t => Memory.wf t.mem

/-- The state a CSR write leaves, if it is one, has a canonical memory. -/
@[simp] def WfEffect : WriteEffect → Prop
  | .done t => Memory.wf t.mem
  | .wait t => Memory.wf t.mem
  | .illegal => True

theorem wf_foldl {α : Type} {g : State → α → State} (hg : ∀ s x, Memory.wf s.mem → Memory.wf (g s x).mem) {s : State}
    (h : Memory.wf s.mem) (l : List α) : Memory.wf (l.foldl g s).mem := by
  induction l generalizing s with
  | nil => exact h
  | cons x t ih => exact ih (hg s x h)

@[simp] theorem foldl_mem {α : Type} {g : State → α → State} (hg : ∀ s x, (g s x).mem = s.mem) (s : State)
    (l : List α) : (l.foldl g s).mem = s.mem := by
  induction l generalizing s with
  | nil => rfl
  | cons x t ih => exact (ih _).trans (hg s x)

theorem wf_getD {o : Option State} {s : State} (h : Memory.wf s.mem) (ho : ∀ t, o = some t → t.mem = s.mem) :
    Memory.wf (o.getD s).mem := by
  cases o with
  | none => exact h
  | some t => exact (ho t rfl).symm ▸ h

theorem wf_of_mem_eq {s t : State} (e : t.mem = s.mem) (h : Memory.wf s.mem) : Memory.wf t.mem := e ▸ h

theorem wfSomeNext_map {α : Type} {g : α → Result} (hg : ∀ x, WfNext (g x)) (o : Option α) : WfSomeNext (o.map g) := by
  cases o with
  | none => trivial
  | some x => exact hg x

theorem wfSomeNext_findSome {α : Type} {l : List α} {g : α → Option Result} (hg : ∀ x ∈ l, WfSomeNext (g x)) :
    WfSomeNext (l.findSome? g) := by
  cases e : l.findSome? g with
  | none => trivial
  | some r =>
    obtain ⟨x, hx, ex⟩ := List.exists_of_findSome?_eq_some e
    have hr := hg x hx
    rw [ex] at hr
    exact hr

/-- The state of the answer a `match` has found, in its two kinds. -/
theorem WfBoth.of_ok {ε α : Type} {e : ε → State} {get : α → State} {r : Except ε α} {x : α} (hr : WfBoth e get r)
    (hx : r = .ok x) : Memory.wf (get x).mem := by
  rw [hx] at hr
  exact hr

theorem WfBoth.of_error {ε α : Type} {e : ε → State} {get : α → State} {r : Except ε α} {x : ε} (hr : WfBoth e get r)
    (hx : r = .error x) : Memory.wf (e x).mem := by
  rw [hx] at hr
  exact hr

/-! #### Machine/Ops -/

theorem State.wf_writeUnder {s : State} (h : Memory.wf s.mem) (key a n x) :
    Memory.wf (s.writeUnder key a n x).mem := by
  obtain ⟨m, k, e, w⟩ := s.writeUnder_only key a n x
  rw [e]
  exact w h

@[simp] theorem State.setMyCore_mem (s : State) (x) : (s.setMyCore x).mem = s.mem := rfl

@[simp] theorem State.asStrand_mem (s : State) (sid : Nat) (f : State → State) :
    (s.asStrand sid f).mem = (f { s with cur := sid }).mem := rfl

@[simp] theorem State.releaseCapture_mem (s : State) (sid lost) : (s.releaseCapture sid lost).mem = s.mem := by
  unfold releaseCapture
  split <;> rfl

@[simp] theorem State.trap_mem (s : State) (t) : (s.trap t).mem = s.mem := by
  simp [State.trap]

@[simp] theorem State.trapAfter_mem (s : State) (t) : (s.trapAfter t).mem = s.mem := by
  unfold trapAfter
  split <;> simp

/-! #### Machine/Alu -/

theorem wf_aluRR {s : State} (h : Memory.wf s.mem) (f d a b) : WfNext (aluRR f d a b s) := by
  simpa [aluRR] using h

theorem wf_aluR {s : State} (h : Memory.wf s.mem) (f d a) : WfNext (aluR f d a s) := by
  simpa [aluR] using h

theorem wf_execSel {s : State} (h : Memory.wf s.mem) (d a b) : WfNext (execSel d a b s) := by
  unfold execSel
  grind [wf_aluRR, WfNext]

theorem wf_execLdi {s : State} (h : Memory.wf s.mem) (d i) : WfNext (execLdi d i s) := by
  simpa [execLdi] using h

theorem wf_execLdis {s : State} (h : Memory.wf s.mem) (d i) : WfNext (execLdis d i s) := by
  simpa [execLdis] using h

/-! #### Machine/Flags -/

@[simp] theorem State.finish_mem (s : State) (flags) : (s.finish flags).mem = s.mem := by
  unfold finish
  dsimp only
  split <;> simp

/-! #### Machine/Fpu -/

theorem wf_fpRounding {s : State} (h : Memory.wf s.mem) (w d f) : WfNext (fpRounding w d f s) := by
  unfold fpRounding
  split <;> simpa using h

theorem wf_fpExact {s : State} (h : Memory.wf s.mem) (d r) : WfNext (fpExact d r s) := by
  simpa [fpExact] using h

theorem wf_fmaResult {s : State} (h : Memory.wf s.mem) (negProduct negAddend op d a b c f) :
    WfNext (fmaResult negProduct negAddend op d a b c f s) := by
  unfold fmaResult
  grind [wf_fpRounding, WfNext]

/-! #### Machine/Operands -/

@[simp] theorem State.endVector_mem (s : State) (x fl) : (s.endVector x fl).mem = s.mem := by
  simp [State.endVector]

@[simp] theorem State.endFrom_mem (s : State) (x fl) : (s.endFrom x fl).mem = s.mem := by
  unfold endFrom
  split <;> simp

/-! #### Machine/Access -/

@[simp] theorem State.writeSpad_mem (s : State) (core off n x : Nat) : (s.writeSpad core off n x).mem = s.mem := by
  induction n generalizing s off x with
  | zero => rfl
  | succ n ih => exact (ih _ _ _).trans rfl

@[simp] theorem State.noteStore_mem (s : State) (core off n) : (s.noteStore core off n).mem = s.mem := by
  unfold noteStore
  split <;> rfl

theorem State.wf_writePlace {s : State} (h : Memory.wf s.mem) (p n x) : Memory.wf (s.writePlace p n x).mem := by
  unfold writePlace
  grind [State.writeSpad_mem, State.wf_writeSpan, State.noteStore_mem]

theorem State.wf_setLeaf {s : State} (h : Memory.wf s.mem) (at_ old new) : Memory.wf (s.setLeaf at_ old new).mem := by
  unfold setLeaf
  grind [State.wf_writeMem]

theorem State.wf_walkFor {s : State} (h : Memory.wf s.mem) (kind va) : WfSome Prod.snd (s.walkFor kind va) := by
  unfold walkFor
  grind [State.wf_setLeaf, WfSome]

theorem State.wf_translation {s : State} (h : Memory.wf s.mem) (kind va) :
    WfSome Prod.snd (s.translation kind va) := by
  unfold translation
  grind [State.wf_walkFor, State.wf_setLeaf, WfSome]

theorem State.wf_translate {s : State} (h : Memory.wf s.mem) (kind va) : WfSome Prod.snd (s.translate kind va) := by
  unfold translate
  grind [State.wf_translation, WfSome]

theorem State.wf_loadOwn {s : State} (h : Memory.wf s.mem) (list core a n) :
    Memory.wf (s.loadOwn list core a n).2.mem := by
  unfold loadOwn
  grind [State.wf_translate, WfSome]

theorem State.wf_readRights {s : State} (h : Memory.wf s.mem) (core : Nat) (at_ : Word) (n : Nat) :
    Memory.wf (s.readRights core at_ n).2.mem := by
  induction n generalizing s at_ with
  | zero => exact h
  | succ n ih => unfold readRights; grind [State.wf_loadOwn]

theorem State.wf_fillEntry {s : State} (h : Memory.wf s.mem) (sid domain plb va) :
    Memory.wf (s.fillEntry sid domain plb va).2.mem := by
  unfold fillEntry
  grind [State.wf_readRights]

theorem State.wf_plbLookup {s : State} (h : Memory.wf s.mem) (who va) : Memory.wf (s.plbLookup who va).2.mem := by
  unfold plbLookup
  grind [State.setCore_mem, State.wf_fillEntry]

theorem State.wf_plbGrants {s : State} (h : Memory.wf s.mem) (who need va) :
    Memory.wf (s.plbGrants who need va).2.mem := by
  unfold plbGrants
  grind [State.wf_plbLookup]

theorem State.wf_plbRange {s : State} (h : Memory.wf s.mem) (who need va stop n) :
    WfBoth Prod.snd Prod.snd (s.plbRange who need va stop n) := by
  induction n generalizing s va with
  | zero => exact h
  | succ n ih => unfold plbRange; grind [State.wf_plbLookup, WfBoth]

@[simp] theorem State.joinQueue_mem (s : State) (k q o) : (s.joinQueue k q o).mem = s.mem := rfl

@[simp] theorem State.popQueue_mem (s : State) (k q n) : (s.popQueue k q n).mem = s.mem := rfl

theorem State.wf_takeTurn {s : State} (h : Memory.wf s.mem) (who p n) : WfBoth id id (s.takeTurn who p n) := by
  unfold takeTurn
  dsimp only
  repeat' split
  all_goals simpa using h

theorem State.wf_reach {s : State} (h : Memory.wf s.mem) (who kind a n) :
    WfBoth Prod.snd Prod.snd (s.reach who kind a n) := by
  unfold reach
  grind [State.wf_translate, State.wf_plbGrants, WfBoth, WfSome]

theorem State.wf_resolve {s : State} (h : Memory.wf s.mem) (who kind a n) :
    WfBoth Prod.snd Prod.snd (s.resolve who kind a n) := by
  unfold resolve
  grind [State.wf_takeTurn, State.wf_reach, WfBoth, id]

/-! #### Machine/Fabric -/

@[simp] theorem State.setPort_mem (s : State) (n p) : (s.setPort n p).mem = s.mem := rfl

@[simp] theorem State.reroute_mem (s : State) : s.reroute.mem = s.mem := rfl

@[simp] theorem State.portSent_mem (s : State) (port l) : (s.portSent port l).mem = s.mem := by
  unfold portSent
  split <;> rfl

@[simp] theorem State.transmit_mem (s : State) (port p) : (s.transmit port p).mem = s.mem := by
  unfold transmit
  dsimp only
  split <;> simp

@[simp] theorem State.emit_mem (s : State) (p) : (s.emit p).mem = s.mem := by
  unfold emit
  split <;> simp

@[simp] theorem State.answer_mem (s : State) (p kind status data) : (s.answer p kind status data).mem = s.mem := by
  simp [State.answer]

@[simp] theorem State.announce_mem (s : State) (dev) : (s.announce dev).mem = s.mem := by
  simp [State.announce]

@[simp] theorem State.releaseQueued_mem (s : State) (dev : Nat) (l : List FabricReq) :
    (s.releaseQueued dev l).mem = s.mem := by
  induction l generalizing s with
  | nil => rfl
  | cons r t ih => unfold releaseQueued; dsimp only; split <;> simp [ih]

theorem State.sendRequest_mem {s t : State} {dev why p} {y} (e : s.sendRequest dev why p = some (y, t)) :
    t.mem = s.mem := by
  unfold sendRequest at e
  grind [State.announce_mem, State.transmit_mem]

@[simp] theorem State.dropReq_mem (s : State) (xtag) : (s.dropReq xtag).mem = s.mem := rfl

@[simp] theorem State.refuseNow_mem (s : State) (a cls) : (s.refuseNow a cls).mem = s.mem := rfl

@[simp] theorem State.ask_mem (s : State) (sid cls dev pa n) : (s.ask sid cls dev pa n).mem = s.mem := by
  unfold ask
  split <;> grind [State.sendRequest_mem, State.setStrand_mem]

@[simp] theorem State.fetchStopped_mem (s : State) (e) : (s.fetchStopped e).mem = s.mem := by
  unfold fetchStopped
  split <;> grind [State.waiting_mem, State.sendRequest_mem, State.trap_mem]

@[simp] theorem State.stopped_mem (s : State) (e) : (s.stopped e).mem = s.mem := by
  unfold stopped
  repeat' split
  all_goals simp

theorem State.wf_pieces {s : State} (h : Memory.wf s.mem) (kind cls n l) : Memory.wf (s.pieces kind cls n l).2.mem := by
  induction l generalizing s with
  | nil => exact h
  | cons a t ih => unfold pieces; grind [State.wf_resolve, WfBoth]

theorem State.wf_takePieces {s : State} (h : Memory.wf s.mem) (kind cls n l) :
    WfBoth id Prod.snd (s.takePieces kind cls n l) := by
  have hp := State.wf_pieces h kind cls n l
  unfold takePieces
  dsimp only
  split
  · simpa using hp
  · split
    · split
      · exact wf_foldl (fun s q hs => by simpa using hs) hp _
      · simpa using hp
    · simpa using hp
    · grind [WfBoth, State.waiting_mem]

theorem State.wf_writePieces {s : State} (h : Memory.wf s.mem) (n x l) : Memory.wf (s.writePieces n x l).mem := by
  induction l generalizing s x with
  | nil => exact h
  | cons a t ih =>
    obtain ⟨a, p⟩ := a
    unfold writePieces
    refine ih ?_ _
    grind [State.sendRequest_mem, State.refuseNow_mem, State.wf_writePlace]

theorem State.takeGathered_mem {s t : State} {sid tags w} (e : s.takeGathered sid tags w = some t) : t.mem = s.mem := by
  unfold takeGathered at e
  dsimp only at e
  split at e
  · cases e
  · cases e
    exact foldl_mem (fun s x => State.dropReq_mem ..) _ _

/-! #### Machine/Steep -/

@[simp] theorem State.setBufs_mem (s : State) (cluster l) : (s.setBufs cluster l).mem = s.mem := rfl

@[simp] theorem State.sendBufs_mem (s : State) (cluster pick) : (s.sendBufs cluster pick).mem = s.mem := rfl

@[simp] theorem State.postEntry_mem (s : State) (cluster dest age e) :
    (s.postEntry cluster dest age e).mem = s.mem := by
  unfold postEntry
  dsimp only
  repeat' split
  all_goals simp

@[simp] theorem State.flushCovered_mem (s : State) (sid scope mask) :
    (s.flushCovered sid scope mask).mem = s.mem := rfl

@[simp] theorem State.flushAll_mem (s : State) (sid) : (s.flushAll sid).mem = s.mem := rfl

theorem State.wf_storeRecord {s : State} (h : Memory.wf s.mem) (e slot r) :
    Memory.wf (s.storeRecord e slot r).mem := by
  unfold storeRecord
  grind [State.wf_resolve, State.wf_writePlace, State.sendRequest_mem, WfBoth]

theorem State.wf_storeOwed {s : State} (h : Memory.wf s.mem) : WfSome id s.storeOwed := by
  unfold storeOwed
  grind [State.wf_storeRecord, WfSome, id]

theorem State.wf_appendRecord {s : State} (h : Memory.wf s.mem) (e cause) :
    Memory.wf (s.appendRecord e cause).mem := by
  unfold appendRecord
  grind [State.wf_storeRecord, State.setStrand_mem]

theorem State.wf_entryFault {s : State} (h : Memory.wf s.mem) (e cause) : Memory.wf (s.entryFault e cause).mem := by
  unfold entryFault
  grind [State.wf_appendRecord, State.setStrand_mem]

@[simp] theorem State.entryDone_mem (s : State) (e fl) : (s.entryDone e fl).mem = s.mem := by
  unfold entryDone
  dsimp only
  repeat' split
  all_goals simp

theorem State.wf_performAt {s : State} (h : Memory.wf s.mem) (e p) : Memory.wf (s.performAt e p).mem := by
  unfold performAt
  grind [State.entryDone_mem, State.wf_writePlace, State.wf_entryFault]

theorem State.wf_performEntry {s : State} (h : Memory.wf s.mem) (e) : Memory.wf (s.performEntry e).1.mem := by
  unfold performEntry
  grind [State.wf_performAt, State.wf_translate, State.wf_entryFault, WfSome]

theorem State.wf_sendWords {s : State} (h : Memory.wf s.mem) (dev l) : Memory.wf (s.sendWords dev l).mem := by
  unfold sendWords
  split
  · exact h
  · split
    · next e => exact State.sendRequest_mem e ▸ h
    · exact wf_foldl (fun s x hs => State.wf_entryFault hs ..) h _

@[simp] theorem State.addCame_mem (s : State) (pa n) : (s.addCame pa n).mem = s.mem := rfl

theorem State.combine_mem {s t : State} {va pa n o} (e : s.combine va pa n o = some t) : t.mem = s.mem := by
  unfold combine at e
  split at e
  · cases e; rfl
  · dsimp only at e
    split at e
    · cases e
    · split at e
      · cases e; rfl
      · split at e
        · cases e
        · obtain ⟨_, _, rfl⟩ := Option.map_eq_some_iff.mp e
          rfl

theorem State.entryJoins_mem {s t : State} {x} (e : s.entryJoins x = some t) : t.mem = s.mem := by
  unfold entryJoins at e
  split at e
  · cases e
  · obtain ⟨_, _, e⟩ := Option.bind_eq_some_iff.mp e
    exact State.combine_mem e

theorem State.wf_performAdding {s : State} (h : Memory.wf s.mem) (e) : Memory.wf (s.performAdding e).1.mem := by
  unfold performAdding
  grind [State.addCame_mem, State.wf_performEntry]

theorem State.wf_deliverEntry {s : State} (h : Memory.wf s.mem) (e) : Memory.wf (s.deliverEntry e).mem := by
  unfold deliverEntry
  grind [State.wf_sendWords, State.wf_performAdding]

theorem State.wf_sendBuffer {s : State} (h : Memory.wf s.mem) (l) : Memory.wf (s.sendBuffer l).mem := by
  unfold sendBuffer
  refine wf_foldl (fun s dev hs => State.wf_sendWords hs ..) ?_ _
  refine List.foldlRecOn l _ (motive := fun acc : State × _ => Memory.wf acc.1.mem) h fun acc hacc e _ => ?_
  grind [State.entryJoins_mem, State.wf_performAdding]

theorem State.wf_steepCheck {s : State} (h : Memory.wf s.mem) (kind a n) :
    WfBoth Prod.snd id (s.steepCheck kind a n) := by
  unfold steepCheck
  grind [State.wf_plbGrants, WfBoth, id]

theorem wf_postWord {s : State} (h : Memory.wf s.mem) (kind width op a b c) :
    WfNext (postWord kind width op a b c s) := by
  unfold postWord
  grind [State.retire_mem, State.stopped_mem, State.wf_steepCheck, State.postEntry_mem, WfNext, WfBoth, id]

theorem wf_execRamow {s : State} (h : Memory.wf s.mem) (d a b c) : WfNext (execRamow d a b c s) := by
  unfold execRamow
  grind [State.stopped_mem, State.wf_steepCheck, State.waiting_mem, WfNext, WfBoth, id]

theorem wf_execRamowResponse {s : State} (h : Memory.wf s.mem) (sid) : WfNext (execRamowResponse sid s) := by
  unfold execRamowResponse
  split
  · dsimp only [WfNext, State.asStrand]
    split <;> simpa using h
  · exact h

theorem wf_execSflush {s : State} (h : Memory.wf s.mem) : WfNext (execSflush s) := by
  simpa [execSflush] using h

@[simp] theorem State.finishFlush_mem (s : State) (d) : (s.finishFlush d).mem = s.mem := by
  simp [State.finishFlush]

theorem wf_execSflushw {s : State} (h : Memory.wf s.mem) (d) : WfNext (execSflushw d s) := by
  unfold execSflushw
  dsimp only
  repeat' split
  all_goals simpa using h

theorem wf_execSfrec {s : State} (h : Memory.wf s.mem) (d a) : WfNext (execSfrec d a s) := by
  unfold execSfrec
  dsimp only
  repeat' split
  all_goals simpa using h

theorem wf_execSteepAgeTrigger {s : State} (h : Memory.wf s.mem) (cluster) :
    WfNext (execSteepAgeTrigger cluster s) := by
  simpa [execSteepAgeTrigger] using h

theorem State.wf_ackPacket {s : State} (h : Memory.wf s.mem) : Memory.wf s.ackPacket.mem := by
  unfold ackPacket
  split
  · exact h
  · exact h
  · split
    · exact h
    · split
      · exact State.wf_sendBuffer (by exact h) _
      · dsimp only
        split
        · next e => exact wf_of_mem_eq (State.entryJoins_mem e) (by exact h)
        · exact State.wf_deliverEntry (by exact h) _

theorem wf_execSteepAck {s : State} (h : Memory.wf s.mem) : WfNext (execSteepAck s) := by
  have ho := State.wf_storeOwed h
  unfold execSteepAck
  cases e : s.storeOwed with
  | none => exact State.wf_ackPacket h
  | some t => rwa [e] at ho

/-! #### Machine/Stream -/

theorem wf_execCardStart {s : State} (h : Memory.wf s.mem) (core) : WfNext (execCardStart core s) := by
  unfold execCardStart
  dsimp only
  repeat' split
  all_goals simpa using h

theorem State.wf_pieceRead {s : State} (h : Memory.wf s.mem) (who brought a n) :
    WfBoth Prod.snd Prod.snd (s.pieceRead who brought a n) := by
  unfold pieceRead
  grind [State.wf_resolve, WfBoth]

theorem State.wf_pieceWrite {s : State} (h : Memory.wf s.mem) (who for_ a n x) :
    WfBoth Prod.snd id (s.pieceWrite who for_ a n x) := by
  unfold pieceWrite
  grind [State.writeSpad_mem, State.wf_resolve, State.wf_writePlace, State.sendRequest_mem, WfBoth, id]

theorem State.wf_moveRow {s : State} (h : Memory.wf s.mem) (who for_ src dst rowBytes n m) :
    Memory.wf (s.moveRow who for_ src dst rowBytes n m).1.mem := by
  induction n generalizing s m with
  | zero => exact h
  | succ n ih => unfold moveRow; grind [State.wf_pieceRead, State.wf_pieceWrite, WfBoth, id]

@[simp] theorem State.clearMarks_mem (s : State) (who a n rot r) : (s.clearMarks who a n rot r).mem = s.mem := by
  unfold clearMarks
  refine foldl_mem (fun s i => ?_) _ _
  dsimp only
  split
  · rfl
  · split
    · rfl
    · split <;> rfl

theorem State.wf_cardSource {s : State} (h : Memory.wf s.mem) (c) : WfBoth Prod.snd Prod.snd (s.cardSource c) := by
  unfold cardSource
  grind [State.wf_pieceRead, WfBoth]

theorem State.wf_runCard {s : State} (h : Memory.wf s.mem) (c n) : Memory.wf (s.runCard c n).1.mem := by
  induction n generalizing s c with
  | zero => exact h
  | succ n ih => unfold runCard; grind [State.wf_cardSource, State.wf_moveRow, State.clearMarks_mem, WfBoth]

theorem State.wf_cardOutcome {s : State} (h : Memory.wf s.mem) (c) : Memory.wf (s.cardOutcome c).1.mem := by
  unfold cardOutcome
  grind [State.wf_runCard]

@[simp] theorem State.setCard_mem (s : State) (core k) : (s.setCard core k).mem = s.mem := rfl

@[simp] theorem State.removeCard_mem (s : State) (core num stopped) :
    (s.removeCard core num stopped).mem = s.mem := rfl

@[simp] theorem State.askCard_mem (s : State) (core k dev pa n) : (s.askCard core k dev pa n).mem = s.mem := by
  unfold askCard
  split <;> grind [State.sendRequest_mem, State.setCard_mem]

theorem wf_execCardComplete {s : State} (h : Memory.wf s.mem) (core num) : WfNext (execCardComplete core num s) := by
  unfold execCardComplete
  grind [State.removeCard_mem, State.wf_cardOutcome, State.askCard_mem, State.setCard_mem, WfNext]

theorem wf_execCardStop {s : State} (h : Memory.wf s.mem) (core num) : WfNext (execCardStop core num s) := by
  unfold execCardStop
  grind [State.removeCard_mem, State.wf_cardOutcome, State.setCard_mem, WfNext]

@[simp] theorem State.serveStopped_mem (s : State) (core pick) : (s.serveStopped core pick).2.mem = s.mem := by
  unfold serveStopped
  dsimp only
  split <;> simp

@[simp] theorem State.trySewait_mem (s : State) (target) : (s.trySewait target).mem = s.mem := by
  unfold trySewait
  split <;> grind [State.retire_mem, State.serveStopped_mem, State.waiting_mem, State.trap_mem]

theorem wf_execSewait {s : State} (h : Memory.wf s.mem) (a) : WfNext (execSewait a s) := by
  simpa [execSewait] using h

theorem State.wf_readBlockOf {s : State} (h : Memory.wf s.mem) (who cls a n) :
    WfBoth Prod.snd Prod.snd (s.readBlockOf who cls a n) := by
  unfold readBlockOf
  grind [State.wf_resolve, WfBoth]

theorem State.wf_readBlock {s : State} (h : Memory.wf s.mem) (who a n) :
    WfBoth Prod.snd Prod.snd (s.readBlock who a n) := by
  unfold readBlock
  grind [State.wf_readBlockOf, WfBoth]

@[simp] theorem State.makeRoom_mem (s : State) (core sid) : (s.makeRoom core sid).2.mem = s.mem := by
  unfold makeRoom
  dsimp only
  repeat' split
  all_goals simp

@[simp] theorem State.acceptCard_mem (s : State) (d k) : (s.acceptCard d k).mem = s.mem := by
  unfold acceptCard
  dsimp only
  repeat' split
  all_goals simp

theorem wf_cardOp {s : State} (h : Memory.wf s.mem) (fn d a) : WfNext (cardOp fn d a s) := by
  unfold cardOp
  grind [State.wf_readBlock, State.stopped_mem, State.acceptCard_mem, State.trap_mem, WfNext, WfBoth]

/-! #### Machine/Sync -/

@[simp] theorem State.drain_mem (s : State) (mask) : (s.drain mask).mem = s.mem := rfl

@[simp] theorem State.finishFence_mem (s : State) (kind scope mask) :
    (s.finishFence kind scope mask).mem = s.mem := by
  unfold finishFence
  dsimp only
  repeat' split
  all_goals simp

@[simp] theorem State.fenceCards_mem (s : State) (sid scope) : (s.fenceCards sid scope).2.mem = s.mem := by
  unfold fenceCards
  split <;> simp

theorem wf_execFence {s : State} (h : Memory.wf s.mem) (k sc m) : WfNext (execFence k sc m s) := by
  unfold execFence
  grind [State.waiting_mem, State.finishFence_mem, State.fenceCards_mem, State.flushCovered_mem, State.trap_mem,
    WfNext]

theorem wf_execFenceCompletion {s : State} (h : Memory.wf s.mem) (sid) : WfNext (execFenceCompletion sid s) := by
  unfold execFenceCompletion
  split
  · split
    · simpa using h
    · grind [State.fenceCards_mem, State.trapOn_mem, WfNext]
  · split
    · simpa using h
    · exact h
  · exact h

theorem wf_execVdrain {s : State} (h : Memory.wf s.mem) (m) : WfNext (execVdrain m s) := by
  simpa [execVdrain] using h

theorem wf_execIfence {s : State} (h : Memory.wf s.mem) : WfNext (execIfence s) := by
  unfold execIfence
  split <;> simpa using h

/-! #### Machine/Tile -/

theorem wf_tileOp {s : State} (h : Memory.wf s.mem) (w accs) {body : State → Result}
    (hb : WfNext (body s)) : WfNext (tileOp w accs body s) := by
  unfold tileOp
  split
  · simpa [State.trap] using h
  · split
    · simpa using h
    · exact hb

theorem wf_tileVecOp {s : State} (h : Memory.wf s.mem) (bad w accs) {body : State → Result}
    (hb : WfNext (body s)) : WfNext (tileVecOp bad w accs body s) := by
  unfold tileVecOp
  split
  · simpa [State.trap] using h
  · exact wf_tileOp h w accs hb

theorem wf_execTld {s : State} (h : Memory.wf s.mem) (t y z) : WfNext (execTld t y z s) := by
  unfold execTld
  grind [State.wf_takePieces, State.retire_mem, State.setMyCore_mem, wf_tileOp, State.trap_mem, WfNext, WfBoth, id]

theorem wf_execTst {s : State} (h : Memory.wf s.mem) (t y z) : WfNext (execTst t y z s) := by
  unfold execTst
  grind [State.wf_takePieces, State.wf_writePieces, State.retire_mem, wf_tileOp, State.trap_mem, WfNext, WfBoth, id]

theorem wf_execTldm {s : State} (h : Memory.wf s.mem) (t y) : WfNext (execTldm t y s) := by
  refine wf_tileOp h _ _ ?_
  dsimp only
  repeat' split
  all_goals simpa using h

theorem State.wf_writeSegment {s : State} (h : Memory.wf s.mem) (core d r x) :
    Memory.wf (s.writeSegment core d r x).mem :=
  wf_foldl (fun _ _ hs => State.wf_writePlace hs ..) h _

theorem wf_execTstm {s : State} (h : Memory.wf s.mem) (t y) : WfNext (execTstm t y s) := by
  unfold execTstm
  refine wf_tileOp h _ _ ?_
  dsimp only
  split
  · simpa using h
  · split
    · simpa using h
    · split
      · simpa using h
      · rw [WfNext, State.retire_mem]
        exact wf_foldl (fun _ _ hs => State.wf_writeSegment hs ..) h _

theorem wf_execTzero {s : State} (h : Memory.wf s.mem) (t) : WfNext (execTzero t s) :=
  wf_tileOp h _ _ (by simpa using h)

theorem wf_execTmov {s : State} (h : Memory.wf s.mem) (t src) : WfNext (execTmov t src s) := by
  unfold execTmov
  refine wf_tileOp h _ _ ?_
  dsimp only
  repeat' split
  all_goals simpa using h

theorem wf_execTtrans {s : State} (h : Memory.wf s.mem) (t src) : WfNext (execTtrans t src s) := by
  unfold execTtrans
  refine wf_tileOp h _ _ ?_
  dsimp only
  repeat' split
  all_goals simpa using h

theorem wf_execTcfg {s : State} (h : Memory.wf s.mem) (t y) : WfNext (execTcfg t y s) := by
  unfold execTcfg
  refine wf_tileOp h _ _ ?_
  dsimp only
  repeat' split
  all_goals simpa using h

/-! #### Machine/Acc -/

theorem wf_execAccz {s : State} (h : Memory.wf s.mem) (x) : WfNext (execAccz x s) :=
  wf_tileOp h _ _ (by simpa using h)

@[simp] theorem State.markPlace_mem (s : State) (p n) : (s.markPlace p n).mem = s.mem := by
  unfold markPlace
  split <;> rfl

theorem wf_execAccst {s : State} (h : Memory.wf s.mem) (x y z e) : WfNext (execAccst x y z e s) := by
  unfold execAccst
  refine wf_tileOp h _ _ ?_
  dsimp only
  split
  · simpa using h
  · split
    · simpa using h
    · have hp := State.wf_takePieces h .store 0 16 (rowPieces (s.g y) (s.g z) 64 (4 * accBytes e))
      split <;> rename_i hl <;> rw [hl] at hp
      · exact hp
      · have hw := State.wf_writePieces hp 16
        split
        · simpa [foldl_mem (fun s p => State.markPlace_mem s p 16)] using hw ..
        · simpa using hw ..

theorem wf_execAccrd {s : State} (h : Memory.wf s.mem) (x y z) : WfNext (execAccrd x y z s) := by
  refine wf_tileVecOp h _ _ _ ?_
  dsimp only
  repeat' split
  all_goals simpa using h

theorem wf_execAccwr {s : State} (h : Memory.wf s.mem) (x y z) : WfNext (execAccwr x y z s) := by
  refine wf_tileVecOp h _ _ _ ?_
  dsimp only
  repeat' split
  all_goals simpa using h

theorem wf_execAccadd {s : State} (h : Memory.wf s.mem) (x y) : WfNext (execAccadd x y s) := by
  unfold execAccadd
  refine wf_tileOp h _ _ ?_
  dsimp only
  repeat' split
  all_goals simpa using h

theorem wf_execAccscl {s : State} (h : Memory.wf s.mem) (x y) : WfNext (execAccscl x y s) := by
  unfold execAccscl
  refine wf_tileOp h _ _ ?_
  dsimp only
  repeat' split
  all_goals simpa using h

theorem wf_execTrowv {s : State} (h : Memory.wf s.mem) (x t z) : WfNext (execTrowv x t z s) := by
  refine wf_tileVecOp h _ _ _ ?_
  dsimp only
  repeat' split
  all_goals simpa using h

theorem wf_execVtrow {s : State} (h : Memory.wf s.mem) (t y z) : WfNext (execVtrow t y z s) := by
  refine wf_tileVecOp h _ _ _ ?_
  dsimp only
  repeat' split
  all_goals simpa using h

theorem wf_execTcolv {s : State} (h : Memory.wf s.mem) (x t z) : WfNext (execTcolv x t z s) := by
  refine wf_tileVecOp h _ _ _ ?_
  dsimp only
  repeat' split
  all_goals simpa using h

/-! #### Machine/Mem -/

theorem wf_loadOp {s : State} (h : Memory.wf s.mem) (n signed d base c off) :
    WfNext (loadOp n signed d base c off s) := by
  unfold loadOp
  grind [State.writeG_mem, State.stopped_mem, State.wf_resolve, State.waiting_mem, State.sendRequest_mem,
    State.trap_mem, WfNext, WfBoth]

theorem wf_storeOp {s : State} (h : Memory.wf s.mem) (n d base c off) : WfNext (storeOp n d base c off s) := by
  unfold storeOp
  grind [State.retire_mem, State.stopped_mem, State.refuseNow_mem, State.wf_resolve, State.wf_writePlace,
    State.waiting_mem, State.sendRequest_mem, State.trap_mem, WfNext, WfBoth]

theorem wf_execLoadDataReturn {s : State} (h : Memory.wf s.mem) (sid) : WfNext (execLoadDataReturn sid s) := by
  unfold execLoadDataReturn
  repeat' split
  all_goals simpa using h

/-! #### Machine/Fetch -/

@[simp] theorem State.sectorAt_mem (s : State) (p) : (s.sectorAt p).2.mem = s.mem := by
  unfold sectorAt
  split <;> rfl

theorem State.wf_fetchWord {s : State} (h : Memory.wf s.mem) (sid va) :
    WfBoth Prod.snd Prod.snd (s.fetchWord sid va) := by
  unfold fetchWord
  grind [State.sectorAt_mem, State.setCore_mem, State.wf_resolve, State.drawn_mem, WfBoth]

theorem State.wf_fetchWords {s : State} (h : Memory.wf s.mem) (sid va n) :
    WfBoth Prod.snd Prod.snd (s.fetchWords sid va n) := by
  induction n generalizing s va with
  | zero => exact h
  | succ n ih => unfold fetchWords; grind [State.wf_fetchWord, WfBoth]

/-! #### Machine/Samovar -/

@[simp] theorem State.setRecord_mem (s : State) (r) : (s.setRecord r).mem = s.mem := rfl

theorem State.wf_readShadow {s : State} (h : Memory.wf s.mem) (who a) :
    WfBoth Prod.snd Prod.snd (s.readShadow who a) := by
  unfold readShadow
  grind [State.wf_resolve, WfBoth]

theorem State.wf_storeRecordAt {s : State} (h : Memory.wf s.mem) (f r) : Memory.wf (s.storeRecordAt f r).mem := by
  unfold storeRecordAt
  grind [State.wf_writeSpan]

theorem State.wf_alightStore {s : State} (h : Memory.wf s.mem) (who cls r) :
    WfBoth Prod.snd Prod.snd (s.alightStore who cls r) := by
  unfold alightStore
  grind [State.wf_takeTurn, State.wf_storeRecordAt, State.wf_reach, State.sendRequest_mem, State.setStrand_mem,
    WfBoth, id]

@[simp] theorem State.alighted_mem (s : State) (sid d r o) : (s.alighted sid d r o).mem = s.mem := by
  unfold alighted
  split <;> rfl

theorem wf_joinRing {s : State} (h : Memory.wf s.mem) (word d a c op) : WfNext (joinRing word d a c op s) := by
  unfold joinRing
  repeat' split
  all_goals simpa using h

theorem wf_execSamCld {s : State} (h : Memory.wf s.mem) (d a c w) : WfNext (execSamCld d a c w s) := by
  unfold execSamCld
  repeat' split
  all_goals simpa using h

theorem wf_execSamCst {s : State} (h : Memory.wf s.mem) (d a b c w) : WfNext (execSamCst d a b c w s) := by
  unfold execSamCst
  repeat' split
  all_goals simpa using h

theorem wf_execSamRelease {s : State} (h : Memory.wf s.mem) (d a c) : WfNext (execSamRelease d a c s) := by
  unfold execSamRelease
  repeat' split
  all_goals simpa using h

theorem wf_execSamBoard {s : State} (h : Memory.wf s.mem) (d a b c) : WfNext (execSamBoard d a b c s) := by
  unfold execSamBoard
  grind [State.writeG_mem, State.wf_plbGrants, State.waiting_mem, State.trap_mem, WfNext]

@[simp] theorem State.withdrawBoard_mem (s : State) (domain tag) : (s.withdrawBoard domain tag).mem = s.mem := rfl

theorem wf_execBoardFill {s : State} (h : Memory.wf s.mem) (sid) : WfNext (execBoardFill sid s) := by
  unfold execBoardFill
  grind [State.withdrawBoard_mem, State.writeG_mem, State.wf_readShadow, State.trapOn_mem, State.asStrand_mem, WfNext,
    WfBoth]

theorem wf_execSamovarPassage {s : State} (h : Memory.wf s.mem) (sid) : WfNext (execSamovarPassage sid s) := by
  unfold execSamovarPassage
  split
  · next op _ _ r _ _ =>
    dsimp only
    cases op.reads with
    | some k => dsimp only; split <;> simpa using h
    | none =>
      cases op with
      | alight =>
        have ha := State.wf_alightStore h (s.actorOf sid)
        dsimp only
        grind [WfNext, WfBoth, State.trapOn_mem, State.alighted_mem]
      | _ => simpa using h
  · exact h

@[simp] theorem State.endAlight_mem (s : State) (sid d name) : (s.endAlight sid d name).mem = s.mem := rfl

theorem State.wf_finishAlight {s : State} (h : Memory.wf s.mem) (sid) : Memory.wf (s.finishAlight sid).mem := by
  unfold finishAlight
  grind [State.wf_takeTurn, State.wf_storeRecordAt, State.endAlight_mem, WfBoth, id]

theorem wf_execSamNotag {s : State} (h : Memory.wf s.mem) (sid) : WfNext (execSamNotag sid s) := by
  unfold execSamNotag
  repeat' split
  all_goals simpa using h

@[simp] theorem State.tagsSeen_mem (s : State) : s.tagsSeen.mem = s.mem := by
  refine foldl_mem (fun s sid => ?_) _ _
  dsimp only
  split
  · split <;> rfl
  · rfl

@[simp] theorem State.reenter_mem (s : State) (core) : (s.reenter core).mem = s.mem := by
  unfold reenter
  split <;> rfl

theorem wf_execRecordReentry {s : State} (h : Memory.wf s.mem) (sid) : WfNext (execRecordReentry sid s) := by
  simpa [execRecordReentry] using h

theorem wf_execCaptureMarkerClear {s : State} (h : Memory.wf s.mem) (sid) :
    WfNext (execCaptureMarkerClear sid s) := by
  simpa [execCaptureMarkerClear] using h

@[simp] theorem State.ringTurn_mem (s : State) : s.ringTurn.mem = s.mem :=
  (foldl_mem (fun s (e : Reentry) => s.reenter_mem e.core) _ _).trans s.tagsSeen_mem

theorem wf_execCaptureHoldExpiry {s : State} (h : Memory.wf s.mem) (sid) : WfNext (execCaptureHoldExpiry sid s) := by
  unfold execCaptureHoldExpiry
  repeat' split
  all_goals simpa using h

/-! #### Machine/Boundary -/

theorem State.wf_routeLoad {s : State} (h : Memory.wf s.mem) (core cls) : Memory.wf (s.routeLoad core cls).2.mem := by
  unfold routeLoad
  grind [State.wf_loadOwn]

theorem State.wf_touchRoute {s : State} (h : Memory.wf s.mem) (core cls) : Memory.wf (s.touchRoute core cls).mem := by
  unfold touchRoute
  grind [State.wf_routeLoad]

@[simp] theorem State.dropDeadline_mem (s : State) (sid) : (s.dropDeadline sid).mem = s.mem := rfl

theorem State.settle_mem {s t : State} {sid meet} (e : s.settle sid meet = some t) : t.mem = s.mem := by
  unfold settle at e
  grind [State.retire_mem, State.dropDeadline_mem, State.withdrawBoard_mem, State.writeG_mem, State.setCore_mem,
    State.setStrand_mem, State.drawn_mem, State.asStrand_mem]

theorem State.takeDue_mem {s t : State} {sid} (e : s.takeDue sid = some t) : t.mem = s.mem := by
  unfold takeDue at e
  grind [State.trapOn_mem, State.settle_mem, State.setStrand_mem]

theorem State.wf_takeCause {s : State} (h : Memory.wf s.mem) (sid cause) : WfNext (s.takeCause sid cause) := by
  unfold takeCause
  split
  · exact wf_getD h fun _ e => State.takeDue_mem e
  · exact h

theorem State.wf_passageTurn {s : State} (h : Memory.wf s.mem) (sid) : WfSomeNext (s.passageTurn sid) := by
  unfold passageTurn
  grind [wf_execBoardFill, wf_execSamovarPassage, WfSomeNext, WfNext]

theorem State.wf_ringFirst {s : State} (h : Memory.wf s.mem) (sid) : Memory.wf (s.ringFirst sid).mem := by
  have ht := State.wf_passageTurn h sid
  unfold ringFirst
  split
  · next e => rw [e] at ht; exact ht
  · exact h

theorem State.wf_quiet {s : State} (h : Memory.wf s.mem) (sid) : Memory.wf (s.quiet sid).mem := by
  unfold quiet
  grind [State.wf_ringFirst, State.releaseCapture_mem, State.settle_mem, State.setStrand_mem]

theorem State.wf_park {s : State} (h : Memory.wf s.mem) (sid) : Memory.wf (s.park sid).mem := by
  unfold park
  grind [State.wf_quiet, State.setStrand_mem]

theorem State.wf_stopStrand {s : State} (h : Memory.wf s.mem) (sid) : Memory.wf (s.stopStrand sid).mem := by
  unfold stopStrand
  grind [State.wf_quiet, State.setStrand_mem]

theorem State.wf_haltCore {s : State} (h : Memory.wf s.mem) (core) : Memory.wf (s.haltCore core).mem := by
  simpa [haltCore] using wf_foldl (fun s i hs => State.wf_quiet hs ..) h _

@[simp] theorem State.recapture_mem (s : State) (sid) : (s.recapture sid).mem = s.mem := by
  unfold recapture
  dsimp only
  split <;> simp

@[simp] theorem State.resumeCore_mem (s : State) (core) : (s.resumeCore core).mem = s.mem := by
  unfold resumeCore
  refine foldl_mem (fun s x => ?_) _ _
  simp

theorem wf_execTrapEntry {s : State} (h : Memory.wf s.mem) (sid) : WfNext (execTrapEntry sid s) :=
  wf_getD h fun _ e => State.takeDue_mem e

theorem wf_execTimer {s : State} (h : Memory.wf s.mem) (sid) : WfNext (execTimer sid s) := by
  unfold execTimer
  split <;> simpa using h

@[simp] theorem State.endSleep_mem (s : State) (sid) : (s.endSleep sid).mem = s.mem := by
  unfold endSleep
  split <;> rfl

theorem wf_execWakeCondition {s : State} (h : Memory.wf s.mem) (sid) : WfNext (execWakeCondition sid s) := by
  unfold execWakeCondition
  split <;> simpa using h

theorem wf_execPauseExpiry {s : State} (h : Memory.wf s.mem) (sid) : WfNext (execPauseExpiry sid s) := by
  unfold execPauseExpiry
  repeat' split
  all_goals simpa using h

theorem wf_execDebugHalt {s : State} (h : Memory.wf s.mem) (core) : WfNext (execDebugHalt core s) := by
  unfold execDebugHalt
  grind [State.wf_haltCore, WfNext]

theorem wf_execDebugResume {s : State} (h : Memory.wf s.mem) (core) : WfNext (execDebugResume core s) := by
  unfold execDebugResume
  split <;> simpa using h

/-! #### Machine/Alloc -/

theorem State.wf_spoilBlock {s : State} (h : Memory.wf s.mem) (b) : Memory.wf (s.spoilBlock b).mem := by
  unfold spoilBlock
  grind [State.wf_translate, State.wf_writeSpan, State.drawn_mem, WfSome]

theorem wf_execBalloc {s : State} (h : Memory.wf s.mem) (d c) : WfNext (execBalloc d c s) := by
  unfold execBalloc
  grind [State.writeG_mem, State.wf_spoilBlock, State.trap_mem, WfNext]

theorem wf_execBfree {s : State} (h : Memory.wf s.mem) (a) : WfNext (execBfree a s) := by
  unfold execBfree
  dsimp only
  repeat' split
  all_goals simpa using h

theorem wf_execBlockReturn {s : State} (h : Memory.wf s.mem) : WfNext (execBlockReturn s) := by
  unfold execBlockReturn
  repeat' split
  all_goals simpa using h

/-! #### Machine/Atomic -/

theorem State.combineAmo_mem {s t : State} {p a n op y} (e : s.combineAmo p a n op y = some t) : t.mem = s.mem := by
  unfold combineAmo at e
  split at e
  · split at e
    · have ht := State.combine_mem e
      exact ht
    · cases e
  · cases e

theorem wf_atomicOp {s : State} (h : Memory.wf s.mem) (op d a b c rl w) : WfNext (atomicOp op d a b c rl w s) := by
  unfold atomicOp
  dsimp only
  split
  · simpa using h
  · have hr := State.wf_resolve h s.actor .atomic (s.g a) (widthBytes w)
    split
    · grind [State.stopped_mem, WfNext, WfBoth]
    · next p s1 e =>
      replace hr : Memory.wf s1.mem := by rw [e] at hr; exact hr
      split
      · simpa using hr
      · split
        · grind [State.waiting_mem, State.trap_mem, State.sendRequest_mem, WfNext, WfBoth]
        · grind [State.waiting_mem, State.combineAmo_mem, State.wf_takeTurn, State.trap_mem, State.wf_writePlace,
            State.addCame_mem, State.finish_mem, State.setG_mem, WfNext, WfBoth, id]

theorem wf_execAmoResponse {s : State} (h : Memory.wf s.mem) (sid) : WfNext (execAmoResponse sid s) := by
  unfold execAmoResponse
  repeat' split
  all_goals simpa using h

/-! #### Machine/Gang -/

@[simp] theorem State.setGang_mem (s : State) (n g) : (s.setGang n g).mem = s.mem := rfl

@[simp] theorem State.leaveGang_mem (s : State) (sid) : (s.leaveGang sid).mem = s.mem := by
  unfold leaveGang
  dsimp only
  split <;> simp

@[simp] theorem State.enterGang_mem (s : State) (sid n rank size) : (s.enterGang sid n rank size).mem = s.mem := rfl

@[simp] theorem State.leaveFor_mem (s : State) (sid rank size) : (s.leaveFor sid rank size).mem = s.mem := by
  simp [State.leaveFor]

theorem State.wf_setMembership {s : State} (h : Memory.wf s.mem) (sid v) : WfEffect (s.setMembership sid v) := by
  unfold setMembership
  dsimp only
  repeat' split
  all_goals simp [h]

@[simp] theorem State.releaseAhead_mem (s : State) (sid) : (s.releaseAhead sid).mem = s.mem := by
  unfold releaseAhead
  dsimp only
  repeat' split
  all_goals simp

theorem State.wf_stopGang {s : State} (h : Memory.wf s.mem) (n issuer) : Memory.wf (s.stopGang n issuer).mem := by
  unfold stopGang
  refine wf_foldl (fun s m hs => by simpa using hs) ?_ _
  exact wf_foldl (fun s m hs => State.wf_stopStrand hs m) (by simpa using h) _

theorem State.wf_gangStopBy {s : State} (h : Memory.wf s.mem) (issuer v) : WfEffect (s.gangStopBy issuer v) := by
  unfold gangStopBy
  grind [State.wf_stopGang, WfEffect]

@[simp] theorem State.resumeGang_mem (s : State) (n) : (s.resumeGang n).mem = s.mem := by
  unfold resumeGang
  refine foldl_mem (fun s x => ?_) _ _
  dsimp only
  split <;> simp

theorem State.wf_gangResumeBy {s : State} (h : Memory.wf s.mem) (issuer v) : WfEffect (s.gangResumeBy issuer v) := by
  unfold gangResumeBy
  dsimp only
  split
  · trivial
  · simpa using h

theorem State.wf_writeGangCtl {s : State} (h : Memory.wf s.mem) (sid v) : WfEffect (s.writeGangCtl sid v) := by
  unfold writeGangCtl
  grind [State.wf_setMembership, State.wf_gangStopBy, State.wf_gangResumeBy, WfEffect]

theorem WriteEffect.wf_state {e : WriteEffect} (he : WfEffect e) {s : State} (h : Memory.wf s.mem) :
    Memory.wf (e.state s).mem := by
  cases e with
  | done | wait => exact he
  | illegal => exact h

theorem wf_execGangSetMembership {s : State} (h : Memory.wf s.mem) (v) : WfNext (execGangSetMembership v s) :=
  WriteEffect.wf_state (State.wf_setMembership h ..) h

theorem wf_execGangStop {s : State} (h : Memory.wf s.mem) (v) : WfNext (execGangStop v s) :=
  WriteEffect.wf_state (State.wf_gangStopBy h ..) h

theorem wf_execGangResume {s : State} (h : Memory.wf s.mem) (v) : WfNext (execGangResume v s) :=
  WriteEffect.wf_state (State.wf_gangResumeBy h ..) h

theorem wf_execGrank {s : State} (h : Memory.wf s.mem) (d a) : WfNext (execGrank d a s) := by
  unfold execGrank
  dsimp only
  repeat' split
  all_goals simpa using h

/-! #### Machine/Barrier -/

theorem wf_execGbar {s : State} (h : Memory.wf s.mem) (d a) : WfNext (execGbar d a s) := by
  unfold execGbar
  dsimp only
  repeat' split
  all_goals simpa using h

@[simp] theorem State.releaseMember_mem (s : State) (n rank sid) : (s.releaseMember n rank sid).mem = s.mem := by
  unfold releaseMember
  split <;> rfl

theorem wf_execBarrierPhaseComplete {s : State} (h : Memory.wf s.mem) (n) : WfNext (execBarrierPhaseComplete n s) := by
  unfold execBarrierPhaseComplete
  dsimp only
  split
  · exact h
  · split
    · exact h
    · exact wf_foldl (fun s m hs => by simpa using hs) (by simpa using h) _

theorem wf_execGbarTimeout {s : State} (h : Memory.wf s.mem) (sid) : WfNext (execGbarTimeout sid s) := by
  unfold execGbarTimeout
  dsimp only
  repeat' split
  all_goals simpa using h

@[simp] theorem State.copyTile_mem (s : State) (t bits tag cores) : (s.copyTile t bits tag cores).mem = s.mem := by
  unfold copyTile
  refine foldl_mem (fun s x => ?_) _ _
  simp

theorem wf_execGtmcast {s : State} (h : Memory.wf s.mem) (d a) : WfNext (execGtmcast d a s) := by
  unfold execGtmcast
  refine wf_tileOp h _ _ ?_
  dsimp only
  repeat' split
  all_goals simpa using h

theorem wf_execGtmcastCopiesWritten {s : State} (h : Memory.wf s.mem) (sid) :
    WfNext (execGtmcastCopiesWritten sid s) := by
  unfold execGtmcastCopiesWritten
  split <;> simpa using h

theorem wf_execSempost {s : State} (h : Memory.wf s.mem) (n) : WfNext (execSempost n s) := by
  unfold execSempost
  dsimp only
  repeat' split
  all_goals simpa using h

theorem wf_execSemwait {s : State} (h : Memory.wf s.mem) (n) : WfNext (execSemwait n s) := by
  unfold execSemwait
  dsimp only
  repeat' split
  all_goals simpa using h

theorem wf_execSemtry {s : State} (h : Memory.wf s.mem) (d n) : WfNext (execSemtry d n s) := by
  unfold execSemtry
  dsimp only
  repeat' split
  all_goals simpa using h

/-! #### Machine/Migration -/

@[simp] theorem State.dropPlb_mem (s : State) (pick) : (s.dropPlb pick).mem = s.mem := rfl

@[simp] theorem State.finishInval_mem (s : State) (tags entries) : (s.finishInval tags entries).mem = s.mem := by
  unfold finishInval
  split <;> rfl

@[simp] theorem State.sendDomains_mem (s : State) (pick) : (s.sendDomains pick).mem = s.mem := by
  unfold sendDomains
  refine foldl_mem (fun s x => ?_) _ _
  simp

theorem wf_execPlbinv {s : State} (h : Memory.wf s.mem) (a) : WfNext (execPlbinv a s) := by
  unfold execPlbinv
  dsimp only
  repeat' split
  all_goals simpa using h

@[simp] theorem State.dropTranslations_mem (s : State) (lo n) : (s.dropTranslations lo n).mem = s.mem := rfl

theorem State.wf_htinvRange {s : State} (h : Memory.wf s.mem) (lo n) : WfNext (s.htinvRange lo n) := by
  unfold htinvRange
  dsimp only
  repeat' split
  all_goals simpa using h

@[simp] theorem State.heldBack_mem (s : State) (e a) : (s.heldBack e a).mem = s.mem := by
  unfold heldBack
  split <;> simp

theorem State.wf_htinvInvalidate {s : State} (h : Memory.wf s.mem) (word v) : WfNext (s.htinvInvalidate word v) := by
  unfold htinvInvalidate
  dsimp only
  split
  · simpa using h
  · split
    · split
      · simpa using h
      · split
        · simpa using h
        · exact State.wf_htinvRange h ..
    · split
      · simpa using h
      · split <;> rename_i hr
        · simpa using (State.wf_plbRange h ..).of_error hr
        · exact State.wf_htinvRange ((State.wf_plbRange h ..).of_ok hr) ..

theorem State.wf_writeField {s : State} (h : Memory.wf s.mem) (desc at_ x) :
    Memory.wf (s.writeField desc at_ x).mem := by
  have ht := State.wf_translate h .store (desc.toNat + at_)
  unfold writeField
  split
  · exact h
  · next e =>
    rw [e] at ht
    refine wf_getD ht fun t e => ?_
    obtain ⟨⟨_, _⟩, er, rfl⟩ := Option.map_eq_some_iff.mp e
    exact State.sendRequest_mem er
  · next e => rw [e] at ht; exact State.wf_writePlace ht ..

theorem State.wf_readDescriptor {s : State} (h : Memory.wf s.mem) (desc) :
    WfBoth Prod.snd Prod.snd (s.readDescriptor desc) := by
  unfold readDescriptor
  grind [State.wf_translate, WfBoth, WfSome]

theorem State.wf_startMigration {s : State} (h : Memory.wf s.mem) (desc x) :
    Memory.wf (s.startMigration desc x).mem := by
  unfold startMigration
  grind [State.retire_mem, State.wf_writeMem, State.wf_writeField]

@[simp] theorem State.stoppedHeld_mem (s : State) (e) : (s.stoppedHeld e).mem = s.mem := by
  unfold stoppedHeld
  dsimp only
  split <;> simp

theorem State.wf_htinvMigrate {s : State} (h : Memory.wf s.mem) (word v) : WfNext (s.htinvMigrate word v) := by
  unfold htinvMigrate
  dsimp only
  split
  · simpa using h
  · split <;> rename_i hr
    · simpa using (State.wf_plbRange h ..).of_error hr
    · have h1 := (State.wf_plbRange h ..).of_ok hr
      split
      · simpa using h1
      · split <;> rename_i hd
        · simpa using (State.wf_readDescriptor h1 ..).of_error hd
        · have h2 := (State.wf_readDescriptor h1 ..).of_ok hd
          split
          · simpa using h2
          · exact State.wf_startMigration h2 ..

theorem wf_execHtinv {s : State} (h : Memory.wf s.mem) (a) : WfNext (execHtinv a s) := by
  unfold execHtinv
  grind [State.wf_htinvInvalidate, State.wf_htinvMigrate, State.trap_mem, WfNext]

theorem wf_execHtinvMigrate {s : State} (h : Memory.wf s.mem) (a) : WfNext (execHtinvMigrate a s) := by
  unfold execHtinvMigrate
  grind [State.wf_htinvMigrate, State.trap_mem, WfNext]

@[simp] theorem State.setMigration_mem (s : State) (slot m) : (s.setMigration slot m).mem = s.mem := rfl

theorem wf_execMigrationSectorCopy {s : State} (h : Memory.wf s.mem) (slot) :
    WfNext (execMigrationSectorCopy slot s) := by
  unfold execMigrationSectorCopy
  dsimp only
  split
  · exact h
  · split
    · exact h
    · simpa using State.wf_writeUnder h ..

theorem wf_execMigrationComplete {s : State} (h : Memory.wf s.mem) (slot) :
    WfNext (execMigrationComplete slot s) := by
  unfold execMigrationComplete
  grind [State.wf_writeMem, State.setMigration_mem, State.wf_writeField, WfNext]

theorem wf_execPlbFill {s : State} (h : Memory.wf s.mem) (sid va) : WfNext (execPlbFill sid va s) := by
  unfold execPlbFill
  grind [State.wf_plbLookup, WfNext]

theorem wf_execTranslationWalk {s : State} (h : Memory.wf s.mem) (kind va) :
    WfNext (execTranslationWalk kind va s) := by
  unfold execTranslationWalk
  grind [State.wf_translation, WfNext, WfSome]

/-! #### Machine/Csr -/

@[simp] theorem State.writeAgeMax_mem (s : State) (domain v) : (s.writeAgeMax domain v).mem = s.mem := by
  unfold writeAgeMax
  refine foldl_mem (fun s x => ?_) _ _
  simp

theorem State.wf_csrStore {s : State} (h : Memory.wf s.mem) (sid n v) : WfEffect (s.csrStore sid n v) := by
  unfold csrStore
  dsimp only
  split
  case h_15 => split <;> exact h
  case h_21 => simpa using h
  case h_28 => exact State.wf_writeGangCtl h ..
  case h_29 => split <;> exact h
  all_goals exact h

theorem wf_csrOp {s : State} (h : Memory.wf s.mem) (op f d a n) : WfNext (csrOp op f d a n s) := by
  unfold csrOp
  grind [State.writeG_mem, State.wf_csrStore, State.waiting_mem, State.trap_mem, WfNext, WfEffect]

theorem wf_execStatus {s : State} (h : Memory.wf s.mem) (v) : WfNext (execStatus v s) :=
  WriteEffect.wf_state (State.wf_csrStore h ..) h

theorem wf_execTileOwner {s : State} (h : Memory.wf s.mem) (v) : WfNext (execTileOwner v s) :=
  WriteEffect.wf_state (State.wf_csrStore h ..) h

theorem wf_execTtags {s : State} (h : Memory.wf s.mem) (v) : WfNext (execTtags v s) :=
  WriteEffect.wf_state (State.wf_csrStore h ..) h

theorem wf_execAtags {s : State} (h : Memory.wf s.mem) (v) : WfNext (execAtags v s) := by
  unfold execAtags
  split
  · exact h
  · exact WriteEffect.wf_state (State.wf_csrStore h ..) h

theorem wf_execSteepAgeMax {s : State} (h : Memory.wf s.mem) (v) : WfNext (execSteepAgeMax v s) :=
  WriteEffect.wf_state (State.wf_csrStore h ..) h

theorem wf_execVl {s : State} (h : Memory.wf s.mem) (v) : WfNext (execVl v s) :=
  WriteEffect.wf_state (State.wf_csrStore h ..) h

theorem wf_execVhwe {s : State} (h : Memory.wf s.mem) (n v) : WfNext (execVhwe n v s) :=
  WriteEffect.wf_state (State.wf_csrStore h ..) h

theorem wf_execFflags {s : State} (h : Memory.wf s.mem) (op v) : WfNext (execFflags op v s) := by
  unfold execFflags
  split
  · exact h
  · dsimp only
    split
    · exact WriteEffect.wf_state (State.wf_csrStore h ..) h
    · exact WriteEffect.wf_state (State.wf_csrStore h ..) h
    · exact WriteEffect.wf_state (State.wf_csrStore h ..) h
    · exact h

theorem State.wf_writeDbgCtl {s : State} (h : Memory.wf s.mem) (v) : Memory.wf (s.writeDbgCtl v).mem := by
  unfold writeDbgCtl
  grind [State.wf_haltCore, State.resumeCore_mem, State.setCore_mem]

theorem wf_execCsrWrite {s : State} (h : Memory.wf s.mem) (csr v) : WfNext (execCsrWrite csr v s) := by
  unfold execCsrWrite
  dsimp only
  split
  · exact State.wf_writeDbgCtl h ..
  · split
    · exact h
    · split
      · exact h
      · exact WriteEffect.wf_state (State.wf_csrStore h ..) h

/-! #### Machine/Errors -/

@[simp] theorem State.logError_mem (s : State) (unit event place) : (s.logError unit event place).mem = s.mem := rfl

@[simp] theorem State.raiseCheck_mem (s : State) (unit index sid) : (s.raiseCheck unit index sid).mem = s.mem := rfl

@[simp] theorem State.spoilV_mem (s : State) (sid n) : (s.spoilV sid n).mem = s.mem := rfl

@[simp] theorem State.spoilCapture_mem (s : State) (sid) : (s.spoilCapture sid).mem = s.mem := by
  unfold spoilCapture
  split <;> rfl

theorem State.wf_spoilNamed {s : State} (h : Memory.wf s.mem) (sid n v) : Memory.wf (s.spoilNamed sid n v).mem := by
  unfold spoilNamed
  dsimp only
  split
  case h_7 => exact WriteEffect.wf_state (State.wf_csrStore h ..) h
  all_goals exact h

theorem State.wf_spoilCsr {s : State} (h : Memory.wf s.mem) (sid) : Memory.wf (s.spoilCsr sid).mem := by
  unfold spoilCsr
  grind [State.drawn_mem, State.wf_spoilNamed]

theorem State.wf_spoil {s : State} (h : Memory.wf s.mem) (sid unit index) :
    Memory.wf (s.spoil sid unit index).mem := by
  unfold spoil
  grind [State.wf_spoilCsr, State.setCore_mem, State.setStrand_mem, State.drawn_mem, State.spoilCapture_mem,
    State.spoilV_mem]

theorem wf_execMachineCheck {s : State} (h : Memory.wf s.mem) (sid unit index) :
    WfNext (execMachineCheck sid unit index s) := by
  unfold execMachineCheck
  split
  · exact h
  · split
    · simpa using h
    · exact wf_foldl (fun s i hs => by simpa using hs) (State.wf_spoil h ..) _

theorem wf_execThermalTrip {s : State} (h : Memory.wf s.mem) : WfNext (execThermalTrip s) := by
  unfold execThermalTrip
  generalize allStrands = l
  exact wf_foldl (fun s i hs => by simpa using hs) h l

@[simp] theorem State.markEntry_mem (s : State) (n) : (s.markEntry n).mem = s.mem := rfl

@[simp] theorem State.markRecord_mem (s : State) (domain tag word) : (s.markRecord domain tag word).mem = s.mem := rfl

@[simp] theorem State.markMessage_mem (s : State) (core num) : (s.markMessage core num).mem = s.mem := by
  unfold markMessage
  dsimp only
  repeat' split
  all_goals simp

theorem wf_execPoisonMark {s : State} (h : Memory.wf s.mem) (where_) : WfNext (execPoisonMark where_ s) := by
  unfold execPoisonMark
  split <;> simpa using h

theorem wf_execSoftErrorCorrected {s : State} (h : Memory.wf s.mem) (unit place) :
    WfNext (execSoftErrorCorrected unit place s) := by
  simpa [execSoftErrorCorrected] using h

/-! #### Machine/Group -/

theorem State.wf_touchRights {s : State} (h : Memory.wf s.mem) (p domain) :
    Memory.wf (s.touchRights p domain).mem := by
  unfold touchRights
  grind [State.wf_loadOwn]

@[simp] theorem State.addLaunch_mem (s : State) (gang domain h owner) :
    (s.addLaunch gang domain h owner).2.mem = s.mem := rfl

@[simp] theorem State.setLaunch_mem (s : State) (l) : (s.setLaunch l).mem = s.mem := rfl

theorem State.wf_readBlocks {s : State} (h : Memory.wf s.mem) (who a n) :
    WfBoth Prod.snd Prod.snd (s.readBlocks who a n) := by
  induction n generalizing s a with
  | zero => exact h
  | succ n ih => unfold readBlocks; grind [State.wf_readBlock, WfBoth]

theorem State.wf_present {s : State} (h : Memory.wf s.mem) (x foot) : Memory.wf (s.present x foot).2.mem := by
  unfold present
  grind [State.addLaunch_mem, State.wf_touchRights]

theorem wf_execLaunch {s : State} (h : Memory.wf s.mem) (d a) : WfNext (execLaunch d a s) := by
  unfold execLaunch
  grind [State.writeG_mem, State.wf_present, State.wf_readBlock, State.wf_readBlocks, State.stopped_mem,
    State.flushAll_mem, State.waiting_mem, State.trap_mem, WfNext, WfBoth]

@[simp] theorem State.dropNotes_mem (s : State) (sid k regions) : (s.dropNotes sid k regions).mem = s.mem := rfl

@[simp] theorem State.spoilBuffers_mem (s : State) (sid k regions) : (s.spoilBuffers sid k regions).mem = s.mem := by
  unfold spoilBuffers
  refine foldl_mem (fun s x => ?_) _ _
  simp

@[simp] theorem State.assign_mem (s : State) (l w sid) : (s.assign l w sid).mem = s.mem := rfl

theorem wf_execGroupAssign {s : State} (h : Memory.wf s.mem) (launch) : WfNext (execGroupAssign launch s) := by
  unfold execGroupAssign
  dsimp only
  repeat' split
  all_goals simpa using h

theorem State.wf_fetchRows {s : State} (hs : Memory.wf s.mem) (sid h w k r done m n) :
    Memory.wf (s.fetchRows sid h w k r done m n).1.mem := by
  induction n generalizing s done m with
  | zero => exact hs
  | succ n ih => unfold fetchRows; grind [State.wf_moveRow]

theorem State.wf_fetchRegions {s : State} (hs : Memory.wf s.mem) (sid h w k l skip done m) :
    Memory.wf (s.fetchRegions sid h w k l skip done m).1.mem := by
  induction l generalizing s skip done m with
  | nil => exact hs
  | cons r t ih => unfold fetchRegions; grind [State.wf_fetchRows]

@[simp] theorem State.setAhead_mem (s : State) (sid a) : (s.setAhead sid a).mem = s.mem := rfl

@[simp] theorem State.askFoot_mem (s : State) (sid a dev pa n) : (s.askFoot sid a dev pa n).mem = s.mem := by
  unfold askFoot
  split <;> grind [State.sendRequest_mem, State.setAhead_mem]

theorem wf_execFootprintFetchComplete {s : State} (h : Memory.wf s.mem) (sid) :
    WfNext (execFootprintFetchComplete sid s) := by
  unfold execFootprintFetchComplete
  grind [State.wf_fetchRegions, State.dropNotes_mem, State.askFoot_mem, State.spoilBuffers_mem, State.setAhead_mem,
    WfNext]

theorem wf_execGnext {s : State} (h : Memory.wf s.mem) (d a) : WfNext (execGnext d a s) := by
  unfold execGnext
  dsimp only
  repeat' split
  all_goals simpa using h

theorem wf_execGfield {s : State} (h : Memory.wf s.mem) (d f) : WfNext (execGfield d f s) := by
  unfold execGfield
  repeat' split
  all_goals simpa using h

@[simp] theorem State.retireMine_mem (s : State) (id w) : (s.retireMine id w).mem = s.mem := by
  unfold retireMine
  split <;> rfl

@[simp] theorem State.tryDone_mem (s : State) (id w) : (s.tryDone id w).mem = s.mem := by
  unfold tryDone
  split <;> grind [State.retireMine_mem, State.serveStopped_mem, State.flushAll_mem, State.waiting_mem,
    State.trap_mem]

theorem wf_execGdone {s : State} (h : Memory.wf s.mem) : WfNext (execGdone s) := by
  unfold execGdone
  split <;> simpa using h

theorem wf_execGroupRetire {s : State} (h : Memory.wf s.mem) (sid) : WfNext (execGroupRetire sid s) := by
  unfold execGroupRetire
  dsimp only
  repeat' split
  all_goals simpa using h

theorem wf_execLwait {s : State} (h : Memory.wf s.mem) (d a) : WfNext (execLwait d a s) := by
  unfold execLwait
  grind [State.writeG_mem, State.waiting_mem, WfNext]

@[simp] theorem State.copyNotes_mem (s : State) (src dst k k' a regions) :
    (s.copyNotes src dst k k' a regions).mem = s.mem := by
  unfold copyNotes
  split <;> rfl

@[simp] theorem State.copyBuffers_mem (s : State) (src dst k k' regions) :
    (s.copyBuffers src dst k k' regions).mem = s.mem := by
  unfold copyBuffers
  refine foldl_mem (fun s x => ?_) _ _
  simp

@[simp] theorem State.unassign_mem (s : State) (sid a) : (s.unassign sid a).mem = s.mem := by
  unfold unassign
  dsimp only
  split <;> simp

@[simp] theorem State.reassignAhead_mem (s : State) (sid a l) : (s.reassignAhead sid a l).mem = s.mem := by
  unfold reassignAhead
  dsimp only
  repeat' split
  all_goals simp

@[simp] theorem State.reassignDue_mem (s : State) (sid) : (s.reassignDue sid).mem = s.mem := by
  unfold reassignDue
  dsimp only
  repeat' split
  all_goals simp

theorem wf_execReassign {s : State} (h : Memory.wf s.mem) (sid) : WfNext (execReassign sid s) := by
  simpa [execReassign] using h

@[simp] theorem State.abortLaunch_mem (s : State) (l) : (s.abortLaunch l).mem = s.mem := by
  unfold abortLaunch
  refine foldl_mem (fun s x => ?_) _ _
  simp

/-! #### Machine/Queue -/

theorem State.wf_svcPart {s : State} (h : Memory.wf s.mem) (list a n) : WfBoth id Prod.snd (s.svcPart list a n) := by
  unfold svcPart
  grind [State.wf_loadOwn, WfBoth, id]

theorem State.wf_svcRead {s : State} (h : Memory.wf s.mem) (list a n) : WfBoth id Prod.snd (s.svcRead list a n) := by
  unfold svcRead
  grind [State.wf_svcPart, WfBoth, id]

theorem State.wf_svcPlace {s : State} (h : Memory.wf s.mem) (list a) : WfBoth id Prod.snd (s.svcPlace list a) := by
  unfold svcPlace
  grind [State.wf_translate, WfBoth, id, WfSome]

theorem State.wf_svcWrite {s : State} (h : Memory.wf s.mem) (list a n x) : WfBoth id id (s.svcWrite list a n x) := by
  unfold svcWrite
  grind [State.wf_writeSpan, State.wf_svcPlace, WfBoth, id]

theorem State.wf_svcNeed {s : State} (h : Memory.wf s.mem) (list a n) :
    WfBoth (fun x => x.2.2) Prod.snd (s.svcNeed list a n) := by
  unfold svcNeed
  grind [State.wf_svcRead, WfBoth, id]

theorem State.wf_hostWrite {s : State} (h : Memory.wf s.mem) (a n x) : WfSome id (s.hostWrite a n x) := by
  unfold hostWrite
  grind [State.wf_writeMem, WfSome, id]

@[simp] theorem State.setQueue_mem (s : State) (q x) : (s.setQueue q x).mem = s.mem := rfl

theorem State.wf_ringRead {s : State} (h : Memory.wf s.mem) (o a n) : WfBoth id Prod.snd (s.ringRead o a n) := by
  unfold ringRead
  grind [State.wf_svcRead, WfBoth, id]

theorem State.wf_ringWrite {s : State} (h : Memory.wf s.mem) (o a n x) : WfBoth id id (s.ringWrite o a n x) := by
  unfold ringWrite
  grind [State.wf_hostWrite, State.wf_svcWrite, WfBoth, id, WfSome]

theorem State.wf_fetchFrames {s : State} (h : Memory.wf s.mem) (x at_ n) :
    Memory.wf (s.fetchFrames x at_ n).2.mem := by
  induction n generalizing s at_ with
  | zero => exact h
  | succ n ih => unfold fetchFrames; grind [State.wf_ringRead, WfBoth, id]

@[simp] theorem State.peerFrame_mem (s : State) (q dev) : (s.peerFrame q dev).mem = s.mem := rfl

theorem wf_execSqPoll {s : State} (h : Memory.wf s.mem) (q) : WfNext (execSqPoll q s) := by
  unfold execSqPoll
  grind [State.setQueue_mem, State.peerFrame_mem, State.wf_fetchFrames, State.wf_ringRead, WfNext, WfBoth, id]

@[simp] theorem State.complete_mem (s : State) (q c) : (s.complete q c).mem = s.mem := by
  unfold complete
  dsimp only
  split <;> simp

theorem State.wf_ringRoom {s : State} (h : Memory.wf s.mem) (x) : WfBoth id id (s.ringRoom x) := by
  unfold ringRoom
  grind [State.wf_ringRead, WfBoth, id]

theorem State.wf_ringPost {s : State} (h : Memory.wf s.mem) (x c) : WfBoth id id (s.ringPost x c) := by
  unfold ringPost
  grind [State.wf_ringWrite, State.wf_ringRoom, WfBoth, id]

theorem State.wf_postCompletion {s : State} (h : Memory.wf s.mem) (q) : WfSome id (s.postCompletion q) := by
  unfold postCompletion
  grind [State.setQueue_mem, State.wf_ringPost, WfSome, id, WfBoth]

theorem wf_execCompletionPost {s : State} (h : Memory.wf s.mem) (q) : WfNext (execCompletionPost q s) := by
  have hp := State.wf_postCompletion h q
  unfold execCompletionPost
  cases e : s.postCompletion q with
  | none => exact h
  | some t => rw [e] at hp; exact hp

@[simp] theorem State.acceptQpd_mem (s : State) : s.acceptQpd.mem = s.mem := by
  unfold acceptQpd
  dsimp only
  repeat' split
  all_goals simp

theorem wf_execQpdPost {s : State} (h : Memory.wf s.mem) (qpd) : WfNext (execQpdPost qpd s) := by
  unfold execQpdPost
  repeat' split
  all_goals simpa using h

@[simp] theorem State.disownHost_mem (s : State) : s.disownHost.mem = s.mem := rfl

theorem wf_execFunctionLevelReset {s : State} (h : Memory.wf s.mem) : WfNext (execFunctionLevelReset s) := by
  simpa [execFunctionLevelReset] using h

theorem State.wf_frameRead {s : State} (h : Memory.wf s.mem) (q f a n) :
    WfBoth id Prod.snd (s.frameRead q f a n) := by
  unfold frameRead
  grind [State.wf_svcRead, State.wf_ringRead, WfBoth, id]

theorem State.wf_frameWrite {s : State} (h : Memory.wf s.mem) (q f a n x) :
    WfBoth id id (s.frameWrite q f a n x) := by
  unfold frameWrite
  grind [State.wf_ringWrite, State.wf_svcWrite, WfBoth, id]

theorem State.wf_touchTenant {s : State} (h : Memory.wf s.mem) (f) : Memory.wf (s.touchTenant f).mem := by
  unfold touchTenant
  grind [State.wf_touchRights]

theorem FrameEnd.wf_state {e : FrameEnd} (h : WfEnd e) (q f now) : Memory.wf (e.state q f now).mem := by
  cases e <;> simpa [FrameEnd.state] using h

/-- The handling of a frame keeps what its body keeps. -/
theorem State.wf_handle {s : State} (h : Memory.wf s.mem) (q f argsOk) {body : State → FrameEnd}
    (hb : ∀ t, Memory.wf t.mem → WfEnd (body t)) : WfEnd (s.handle q f argsOk body) := by
  unfold handle
  grind [State.wf_touchTenant, WfEnd]

theorem State.wf_startFrame {s : State} (h : Memory.wf s.mem) (q f argsOk) {body : State → FrameEnd}
    (hb : ∀ t, Memory.wf t.mem → WfEnd (body t)) : Memory.wf (s.startFrame q f argsOk body).mem := by
  unfold startFrame
  split
  · exact FrameEnd.wf_state (State.wf_handle (by simpa using h) q f argsOk hb) ..
  · exact h

theorem State.wf_serveAgain {s : State} (h : Memory.wf s.mem) (w) {go : State → FrameEnd}
    (hb : ∀ t, Memory.wf t.mem → WfEnd (go t)) : Memory.wf (s.serveAgain w go).mem := by
  unfold serveAgain
  exact FrameEnd.wf_state (hb _ (by exact h)) ..

theorem wf_execRetry {s : State} (h : Memory.wf s.mem) (q) : WfNext (execRetry q s) := by
  unfold execRetry
  dsimp only
  split
  · exact h
  · split
    · exact wf_foldl (fun s f hs => by simpa using hs) (by simpa using h) _
    · exact h

/-! #### Machine/Requests -/

theorem State.wf_landEntries {s : State} (h : Memory.wf s.mem) (core) : Memory.wf (s.landEntries core).mem := by
  unfold landEntries
  exact wf_foldl (fun s e hs => State.wf_performEntry hs e) (by exact h) _

theorem State.wf_setCarve {s : State} (h : Memory.wf s.mem) (carve core) : Memory.wf (s.setCarve carve core).mem := by
  unfold setCarve
  grind [State.wf_landEntries, State.setCore_mem]

theorem State.wf_claimRoute {s : State} (h : Memory.wf s.mem) (list at_ domain) :
    WfBoth id id (s.claimRoute list at_ domain) := by
  unfold claimRoute
  grind [State.wf_svcRead, State.wf_svcWrite, WfBoth, id]

theorem State.wf_claimRoutes {s : State} (h : Memory.wf s.mem) (list table domain) :
    WfBoth id id (s.claimRoutes list table domain) := by
  refine List.foldlRecOn (motive := WfBoth id id) _ _ h fun o ho i _ => ?_
  cases o with
  | error e => exact ho
  | ok t => exact State.wf_claimRoute ho ..

@[simp] theorem State.startStrand_mem (s : State) (r domain i sid) : (s.startStrand r domain i sid).mem = s.mem := by
  unfold startStrand
  split <;> simp

theorem State.wf_startAll {s : State} (h : Memory.wf s.mem) (plist r domain) :
    WfBoth id id (s.startAll plist r domain) := by
  have hc : WfBoth id id (if BitVec.ofNat 64 (cardField r 0x18 8) = 0 then .ok s
      else s.claimRoutes plist (BitVec.ofNat 64 (cardField r 0x18 8)) domain) := by
    split
    · exact h
    · exact State.wf_claimRoutes h ..
  unfold startAll
  dsimp only
  split <;> rename_i e <;> rw [e] at hc
  · exact hc
  · refine wf_foldl (fun s q hs => by simpa using hs) (wf_foldl (fun s c hs => ?_) hc _) _
    split
    · exact State.wf_setCarve hs ..
    · simpa using State.wf_setCarve hs ..

theorem wf_startGo {s : State} (h : Memory.wf s.mem) (f r) : WfEnd (startGo f r s) := by
  unfold startGo
  grind [State.wf_startAll, WfEnd, WfBoth, id]

theorem wf_startBody {s : State} (h : Memory.wf s.mem) (f) : WfEnd (startBody f s) := by
  unfold startBody
  grind [State.wf_svcRead, wf_startGo, WfEnd, WfBoth, id]

theorem wf_execStart {s : State} (h : Memory.wf s.mem) (q f) : WfNext (execStart q f s) := by
  unfold execStart
  grind [State.wf_serveAgain, State.wf_startFrame, wf_startGo, wf_startBody, WfNext, WfEnd]

theorem State.wf_svcBlocks {s : State} (h : Memory.wf s.mem) (list a n) :
    WfBoth (fun x => x.2.2) Prod.snd (s.svcBlocks list a n) := by
  induction n generalizing s a with
  | zero => exact h
  | succ n ih => unfold svcBlocks; grind [State.wf_svcNeed, WfBoth]

theorem State.wf_svcHeader {s : State} (h : Memory.wf s.mem) (list a) :
    WfBoth (fun x => x.2.2) Prod.snd (s.svcHeader list a) := by
  unfold svcHeader
  grind [State.wf_svcBlocks, State.wf_svcNeed, WfBoth]

theorem wf_launchFrameBody {s : State} (h : Memory.wf s.mem) (q f) : WfEnd (launchFrameBody q f s) := by
  unfold launchFrameBody
  grind [State.addLaunch_mem, State.wf_svcHeader, WfEnd, WfBoth]

theorem wf_execLaunchFrame {s : State} (h : Memory.wf s.mem) (q f) : WfNext (execLaunchFrame q f s) := by
  unfold execLaunchFrame
  grind [wf_launchFrameBody, State.wf_startFrame, WfNext, WfEnd]

theorem State.wf_readNodes {s : State} (h : Memory.wf s.mem) (list at_ j n) :
    WfBoth (fun x => x.2.2) Prod.snd (s.readNodes list at_ j n) := by
  induction n generalizing s at_ j with
  | zero => exact h
  | succ n ih => unfold readNodes; grind [State.wf_svcNeed, State.wf_svcHeader, WfBoth]

theorem wf_replayBody {s : State} (h : Memory.wf s.mem) (q f) : WfEnd (replayBody q f s) := by
  unfold replayBody
  grind [State.wf_svcRead, State.wf_readNodes, WfEnd, WfBoth, id]

theorem wf_execReplay {s : State} (h : Memory.wf s.mem) (q f) : WfNext (execReplay q f s) := by
  unfold execReplay
  grind [wf_replayBody, State.wf_startFrame, WfNext, WfEnd]

@[simp] theorem State.setReplay_mem (s : State) (r) : (s.setReplay r).mem = s.mem := rfl

@[simp] theorem State.endReplay_mem (s : State) (r) : (s.endReplay r).mem = s.mem := by
  unfold endReplay
  split <;> simp

theorem wf_execReplayNodeLaunch {s : State} (h : Memory.wf s.mem) (replay node) :
    WfNext (execReplayNodeLaunch replay node s) := by
  unfold execReplayNodeLaunch
  split <;> grind [State.setReplay_mem, State.addLaunch_mem, State.endReplay_mem, State.wf_touchRights, WfNext]

theorem wf_execLaunchFrameCompletion {s : State} (h : Memory.wf s.mem) (launch) :
    WfNext (execLaunchFrameCompletion launch s) := by
  unfold execLaunchFrameCompletion
  dsimp only
  repeat' split
  all_goals simpa using h

theorem wf_patchBody {s : State} (h : Memory.wf s.mem) (f) : WfEnd (patchBody f s) := by
  unfold patchBody
  grind [State.wf_svcRead, State.wf_svcWrite, WfEnd, WfBoth, id]

theorem wf_execPatch {s : State} (h : Memory.wf s.mem) (q f) : WfNext (execPatch q f s) := by
  unfold execPatch
  grind [wf_patchBody, State.wf_startFrame, WfNext, WfEnd]

theorem wf_abortBody {s : State} (h : Memory.wf s.mem) (f) : WfEnd (abortBody f s) := by
  unfold abortBody
  repeat' split
  all_goals simpa using h

theorem wf_execAbort {s : State} (h : Memory.wf s.mem) (q f) : WfNext (execAbort q f s) := by
  unfold execAbort
  grind [State.wf_startFrame, wf_abortBody, WfNext, WfEnd]

theorem State.wf_askRerun {s : State} (h : Memory.wf s.mem) (sid rows m dev pa n) :
    WfEnd (s.askRerun sid rows m dev pa n) := by
  unfold askRerun
  grind [State.sendRequest_mem, WfEnd]

theorem wf_rerunNow {s : State} (h : Memory.wf s.mem) (f l w rows m) : WfEnd (rerunNow f l w rows m s) := by
  unfold rerunNow
  grind [State.wf_fetchRegions, State.wf_askRerun, State.setStrand_mem, WfEnd]

theorem wf_rerunBody {s : State} (h : Memory.wf s.mem) (f rows m) : WfEnd (rerunBody f rows m s) := by
  unfold rerunBody
  grind [wf_rerunNow, WfEnd]

theorem wf_execRerun {s : State} (h : Memory.wf s.mem) (q f) : WfNext (execRerun q f s) := by
  unfold execRerun
  grind [State.wf_serveAgain, wf_rerunBody, State.wf_startFrame, WfNext, WfEnd]

theorem State.wf_badControl {s : State} (h : Memory.wf s.mem) (q f) : Memory.wf (s.badControl q f).mem :=
  State.wf_startFrame h q f _ fun _ ht => ht

theorem wf_notifyBody {s : State} (h : Memory.wf s.mem) (f) : WfEnd (notifyBody f s) := by
  unfold notifyBody
  dsimp only
  repeat' split
  all_goals simpa using h

theorem wf_execNotify {s : State} (h : Memory.wf s.mem) (q f) : WfNext (execNotify q f s) := by
  unfold execNotify
  grind [wf_notifyBody, State.wf_startFrame, WfNext, WfEnd]

/-! #### Machine/VecConfig -/

theorem wf_execVcfg {s : State} (h : Memory.wf s.mem) (d a i) : WfNext (execVcfg d a i s) := by
  unfold execVcfg
  split <;> simpa using h

theorem wf_execVsetl {s : State} (h : Memory.wf s.mem) (d a w) : WfNext (execVsetl d a w s) := by
  unfold execVsetl
  dsimp only
  repeat' split
  all_goals simpa using h

theorem wf_execVacq {s : State} (h : Memory.wf s.mem) (d a) : WfNext (execVacq d a s) := by
  simpa [execVacq] using h

theorem wf_execVrelease {s : State} (h : Memory.wf s.mem) : WfNext (execVrelease s) := by
  unfold execVrelease
  split <;> simpa using h

theorem wf_execVgettag {s : State} (h : Memory.wf s.mem) (d a) : WfNext (execVgettag d a s) := by
  simpa [execVgettag] using h

/-! #### Machine/Service -/

theorem State.wf_dbgWrite {s : State} (h : Memory.wf s.mem) (sid file i v) :
    Memory.wf (s.dbgWrite sid file i v).mem := by
  unfold dbgWrite
  dsimp only
  split
  case h_8 =>
    rw [State.asStrand_mem]
    split
    · exact WriteEffect.wf_state (State.wf_csrStore (by exact h) ..) h
    · exact h
  case h_10 => exact h
  all_goals split <;> exact h

theorem wf_execDbgData {s : State} (h : Memory.wf s.mem) (v) : WfNext (execDbgData v s) := by
  unfold execDbgData
  grind [State.wf_dbgWrite, WfNext]

@[simp] theorem State.setCaps_mem (s : State) (core vl m) : (s.setCaps core vl m).mem = s.mem := rfl

theorem wf_execKettleCtl {s : State} (h : Memory.wf s.mem) (v) : WfNext (execKettleCtl v s) := by
  unfold execKettleCtl
  dsimp only
  split
  · exact h
  · exact wf_foldl (g := fun s c => s.setCaps c _ _) (fun s c hs => by simpa using hs) (by exact h) allCores

theorem wf_execKettleAdjust {s : State} (h : Memory.wf s.mem) (cluster vlStep mStep) :
    WfNext (execKettleAdjust cluster vlStep mStep s) := by
  unfold execKettleAdjust
  split
  · dsimp only [WfNext]
    exact wf_foldl (fun s c hs => by simpa using hs) h _
  · exact h

theorem wf_execSvcMode {s : State} (h : Memory.wf s.mem) (v) : WfNext (execSvcMode v s) := by
  simpa [execSvcMode] using h

@[simp] theorem State.setSamQuota_mem (s : State) (domain v) : (s.setSamQuota domain v).mem = s.mem := rfl

@[simp] theorem State.setPinQuota_mem (s : State) (domain v) : (s.setPinQuota domain v).mem = s.mem := rfl

@[simp] theorem State.writeSamQuota_mem (s : State) (v) : (s.writeSamQuota v).mem = s.mem := rfl

@[simp] theorem State.writePinQuota_mem (s : State) (v) : (s.writePinQuota v).mem = s.mem := rfl

theorem wf_execSamQuotaSet {s : State} (h : Memory.wf s.mem) (v) : WfNext (execSamQuotaSet v s) := by
  simpa [execSamQuotaSet] using h

theorem wf_execPinQuotaSet {s : State} (h : Memory.wf s.mem) (v) : WfNext (execPinQuotaSet v s) := by
  simpa [execPinQuotaSet] using h

/-! #### Machine/Services -/

theorem State.wf_drained {s : State} (h : Memory.wf s.mem) (tags entries result) :
    WfEnd (s.drained tags entries result) := by
  unfold drained
  split
  · exact h
  · exact wf_foldl (fun s d hs => by simpa using hs) h _

theorem State.wf_dropRights {s : State} (h : Memory.wf s.mem) (pick result) : WfEnd (s.dropRights pick result) := by
  unfold dropRights
  grind [State.dropPlb_mem, State.sendDomains_mem, State.wf_drained, WfEnd]

theorem wf_memoryFrame {s : State} (h : Memory.wf s.mem) (svc q f rsvOk) {body : State → FrameEnd}
    (hb : ∀ t, Memory.wf t.mem → WfEnd (body t)) : WfNext (memoryFrame svc q f rsvOk body s) := by
  unfold memoryFrame
  split
  · exact h
  · split
    · exact State.wf_serveAgain h _ fun t ht => State.wf_drained ht ..
    · exact State.wf_startFrame h _ _ _ hb

theorem State.wf_badService {s : State} (h : Memory.wf s.mem) (q f) : Memory.wf (s.badService q f).mem :=
  State.wf_startFrame h q f _ fun _ ht => ht

theorem State.wf_badKind {s : State} (h : Memory.wf s.mem) (q f) : Memory.wf (s.badKind q f).mem :=
  State.wf_startFrame h q f _ fun _ ht => ht

theorem State.wf_domainLists {s : State} (h : Memory.wf s.mem) (p d) : Memory.wf (s.domainLists p d).2.mem :=
  List.foldlRecOn (motive := fun acc : List (List (BitVec 128)) × State => Memory.wf acc.2.mem) _ _ h
    fun _ hs _ _ => State.wf_readRights hs ..

theorem wf_arenaBody {s : State} (h : Memory.wf s.mem) (q f) : WfEnd (arenaBody q f s) := by
  unfold arenaBody
  grind [State.wf_domainLists, WfEnd]

theorem wf_execArena {s : State} (h : Memory.wf s.mem) (q f) : WfNext (execArena q f s) := by
  unfold execArena
  grind [wf_memoryFrame, wf_arenaBody, WfNext, WfEnd]

theorem wf_keyBody {s : State} (h : Memory.wf s.mem) (q f) : WfEnd (keyBody q f s) := by
  unfold keyBody
  grind [State.wf_frameRead, WfEnd, WfBoth, id]

theorem wf_execKey {s : State} (h : Memory.wf s.mem) (q f) : WfNext (execKey q f s) := by
  unfold execKey
  grind [wf_keyBody, wf_memoryFrame, WfNext, WfEnd]

theorem wf_quotaBody {s : State} (h : Memory.wf s.mem) (q f) : WfEnd (quotaBody q f s) := by
  unfold quotaBody
  dsimp only
  repeat' split
  all_goals simpa using h

theorem wf_execQuota {s : State} (h : Memory.wf s.mem) (q f) : WfNext (execQuota q f s) := by
  unfold execQuota
  grind [wf_memoryFrame, wf_quotaBody, WfNext, WfEnd]

theorem State.wf_readList {s : State} (h : Memory.wf s.mem) (at_ n) :
    WfBoth id Prod.snd (s.readList at_ n) := by
  induction n generalizing s at_ with
  | zero => exact h
  | succ n ih => unfold readList; grind [State.wf_svcRead, WfBoth, id]

theorem State.wf_localQueue {s : State} (h : Memory.wf s.mem) (num lqp) :
    WfBoth (fun x => x.2.2) Prod.snd (s.localQueue num lqp) := by
  unfold localQueue
  grind [State.wf_svcNeed, WfBoth]

@[simp] theorem State.installPartition_mem (s : State) (p lq) : (s.installPartition p lq).mem = s.mem := by
  unfold installPartition
  split <;> rfl

@[simp] theorem State.deletePartition_mem (s : State) (p) : (s.deletePartition p).mem = s.mem := rfl

theorem wf_partitionBody {s : State} (h : Memory.wf s.mem) (q f) : WfEnd (partitionBody q f s) := by
  unfold partitionBody
  grind [State.wf_readList, State.wf_localQueue, State.deletePartition_mem, State.installPartition_mem,
    State.wf_dropRights, WfEnd, WfBoth, id]

theorem wf_execPartition {s : State} (h : Memory.wf s.mem) (q f) : WfNext (execPartition q f s) := by
  unfold execPartition
  grind [wf_memoryFrame, wf_partitionBody, WfNext, WfEnd]

theorem State.wf_alightForced {s : State} (h : Memory.wf s.mem) (plist r) :
    Memory.wf (s.alightForced plist r).1.mem := by
  unfold alightForced
  grind [State.wf_translate, State.wf_storeRecordAt, State.sendRequest_mem, State.logError_mem, WfSome]

theorem State.wf_alightDomain {s : State} (h : Memory.wf s.mem) (d plist) :
    Memory.wf (s.alightDomain d plist).1.mem := by
  unfold alightDomain
  exact List.foldlRecOn (motive := fun acc : State × Nat => Memory.wf acc.1.mem) _ _ h
    fun _ hs _ _ => State.wf_alightForced hs ..

theorem wf_teardownBody {s : State} (h : Memory.wf s.mem) (q f) : WfEnd (teardownBody q f s) := by
  unfold teardownBody
  dsimp only
  split
  · exact h
  · split
    · exact h
    · refine State.wf_dropRights (wf_foldl (fun s i hs => by simpa using hs) ?_ _) ..
      exact State.wf_alightDomain (wf_foldl (fun s l hs => by simpa using hs) h _) ..

theorem wf_execTeardown {s : State} (h : Memory.wf s.mem) (q f) : WfNext (execTeardown q f s) := by
  unfold execTeardown
  grind [wf_memoryFrame, wf_teardownBody, WfNext, WfEnd]

theorem wf_attestBody {s : State} (h : Memory.wf s.mem) (q f) : WfEnd (attestBody q f s) := by
  unfold attestBody
  dsimp only
  split
  · exact h
  · split
    · exact h
    · split <;> rename_i e
      · exact (State.wf_frameWrite h ..).of_error e
      · exact (State.wf_frameWrite h ..).of_ok e

theorem wf_execAttest {s : State} (h : Memory.wf s.mem) (q f) : WfNext (execAttest q f s) := by
  unfold execAttest
  grind [wf_memoryFrame, wf_attestBody, WfNext, WfEnd]

theorem wf_errlogBody {s : State} (h : Memory.wf s.mem) (q f) : WfEnd (errlogBody q f s) := by
  unfold errlogBody
  grind [State.wf_hostWrite, WfEnd, WfSome, id]

theorem wf_execErrlog {s : State} (h : Memory.wf s.mem) (q f) : WfNext (execErrlog q f s) := by
  unfold execErrlog
  grind [wf_memoryFrame, wf_errlogBody, WfNext, WfEnd]

theorem wf_firmwareBody {s : State} (h : Memory.wf s.mem) (q f) : WfEnd (firmwareBody q f s) := by
  unfold firmwareBody
  dsimp only
  repeat' split
  all_goals simpa using h

theorem wf_execFirmware {s : State} (h : Memory.wf s.mem) (q f) : WfNext (execFirmware q f s) := by
  unfold execFirmware
  grind [wf_memoryFrame, wf_firmwareBody, WfNext, WfEnd]

/-! #### Machine/Boot -/

theorem State.wf_writeCaps {s : State} (h : Memory.wf s.mem) : Memory.wf s.writeCaps.mem := by
  unfold writeCaps
  grind [State.wf_writeMem]

theorem State.wf_bringUp {s : State} (h : Memory.wf s.mem) : Memory.wf s.bringUp.mem := by
  unfold bringUp
  grind [State.wf_writeCaps, State.wf_writeMem]

theorem wf_execFirmwareTakeover {s : State} (h : Memory.wf s.mem) : WfNext (execFirmwareTakeover s) := by
  unfold execFirmwareTakeover
  grind [State.complete_mem, State.wf_bringUp, WfNext]

theorem wf_execReset {s : State} (h : Memory.wf s.mem) : WfNext (execReset s) :=
  Memory.wf_filter h _

/-! #### Machine/Branch -/

theorem wf_branchOp {s : State} (h : Memory.wf s.mem) (taken a b o) : WfNext (branchOp taken a b o s) := by
  unfold branchOp
  split <;> simpa using h

theorem wf_execJ {s : State} (h : Memory.wf s.mem) (o) : WfNext (execJ o s) := by
  simpa [execJ] using h

theorem wf_execJal {s : State} (h : Memory.wf s.mem) (o) : WfNext (execJal o s) := by
  simpa [execJal] using h

theorem wf_execJalr {s : State} (h : Memory.wf s.mem) (d a i) : WfNext (execJalr d a i s) := by
  unfold execJalr
  dsimp only
  repeat' split
  all_goals simpa using h

/-! #### Machine/Cache -/

theorem State.wf_rangeRights {s : State} (h : Memory.wf s.mem) (need a n) :
    WfBoth Prod.snd Prod.snd (s.rangeRights need a n) := by
  unfold rangeRights
  grind [State.wf_plbRange, WfBoth]

theorem wf_execCpref {s : State} (h : Memory.wf s.mem) (d a b c) : WfNext (execCpref d a b c s) := by
  unfold execCpref
  grind [State.writeG_mem, State.setMyCore_mem, State.wf_readBlockOf, State.stopped_mem, State.trap_mem, WfNext,
    WfBoth]

theorem wf_execPrefetch {s : State} (h : Memory.wf s.mem) (core) : WfNext (execPrefetch core s) := by
  simpa [execPrefetch] using h

theorem State.wf_writeBack {s : State} (h : Memory.wf s.mem) (d lo n) : WfNext (s.writeBack d lo n) := by
  unfold writeBack
  split <;> simpa using h

theorem wf_execCflush {s : State} (h : Memory.wf s.mem) (d a b c) : WfNext (execCflush d a b c s) := by
  unfold execCflush
  grind [State.stopped_mem, State.waiting_mem, State.wf_rangeRights, State.wf_writeBack, WfNext, WfBoth]

@[simp] theorem State.dropCopies_mem (s : State) (lo n) : (s.dropCopies lo n).mem = s.mem := rfl

@[simp] theorem State.refill_mem (s : State) (lo n) : (s.refill lo n).mem = s.mem := by
  unfold refill
  split <;> rfl

theorem wf_execCinv {s : State} (h : Memory.wf s.mem) (d a b c) : WfNext (execCinv d a b c s) := by
  unfold execCinv
  grind [State.dropCopies_mem, State.stopped_mem, State.refill_mem, State.waiting_mem, State.wf_rangeRights,
    State.wf_writeBack, WfNext, WfBoth]

theorem wf_execWritebackComplete {s : State} (h : Memory.wf s.mem) (sid) : WfNext (execWritebackComplete sid s) := by
  unfold execWritebackComplete
  split <;> simpa using h

theorem wf_execCpin {s : State} (h : Memory.wf s.mem) (d a b _c) : WfNext (execCpin d a b _c s) := by
  unfold execCpin
  grind [State.writeG_mem, State.stopped_mem, State.wf_rangeRights, State.trap_mem, WfNext, WfBoth]

theorem wf_execCunpin {s : State} (h : Memory.wf s.mem) (d a b _c) : WfNext (execCunpin d a b _c s) := by
  unfold execCunpin
  dsimp only
  repeat' split
  all_goals simpa using h

theorem wf_execCpri {s : State} (h : Memory.wf s.mem) (d a b _c) : WfNext (execCpri d a b _c s) := by
  unfold execCpri
  grind [State.writeG_mem, State.stopped_mem, State.wf_rangeRights, WfNext, WfBoth]

/-! #### Machine/Message -/

theorem State.wf_readWords {s : State} (h : Memory.wf s.mem) (who a n) :
    WfBoth Prod.snd Prod.snd (s.readWords who a n) := by
  induction n generalizing s a with
  | zero => exact h
  | succ n ih => unfold readWords; grind [State.wf_readBlock, WfBoth]

theorem State.post_mem {s t : State} {own dev core reply handled cls payload} {y}
    (e : s.post own dev core reply handled cls payload = some (y, t)) : t.mem = s.mem := by
  unfold post at e
  dsimp only at e
  split at e
  · cases e; rfl
  · obtain ⟨⟨_, _⟩, er, e⟩ := Option.map_eq_some_iff.mp e
    cases e
    exact (State.sendRequest_mem er :)

theorem wf_sendOp {s : State} (h : Memory.wf s.mem) (handled d a b) : WfNext (sendOp handled d a b s) := by
  unfold sendOp
  grind [State.post_mem, State.wf_readWords, State.writeG_mem, State.stopped_mem, State.waiting_mem, State.trap_mem,
    WfNext, WfBoth]

theorem wf_execAmreply {s : State} (h : Memory.wf s.mem) (d a b) : WfNext (execAmreply d a b s) := by
  unfold execAmreply
  split <;> grind [State.post_mem, State.wf_readWords, State.writeG_mem, State.stopped_mem, State.trap_mem, WfNext,
    WfBoth]

@[simp] theorem State.handled_mem (s : State) (num status) : (s.handled num status).mem = s.mem := by
  unfold handled
  dsimp only
  repeat' split
  all_goals simp

@[simp] theorem State.freeMessage_mem (s : State) (core num) : (s.freeMessage core num).mem = s.mem := by
  unfold freeMessage
  dsimp only
  split <;> simp

theorem wf_execAmdone {s : State} (h : Memory.wf s.mem) : WfNext (execAmdone s) := by
  unfold execAmdone
  dsimp only
  repeat' split
  all_goals simpa using h

theorem wf_execRcmask {s : State} (h : Memory.wf s.mem) (c) : WfNext (execRcmask c s) := by
  simpa [execRcmask] using h

theorem wf_execRcunmask {s : State} (h : Memory.wf s.mem) (c) : WfNext (execRcunmask c s) := by
  simpa [execRcunmask] using h

@[simp] theorem State.accept_mem (s : State) (core m) : (s.accept core m).mem = s.mem := rfl

theorem State.wf_routeBrought {s : State} (h : Memory.wf s.mem) (core m) :
    WfBoth id Prod.snd (s.routeBrought core m) := by
  unfold routeBrought
  grind [State.dropReq_mem, State.wf_routeLoad, State.sendRequest_mem, State.wf_touchRoute, WfBoth, id]

theorem wf_execMessageArrival {s : State} (h : Memory.wf s.mem) : WfNext (execMessageArrival s) := by
  unfold execMessageArrival
  split <;> grind [State.answer_mem, State.wf_routeBrought, State.wf_touchRoute, State.drawn_mem, State.accept_mem,
    WfNext, WfBoth, id]

theorem wf_execAmsendAnswer {s : State} (h : Memory.wf s.mem) (sid) : WfNext (execAmsendAnswer sid s) := by
  unfold execAmsendAnswer
  dsimp only
  repeat' split
  all_goals simpa using h

theorem State.wf_landingStore {s : State} (h : Memory.wf s.mem) (sid blk m) :
    WfBoth Prod.snd Prod.snd (s.landingStore sid blk m) := by
  unfold landingStore
  dsimp only
  split
  · exact h
  · have hr := State.wf_resolve h (s.actorOf sid) .store blk 72
    split <;> rename_i e <;> rw [e] at hr
    · exact hr
    · split
      · exact hr
      · split
        · exact hr
        · next e1 =>
          have h1 := wf_of_mem_eq (State.sendRequest_mem e1) hr
          split
          · exact h1
          · next e2 => exact wf_of_mem_eq (State.sendRequest_mem e2) h1
    · split
      · exact hr
      · exact State.wf_writePlace hr ..

theorem State.wf_land {s : State} (h : Memory.wf s.mem) (sid blk m) : Memory.wf (s.land sid blk m).mem := by
  unfold land
  grind [State.trapOn_mem, State.setStrand_mem, State.wf_landingStore, WfBoth]

@[simp] theorem State.finishLanding_mem (s : State) (sid blk tags) : (s.finishLanding sid blk tags).mem = s.mem := by
  unfold finishLanding
  dsimp only
  split
  · rfl
  · split <;> simp [foldl_mem State.dropReq_mem]

theorem State.wf_landAgain {s : State} (h : Memory.wf s.mem) (sid h) : Memory.wf (s.landAgain sid h).mem := by
  unfold landAgain
  grind [State.wf_land, State.wf_touchRoute]

theorem State.wf_routeFetched {s : State} (h : Memory.wf s.mem) (core m) : Memory.wf (s.routeFetched core m).mem := by
  unfold routeFetched
  grind [State.wf_routeBrought, State.setCore_mem, WfBoth, id]

theorem State.wf_dispatch {s : State} (h : Memory.wf s.mem) (sid) : WfSome id (s.dispatch sid) := by
  unfold dispatch
  grind [State.wf_routeFetched, State.wf_land, State.settle_mem, State.setStrand_mem, State.wf_touchRoute, WfSome, id]

theorem wf_execMessageDispatch {s : State} (h : Memory.wf s.mem) (sid) : WfNext (execMessageDispatch sid s) := by
  have hd := State.wf_dispatch h sid
  unfold execMessageDispatch
  split
  · split
    · exact State.wf_landAgain h ..
    · exact h
  · cases e : s.dispatch sid with
    | none => exact h
    | some t => rw [e] at hd; exact hd

/-! #### Machine/Links -/

@[simp] theorem State.goOn_mem (s : State) (dev) : (s.goOn dev).mem = s.mem := by
  simp [State.goOn]

@[simp] theorem State.setAnswer_mem (s : State) (xtag status data) : (s.setAnswer xtag status data).mem = s.mem := rfl

@[simp] theorem State.keepAnswer_mem (s : State) (r sid status data) :
    (s.keepAnswer r sid status data).mem = s.mem := by
  unfold keepAnswer
  split <;> rfl

@[simp] theorem State.onCard_mem (s : State) (core num f) : (s.onCard core num f).mem = s.mem := by
  unfold onCard
  split <;> rfl

@[simp] theorem State.messageAnswered_mem (s : State) (r num status handled) :
    (s.messageAnswered r num status handled).mem = s.mem := by
  unfold messageAnswered
  dsimp only
  split
  · simp
  · split
    · split
      · cases e : (s.dropReq r.xtag).sendRequest r.packet.ddev.toNat r.purpose r.packet with
        | none => simp
        | some q => simpa using State.sendRequest_mem e
      · simp
    · split <;> simp

theorem State.wf_entryAnswered {s : State} (h : Memory.wf s.mem) (status data i e) :
    Memory.wf (s.entryAnswered status data i e).mem := by
  unfold entryAnswered
  grind [State.entryDone_mem, State.wf_entryFault]

theorem State.wf_concluded {s : State} (h : Memory.wf s.mem) (r status data aux) :
    Memory.wf (s.concluded r status data aux).mem := by
  unfold concluded
  split
  case h_6 => exact wf_foldl (fun s x hs => State.wf_entryAnswered hs ..) (by simpa using h) _
  all_goals grind [State.dropReq_mem, State.keepAnswer_mem, State.setAnswer_mem, State.onCard_mem, State.setStrand_mem,
    State.logError_mem, State.messageAnswered_mem]

theorem State.wf_endRequest {s : State} (h : Memory.wf s.mem) (r status data aux) :
    Memory.wf (s.endRequest r status data aux).mem := by
  unfold endRequest
  grind [State.wf_concluded, State.goOn_mem]

theorem State.wf_endOver {s : State} (h : Memory.wf s.mem) (port) : Memory.wf (s.endOver port).mem :=
  wf_foldl (fun _ _ hs => State.wf_endRequest hs ..) h _

theorem State.wf_stopPort {s : State} (h : Memory.wf s.mem) (port exhausted) :
    Memory.wf (s.stopPort port exhausted).mem := by
  unfold stopPort
  grind [State.setPort_mem, State.reroute_mem, State.wf_endOver]

theorem State.wf_untrain {s : State} (h : Memory.wf s.mem) (port) : Memory.wf (s.untrain port).mem := by
  unfold untrain
  grind [State.wf_writeCaps, State.setPort_mem]

theorem State.wf_loseTraining {s : State} (h : Memory.wf s.mem) (port) : Memory.wf (s.loseTraining port).mem := by
  unfold loseTraining
  grind [State.wf_stopPort, State.wf_untrain]

theorem State.wf_hearStop {s : State} (h : Memory.wf s.mem) (port) : Memory.wf (s.hearStop port).mem := by
  unfold hearStop
  grind [State.wf_stopPort]

theorem wf_execPortStop {s : State} (h : Memory.wf s.mem) (n) : WfNext (execPortStop n s) := by
  unfold execPortStop
  grind [State.wf_loseTraining, State.wf_hearStop, WfNext]

theorem wf_execLinkTrained {s : State} (h : Memory.wf s.mem) (port) : WfNext (execLinkTrained port s) := by
  unfold execLinkTrained
  grind [State.wf_writeCaps, State.setPort_mem, State.reroute_mem, State.wf_endOver, WfNext]

theorem State.wf_linkFails {s : State} (h : Memory.wf s.mem) (port) : Memory.wf (s.linkFails port).mem := by
  unfold linkFails
  grind [State.setPort_mem, State.wf_stopPort]

theorem wf_execBlockReplay {s : State} (h : Memory.wf s.mem) (port receive) :
    WfNext (execBlockReplay port receive s) := by
  unfold execBlockReplay
  grind [State.wf_linkFails, State.setPort_mem, State.drawn_mem, State.portSent_mem, WfNext]

theorem wf_execKeyRotation {s : State} (h : Memory.wf s.mem) (port) : WfNext (execKeyRotation port s) := by
  unfold execKeyRotation
  split <;> simpa using h

theorem wf_execKeyExhausted {s : State} (h : Memory.wf s.mem) (port) : WfNext (execKeyExhausted port s) := by
  unfold execKeyExhausted
  grind [State.wf_stopPort, WfNext]

@[simp] theorem State.keySelected_mem (s : State) (v) : (s.keySelected v).mem = s.mem := rfl

@[simp] theorem State.setKeyDir_mem (s : State) (v d) : (s.setKeyDir v d).mem = s.mem := rfl

theorem wf_execLinkKeySelect {s : State} (h : Memory.wf s.mem) (v) : WfNext (execLinkKeySelect v s) := by
  unfold execLinkKeySelect
  split <;> simpa using h

theorem wf_execLinkKeyStage {s : State} (h : Memory.wf s.mem) (v) : WfNext (execLinkKeyStage v s) := by
  unfold execLinkKeyStage
  split <;> simpa using h

theorem wf_execLinkKeyInstall {s : State} (h : Memory.wf s.mem) (v) : WfNext (execLinkKeyInstall v s) := by
  unfold execLinkKeyInstall
  repeat' split
  all_goals simpa using h

theorem wf_execLinkPortStop {s : State} (h : Memory.wf s.mem) (v) : WfNext (execLinkPortStop v s) := by
  unfold execLinkPortStop
  grind [State.wf_stopPort, State.keySelected_mem, WfNext]

theorem wf_execLinkRetrain {s : State} (h : Memory.wf s.mem) (v) : WfNext (execLinkRetrain v s) := by
  unfold execLinkRetrain
  grind [State.wf_loseTraining, State.keySelected_mem, WfNext]

theorem wf_execLinkKeyData {s : State} (h : Memory.wf s.mem) (v) : WfNext (execLinkKeyData v s) := by
  simpa [execLinkKeyData] using h

/-! #### Machine/VecArith -/

theorem wf_elementwise {s : State} (h : Memory.wf s.mem) (word ifn ffn reads rounds rtag d a y resolveY p) :
    WfNext (elementwise word ifn ffn reads rounds rtag d a y resolveY p s) := by
  unfold elementwise
  dsimp only
  repeat' split
  all_goals simpa using h

theorem wf_vBinary {s : State} (h : Memory.wf s.mem) (major fn ifn ffn reads rounds d a b f p) :
    WfNext (vBinary major fn ifn ffn reads rounds d a b f p s) := by
  unfold vBinary
  grind [wf_elementwise, WfNext]

theorem wf_vUnary {s : State} (h : Memory.wf s.mem) (major fn ifn ffn rounds rtag d a p) :
    WfNext (vUnary major fn ifn ffn rounds rtag d a p s) := by
  unfold vUnary
  grind [wf_elementwise, WfNext]

theorem wf_bitwiseOp {s : State} (h : Memory.wf s.mem) (word op unary reads d a b f p) :
    WfNext (bitwiseOp word op unary reads d a b f p s) := by
  unfold bitwiseOp
  dsimp only
  repeat' split
  all_goals simpa using h

theorem wf_shiftOp {s : State} (h : Memory.wf s.mem) (fn ifn d a b f p) : WfNext (shiftOp fn ifn d a b f p s) := by
  unfold shiftOp
  grind [wf_vBinary, State.trap_mem, WfNext]

theorem wf_execVdot4 {s : State} (h : Memory.wf s.mem) (d a b f p) : WfNext (execVdot4 d a b f p s) := by
  unfold execVdot4
  dsimp only
  repeat' split
  all_goals simpa using h

/-! #### Machine/VecMem -/

theorem State.wf_elemCheck {s : State} (h : Memory.wf s.mem) (x o i) :
    WfBoth Prod.snd Prod.snd (s.elemCheck x o i) := by
  unfold elemCheck
  grind [State.wf_resolve, WfBoth]

@[simp] theorem State.putElem_mem (s : State) (d i x) : (s.putElem d i x).mem = s.mem := rfl

theorem State.wf_elemPerform {s : State} (h : Memory.wf s.mem) (x o i p) : Memory.wf (s.elemPerform x o i p).mem := by
  unfold elemPerform
  grind [State.wf_writePlace, State.putElem_mem]

theorem State.wf_takeRun {s : State} (h : Memory.wf s.mem) (x o dev dense head prev l) :
    Memory.wf (s.takeRun x o dev dense head prev l).2.mem := by
  induction l generalizing s dense prev with
  | nil => exact h
  | cons i t ih => unfold takeRun; grind [State.wf_elemCheck, WfBoth]

@[simp] theorem State.vmDone_mem (s : State) (o sc) : (s.vmDone o sc).mem = s.mem := rfl

@[simp] theorem State.vmFault_mem (s : State) (o first k t) : (s.vmFault o first k t).mem = s.mem := by
  unfold vmFault
  split <;> simp

@[simp] theorem State.vmWait_mem (s : State) (o k w) : (s.vmWait o k w).mem = s.mem := rfl

theorem State.wf_vmLoop {s : State} (h : Memory.wf s.mem) (x o first l) : Memory.wf (s.vmLoop x o first l).mem := by
  induction l generalizing s with
  | nil => simpa [vmLoop] using h
  | cons i t ih =>
    unfold vmLoop
    grind [State.wf_elemCheck, State.wf_takeRun, State.sendRequest_mem, State.wf_elemPerform, State.vmFault_mem,
      State.vmWait_mem, State.refuseNow_mem, WfBoth, WfSome]

@[simp] theorem State.putElems_mem (s : State) (d l) : (s.putElems d l).mem = s.mem := by
  unfold putElems
  refine foldl_mem (fun s x => ?_) _ _
  simp

@[simp] theorem State.refuseRun_mem (s : State) (cls run) : (s.refuseRun cls run).mem = s.mem := by
  unfold refuseRun
  refine foldl_mem (fun s x => ?_) _ _
  simp

theorem State.wf_vmNext {s : State} (h : Memory.wf s.mem) (x o first run) :
    Memory.wf (s.vmNext x o first run).mem := by
  unfold vmNext
  grind [State.wf_vmLoop, State.vmWait_mem]

theorem State.wf_vmResume {s : State} (h : Memory.wf s.mem) (o xtag first run) :
    Memory.wf (s.vmResume o xtag first run).mem := by
  unfold vmResume
  split <;> grind [State.putElems_mem, State.dropReq_mem, State.vmFault_mem, State.wf_vmNext, State.refuseRun_mem,
    State.wf_vmLoop]

theorem wf_vmemOp {s : State} (h : Memory.wf s.mem) (w o) : WfNext (vmemOp w o s) := by
  unfold vmemOp
  grind [State.wf_vmResume, State.waiting_mem, State.wf_vmLoop, State.trap_mem, WfNext]

theorem State.wf_elemCheckAll {s : State} (h : Memory.wf s.mem) (x o l) :
    WfBoth (fun x => x.2.2) Prod.snd (s.elemCheckAll x o l) := by
  induction l generalizing s with
  | nil => exact h
  | cons i t ih => unfold elemCheckAll; grind [State.wf_elemCheck, WfBoth]

@[simp] theorem State.giveUp_mem (s : State) (n k t) : (s.giveUp n k t).mem = s.mem := by
  simp [State.giveUp]

@[simp] theorem State.scatterGo_mem (s : State) (o n l) : (s.scatterGo o n l).mem = s.mem := by
  induction l generalizing s with
  | nil => simp [scatterGo]
  | cons q t ih =>
    unfold scatterGo
    dsimp only
    split
    · simp
    · split
      · simp [ih]
      · next e => simpa using State.sendRequest_mem e

@[simp] theorem State.scatterResume_mem (s : State) (o n xtag run left) :
    (s.scatterResume o n xtag run left).mem = s.mem := by
  unfold scatterResume
  repeat' split
  all_goals simp

theorem State.wf_orderedPerform {s : State} (h : Memory.wf s.mem) (o n got) :
    Memory.wf (s.orderedPerform o n got).mem := by
  have hc := State.wf_elemCheckAll h s.me o (s.me.active o.p)
  unfold orderedPerform
  dsimp only
  split <;> rename_i e <;> rw [e] at hc
  · simpa using hc
  · simpa using hc
  · split
    · rw [State.scatterGo_mem]
      exact wf_foldl (fun s q hs => State.wf_elemPerform hs ..) hc _
    · rw [State.vmDone_mem, State.putElems_mem]
      exact wf_foldl (fun s q hs => State.wf_elemPerform hs ..) hc _

theorem State.wf_orderedGo {s : State} (h : Memory.wf s.mem) (o n got l) : Memory.wf (s.orderedGo o n got l).mem := by
  induction l generalizing s with
  | nil => exact State.wf_orderedPerform h ..
  | cons i t ih =>
    unfold orderedGo
    grind [State.wf_elemCheck, State.wf_takeRun, State.sendRequest_mem, State.giveUp_mem, State.waiting_mem, WfBoth,
      WfSome]

theorem State.wf_orderedResume {s : State} (h : Memory.wf s.mem) (o n xtag run upto got) :
    Memory.wf (s.orderedResume o n xtag run upto got).mem := by
  unfold orderedResume
  grind [State.dropReq_mem, State.giveUp_mem, State.wf_orderedGo]

theorem wf_ticketOp {s : State} (h : Memory.wf s.mem) (w o) : WfNext (ticketOp w o s) := by
  unfold ticketOp
  grind [State.vmDone_mem, State.scatterResume_mem, State.waiting_mem, State.flushCovered_mem, State.trap_mem,
    State.wf_orderedResume, WfNext]

theorem wf_execTicketServed {s : State} (h : Memory.wf s.mem) : WfNext (execTicketServed s) := by
  unfold execTicketServed
  grind [State.wf_orderedGo, State.asStrand_mem, WfNext]

/-! #### Machine/Rininori -/

@[simp] theorem State.heard_mem (s : State) (p) : (s.heard p).mem = s.mem := by
  unfold heard
  split <;> rfl

@[simp] theorem State.serveRead_mem (s : State) (p) : (s.serveRead p).mem = s.mem := by
  unfold serveRead
  repeat' split
  all_goals simp

theorem State.wf_writeLine {s : State} (h : Memory.wf s.mem) (p image) : Memory.wf (s.writeLine p image).mem := by
  refine wf_foldl (fun s i hs => ?_) h _
  split
  · exact State.wf_writeMem hs ..
  · exact hs

theorem State.wf_writeNibble {s : State} (h : Memory.wf s.mem) (p image half) :
    Memory.wf (s.writeNibble p image half).mem := by
  refine wf_foldl (fun s i hs => ?_) h _
  split
  · exact State.wf_writeMem hs ..
  · exact hs

theorem State.wf_serveWrite {s : State} (h : Memory.wf s.mem) (p) : Memory.wf (s.serveWrite p).mem := by
  unfold serveWrite
  grind [State.wf_writeNibble, State.answer_mem, State.wf_writeLine]

theorem State.wf_serveAtomic {s : State} (h : Memory.wf s.mem) (p) : Memory.wf (s.serveAtomic p).mem := by
  unfold serveAtomic
  generalize (if p.aux.getLsbD 4 then 8 else 4) = n
  dsimp only
  split
  · simpa using h
  · split
    · simpa using h
    · rw [State.answer_mem]
      split
      · exact State.wf_writeMem h ..
      · exact h

@[simp] theorem State.serveVread_mem (s : State) (p) : (s.serveVread p).mem = s.mem := by
  unfold serveVread
  split <;> simp

theorem State.wf_serveVwrite {s : State} (h : Memory.wf s.mem) (p) : Memory.wf (s.serveVwrite p).mem := by
  unfold serveVwrite
  dsimp only
  split
  · simpa using h
  · simpa using wf_foldl (fun s i hs => State.wf_writeMem hs ..) h _

theorem State.wf_targetWord {s : State} (h : Memory.wf s.mem) (e) : Memory.wf (s.targetWord e).1.mem := by
  unfold targetWord
  grind [State.wf_writeMem]

theorem State.wf_servePacket {s : State} (h : Memory.wf s.mem) (p) : Memory.wf (s.servePacket p).mem := by
  unfold servePacket
  grind [State.wf_serveWrite, State.serveVread_mem, State.wf_serveAtomic, State.wf_serveVwrite, State.serveRead_mem]

theorem State.wf_takePacket {s : State} (h : Memory.wf s.mem) (p) : Memory.wf (s.takePacket p).mem := by
  unfold takePacket
  split
  · simpa using h
  · exact State.wf_servePacket h p
  · next pa n _ _ =>
    cases e : s.combine none pa n (.packet p) with
    | none => exact State.wf_servePacket (by simpa using h) p
    | some t => simpa [State.combine_mem e] using h

@[simp] theorem State.setJob_mem (s : State) (j) : (s.setJob j).mem = s.mem := rfl

theorem State.wordJoins_mem {s t : State} {num e} {y} (e : s.wordJoins num e = some (y, t)) : t.mem = s.mem := by
  unfold wordJoins at e
  split at e
  · obtain ⟨_, hc, e⟩ := Option.bind_eq_some_iff.mp e
    obtain ⟨_, _, e⟩ := Option.map_eq_some_iff.mp e
    cases e
    exact State.combine_mem hc
  · cases e

theorem State.wf_nextWord {s : State} (h : Memory.wf s.mem) (j) : WfSome id (s.nextWord j) := by
  unfold nextWord
  grind [State.addCame_mem, State.wf_targetWord, State.wordJoins_mem, State.setJob_mem, WfSome, id]

theorem State.wf_jobStep {s : State} (h : Memory.wf s.mem) (j) : WfSome id (s.jobStep j) := by
  unfold jobStep
  grind [State.answer_mem, State.wf_nextWord, WfSome, id]

theorem State.wf_runJobs {s : State} (h : Memory.wf s.mem) (n) : Memory.wf (s.runJobs n).mem := by
  induction n generalizing s with
  | zero => exact h
  | succ n ih =>
    unfold runJobs
    split
    · exact h
    · next e =>
      obtain ⟨j, _, ej⟩ := List.exists_of_findSome?_eq_some e
      have hj := State.wf_jobStep h j
      rw [ej] at hj
      exact ih hj

theorem State.wf_wordsCome {s : State} (h : Memory.wf s.mem) (p) : Memory.wf (s.wordsCome p).mem := by
  unfold wordsCome
  grind [State.answer_mem, State.wf_runJobs]

theorem State.wf_wordDone {s : State} (h : Memory.wf s.mem) (num answer) : Memory.wf (s.wordDone num answer).mem := by
  unfold wordDone
  grind [State.setJob_mem, State.wf_runJobs]

theorem State.wf_request {s : State} (h : Memory.wf s.mem) (p kind) : WfNext (s.request p kind) := by
  unfold request
  grind [State.heard_mem, State.wf_takePacket, WfNext]

theorem wf_execWords {s : State} (h : Memory.wf s.mem) (p) : WfNext (execWords p s) := by
  unfold execWords
  grind [State.heard_mem, State.wf_wordsCome, WfNext]

theorem wf_execMsg {s : State} (h : Memory.wf s.mem) (p) : WfNext (execMsg p s) := by
  unfold execMsg
  grind [State.answer_mem, State.heard_mem, State.wf_touchRoute, State.accept_mem, WfNext]

theorem wf_execRsp {s : State} (h : Memory.wf s.mem) (p) : WfNext (execRsp p s) := by
  unfold execRsp
  grind [State.heard_mem, State.wf_endRequest, WfNext]

theorem wf_execAck {s : State} (h : Memory.wf s.mem) (p) : WfNext (execAck p s) := by
  unfold execAck
  dsimp only
  split
  · exact h
  · split
    · simpa using h
    · split
      · exact State.wf_endRequest (by simpa using h) ..
      · exact wf_foldl (fun s x hs => State.wf_endRequest hs ..) (by simpa using h) _

theorem wf_execDemand {s : State} (h : Memory.wf s.mem) (p) : WfNext (execDemand p s) := by
  unfold execDemand
  dsimp only
  repeat' split
  all_goals simpa using h

theorem wf_execGrant {s : State} (h : Memory.wf s.mem) (p) : WfNext (execGrant p s) := by
  unfold execGrant
  repeat' split
  all_goals simpa using h

theorem wf_execGrantLapse {s : State} (h : Memory.wf s.mem) (dev) : WfNext (execGrantLapse dev s) := by
  unfold execGrantLapse
  dsimp only
  repeat' split
  all_goals simpa using h

theorem wf_execBadPacket {s : State} (h : Memory.wf s.mem) (p) : WfNext (execBadPacket p s) := by
  unfold execBadPacket
  repeat' split
  all_goals simpa using h

/-! #### Machine/Mesh -/

theorem wf_execStarvationToken {s : State} (h : Memory.wf s.mem) (router port) :
    WfNext (execStarvationToken router port s) := by
  unfold execStarvationToken
  dsimp only
  repeat' split
  all_goals simpa using h

theorem State.wf_deliverOld {s : State} (h : Memory.wf s.mem) (o width old) :
    Memory.wf (s.deliverOld o width old).mem := by
  unfold deliverOld
  grind [State.answer_mem, State.writeG_mem, State.wf_wordDone, State.entryDone_mem, State.asStrand_mem]

theorem State.wf_performWord {s : State} (h : Memory.wf s.mem) (num e) : Memory.wf (s.performWord num e).mem := by
  unfold performWord
  grind [State.wf_targetWord, State.wf_wordDone]

theorem State.wf_deliverFault {s : State} (h : Memory.wf s.mem) (o cause) :
    Memory.wf (s.deliverFault o cause).mem := by
  unfold deliverFault
  grind [State.wf_performWord, State.wf_servePacket, State.wf_entryFault, State.trap_mem, State.asStrand_mem]

theorem State.wf_performBatch {s : State} (h : Memory.wf s.mem) (c b) : Memory.wf (s.performBatch c b).mem := by
  unfold performBatch
  dsimp only
  split
  · split
    · exact wf_foldl (fun s o hs => State.wf_deliverFault hs ..) h _
    · exact wf_foldl (fun s x hs => State.wf_deliverOld hs ..) (State.wf_writeMem h ..) _
  · have ht := State.wf_translate h .atomic c.addr
    split
    · next e =>
      rw [e] at ht
      split
      · exact wf_foldl (fun s o hs => State.wf_deliverFault hs ..) ht _
      · exact wf_foldl (fun s x hs => State.wf_deliverOld hs ..) (State.wf_writeSpan ht ..) _
    · exact wf_foldl (fun s o hs => State.wf_deliverFault hs ..) h _

theorem State.wf_performAlone {s : State} (h : Memory.wf s.mem) (o) : Memory.wf (s.performAlone o).mem := by
  unfold performAlone
  grind [State.wf_deliverEntry, State.wf_performWord, State.wf_servePacket]

theorem wf_execCombineBatch {s : State} (h : Memory.wf s.mem) (cluster queue) :
    WfNext (execCombineBatch cluster queue s) := by
  unfold execCombineBatch
  grind [State.popQueue_mem, State.wf_performBatch, State.wf_performAlone, WfNext]

theorem wf_execCombiningQueueClose {s : State} (h : Memory.wf s.mem) (cluster queue) :
    WfNext (execCombiningQueueClose cluster queue s) := by
  unfold execCombiningQueueClose
  dsimp only
  repeat' split
  all_goals simpa using h

theorem wf_execBridgeLinkFailure {s : State} (h : Memory.wf s.mem) (link retrained) :
    WfNext (execBridgeLinkFailure link retrained s) := by
  unfold execBridgeLinkFailure
  generalize allStrands = l
  dsimp only
  split
  · exact h
  · split
    · simpa using h
    · exact wf_foldl (fun s i hs => by simpa using hs) (by simpa using h) l

/-! #### Machine/Mma -/

@[simp] theorem State.mmaJob_mem (s : State) (x clear sub a b ca cb fa fb tag group es k rate) :
    (s.mmaJob x clear sub a b ca cb fa fb tag group es k rate).2.mem = s.mem := by
  unfold mmaJob
  dsimp only
  split <;> simp

theorem wf_mmaOp {s : State} (h : Memory.wf s.mem) (fn x y z e sa sb) : WfNext (mmaOp fn x y z e sa sb s) := by
  unfold mmaOp
  refine wf_tileOp h _ _ ?_
  dsimp only
  repeat' split
  all_goals simpa using h

theorem wf_execMmaCompletion {s : State} (h : Memory.wf s.mem) (core) : WfNext (execMmaCompletion core s) := by
  unfold execMmaCompletion
  dsimp only
  repeat' split
  all_goals simpa using h

/-! #### Machine/VecCmp -/

theorem wf_compareOp {s : State} (h : Memory.wf s.mem) (fn c d a b f p) : WfNext (compareOp fn c d a b f p s) := by
  unfold compareOp
  dsimp only
  repeat' split
  all_goals simpa using h

/-! #### Machine/Pred -/

theorem wf_predOp {s : State} (h : Memory.wf s.mem) (fn op d a b p) : WfNext (predOp fn op d a b p s) := by
  unfold predOp
  dsimp only
  repeat' split
  all_goals simpa using h

theorem wf_predScalar {s : State} (h : Memory.wf s.mem) (fn f d a p) : WfNext (predScalar fn f d a p s) := by
  unfold predScalar
  dsimp only
  repeat' split
  all_goals simpa using h

theorem wf_execPfirst {s : State} (h : Memory.wf s.mem) (d a p) : WfNext (execPfirst d a p s) := by
  unfold execPfirst
  grind [wf_predScalar, WfNext]

theorem wf_execPfromv {s : State} (h : Memory.wf s.mem) (d a p) : WfNext (execPfromv d a p s) := by
  unfold execPfromv
  dsimp only
  repeat' split
  all_goals simpa using h

theorem wf_execPtov {s : State} (h : Memory.wf s.mem) (d a p) : WfNext (execPtov d a p s) := by
  unfold execPtov
  dsimp only
  repeat' split
  all_goals simpa using h

/-! #### Machine/Sys -/

theorem wf_execEcall {s : State} (h : Memory.wf s.mem) : WfNext (execEcall s) := by
  simpa [execEcall] using h

theorem wf_execEbreak {s : State} (h : Memory.wf s.mem) : WfNext (execEbreak s) := by
  unfold execEbreak
  grind [State.wf_haltCore, State.trap_mem, WfNext]

theorem State.wf_resumePoint {s : State} (h : Memory.wf s.mem) : WfBoth Prod.snd Prod.snd s.resumePoint := by
  unfold resumePoint
  grind [State.wf_fetchWord, WfBoth]

theorem wf_execEret {s : State} (h : Memory.wf s.mem) : WfNext (execEret s) := by
  unfold execEret
  grind [State.stopped_mem, State.setMe_mem, State.wf_resumePoint, State.trap_mem, WfNext, WfBoth]

theorem wf_execWfi {s : State} (h : Memory.wf s.mem) : WfNext (execWfi s) := by
  unfold execWfi
  split <;> simpa using h

theorem wf_execYield {s : State} (h : Memory.wf s.mem) : WfNext (execYield s) := by
  simpa [execYield] using h

theorem wf_execPause {s : State} (h : Memory.wf s.mem) : WfNext (execPause s) := by
  unfold execPause
  split <;> simpa using h

theorem wf_execStrandpark {s : State} (h : Memory.wf s.mem) (a) : WfNext (execStrandpark a s) := by
  unfold execStrandpark
  grind [State.retire_mem, State.waiting_mem, State.trap_mem, State.wf_park, WfNext]

theorem wf_execStrandwake {s : State} (h : Memory.wf s.mem) (a) : WfNext (execStrandwake a s) := by
  unfold execStrandwake
  dsimp only
  repeat' split
  all_goals simpa using h

/-! #### Machine/Repf -/

theorem wf_execIllegalInstr {s : State} (h : Memory.wf s.mem) (w) : WfNext (execIllegalInstr w s) := by
  simpa [execIllegalInstr] using h

theorem wf_execRepf {s : State} (h : Memory.wf s.mem) (c r x y z) : WfNext (execRepf c r x y z s) := by
  unfold execRepf
  grind [State.stopped_mem, State.setMe_mem, State.wf_fetchWords, State.trap_mem, WfNext, WfBoth]

theorem State.wf_frameWord {s : State} (h : Memory.wf s.mem) (sid f) :
    WfBoth Prod.snd Prod.snd (s.frameWord sid f) := by
  unfold frameWord
  grind [State.wf_fetchWords, State.setStrand_mem, WfBoth]

/-! #### Machine/Scale -/

theorem wf_execElds {s : State} (h : Memory.wf s.mem) (e a) : WfNext (execElds e a s) := by
  unfold execElds
  grind [State.wf_takePieces, State.retire_mem, State.setMe_mem, State.trap_mem, WfNext, WfBoth, id]

theorem wf_execEsts {s : State} (h : Memory.wf s.mem) (e a) : WfNext (execEsts e a s) := by
  unfold execEsts
  grind [State.wf_takePieces, State.wf_writePieces, State.retire_mem, State.trap_mem, WfNext, WfBoth, id]

theorem wf_execEzero {s : State} (h : Memory.wf s.mem) (e) : WfNext (execEzero e s) := by
  unfold execEzero
  split <;> simpa using h

/-! #### Machine/VecForm -/

theorem wf_vForm {s : State} (h : Memory.wf s.mem) (fn ifn ffn rtag d a p) :
    WfNext (vForm fn ifn ffn rtag d a p s) := by
  unfold vForm
  grind [wf_vUnary, WfNext]

theorem wf_vFormIf {s : State} (h : Memory.wf s.mem) (bad fn ffn rtag d a p) :
    WfNext (vFormIf bad fn ffn rtag d a p s) := by
  unfold vFormIf
  grind [wf_vForm, State.trap_mem, WfNext]

theorem wf_execVbxpack {s : State} (h : Memory.wf s.mem) (d a p) : WfNext (execVbxpack d a p s) := by
  unfold execVbxpack
  dsimp only
  repeat' split
  all_goals simpa using h

/-! #### Machine/VecPerm -/

theorem wf_permuteOp {s : State} (h : Memory.wf s.mem) (word bad same other d a out) :
    WfNext (permuteOp word bad same other d a out s) := by
  unfold permuteOp
  dsimp only
  repeat' split
  all_goals simpa using h

theorem wf_execVpermute {s : State} (h : Memory.wf s.mem) (d a b f p) : WfNext (execVpermute d a b f p s) := by
  unfold execVpermute
  exact wf_permuteOp h ..

theorem wf_execVbcast {s : State} (h : Memory.wf s.mem) (d b f p) : WfNext (execVbcast d b f p s) := by
  unfold execVbcast
  dsimp only
  repeat' split
  all_goals simpa using h

theorem wf_execVextr {s : State} (h : Memory.wf s.mem) (d a b f p) : WfNext (execVextr d a b f p s) := by
  unfold execVextr
  dsimp only
  repeat' split
  all_goals simpa using h

theorem wf_execVins {s : State} (h : Memory.wf s.mem) (d a b f p) : WfNext (execVins d a b f p s) := by
  unfold execVins
  dsimp only
  repeat' split
  all_goals simpa using h

theorem wf_execVzip {s : State} (h : Memory.wf s.mem) (d a b f p) : WfNext (execVzip d a b f p s) := by
  unfold execVzip
  exact wf_permuteOp h ..

theorem wf_execVunzip {s : State} (h : Memory.wf s.mem) (d a b f p) : WfNext (execVunzip d a b f p s) := by
  unfold execVunzip
  grind [wf_permuteOp, WfNext]

theorem wf_execVid {s : State} (h : Memory.wf s.mem) (d p) : WfNext (execVid d p s) := by
  unfold execVid
  dsimp only
  repeat' split
  all_goals simpa using h

theorem wf_execVmvix {s : State} (h : Memory.wf s.mem) (d a p) : WfNext (execVmvix d a p s) := by
  unfold execVmvix
  dsimp only
  repeat' split
  all_goals simpa using h

/-! #### Machine/VecRed -/

theorem wf_reduceOp {s : State} (h : Memory.wf s.mem) (fn c kind tree d a b f p) :
    WfNext (reduceOp fn c kind tree d a b f p s) := by
  unfold reduceOp
  dsimp only
  repeat' split
  all_goals simpa using h

theorem wf_execVrecur {s : State} (h : Memory.wf s.mem) (d a b f p) : WfNext (execVrecur d a b f p s) := by
  unfold execVrecur
  dsimp only
  repeat' split
  all_goals simpa using h

/-! #### Machine/Dispatch -/

/-- Every instruction and every hardware step of the table keeps the memory canonical. -/
theorem wf_exec {s : State} (h : Memory.wf s.mem) (i : Instr) : WfNext (exec i s) := by
  cases i with
  | add | sub | and | or | xor | andn | orn | sll | srl | sra | rol | ror | slt | sltu | min | max | minu | maxu
  | mul | mulh | mulhu | mulhsu | div | divu | rem | remu => dsimp only [exec]; exact wf_aluRR h ..
  | clz | ctz | popc | bswap | sextb | sexth | sextw | zextw | addi | andi | ori | xori | slli | srli | srai | rori
  | slti | sltiu => dsimp only [exec]; exact wf_aluR h ..
  | fadd | fsub | fmul | fdiv | fsqrt | fcvti | fcvtu | fcvtf | fcvtfu | fcvtff =>
    dsimp only [exec]; exact wf_fpRounding h ..
  | fmin | fmax | fsgnj | fsgnjn | fsgnjx | feq | flt | fle | fclass => dsimp only [exec]; exact wf_fpExact h ..
  | fmadd | fmsub | fnmadd | fnmsub => dsimp only [exec]; exact wf_fmaResult h ..
  | lb | lbu | lh | lhu | lw | lwu | ld => dsimp only [exec]; exact wf_loadOp h ..
  | sb | sh | sw | sd => dsimp only [exec]; exact wf_storeOp h ..
  | amoSwap | amoAdd | amoAnd | amoOr | amoXor | amoMin | amoMax | amoMinu | amoMaxu | amoFadd | cas =>
    dsimp only [exec]; exact wf_atomicOp h ..
  | beq | bne | blt | bge | bltu | bgeu => dsimp only [exec]; exact wf_branchOp h ..
  | csrrw | csrrs | csrrc | csrrd => dsimp only [exec]; exact wf_csrOp h ..
  | vadd | vsub | vrsub | vmul | vmulh | vdiv | vrem | vmin | vmax | vabsd | vsadd | vssub | vmacc | vnmsac | vmadd
  | vnmsub => dsimp only [exec]; exact wf_vBinary h ..
  | vabs | vneg | vsqrt | vclz | vpopc => dsimp only [exec]; exact wf_vUnary h ..
  | vand | vor | vxor | vnot | vmerge | vmov => dsimp only [exec]; exact wf_bitwiseOp h ..
  | vsll | vsrl | vsra | vrol => dsimp only [exec]; exact wf_shiftOp h ..
  | vceq | vcne | vclt | vcle | vcgt | vcge | vcun => dsimp only [exec]; exact wf_compareOp h ..
  | vcvt | vfrint | vfrexp | vfmant | vrecipe | vrsqrte => dsimp only [exec]; exact wf_vForm h ..
  | vfexp2f | vclass => dsimp only [exec]; exact wf_vFormIf h ..
  | vfscale => dsimp only [exec]; exact wf_elementwise h ..
  | vslideup | vslidedn | vcompress | vexpand | vrev => dsimp only [exec]; exact wf_permuteOp h ..
  | vredsum | vredmin | vredmax | vredand | vredor | vredxor | vfredosum | vscanadd | vscanmax | vscanmin =>
    dsimp only [exec]; exact wf_reduceOp h ..
  | pand | por | pxor | pandn | pnot | pset | pclr => dsimp only [exec]; exact wf_predOp h ..
  | pcnt => dsimp only [exec]; exact wf_predScalar h ..
  | vld | vst | vldff | vlds | vsts | vldx | vstx | vstxo => dsimp only [exec]; exact wf_vmemOp h ..
  | vldsc | vstsc => dsimp only [exec]; exact wf_ticketOp h ..
  | mma | mmaz | mmas => dsimp only [exec]; exact wf_mmaOp h ..
  | secopy | seload2d | sestore2d | segather | sefoot => dsimp only [exec]; exact wf_cardOp h ..
  | samAlight | samLd | samSt | samAdd | samMin | samMax | samCas | samCapture | samWaitrev =>
    dsimp only [exec]; exact wf_joinRing h ..
  | rstw | rstd | ramo => dsimp only [exec]; exact wf_postWord h ..
  | steepAsync | handlerOverrun | groupBudget => dsimp only [exec]; exact State.wf_takeCause h ..
  | amsend | amsendw => dsimp only [exec]; exact wf_sendOp h ..
  | read | write | atomic | vread | vwrite => dsimp only [exec]; exact State.wf_request h ..
  | sel => dsimp only [exec]; exact wf_execSel h ..
  | ldi => dsimp only [exec]; exact wf_execLdi h ..
  | ldis => dsimp only [exec]; exact wf_execLdis h ..
  | loadDataReturn => dsimp only [exec]; exact wf_execLoadDataReturn h ..
  | amoResponse => dsimp only [exec]; exact wf_execAmoResponse h ..
  | fence => dsimp only [exec]; exact wf_execFence h ..
  | fenceCompletion => dsimp only [exec]; exact wf_execFenceCompletion h ..
  | vdrain => dsimp only [exec]; exact wf_execVdrain h ..
  | ifence => dsimp only [exec]; exact wf_execIfence h
  | j => dsimp only [exec]; exact wf_execJ h ..
  | jal => dsimp only [exec]; exact wf_execJal h ..
  | jalr => dsimp only [exec]; exact wf_execJalr h ..
  | ecall => dsimp only [exec]; exact wf_execEcall h
  | ebreak => dsimp only [exec]; exact wf_execEbreak h
  | eret => dsimp only [exec]; exact wf_execEret h
  | wfi => dsimp only [exec]; exact wf_execWfi h
  | wakeCondition => dsimp only [exec]; exact wf_execWakeCondition h ..
  | yield => dsimp only [exec]; exact wf_execYield h
  | pause => dsimp only [exec]; exact wf_execPause h
  | plbinv => dsimp only [exec]; exact wf_execPlbinv h ..
  | htinv => dsimp only [exec]; exact wf_execHtinv h ..
  | htinvMigrate => dsimp only [exec]; exact wf_execHtinvMigrate h ..
  | strandpark => dsimp only [exec]; exact wf_execStrandpark h ..
  | strandwake => dsimp only [exec]; exact wf_execStrandwake h ..
  | vcfg => dsimp only [exec]; exact wf_execVcfg h ..
  | vsetl => dsimp only [exec]; exact wf_execVsetl h ..
  | vacq => dsimp only [exec]; exact wf_execVacq h ..
  | vrelease => dsimp only [exec]; exact wf_execVrelease h
  | vgettag => dsimp only [exec]; exact wf_execVgettag h ..
  | vdot4 => dsimp only [exec]; exact wf_execVdot4 h ..
  | vbxpack => dsimp only [exec]; exact wf_execVbxpack h ..
  | vpermute => dsimp only [exec]; exact wf_execVpermute h ..
  | vbcast => dsimp only [exec]; exact wf_execVbcast h ..
  | vextr => dsimp only [exec]; exact wf_execVextr h ..
  | vins => dsimp only [exec]; exact wf_execVins h ..
  | vzip => dsimp only [exec]; exact wf_execVzip h ..
  | vunzip => dsimp only [exec]; exact wf_execVunzip h ..
  | vid => dsimp only [exec]; exact wf_execVid h ..
  | vmvix => dsimp only [exec]; exact wf_execVmvix h ..
  | vrecur => dsimp only [exec]; exact wf_execVrecur h ..
  | pfirst => dsimp only [exec]; exact wf_execPfirst h ..
  | pfromv => dsimp only [exec]; exact wf_execPfromv h ..
  | ptov => dsimp only [exec]; exact wf_execPtov h ..
  | ticketServed => dsimp only [exec]; exact wf_execTicketServed h
  | elds => dsimp only [exec]; exact wf_execElds h ..
  | ests => dsimp only [exec]; exact wf_execEsts h ..
  | ezero => dsimp only [exec]; exact wf_execEzero h ..
  | repf => dsimp only [exec]; exact wf_execRepf h ..
  | mmaCompletion => dsimp only [exec]; exact wf_execMmaCompletion h ..
  | tld => dsimp only [exec]; exact wf_execTld h ..
  | tst => dsimp only [exec]; exact wf_execTst h ..
  | tldm => dsimp only [exec]; exact wf_execTldm h ..
  | tstm => dsimp only [exec]; exact wf_execTstm h ..
  | tzero => dsimp only [exec]; exact wf_execTzero h ..
  | tmov => dsimp only [exec]; exact wf_execTmov h ..
  | ttrans => dsimp only [exec]; exact wf_execTtrans h ..
  | tcfg => dsimp only [exec]; exact wf_execTcfg h ..
  | trowv => dsimp only [exec]; exact wf_execTrowv h ..
  | vtrow => dsimp only [exec]; exact wf_execVtrow h ..
  | tcolv => dsimp only [exec]; exact wf_execTcolv h ..
  | accz => dsimp only [exec]; exact wf_execAccz h ..
  | accst => dsimp only [exec]; exact wf_execAccst h ..
  | accrd => dsimp only [exec]; exact wf_execAccrd h ..
  | accwr => dsimp only [exec]; exact wf_execAccwr h ..
  | accadd => dsimp only [exec]; exact wf_execAccadd h ..
  | accscl => dsimp only [exec]; exact wf_execAccscl h ..
  | gbar => dsimp only [exec]; exact wf_execGbar h ..
  | barrierPhaseComplete => dsimp only [exec]; exact wf_execBarrierPhaseComplete h ..
  | gbarTimeout => dsimp only [exec]; exact wf_execGbarTimeout h ..
  | gtmcast => dsimp only [exec]; exact wf_execGtmcast h ..
  | grank => dsimp only [exec]; exact wf_execGrank h ..
  | sempost => dsimp only [exec]; exact wf_execSempost h ..
  | semwait => dsimp only [exec]; exact wf_execSemwait h ..
  | semtry => dsimp only [exec]; exact wf_execSemtry h ..
  | sewait => dsimp only [exec]; exact wf_execSewait h ..
  | cardStart => dsimp only [exec]; exact wf_execCardStart h ..
  | cardComplete => dsimp only [exec]; exact wf_execCardComplete h ..
  | cardStop => dsimp only [exec]; exact wf_execCardStop h ..
  | cpref => dsimp only [exec]; exact wf_execCpref h ..
  | prefetch => dsimp only [exec]; exact wf_execPrefetch h ..
  | cflush => dsimp only [exec]; exact wf_execCflush h ..
  | cinv => dsimp only [exec]; exact wf_execCinv h ..
  | cpin => dsimp only [exec]; exact wf_execCpin h ..
  | cunpin => dsimp only [exec]; exact wf_execCunpin h ..
  | cpri => dsimp only [exec]; exact wf_execCpri h ..
  | samBoard => dsimp only [exec]; exact wf_execSamBoard h ..
  | boardFill => dsimp only [exec]; exact wf_execBoardFill h ..
  | samCld => dsimp only [exec]; exact wf_execSamCld h ..
  | samCst => dsimp only [exec]; exact wf_execSamCst h ..
  | samRelease => dsimp only [exec]; exact wf_execSamRelease h ..
  | samovarPassage => dsimp only [exec]; exact wf_execSamovarPassage h ..
  | recordReentry => dsimp only [exec]; exact wf_execRecordReentry h ..
  | captureHoldExpiry => dsimp only [exec]; exact wf_execCaptureHoldExpiry h ..
  | samNotag => dsimp only [exec]; exact wf_execSamNotag h ..
  | ramow => dsimp only [exec]; exact wf_execRamow h ..
  | sflush => dsimp only [exec]; exact wf_execSflush h
  | sflushw => dsimp only [exec]; exact wf_execSflushw h ..
  | sfrec => dsimp only [exec]; exact wf_execSfrec h ..
  | steepAgeTrigger => dsimp only [exec]; exact wf_execSteepAgeTrigger h ..
  | steepAck => dsimp only [exec]; exact wf_execSteepAck h
  | amreply => dsimp only [exec]; exact wf_execAmreply h ..
  | amdone => dsimp only [exec]; exact wf_execAmdone h
  | rcmask => dsimp only [exec]; exact wf_execRcmask h ..
  | rcunmask => dsimp only [exec]; exact wf_execRcunmask h ..
  | messageArrival => dsimp only [exec]; exact wf_execMessageArrival h
  | amsendAnswer => dsimp only [exec]; exact wf_execAmsendAnswer h ..
  | messageDispatch => dsimp only [exec]; exact wf_execMessageDispatch h ..
  | gnext => dsimp only [exec]; exact wf_execGnext h ..
  | gfield => dsimp only [exec]; exact wf_execGfield h ..
  | gdone => dsimp only [exec]; exact wf_execGdone h
  | groupRetire => dsimp only [exec]; exact wf_execGroupRetire h ..
  | launch => dsimp only [exec]; exact wf_execLaunch h ..
  | lwait => dsimp only [exec]; exact wf_execLwait h ..
  | groupAssign => dsimp only [exec]; exact wf_execGroupAssign h ..
  | footprintFetchComplete => dsimp only [exec]; exact wf_execFootprintFetchComplete h ..
  | reassign => dsimp only [exec]; exact wf_execReassign h ..
  | balloc => dsimp only [exec]; exact wf_execBalloc h ..
  | bfree => dsimp only [exec]; exact wf_execBfree h ..
  | blockReturn => dsimp only [exec]; exact wf_execBlockReturn h
  | illegalInstr => dsimp only [exec]; exact wf_execIllegalInstr h ..
  | trapEntry => dsimp only [exec]; exact wf_execTrapEntry h ..
  | timer => dsimp only [exec]; exact wf_execTimer h ..
  | machineCheck => dsimp only [exec]; exact wf_execMachineCheck h ..
  | poisonMark => dsimp only [exec]; exact wf_execPoisonMark h ..
  | softErrorCorrected => dsimp only [exec]; exact wf_execSoftErrorCorrected h ..
  | thermalTrip => dsimp only [exec]; exact wf_execThermalTrip h
  | status => dsimp only [exec]; exact wf_execStatus h ..
  | tileOwner => dsimp only [exec]; exact wf_execTileOwner h ..
  | ttags => dsimp only [exec]; exact wf_execTtags h ..
  | atags => dsimp only [exec]; exact wf_execAtags h ..
  | steepAgeMax => dsimp only [exec]; exact wf_execSteepAgeMax h ..
  | vl => dsimp only [exec]; exact wf_execVl h ..
  | vhwe => dsimp only [exec]; exact wf_execVhwe h ..
  | fflags => dsimp only [exec]; exact wf_execFflags h ..
  | csrWrite => dsimp only [exec]; exact wf_execCsrWrite h ..
  | gangSetMembership => dsimp only [exec]; exact wf_execGangSetMembership h ..
  | gangStop => dsimp only [exec]; exact wf_execGangStop h ..
  | gangResume => dsimp only [exec]; exact wf_execGangResume h ..
  | debugHalt => dsimp only [exec]; exact wf_execDebugHalt h ..
  | debugResume => dsimp only [exec]; exact wf_execDebugResume h ..
  | dbgData => dsimp only [exec]; exact wf_execDbgData h ..
  | kettleCtl => dsimp only [exec]; exact wf_execKettleCtl h ..
  | kettleAdjust => dsimp only [exec]; exact wf_execKettleAdjust h ..
  | svcMode => dsimp only [exec]; exact wf_execSvcMode h ..
  | samQuotaSet => dsimp only [exec]; exact wf_execSamQuotaSet h ..
  | pinQuotaSet => dsimp only [exec]; exact wf_execPinQuotaSet h ..
  | plbFill => dsimp only [exec]; exact wf_execPlbFill h ..
  | translationWalk => dsimp only [exec]; exact wf_execTranslationWalk h ..
  | migrationSectorCopy => dsimp only [exec]; exact wf_execMigrationSectorCopy h ..
  | migrationComplete => dsimp only [exec]; exact wf_execMigrationComplete h ..
  | start => dsimp only [exec]; exact wf_execStart h ..
  | launchFrame => dsimp only [exec]; exact wf_execLaunchFrame h ..
  | launchFrameCompletion => dsimp only [exec]; exact wf_execLaunchFrameCompletion h ..
  | replay => dsimp only [exec]; exact wf_execReplay h ..
  | replayNodeLaunch => dsimp only [exec]; exact wf_execReplayNodeLaunch h ..
  | patch => dsimp only [exec]; exact wf_execPatch h ..
  | abort => dsimp only [exec]; exact wf_execAbort h ..
  | rerun => dsimp only [exec]; exact wf_execRerun h ..
  | notify => dsimp only [exec]; exact wf_execNotify h ..
  | arena => dsimp only [exec]; exact wf_execArena h ..
  | key => dsimp only [exec]; exact wf_execKey h ..
  | quota => dsimp only [exec]; exact wf_execQuota h ..
  | partition => dsimp only [exec]; exact wf_execPartition h ..
  | teardown => dsimp only [exec]; exact wf_execTeardown h ..
  | attest => dsimp only [exec]; exact wf_execAttest h ..
  | errlog => dsimp only [exec]; exact wf_execErrlog h ..
  | firmware => dsimp only [exec]; exact wf_execFirmware h ..
  | firmwareTakeover => dsimp only [exec]; exact wf_execFirmwareTakeover h
  | retry => dsimp only [exec]; exact wf_execRetry h ..
  | completionPost => dsimp only [exec]; exact wf_execCompletionPost h ..
  | sqPoll => dsimp only [exec]; exact wf_execSqPoll h ..
  | qpdPost => dsimp only [exec]; exact wf_execQpdPost h ..
  | functionLevelReset => dsimp only [exec]; exact wf_execFunctionLevelReset h
  | reset => dsimp only [exec]; exact wf_execReset h
  | starvationToken => dsimp only [exec]; exact wf_execStarvationToken h ..
  | combineBatch => dsimp only [exec]; exact wf_execCombineBatch h ..
  | combiningQueueClose => dsimp only [exec]; exact wf_execCombiningQueueClose h ..
  | bridgeLinkFailure => dsimp only [exec]; exact wf_execBridgeLinkFailure h ..
  | words => dsimp only [exec]; exact wf_execWords h ..
  | msg => dsimp only [exec]; exact wf_execMsg h ..
  | rsp => dsimp only [exec]; exact wf_execRsp h ..
  | ack => dsimp only [exec]; exact wf_execAck h ..
  | demand => dsimp only [exec]; exact wf_execDemand h ..
  | grant => dsimp only [exec]; exact wf_execGrant h ..
  | grantLapse => dsimp only [exec]; exact wf_execGrantLapse h ..
  | blockReplay => dsimp only [exec]; exact wf_execBlockReplay h ..
  | keyRotation => dsimp only [exec]; exact wf_execKeyRotation h ..
  | keyExhausted => dsimp only [exec]; exact wf_execKeyExhausted h ..
  | portStop => dsimp only [exec]; exact wf_execPortStop h ..
  | linkKeySelect => dsimp only [exec]; exact wf_execLinkKeySelect h ..
  | linkKeyStage => dsimp only [exec]; exact wf_execLinkKeyStage h ..
  | linkKeyInstall => dsimp only [exec]; exact wf_execLinkKeyInstall h ..
  | linkPortStop => dsimp only [exec]; exact wf_execLinkPortStop h ..
  | linkRetrain => dsimp only [exec]; exact wf_execLinkRetrain h ..
  | linkKeyData => dsimp only [exec]; exact wf_execLinkKeyData h ..
  | ramowResponse => dsimp only [exec]; exact wf_execRamowResponse h ..
  | gtmcastCopiesWritten => dsimp only [exec]; exact wf_execGtmcastCopiesWritten h ..
  | writebackComplete => dsimp only [exec]; exact wf_execWritebackComplete h ..
  | badPacket => dsimp only [exec]; exact wf_execBadPacket h ..
  | linkTrained => dsimp only [exec]; exact wf_execLinkTrained h ..
  | captureMarkerClear => dsimp only [exec]; exact wf_execCaptureMarkerClear h ..
  | pauseExpiry => dsimp only [exec]; exact wf_execPauseExpiry h ..

/-! #### Machine/Turns -/

theorem State.wf_candidate {s : State} (h : Memory.wf s.mem) (sid) : WfBoth Prod.snd Prod.snd (s.candidate sid) := by
  unfold candidate
  grind [State.wf_frameWord, State.wf_fetchWord, WfBoth]

@[simp] theorem State.passSlot_mem (s : State) (w) : (s.passSlot w).mem = s.mem := by
  unfold passSlot
  repeat' split
  all_goals simp

theorem State.wf_issue {s : State} (h : Memory.wf s.mem) : WfNext s.issue := by
  have hc := State.wf_candidate h s.cur
  unfold issue
  split <;> rename_i e <;> rw [e] at hc
  · simpa using hc
  · simpa using hc
  · split
    · exact wf_execIllegalInstr (by simpa using hc) _
    · exact wf_exec (by simpa using hc) _

theorem State.wf_await {s : State} (h : Memory.wf s.mem) (sid) : WfNext (s.await sid) := by
  unfold await
  cases (s.strand sid).wait with
  | none | poll | gnext | sem | amdone => exact h
  | hold | vector | ordered | scatter => exact State.wf_issue h
  | fetch tag => exact wf_getD h fun _ e => State.takeGathered_mem e
  | gather tags =>
    dsimp only
    split
    · next e => exact State.wf_issue (wf_of_mem_eq (State.takeGathered_mem e) h)
    · exact h
  | landing | inval | cardSlot | sewait => simpa using h
  | load => exact wf_execLoadDataReturn h sid
  | amo => exact wf_execAmoResponse h sid
  | ramow => exact wf_execRamowResponse h sid
  | fence | sflushw => exact wf_execFenceCompletion h sid
  | ticket => exact wf_execTicketServed h
  | gbar => exact wf_execGbarTimeout h sid
  | wfi => exact wf_execWakeCondition h sid
  | pause =>
    dsimp only
    split
    · exact wf_execWakeCondition h sid
    · exact wf_execPauseExpiry h sid
  | ring =>
    dsimp only
    split
    · exact wf_execSamovarPassage h sid
    · exact wf_execSamNotag h sid
  | alight | alightTurn => exact State.wf_finishAlight h sid
  | board => exact wf_execBoardFill h sid
  | amsend => exact wf_execAmsendAnswer h sid
  | writeback => exact wf_execWritebackComplete h sid
  | gdone => exact wf_execGroupRetire h sid
  | gtmcast => exact wf_execGtmcastCopiesWritten h sid

/-- A strand's turn: a passage, an event, a dispatch, a landing, or the next instruction. -/
theorem State.wf_turnOf {s : State} (h : Memory.wf s.mem) (sid) : WfNext (s.turnOf sid) := by
  have hp := State.wf_passageTurn h sid
  have hd := State.wf_dispatch h sid
  unfold turnOf
  split
  · next e => rw [e] at hp; exact hp
  · split
    · split
      · exact State.wf_quiet h sid
      · exact State.wf_await h sid
    · split
      · exact State.wf_await h sid
      · split
        · next e => exact wf_of_mem_eq (State.takeDue_mem e) h
        · split
          · next e => rw [e] at hd; exact hd
          · split
            · exact State.wf_landAgain h ..
            · split
              · exact State.wf_issue h
              · exact State.wf_await h sid

theorem wf_onNext {g : State → State} (hg : ∀ s, Memory.wf s.mem → Memory.wf (g s).mem) {r : Result} (h : WfNext r) :
    WfNext (onNext g r) := by
  cases r with
  | next t => exact hg t h
  | fault | refused => trivial

theorem State.wf_strandTurn {s : State} (h : Memory.wf s.mem) (sid) : WfNext (s.strandTurn sid) :=
  wf_onNext (fun t ht => by simpa using ht) (State.wf_turnOf (by exact h) sid)

theorem State.wf_beginFrame {s : State} (h : Memory.wf s.mem) (q f) : WfNext (s.beginFrame q f) := by
  unfold beginFrame
  split
  · exact wf_execStart h ..
  · exact wf_execLaunchFrame h ..
  · exact wf_execReplay h ..
  · exact wf_execPatch h ..
  · split
    · exact wf_execArena h ..
    · exact wf_execKey h ..
    · exact wf_execQuota h ..
    · exact wf_execPartition h ..
    · exact wf_execTeardown h ..
    · exact wf_execAttest h ..
    · exact wf_execErrlog h ..
    · exact wf_execFirmware h ..
    · exact State.wf_badService h ..
  · split
    · exact wf_execAbort h ..
    · exact wf_execRerun h ..
    · exact State.wf_badControl h ..
  · exact wf_execNotify h ..
  · exact State.wf_badKind h ..

theorem State.wf_pollWork {s : State} (h : Memory.wf s.mem) (q) : WfSomeNext (s.pollWork q) := by
  unfold pollWork
  grind [wf_execSqPoll, WfSomeNext, WfNext]

theorem State.wf_queueWork {s : State} (h : Memory.wf s.mem) (q) : WfSomeNext (s.queueWork q) := by
  have hp := State.wf_postCompletion h q
  unfold queueWork
  split
  · next e => rw [e] at hp; exact hp
  · split
    · split
      · split
        · trivial
        · exact State.wf_beginFrame h ..
      · split
        · exact wf_execRetry h q
        · exact State.wf_pollWork h q
    · exact State.wf_pollWork h q

theorem State.wf_cardWork {s : State} (h : Memory.wf s.mem) (core k) : WfSomeNext (s.cardWork core k) := by
  unfold cardWork
  grind [State.wf_cardOutcome, wf_execCardComplete, wf_execCardStop, WfSomeNext, WfNext]

theorem State.wf_coreWork {s : State} (h : Memory.wf s.mem) (core) : WfSomeNext (s.coreWork core) := by
  unfold coreWork
  dsimp only
  split
  · exact wf_execMmaCompletion h core
  · split
    · next e =>
      obtain ⟨k, _, ek⟩ := List.exists_of_findSome?_eq_some e
      have hk := State.wf_cardWork h core k
      rw [ek] at hk
      exact hk
    · split
      · exact wf_execCardStart h core
      · split
        · exact wf_execPrefetch h core
        · trivial

theorem State.wf_strandWork {s : State} (h : Memory.wf s.mem) (sid) : WfSomeNext (s.strandWork sid) := by
  unfold strandWork
  grind [wf_execGbarTimeout, wf_execTimer, wf_execFootprintFetchComplete, WfSomeNext, WfNext]

theorem State.wf_launchWork {s : State} (h : Memory.wf s.mem) (l) : WfSomeNext (s.launchWork l) := by
  unfold launchWork
  grind [wf_execGroupAssign, wf_execLaunchFrameCompletion, WfSomeNext, WfNext]

theorem State.wf_replayWork {s : State} (h : Memory.wf s.mem) (r) : WfSomeNext (s.replayWork r) :=
  wfSomeNext_map (fun j => wf_execReplayNodeLaunch h r.id j) _

theorem State.wf_migrationWork {s : State} (h : Memory.wf s.mem) (slot) : WfSomeNext (s.migrationWork slot) := by
  unfold migrationWork
  grind [wf_execMigrationComplete, wf_execMigrationSectorCopy, WfSomeNext, WfNext]

theorem State.wf_steepWork {s : State} (h : Memory.wf s.mem) : WfSomeNext s.steepWork := by
  unfold steepWork
  grind [State.wf_storeOwed, wf_execSteepAgeTrigger, wf_execSteepAck, WfSomeNext, WfSome, id, WfNext]

theorem State.wf_pacingWork {s : State} (h : Memory.wf s.mem) : WfSomeNext s.pacingWork := by
  unfold pacingWork
  split
  · exact wf_execGrantLapse h _
  · exact wfSomeNext_map (fun d => wf_execGrant h _) _

theorem State.wf_portWork {s : State} (h : Memory.wf s.mem) (port l) : WfSomeNext (s.portWork port l) := by
  unfold portWork
  grind [wf_execKeyRotation, wf_execBridgeLinkFailure, wf_execKeyExhausted, WfSomeNext, WfNext]

theorem State.wf_combineWork {s : State} (h : Memory.wf s.mem) : WfSomeNext s.combineWork := by
  refine wfSomeNext_map (fun c => ?_) _
  split
  · exact wf_execCombiningQueueClose h ..
  · exact wf_execCombineBatch h ..

theorem wf_unitWork {s : State} (h : Memory.wf s.mem) : ∀ f ∈ unitWork, WfSomeNext (f s) := by
  simp only [unitWork, List.forall_mem_cons]
  refine ⟨?_, ?_, ?_, ?_, ?_, ?_, ?_, State.wf_steepWork h, State.wf_combineWork h, State.wf_pacingWork h, ?_, by simp⟩
  · exact wfSomeNext_map (fun _ => wf_execBarrierPhaseComplete h _) _
  · split
    · trivial
    · exact wf_execBlockReturn h
  · split
    · exact wf_execFirmwareTakeover h
    · trivial
  · exact wfSomeNext_map (fun _ => State.wf_beginFrame h ..) _
  · split
    · exact wf_execQpdPost h ..
    · trivial
  · cases s.tickets.head? with
    | none => trivial
    | some n =>
      dsimp only [Option.bind_some]
      split
      · exact wf_execTicketServed h
      · trivial
  · split
    · trivial
    · exact wf_execMessageArrival h
  · exact wfSomeNext_findSome fun p _ => State.wf_portWork h p.1 p.2

/-- What any unit has due keeps the memory canonical. -/
theorem State.wf_allWork {s : State} (h : Memory.wf s.mem) : ∀ f ∈ s.allWork, WfSomeNext (f s) := by
  intro f hf
  simp only [allWork, List.mem_append, List.mem_map] at hf
  obtain (((((hu | ⟨q, _, rfl⟩) | ⟨c, _, rfl⟩) | ⟨x, _, rfl⟩) | ⟨l, _, rfl⟩) | ⟨r, _, rfl⟩) | ⟨k, _, rfl⟩ := hf
  · exact wf_unitWork h f hu
  · exact State.wf_queueWork h q.1
  · exact State.wf_coreWork h c.1
  · exact State.wf_strandWork h x.1
  · exact State.wf_launchWork h l
  · exact State.wf_replayWork h r
  · exact State.wf_migrationWork h k

theorem State.wf_hardware {s : State} (h : Memory.wf s.mem) : WfSomeNext s.hardware := by
  refine wfSomeNext_findSome fun f hf => State.wf_allWork h f ?_
  exact (List.mem_append.mp hf).elim List.mem_of_mem_drop List.mem_of_mem_take

@[simp] theorem State.expireHolds_mem (s : State) : s.expireHolds.mem = s.mem := by
  refine foldl_mem (fun s c => ?_) _ _
  split
  · exact State.releaseCapture_mem ..
  · rfl

@[simp] theorem State.advance_mem (s : State) : s.advance.mem = s.mem := rfl

@[simp] theorem State.reassignAll_mem (s : State) : s.reassignAll.mem = s.mem := by
  unfold reassignAll
  refine foldl_mem (fun s x => ?_) _ _
  simp

@[simp] theorem State.tick_mem (s : State) : s.tick.mem = s.mem := by
  simp [State.tick]

theorem State.wf_endCycle {s : State} (h : Memory.wf s.mem) : WfNext s.endCycle := by
  unfold endCycle
  grind [State.wf_hardware, State.tick_mem, WfNext, WfSomeNext]

/-! #### Machine/Step -/

/-- The step lemma: a turn of the agenda, of the machine's own order, or the end of a cycle. -/
theorem wf_step {s : State} (h : Memory.wf s.mem) : WfNext (step s) := by
  unfold step
  split
  · trivial
  · split
    · split
      · simpa using h
      · exact wf_onNext (fun t ht => by simpa using ht) (wf_exec (by exact h) _)
    · exact State.wf_strandTurn (by exact h) _
    · simpa using h
    · split
      · exact State.wf_strandTurn (by exact h) _
      · exact State.wf_endCycle h

end Sys2Proof.Machine

/-- Settles O58: `exec` and every unit's work keep the canonical form (`wf_step`), function by function. -/
theorem stepsKeepMemoryCanonical : Obligations.StepsKeepMemoryCanonical := by
  intro s t h e
  have ht := Sys2Proof.Machine.wf_step h
  rw [e] at ht
  exact ht
end

section
/-! ### What an address check may change

R306, R311, R312, R349: whatever a check ends in, nothing differs but the bytes of leaves, the PLBs, the translations held, and
the turns of the combining queues. -/
namespace Sys2Proof.Machine

/-- All that an address check may change: the bytes of leaves, the PLBs, the translations held with what a migration expects
of a leaf, and the turns of the combining queues. -/
def State.AccessOnly (s t : State) : Prop :=
  (∃ m k tr g q, t = { s with mem := m, cores := k, translations := tr, migrations := g, combining := q }) ∧
    ∀ c, ∃ p, t.core c = { s.core c with plb := p }

theorem State.AccessOnly.refl (s : State) : s.AccessOnly s := ⟨⟨_, _, _, _, _, rfl⟩, fun _ => ⟨_, rfl⟩⟩

theorem State.AccessOnly.trans {s t u : State} (h : s.AccessOnly t) (h' : t.AccessOnly u) : s.AccessOnly u := by
  obtain ⟨⟨_, _, _, _, _, rfl⟩, hc⟩ := h
  obtain ⟨⟨_, _, _, _, _, rfl⟩, hc'⟩ := h'
  refine ⟨⟨_, _, _, _, _, rfl⟩, fun c => ?_⟩
  obtain ⟨_, e⟩ := hc c
  obtain ⟨p, e'⟩ := hc' c
  exact ⟨p, by rw [e', e]⟩

/-- What leaves the cores alone. -/
theorem State.accessOnly_of {s : State} (m tr g q) :
    s.AccessOnly { s with mem := m, translations := tr, migrations := g, combining := q } :=
  ⟨⟨_, _, _, _, _, rfl⟩, fun _ => ⟨_, rfl⟩⟩

theorem State.accessOnly_setPlb (s : State) (core : Nat) (p) :
    s.AccessOnly (s.setCore core { s.core core with plb := p }) := by
  refine ⟨⟨_, _, _, _, _, rfl⟩, fun c => ?_⟩
  by_cases hc : c = core
  · exact ⟨p, by rw [hc, State.core_setCore_same]⟩
  · exact ⟨_, by rw [State.core_setCore_ne _ _ hc]⟩

/-- The state of an optional answer, if there is one, is as an address check may leave `s`. -/
@[simp] def AccessSome {α : Type} (s : State) : Option (α × State) → Prop
  | some x => s.AccessOnly x.2
  | none => True

/-- The state of either kind of answer is as an address check may leave `s`. -/
@[simp] def AccessBoth {ε α : Type} (e : ε → State) (get : α → State) (s : State) : Except ε α → Prop
  | .ok x => s.AccessOnly (get x)
  | .error x => s.AccessOnly (e x)

theorem State.accessOnly_setLeaf (s : State) (at_ old new) : s.AccessOnly (s.setLeaf at_ old new) :=
  State.accessOnly_of (s.writeMem at_ 8 new.toNat).mem _ _ _

theorem State.access_walkFor (s : State) (kind va) : AccessSome s (s.walkFor kind va) := by
  unfold walkFor
  split
  · trivial
  · split
    · dsimp only
      split
      · exact State.accessOnly_of _ _ _ _
      · exact (State.accessOnly_setLeaf ..).trans (State.accessOnly_of _ _ _ _)
    · trivial

theorem State.access_translation (s : State) (kind va) : AccessSome s (s.translation kind va) := by
  unfold translation
  split
  · exact State.access_walkFor ..
  · split
    · trivial
    · split
      · dsimp only
        split
        · exact (State.accessOnly_setLeaf ..).trans (State.accessOnly_of _ _ _ _)
        · next t _ _ _ _ =>
          have hw := State.access_walkFor { s with translations := s.translations.filter (fun u => u != t) } kind va
          revert hw
          cases State.walkFor _ kind va with
          | none => exact fun _ => trivial
          | some x => exact (State.accessOnly_of s.mem _ s.migrations s.combining).trans
      · exact State.AccessOnly.refl s

theorem State.access_translate (s : State) (kind va) : AccessSome s (s.translate kind va) := by
  have ht := State.access_translation s kind va
  unfold translate
  split
  · trivial
  · next e =>
    rw [e] at ht
    split
    · exact ht
    · exact ht
    · trivial

theorem State.access_loadOwn (s : State) (list core a n) : s.AccessOnly (s.loadOwn list core a n).2 := by
  have ht := State.access_translate s .load a.toNat
  have hr := State.AccessOnly.refl s
  unfold loadOwn
  split
  · exact hr
  · split
    · split <;> exact hr
    · exact hr
  · split
    · exact hr
    · split <;> rename_i e
      · rw [e] at ht
        split <;> exact ht
      · rwa [e] at ht
      · rwa [e] at ht
      · exact hr

theorem State.access_readRights (s : State) (core at_ n) : s.AccessOnly (s.readRights core at_ n).2 := by
  induction n generalizing s at_ with
  | zero => exact State.AccessOnly.refl s
  | succ n ih =>
    have hl := State.access_loadOwn s (s.coreList core) core at_ 16
    unfold readRights
    split <;> rename_i e
    · rw [e] at hl
      exact hl.trans (ih ..)
    · rwa [e] at hl

theorem State.access_fillEntry (s : State) (sid domain plb va) : s.AccessOnly (s.fillEntry sid domain plb va).2 := by
  unfold fillEntry
  split
  · exact State.AccessOnly.refl s
  · split
    · exact State.AccessOnly.refl s
    · next at_ _ =>
      have hr := State.access_readRights s (coreOf sid) at_ 256
      dsimp only
      split
      · exact hr
      · split <;> exact hr

theorem State.access_plbLookup (s : State) (who va) : s.AccessOnly (s.plbLookup who va).2 := by
  have hf := State.access_fillEntry s who.sid who.domain who.plb va
  unfold plbLookup
  split
  · exact State.AccessOnly.refl s
  · split <;> rename_i e <;> rw [e] at hf
    · exact hf
    · exact hf.trans (State.accessOnly_setPlb ..)

theorem State.access_plbGrants (s : State) (who need va) : s.AccessOnly (s.plbGrants who need va).2 := by
  have hl := State.access_plbLookup s who va
  unfold plbGrants
  split <;> rename_i e <;> rwa [e] at hl

theorem State.access_reach (s : State) (who kind a n) : AccessBoth Prod.snd Prod.snd s (s.reach who kind a n) := by
  have hr := State.AccessOnly.refl s
  unfold reach
  split
  · exact hr
  · split
    · exact hr
    · split <;> exact hr
  · split
    · exact hr
    · have hg := State.access_plbGrants s who (rightsNeeded kind) a.toNat
      split <;> rename_i e <;> rw [e] at hg
      · exact hg
      · next s1 =>
        have ht := State.access_translate s1 kind a.toNat
        split
        · exact hg
        · split <;> rename_i et
          · exact hg
          · rw [et] at ht
            exact hg.trans ht

theorem State.access_takeTurn (s : State) (who p n) :
    AccessBoth id id s (s.takeTurn who p n) := by
  have hr := State.AccessOnly.refl s
  unfold takeTurn
  split
  · split
    · exact hr
    · dsimp only
      split
      · exact State.accessOnly_of _ _ _ _
      · split
        · exact hr
        · exact State.accessOnly_of _ _ _ _
  · exact hr

/-- R306, R311, R312, R349: what an address check may change, whatever it ends in. -/
theorem State.access_resolve (s : State) (who kind a n) : AccessBoth Prod.snd Prod.snd s (s.resolve who kind a n) := by
  have hr := State.access_reach s who kind a n
  unfold resolve
  split <;> rename_i e <;> rw [e] at hr
  · exact hr
  · next p s1 =>
    have ht := State.access_takeTurn s1 who p n
    split
    · exact hr
    · split <;> rename_i et <;> rw [et] at ht
      · exact State.AccessOnly.trans hr ht
      · exact State.AccessOnly.trans hr ht

theorem State.AccessOnly.cur {s t : State} (h : s.AccessOnly t) : t.cur = s.cur := by
  obtain ⟨⟨_, _, _, _, _, rfl⟩, -⟩ := h
  rfl

theorem State.AccessOnly.strands {s t : State} (h : s.AccessOnly t) : t.strands = s.strands := by
  obtain ⟨⟨_, _, _, _, _, rfl⟩, -⟩ := h
  rfl

theorem State.AccessOnly.strand {s t : State} (h : s.AccessOnly t) (sid : Nat) : t.strand sid = s.strand sid := by
  obtain ⟨⟨_, _, _, _, _, rfl⟩, -⟩ := h
  rfl

theorem State.AccessOnly.me {s t : State} (h : s.AccessOnly t) : t.me = s.me := by
  rw [State.me, h.cur, h.strand, State.me]

theorem State.AccessOnly.g {s t : State} (h : s.AccessOnly t) (r) : t.g r = s.g r := by
  rw [State.g, h.me, State.g]

end Sys2Proof.Machine
end

section
/-! ### O59: every step keeps every strand sound

Of a strand, soundness reads p0, STATUS, FRM and the mode its handler returns to. Few operations write one of these: a trap's
entry and an ERET, a handler's start and end, the CSR writes, START, a reset, and the predicate writes, which leave p0. What
follows carries soundness through the model, function by function in the model's own order. A function that changes no strand
has a lemma `f_strands`, an equation (or `keeps_f`, where the states stand inside an answer); one that changes strands has a
lemma `sound_f`: an equivalence where it leaves alone all that soundness reads, else an implication. The proofs split the
branches of the definition; `simp` or `grind` closes each with the lemmas of the functions called. -/
namespace Sys2Proof.Machine

-- One lemma after the other: `grind` waits for the lemmas it is given, and every proof that waits keeps a thread's stack.
set_option Elab.async false

/-- Every strand of a map is sound, those it does not list included. -/
structure AllSound (m : Map Strand) : Prop where
  get : ∀ sid, (mapGet m sid Strand.reset).sound = true

theorem State.strandsSound_iff (s : State) : s.StrandsSound ↔ AllSound s.strands := ⟨fun h => ⟨h⟩, fun h => h.get⟩

theorem AllSound.strand {s : State} (h : AllSound s.strands) (sid : Nat) : (s.strand sid).sound = true := h.get sid

theorem AllSound.me {s : State} (h : AllSound s.strands) : s.me.sound = true := h.get s.cur

/-- The state of an optional answer, if there is one, has these strands. -/
@[simp] def KeepsSome {α : Type} (get : α → State) : Option α → Map Strand → Prop
  | some x, m => (get x).strands = m
  | none, _ => True

/-- Of an answer that may be an error, the state of either kind has these strands. -/
@[simp] def KeepsBoth {ε α : Type} (e : ε → State) (get : α → State) : Except ε α → Map Strand → Prop
  | .ok x, m => (get x).strands = m
  | .error x, m => (e x).strands = m

/-- The state of an optional answer, if there is one, has sound strands. -/
@[simp] def SoundSome {α : Type} (get : α → State) : Option α → Prop
  | some x => AllSound (get x).strands
  | none => True

/-- Of an answer that may be an error, the state of either kind has sound strands. -/
@[simp] def SoundBoth {ε α : Type} (e : ε → State) (get : α → State) : Except ε α → Prop
  | .ok x => AllSound (get x).strands
  | .error x => AllSound (e x).strands

/-- The next state of an outcome, if there is one, has sound strands. -/
@[simp] def SoundNext : Result → Prop
  | .next t => AllSound t.strands
  | .fault _ => True
  | .refused _ => True

/-- A unit's work, if any is due, leaves sound strands. -/
@[simp] def SoundSomeNext : Option Result → Prop
  | some r => SoundNext r
  | none => True

/-- The state in which the handling of a frame ends has sound strands. -/
@[simp] def SoundEnd : FrameEnd → Prop
  | .done _ _ t => AllSound t.strands
  | .later t => AllSound t.strands
  | .waits _ _ t => AllSound t.strands
  | .drains _ _ _ t => AllSound t.strands

/-- The state a CSR write leaves, if it is one, has sound strands. -/
@[simp] def SoundEffect : WriteEffect → Prop
  | .done t => AllSound t.strands
  | .wait t => AllSound t.strands
  | .illegal => True

section
variable {ε α : Type} {e : ε → State} {get : α → State} {s : State}

theorem AllSound.of_ok {r : Except ε α} {x : α} (h : AllSound s.strands) (k : KeepsBoth e get r s.strands) (er : r = .ok x) :
    AllSound (get x).strands := by
  rw [er] at k
  exact k ▸ h

theorem AllSound.of_error {r : Except ε α} {x : ε} (h : AllSound s.strands) (k : KeepsBoth e get r s.strands)
    (er : r = .error x) : AllSound (e x).strands := by
  rw [er] at k
  exact k ▸ h

theorem AllSound.both {r : Except ε α} (h : AllSound s.strands) (k : KeepsBoth e get r s.strands) : SoundBoth e get r := by
  cases r with
  | ok x => exact h.of_ok k rfl
  | error x => exact h.of_error k rfl

theorem AllSound.of_some {o : Option α} {x : α} (h : AllSound s.strands) (k : KeepsSome get o s.strands) (eo : o = some x) :
    AllSound (get x).strands := by
  rw [eo] at k
  exact k ▸ h

end

theorem sound_foldl {α : Type} {g : State → α → State} (hg : ∀ s x, AllSound s.strands → AllSound (g s x).strands)
    {s : State} (h : AllSound s.strands) (l : List α) : AllSound (l.foldl g s).strands := by
  induction l generalizing s with
  | nil => exact h
  | cons x t ih => exact ih (hg s x h)

theorem sound_foldl_iff {α : Type} {g : State → α → State} (hg : ∀ s x, AllSound (g s x).strands ↔ AllSound s.strands)
    (s : State) (l : List α) : AllSound (l.foldl g s).strands ↔ AllSound s.strands := by
  induction l generalizing s with
  | nil => exact Iff.rfl
  | cons x t ih => exact (ih _).trans (hg s x)

theorem foldl_strands {α : Type} {g : State → α → State} (hg : ∀ s x, (g s x).strands = s.strands) (s : State)
    (l : List α) : (l.foldl g s).strands = s.strands := by
  induction l generalizing s with
  | nil => rfl
  | cons x t ih => exact (ih _).trans (hg s x)

theorem sound_of_strands_eq {s t : State} (e : t.strands = s.strands) (h : AllSound s.strands) : AllSound t.strands :=
  e ▸ h

theorem sound_getD {o : Option State} {s : State} (h : AllSound s.strands) (ho : ∀ t, o = some t → AllSound t.strands) :
    AllSound (o.getD s).strands := by
  cases o with
  | none => exact h
  | some t => exact ho t rfl

theorem soundSomeNext_map {α : Type} {g : α → Result} (hg : ∀ x, SoundNext (g x)) (o : Option α) :
    SoundSomeNext (o.map g) := by
  cases o with
  | none => trivial
  | some x => exact hg x

theorem soundSomeNext_findSome {α : Type} {l : List α} {g : α → Option Result} (hg : ∀ x ∈ l, SoundSomeNext (g x)) :
    SoundSomeNext (l.findSome? g) := by
  cases e : l.findSome? g with
  | none => trivial
  | some r =>
    obtain ⟨x, hx, ex⟩ := List.exists_of_findSome?_eq_some e
    have hr := hg x hx
    rwa [ex] at hr

/-! #### One strand -/

theorem Strand.sound_iff (x : Strand) : x.sound = true ↔
    x.p[0] = BitVec.allOnes 2048 ∧ statusSound x.status = true ∧ x.frm &&& 0x1F07 = x.frm ∧
      x.handler.all (fun h => h.mode != .f) = true := by
  simp [Strand.sound, and_assoc]

/-- A strand that has what soundness reads of a sound one is sound. -/
theorem Strand.sound_congr {x y : Strand} (hp : x.p = y.p) (hs : x.status = y.status) (hf : x.frm = y.frm)
    (hh : x.handler = y.handler) : x.sound = y.sound := by
  simp [Strand.sound, hp, hs, hf, hh]

/-- The word of STATUS is sound when its MODE names U or S. -/
theorem statusSound_statusWord (mcx phdlr pie ie : Bool) (pmode mode : BitVec 2) :
    statusSound (statusWord mcx phdlr pie ie pmode mode) = !mode.getLsbD 1 := by
  have hm : (statusWord mcx phdlr pie ie pmode mode).getLsbD 1 = mode.getLsbD 1 := by
    simp only [statusWord, BitVec.getLsbD_append]
    rfl
  have hr : (statusWord mcx phdlr pie ie pmode mode).getLsbD 6 = false := by
    simp only [statusWord, BitVec.getLsbD_append]
    rfl
  have hz : (statusWord mcx phdlr pie ie pmode mode).extractLsb' 9 55 = 0 := by
    refine BitVec.eq_of_getLsbD_eq fun i hi => ?_
    simp only [statusWord, BitVec.getLsbD_extractLsb', BitVec.getLsbD_append]
    have : ¬ 9 + i < 9 := by omega
    simp [this]
  rw [statusSound, hm, hr, hz]
  simp

theorem modeOf_ne_f {st : BitVec 64} (h : st.getLsbD 1 = false) : modeOf st ≠ .f := by
  have hb : (st.extractLsb' 0 2).getLsbD 1 = false := by simpa [BitVec.getLsbD_extractLsb'] using h
  unfold modeOf
  generalize st.extractLsb' 0 2 = b at hb ⊢
  revert b
  decide

theorem getLsbD_one_of_statusSound {st : BitVec 64} (h : statusSound st = true) : st.getLsbD 1 = false := by
  simp only [statusSound, Bool.and_eq_true, beq_iff_eq] at h
  exact h.1.1

/-- A sound strand is in U or S. -/
theorem Strand.mode_ne_f {x : Strand} (h : x.sound = true) : x.mode ≠ .f :=
  modeOf_ne_f (getLsbD_one_of_statusSound (x.sound_iff.mp h).2.1)

/-- The entry of a trap leaves a sound strand, whatever it was: MODE names S. -/
theorem Strand.sound_enter {x : Strand} (h : x.sound = true) (t : Trap) : (x.enter t).sound = true := by
  obtain ⟨hp, -, hf, hh⟩ := x.sound_iff.mp h
  exact (Strand.sound_iff _).mpr ⟨hp, statusSound_statusWord .., hf, hh⟩

/-! #### The strands of a state -/

theorem sound_mapSet {m : Map Strand} (h : AllSound m) (sid : Nat) {x : Strand} (hx : x.sound = true) :
    AllSound (mapSet m sid x) := by
  refine ⟨fun i => ?_⟩
  by_cases hi : i = sid
  · rw [hi, mapGet_mapSet_same]; exact hx
  · rw [mapGet_mapSet_ne _ _ _ hi]; exact h.get i

theorem sound_mapSet_iff {m : Map Strand} {sid : Nat} {x : Strand} (hx : x.sound = (mapGet m sid Strand.reset).sound) :
    AllSound (mapSet m sid x) ↔ AllSound m := by
  refine ⟨fun h => ⟨fun i => ?_⟩, fun h => sound_mapSet h sid (hx.trans (h.get sid))⟩
  by_cases hi : i = sid
  · have hs := h.get sid
    rwa [mapGet_mapSet_same, hx, ← hi] at hs
  · have hs := h.get i
    rwa [mapGet_mapSet_ne _ _ _ hi] at hs

section
variable (s : State) {sid : Nat} {x : Strand}

/-- A strand replaced by one that has what soundness reads of it. -/
@[simp] theorem State.sound_mapSet_congr (hp : x.p = (s.strand sid).p) (hs : x.status = (s.strand sid).status)
    (hf : x.frm = (s.strand sid).frm) (hh : x.handler = (s.strand sid).handler) :
    AllSound (mapSet s.strands sid x) ↔ AllSound s.strands :=
  sound_mapSet_iff (Strand.sound_congr hp hs hf hh)

theorem State.sound_setStrand (hp : x.p = (s.strand sid).p) (hs : x.status = (s.strand sid).status)
    (hf : x.frm = (s.strand sid).frm) (hh : x.handler = (s.strand sid).handler) :
    AllSound (s.setStrand sid x).strands ↔ AllSound s.strands :=
  s.sound_mapSet_congr hp hs hf hh

theorem State.sound_setMe (hp : x.p = s.me.p) (hs : x.status = s.me.status) (hf : x.frm = s.me.frm)
    (hh : x.handler = s.me.handler) : AllSound (s.setMe x).strands ↔ AllSound s.strands :=
  s.sound_mapSet_congr hp hs hf hh

end

@[simp] theorem State.strands_setMe (s : State) (x : Strand) : (s.setMe x).strands = mapSet s.strands s.cur x := (rfl)

/-! The updates of the state, as equations that `simp` also rewrites by inside a side condition, where it refuses a definitional
one. -/

@[simp] theorem State.strands_setStrand (s : State) (sid x) : (s.setStrand sid x).strands = mapSet s.strands sid x := (rfl)

@[simp] theorem State.strands_setCore (s : State) (c x) : (s.setCore c x).strands = s.strands := (rfl)

@[simp] theorem State.strands_setDomain (s : State) (d x) : (s.setDomain d x).strands = s.strands := (rfl)

@[simp] theorem State.strands_writeMem (s : State) (a n x) : (s.writeMem a n x).strands = s.strands := (rfl)

@[simp] theorem State.strands_setSpadByte (s : State) (c off b) : (s.setSpadByte c off b).strands = s.strands := (rfl)

@[simp] theorem State.strands_drawn (s : State) : s.drawn.strands = s.strands := (rfl)

@[simp] theorem State.strand_cur (s : State) : s.strand s.cur = s.me := by rw [State.me]

@[simp] theorem State.sound_retire (s : State) : AllSound s.retire.strands ↔ AllSound s.strands := by
  simp [State.retire_only]

@[simp] theorem Strand.setG_p (x : Strand) (d v) : (x.setG d v).p = x.p := by
  unfold setG; split <;> rfl
@[simp] theorem Strand.setG_status (x : Strand) (d v) : (x.setG d v).status = x.status := by
  unfold setG; split <;> rfl
@[simp] theorem Strand.setG_frm (x : Strand) (d v) : (x.setG d v).frm = x.frm := by
  unfold setG; split <;> rfl
@[simp] theorem Strand.setG_handler (x : Strand) (d v) : (x.setG d v).handler = x.handler := by
  unfold setG; split <;> rfl

@[simp] theorem State.sound_setG (s : State) (d v) : AllSound (s.setG d v).strands ↔ AllSound s.strands := by
  simp [State.setG_only]

@[simp] theorem State.sound_writeG (s : State) (d v) : AllSound (s.writeG d v).strands ↔ AllSound s.strands := by
  simp [State.writeG]

@[simp] theorem State.sound_jump (s : State) (a) : AllSound (s.jump a).strands ↔ AllSound s.strands := by
  simp [State.jump_only]

@[simp] theorem State.sound_waiting (s : State) (w) : AllSound (s.waiting w).strands ↔ AllSound s.strands := by
  simp [State.waiting_only]

@[simp] theorem State.sound_trapOn {s : State} (h : AllSound s.strands) (sid t) : AllSound (s.trapOn sid t).strands := by
  obtain ⟨_, _, e⟩ := s.trapOn_only sid t
  rw [e]
  exact sound_mapSet h sid (Strand.sound_enter (h.strand sid) t)

/-! #### Machine/Ops -/

@[simp] theorem State.writeUnder_strands (s : State) (key a n x) : (s.writeUnder key a n x).strands = s.strands := by
  obtain ⟨m, k, e, -⟩ := s.writeUnder_only key a n x
  rw [e]

@[simp] theorem State.setMyCore_strands (s : State) (x) : (s.setMyCore x).strands = s.strands := (rfl)

@[simp] theorem State.asStrand_strands (s : State) (sid : Nat) (f : State → State) :
    (s.asStrand sid f).strands = (f { s with cur := sid }).strands := (rfl)

@[simp] theorem State.releaseCapture_strands (s : State) (sid lost) :
    (s.releaseCapture sid lost).strands = s.strands := by
  unfold releaseCapture
  split <;> rfl

@[simp] theorem State.sound_trap {s : State} (h : AllSound s.strands) (t) : AllSound (s.trap t).strands :=
  State.sound_trapOn h s.cur t

@[simp] theorem State.sound_trapAfter {s : State} (h : AllSound s.strands) (t) : AllSound (s.trapAfter t).strands := by
  unfold trapAfter
  split <;> simp [h]

/-! #### Machine/Alu -/

theorem sound_aluRR {s : State} (h : AllSound s.strands) (f d a b) : SoundNext (aluRR f d a b s) := by
  simpa [aluRR] using h

theorem sound_aluR {s : State} (h : AllSound s.strands) (f d a) : SoundNext (aluR f d a s) := by
  simpa [aluR] using h

theorem sound_execSel {s : State} (h : AllSound s.strands) (d a b) : SoundNext (execSel d a b s) := by
  unfold execSel
  grind [sound_aluRR, SoundNext]

theorem sound_execLdi {s : State} (h : AllSound s.strands) (d i) : SoundNext (execLdi d i s) := by
  simpa [execLdi] using h

theorem sound_execLdis {s : State} (h : AllSound s.strands) (d i) : SoundNext (execLdis d i s) := by
  simpa [execLdis] using h

/-! #### Machine/Flags -/

@[simp] theorem State.sound_finish {s : State} (h : AllSound s.strands) (flags) : AllSound (s.finish flags).strands := by
  unfold finish
  grind [State.sound_setMe, State.sound_retire, State.sound_trapAfter]

/-! #### Machine/Fpu -/

theorem sound_fpRounding {s : State} (h : AllSound s.strands) (w d f) : SoundNext (fpRounding w d f s) := by
  unfold fpRounding
  split <;> simp [h]

theorem sound_fpExact {s : State} (h : AllSound s.strands) (d r) : SoundNext (fpExact d r s) := by
  simp [fpExact, h]

theorem sound_fmaResult {s : State} (h : AllSound s.strands) (negProduct negAddend op d a b c f) :
    SoundNext (fmaResult negProduct negAddend op d a b c f s) := by
  unfold fmaResult
  grind [sound_fpRounding, SoundNext]

/-! #### Machine/Operands -/

@[simp] theorem Strand.sound_setG (x : Strand) (d v) : (x.setG d v).sound = x.sound := by
  unfold setG
  split <;> rfl

@[simp] theorem Strand.sound_setV (x : Strand) (n r) : (x.setV n r).sound = x.sound := rfl

/-- Another predicate than p0 may hold anything. -/
theorem Strand.sound_pSet {x : Strand} (h : x.sound = true) {i : Nat} (h0 : 0 < i) (hi : i < 8) (v) :
    Strand.sound { x with p := x.p.set i v hi } = true := by
  obtain ⟨hp, hs, hf, hh⟩ := x.sound_iff.mp h
  exact (Strand.sound_iff _).mpr ⟨by simpa [Vector.getElem_set_ne _ _ h0.ne'] using hp, hs, hf, hh⟩

/-- A predicate write leaves p0 (R34). -/
@[simp] theorem Strand.sound_setP (x : Strand) (n v) : (x.setP n v).sound = x.sound := by
  unfold setP
  split
  · rfl
  · next h =>
    have hn : n.toNat ≠ 0 := fun e => h (BitVec.eq_of_toNat_eq e)
    simp [Strand.sound, Vector.getElem_set_ne _ _ hn]

@[simp] theorem Strand.sound_deliver (x : Strand) (d tag mode l) : (x.deliver d tag mode l).1.sound = x.sound := by
  unfold deliver
  dsimp only
  split <;> rfl

@[simp] theorem Strand.sound_deliverRaw (x : Strand) (d vtype l) : (x.deliverRaw d vtype l).sound = x.sound := rfl

@[simp] theorem State.sound_endVector {s : State} (h : AllSound s.strands) {x : Strand} (hx : x.sound = true) (fl) :
    AllSound (s.endVector x fl).strands :=
  State.sound_finish (sound_mapSet h s.cur (x := { x with vstart := 0 }) hx) fl

@[simp] theorem State.sound_endFrom {s : State} (h : AllSound s.strands) {x : Strand} (hx : x.sound = true) (fl) :
    AllSound (s.endFrom x fl).strands := by
  unfold endFrom
  split
  · exact State.sound_endVector h h.me 0
  · exact State.sound_endVector h hx fl

/-! #### Machine/Access -/

@[simp] theorem State.writeSpad_strands (s : State) (core off n x : Nat) : (s.writeSpad core off n x).strands = s.strands := by
  induction n generalizing s off x with
  | zero => rfl
  | succ n ih => exact (ih _ _ _).trans rfl

@[simp] theorem State.noteStore_strands (s : State) (core off n) : (s.noteStore core off n).strands = s.strands := by
  unfold noteStore
  split <;> rfl

@[simp] theorem State.writePlace_strands (s : State) (p n x) : (s.writePlace p n x).strands = s.strands := by
  unfold writePlace
  grind [State.writeSpad_strands, State.writeSpan_strands, State.noteStore_strands]

@[simp] theorem State.setLeaf_strands (s : State) (at_ old new) : (s.setLeaf at_ old new).strands = s.strands := by
  unfold setLeaf
  grind [State.writeMem_strands]

theorem State.keeps_walkFor (s : State) (kind va) : KeepsSome Prod.snd (s.walkFor kind va) s.strands := by
  unfold walkFor
  grind [State.setLeaf_strands, KeepsSome]

theorem State.keeps_translation (s : State) (kind va) :
    KeepsSome Prod.snd (s.translation kind va) s.strands := by
  unfold translation
  grind [State.keeps_walkFor, State.setLeaf_strands, KeepsSome]

theorem State.keeps_translate (s : State) (kind va) : KeepsSome Prod.snd (s.translate kind va) s.strands := by
  unfold translate
  grind [State.keeps_translation, KeepsSome]

@[simp] theorem State.loadOwn_strands (s : State) (list core a n) :
    (s.loadOwn list core a n).2.strands = s.strands := by
  unfold loadOwn
  grind [State.keeps_translate, KeepsSome]

@[simp] theorem State.readRights_strands (s : State) (core : Nat) (at_ : Word) (n : Nat) :
    (s.readRights core at_ n).2.strands = s.strands := by
  induction n generalizing s at_ with
  | zero => rfl
  | succ n ih => unfold readRights; grind [State.loadOwn_strands]

@[simp] theorem State.fillEntry_strands (s : State) (sid domain plb va) :
    (s.fillEntry sid domain plb va).2.strands = s.strands := by
  unfold fillEntry
  grind [State.readRights_strands]

@[simp] theorem State.plbLookup_strands (s : State) (who va) : (s.plbLookup who va).2.strands = s.strands := by
  unfold plbLookup
  grind [State.setCore_strands, State.fillEntry_strands]

@[simp] theorem State.plbGrants_strands (s : State) (who need va) :
    (s.plbGrants who need va).2.strands = s.strands := by
  unfold plbGrants
  grind [State.plbLookup_strands]

theorem State.keeps_plbRange (s : State) (who need va stop n) :
    KeepsBoth Prod.snd Prod.snd (s.plbRange who need va stop n) s.strands := by
  induction n generalizing s va with
  | zero => rfl
  | succ n ih => unfold plbRange; grind [State.plbLookup_strands, KeepsBoth]

@[simp] theorem State.joinQueue_strands (s : State) (k q o) : (s.joinQueue k q o).strands = s.strands := (rfl)

@[simp] theorem State.popQueue_strands (s : State) (k q n) : (s.popQueue k q n).strands = s.strands := (rfl)

theorem State.keeps_takeTurn (s : State) (who p n) : KeepsBoth id id (s.takeTurn who p n) s.strands := by
  unfold takeTurn
  dsimp only
  repeat' split
  all_goals simp

theorem State.keeps_reach (s : State) (who kind a n) :
    KeepsBoth Prod.snd Prod.snd (s.reach who kind a n) s.strands := by
  unfold reach
  grind [State.keeps_translate, State.plbGrants_strands, KeepsBoth, KeepsSome]

theorem State.keeps_resolve (s : State) (who kind a n) :
    KeepsBoth Prod.snd Prod.snd (s.resolve who kind a n) s.strands := by
  unfold resolve
  grind [State.keeps_takeTurn, State.keeps_reach, KeepsBoth, id]

/-! #### Machine/Fabric -/

@[simp] theorem State.setPort_strands (s : State) (n p) : (s.setPort n p).strands = s.strands := (rfl)

@[simp] theorem State.reroute_strands (s : State) : s.reroute.strands = s.strands := (rfl)

@[simp] theorem State.portSent_strands (s : State) (port l) : (s.portSent port l).strands = s.strands := by
  unfold portSent
  split <;> rfl

@[simp] theorem State.transmit_strands (s : State) (port p) : (s.transmit port p).strands = s.strands := by
  unfold transmit
  dsimp only
  split <;> simp

@[simp] theorem State.emit_strands (s : State) (p) : (s.emit p).strands = s.strands := by
  unfold emit
  split <;> simp

@[simp] theorem State.answer_strands (s : State) (p kind status data) : (s.answer p kind status data).strands = s.strands := by
  simp [State.answer]

@[simp] theorem State.announce_strands (s : State) (dev) : (s.announce dev).strands = s.strands := by
  simp [State.announce]

@[simp] theorem State.releaseQueued_strands (s : State) (dev : Nat) (l : List FabricReq) :
    (s.releaseQueued dev l).strands = s.strands := by
  induction l generalizing s with
  | nil => rfl
  | cons r t ih => unfold releaseQueued; dsimp only; split <;> simp [ih]

theorem State.sendRequest_strands {s t : State} {dev why p} {y} (e : s.sendRequest dev why p = some (y, t)) :
    t.strands = s.strands := by
  unfold sendRequest at e
  grind [State.announce_strands, State.transmit_strands]

@[simp] theorem State.dropReq_strands (s : State) (xtag) : (s.dropReq xtag).strands = s.strands := (rfl)

@[simp] theorem State.sound_refuseNow (s : State) (a cls) :
    AllSound (s.refuseNow a cls).strands ↔ AllSound s.strands :=
  s.sound_setMe rfl rfl rfl rfl

@[simp] theorem State.sound_ask (s : State) (sid cls dev pa n) :
    AllSound (s.ask sid cls dev pa n).strands ↔ AllSound s.strands := by
  unfold ask
  split <;> grind [State.sendRequest_strands, State.sound_setStrand]

@[simp] theorem State.sound_fetchStopped {s : State} (h : AllSound s.strands) (e) :
    AllSound (s.fetchStopped e).strands := by
  unfold fetchStopped
  split <;> grind [State.sound_waiting, State.sendRequest_strands, State.sound_trap]

@[simp] theorem State.sound_stopped {s : State} (h : AllSound s.strands) (e) : AllSound (s.stopped e).strands := by
  unfold stopped
  repeat' split
  all_goals simp [h]

@[simp] theorem State.pieces_strands (s : State) (kind cls n l) : (s.pieces kind cls n l).2.strands = s.strands := by
  induction l generalizing s with
  | nil => rfl
  | cons a t ih => unfold pieces; grind [State.keeps_resolve, KeepsBoth]

theorem State.sound_takePieces {s : State} (h : AllSound s.strands) (kind cls n l) :
    SoundBoth id Prod.snd (s.takePieces kind cls n l) := by
  unfold takePieces
  dsimp only
  split
  · simp [h]
  · split
    · split
      · exact sound_foldl (fun s q hs => by simpa using hs) (by simpa using h) _
      · simp [h]
    · simp [h]
    · grind [SoundBoth, State.sound_waiting, State.pieces_strands]

theorem State.sound_writePieces {s : State} (h : AllSound s.strands) (n x l) :
    AllSound (s.writePieces n x l).strands := by
  induction l generalizing s x with
  | nil => exact h
  | cons a t ih =>
    obtain ⟨a, p⟩ := a
    unfold writePieces
    refine ih ?_ _
    grind [State.sendRequest_strands, State.sound_refuseNow, State.writePlace_strands]

theorem State.sound_takeGathered {s t : State} {sid tags w} (e : s.takeGathered sid tags w = some t) :
    AllSound t.strands ↔ AllSound s.strands := by
  unfold takeGathered at e
  dsimp only at e
  split at e
  · cases e
  · cases e
    rw [State.sound_setStrand (tags.foldl State.dropReq s), foldl_strands State.dropReq_strands] <;> rfl

/-! #### Machine/Steep -/

@[simp] theorem State.setBufs_strands (s : State) (cluster l) : (s.setBufs cluster l).strands = s.strands := (rfl)

@[simp] theorem State.sendBufs_strands (s : State) (cluster pick) : (s.sendBufs cluster pick).strands = s.strands := (rfl)

@[simp] theorem State.postEntry_strands (s : State) (cluster dest age e) :
    (s.postEntry cluster dest age e).strands = s.strands := by
  unfold postEntry
  dsimp only
  repeat' split
  all_goals simp

@[simp] theorem State.flushCovered_strands (s : State) (sid scope mask) :
    (s.flushCovered sid scope mask).strands = s.strands := (rfl)

@[simp] theorem State.flushAll_strands (s : State) (sid) : (s.flushAll sid).strands = s.strands := (rfl)

@[simp] theorem State.storeRecord_strands (s : State) (e slot r) :
    (s.storeRecord e slot r).strands = s.strands := by
  unfold storeRecord
  grind [State.keeps_resolve, State.writePlace_strands, State.sendRequest_strands, KeepsBoth]

theorem State.keeps_storeOwed (s : State) : KeepsSome id s.storeOwed s.strands := by
  unfold storeOwed
  grind [State.storeRecord_strands, KeepsSome, id]

theorem State.sound_appendRecord {s : State} (h : AllSound s.strands) (e cause) :
    AllSound (s.appendRecord e cause).strands := by
  unfold appendRecord
  grind [State.storeRecord_strands, State.sound_setStrand]

theorem State.sound_entryFault {s : State} (h : AllSound s.strands) (e cause) : AllSound (s.entryFault e cause).strands := by
  unfold entryFault
  grind [State.sound_appendRecord, State.sound_setStrand]

@[simp] theorem State.sound_entryDone (s : State) (e fl) : AllSound (s.entryDone e fl).strands ↔ AllSound s.strands := by
  unfold entryDone
  dsimp only
  repeat' split
  all_goals simp

theorem State.sound_performAt {s : State} (h : AllSound s.strands) (e p) : AllSound (s.performAt e p).strands := by
  unfold performAt
  grind [State.sound_entryDone, State.writePlace_strands, State.sound_entryFault]

theorem State.sound_performEntry {s : State} (h : AllSound s.strands) (e) : AllSound (s.performEntry e).1.strands := by
  unfold performEntry
  grind [State.sound_performAt, State.keeps_translate, State.sound_entryFault, KeepsSome]

theorem State.sound_sendWords {s : State} (h : AllSound s.strands) (dev l) : AllSound (s.sendWords dev l).strands := by
  unfold sendWords
  split
  · exact h
  · split
    · next e => exact State.sendRequest_strands e ▸ h
    · exact sound_foldl (fun s x hs => State.sound_entryFault hs ..) h _

@[simp] theorem State.addCame_strands (s : State) (pa n) : (s.addCame pa n).strands = s.strands := (rfl)

theorem State.combine_strands {s t : State} {va pa n o} (e : s.combine va pa n o = some t) : t.strands = s.strands := by
  unfold combine at e
  split at e
  · cases e; rfl
  · dsimp only at e
    split at e
    · cases e
    · split at e
      · cases e; rfl
      · split at e
        · cases e
        · obtain ⟨_, _, rfl⟩ := Option.map_eq_some_iff.mp e
          rfl

theorem State.entryJoins_strands {s t : State} {x} (e : s.entryJoins x = some t) : t.strands = s.strands := by
  unfold entryJoins at e
  split at e
  · cases e
  · obtain ⟨_, _, e⟩ := Option.bind_eq_some_iff.mp e
    exact State.combine_strands e

theorem State.sound_performAdding {s : State} (h : AllSound s.strands) (e) : AllSound (s.performAdding e).1.strands := by
  unfold performAdding
  grind [State.addCame_strands, State.sound_performEntry]

theorem State.sound_deliverEntry {s : State} (h : AllSound s.strands) (e) : AllSound (s.deliverEntry e).strands := by
  unfold deliverEntry
  grind [State.sound_sendWords, State.sound_performAdding]

theorem State.sound_sendBuffer {s : State} (h : AllSound s.strands) (l) : AllSound (s.sendBuffer l).strands := by
  unfold sendBuffer
  refine sound_foldl (fun s dev hs => State.sound_sendWords hs ..) ?_ _
  refine List.foldlRecOn l _ (motive := fun acc : State × _ => AllSound acc.1.strands) h fun acc hacc e _ => ?_
  grind [State.entryJoins_strands, State.sound_performAdding]

theorem State.keeps_steepCheck (s : State) (kind a n) :
    KeepsBoth Prod.snd id (s.steepCheck kind a n) s.strands := by
  unfold steepCheck
  grind [State.plbGrants_strands, KeepsBoth, id]

theorem sound_postWord {s : State} (h : AllSound s.strands) (kind width op a b c) :
    SoundNext (postWord kind width op a b c s) := by
  unfold postWord
  grind [State.sound_retire, State.sound_stopped, State.keeps_steepCheck, State.postEntry_strands, SoundNext, KeepsBoth, id]

theorem sound_execRamow {s : State} (h : AllSound s.strands) (d a b c) : SoundNext (execRamow d a b c s) := by
  unfold execRamow
  grind [State.sound_stopped, State.keeps_steepCheck, State.sound_waiting, SoundNext, KeepsBoth, id]

theorem sound_execRamowResponse {s : State} (h : AllSound s.strands) (sid) : SoundNext (execRamowResponse sid s) := by
  unfold execRamowResponse
  split
  · dsimp only [SoundNext, State.asStrand]
    split <;> simp [h]
  · exact h

theorem sound_execSflush {s : State} (h : AllSound s.strands) : SoundNext (execSflush s) := by
  simp [execSflush, h]

@[simp] theorem State.sound_finishFlush {s : State} (h : AllSound s.strands) (d) : AllSound (s.finishFlush d).strands := by
  unfold finishFlush
  grind [State.sound_setMe, State.sound_setG, State.sound_finish, State.sound_retire]

theorem sound_execSflushw {s : State} (h : AllSound s.strands) (d) : SoundNext (execSflushw d s) := by
  unfold execSflushw
  dsimp only
  split
  · exact State.sound_finishFlush (by simpa using h) d
  · simp [h]

theorem sound_execSfrec {s : State} (h : AllSound s.strands) (d a) : SoundNext (execSfrec d a s) := by
  unfold execSfrec
  dsimp only
  repeat' split
  all_goals simp [h]

theorem sound_execSteepAgeTrigger {s : State} (h : AllSound s.strands) (cluster) :
    SoundNext (execSteepAgeTrigger cluster s) := by
  simp [execSteepAgeTrigger, h]

theorem State.sound_ackPacket {s : State} (h : AllSound s.strands) : AllSound s.ackPacket.strands := by
  unfold ackPacket
  split
  · exact h
  · exact h
  · split
    · exact h
    · split
      · exact State.sound_sendBuffer (by exact h) _
      · dsimp only
        split
        · next e => exact sound_of_strands_eq (State.entryJoins_strands e) (by exact h)
        · exact State.sound_deliverEntry (by exact h) _

theorem sound_execSteepAck {s : State} (h : AllSound s.strands) : SoundNext (execSteepAck s) := by
  have ho := State.keeps_storeOwed s
  unfold execSteepAck
  cases e : s.storeOwed with
  | none => exact State.sound_ackPacket h
  | some t => rw [e] at ho; exact sound_of_strands_eq ho h

/-! #### Machine/Stream -/

theorem sound_execCardStart {s : State} (h : AllSound s.strands) (core) : SoundNext (execCardStart core s) := by
  unfold execCardStart
  dsimp only
  repeat' split
  all_goals simp [h]

theorem State.keeps_pieceRead (s : State) (who brought a n) :
    KeepsBoth Prod.snd Prod.snd (s.pieceRead who brought a n) s.strands := by
  unfold pieceRead
  grind [State.keeps_resolve, KeepsBoth]

theorem State.keeps_pieceWrite (s : State) (who for_ a n x) :
    KeepsBoth Prod.snd id (s.pieceWrite who for_ a n x) s.strands := by
  unfold pieceWrite
  grind [State.writeSpad_strands, State.keeps_resolve, State.writePlace_strands, State.sendRequest_strands, KeepsBoth, id]

@[simp] theorem State.moveRow_strands (s : State) (who for_ src dst rowBytes n m) :
    (s.moveRow who for_ src dst rowBytes n m).1.strands = s.strands := by
  induction n generalizing s m with
  | zero => rfl
  | succ n ih => unfold moveRow; grind [State.keeps_pieceRead, State.keeps_pieceWrite, KeepsBoth, id]

@[simp] theorem State.clearMarks_strands (s : State) (who a n rot r) : (s.clearMarks who a n rot r).strands = s.strands := by
  unfold clearMarks
  refine foldl_strands (fun s i => ?_) _ _
  dsimp only
  split
  · rfl
  · split
    · rfl
    · split <;> rfl

theorem State.keeps_cardSource (s : State) (c) : KeepsBoth Prod.snd Prod.snd (s.cardSource c) s.strands := by
  unfold cardSource
  grind [State.keeps_pieceRead, KeepsBoth]

@[simp] theorem State.runCard_strands (s : State) (c n) : (s.runCard c n).1.strands = s.strands := by
  induction n generalizing s c with
  | zero => rfl
  | succ n ih => unfold runCard; grind [State.keeps_cardSource, State.moveRow_strands, State.clearMarks_strands, KeepsBoth]

@[simp] theorem State.cardOutcome_strands (s : State) (c) : (s.cardOutcome c).1.strands = s.strands := by
  unfold cardOutcome
  grind [State.runCard_strands]

@[simp] theorem State.setCard_strands (s : State) (core k) : (s.setCard core k).strands = s.strands := (rfl)

@[simp] theorem State.removeCard_strands (s : State) (core num stopped) :
    (s.removeCard core num stopped).strands = s.strands := (rfl)

@[simp] theorem State.askCard_strands (s : State) (core k dev pa n) : (s.askCard core k dev pa n).strands = s.strands := by
  unfold askCard
  split <;> grind [State.sendRequest_strands, State.setCard_strands]

theorem sound_execCardComplete {s : State} (h : AllSound s.strands) (core num) : SoundNext (execCardComplete core num s) := by
  unfold execCardComplete
  grind [State.removeCard_strands, State.cardOutcome_strands, State.askCard_strands, State.setCard_strands, SoundNext]

theorem sound_execCardStop {s : State} (h : AllSound s.strands) (core num) : SoundNext (execCardStop core num s) := by
  unfold execCardStop
  grind [State.removeCard_strands, State.cardOutcome_strands, State.setCard_strands, SoundNext]

@[simp] theorem State.serveStopped_strands (s : State) (core pick) : (s.serveStopped core pick).2.strands = s.strands := by
  unfold serveStopped
  dsimp only
  split <;> simp

@[simp] theorem State.sound_trySewait {s : State} (h : AllSound s.strands) (target) :
    AllSound (s.trySewait target).strands := by
  unfold trySewait
  split <;> grind [State.sound_retire, State.serveStopped_strands, State.sound_waiting, State.sound_trap]

theorem sound_execSewait {s : State} (h : AllSound s.strands) (a) : SoundNext (execSewait a s) := by
  simp [execSewait, h]

theorem State.keeps_readBlockOf (s : State) (who cls a n) :
    KeepsBoth Prod.snd Prod.snd (s.readBlockOf who cls a n) s.strands := by
  unfold readBlockOf
  grind [State.keeps_resolve, KeepsBoth]

theorem State.keeps_readBlock (s : State) (who a n) :
    KeepsBoth Prod.snd Prod.snd (s.readBlock who a n) s.strands := by
  unfold readBlock
  grind [State.keeps_readBlockOf, KeepsBoth]

@[simp] theorem State.makeRoom_strands (s : State) (core sid) : (s.makeRoom core sid).2.strands = s.strands := by
  unfold makeRoom
  dsimp only
  repeat' split
  all_goals simp

@[simp] theorem State.sound_acceptCard {s : State} (h : AllSound s.strands) (d k) : AllSound (s.acceptCard d k).strands := by
  unfold acceptCard
  dsimp only
  repeat' split
  all_goals simp [h]

theorem sound_cardOp {s : State} (h : AllSound s.strands) (fn d a) : SoundNext (cardOp fn d a s) := by
  unfold cardOp
  grind [State.keeps_readBlock, State.sound_stopped, State.sound_acceptCard, State.sound_trap, SoundNext, KeepsBoth]

/-! #### Machine/Sync -/

@[simp] theorem State.sound_drain (s : State) (mask) : AllSound (s.drain mask).strands ↔ AllSound s.strands := 
  s.sound_setMe rfl rfl rfl rfl

@[simp] theorem State.sound_finishFence {s : State} (h : AllSound s.strands) (kind scope mask) :
    AllSound (s.finishFence kind scope mask).strands := by
  unfold finishFence
  grind [State.sound_drain, State.sound_retire, State.sound_setMe, State.sound_trapAfter]

@[simp] theorem State.fenceCards_strands (s : State) (sid scope) : (s.fenceCards sid scope).2.strands = s.strands := by
  unfold fenceCards
  split <;> simp

theorem sound_execFence {s : State} (h : AllSound s.strands) (k sc m) : SoundNext (execFence k sc m s) := by
  unfold execFence
  grind [State.sound_waiting, State.sound_finishFence, State.fenceCards_strands, State.flushCovered_strands, State.sound_trap,
    SoundNext]

theorem sound_execFenceCompletion {s : State} (h : AllSound s.strands) (sid) : SoundNext (execFenceCompletion sid s) := by
  unfold execFenceCompletion
  split
  · split
    · simp [h]
    · grind [State.fenceCards_strands, State.sound_trapOn, SoundNext]
  · split
    · simp [h]
    · exact h
  · exact h

theorem sound_execVdrain {s : State} (h : AllSound s.strands) (m) : SoundNext (execVdrain m s) := by
  simp [execVdrain, h]

theorem sound_execIfence {s : State} (h : AllSound s.strands) : SoundNext (execIfence s) := by
  unfold execIfence
  split <;> simp [h]

/-! #### Machine/Tile -/

theorem sound_tileOp {s : State} (h : AllSound s.strands) (w accs) {body : State → Result}
    (hb : SoundNext (body s)) : SoundNext (tileOp w accs body s) := by
  unfold tileOp
  split
  · simp [State.trap, h]
  · split
    · simp [h]
    · exact hb

theorem sound_tileVecOp {s : State} (h : AllSound s.strands) (bad w accs) {body : State → Result}
    (hb : SoundNext (body s)) : SoundNext (tileVecOp bad w accs body s) := by
  unfold tileVecOp
  split
  · simp [State.trap, h]
  · exact sound_tileOp h w accs hb

theorem sound_execTld {s : State} (h : AllSound s.strands) (t y z) : SoundNext (execTld t y z s) := by
  unfold execTld
  grind [State.sound_takePieces, State.sound_retire, State.setMyCore_strands, sound_tileOp, State.sound_trap, SoundNext,
    SoundBoth, KeepsBoth, id]

theorem sound_execTst {s : State} (h : AllSound s.strands) (t y z) : SoundNext (execTst t y z s) := by
  unfold execTst
  grind [State.sound_takePieces, State.sound_writePieces, State.sound_retire, sound_tileOp, State.sound_trap, SoundNext,
    SoundBoth, KeepsBoth, id]

theorem sound_execTldm {s : State} (h : AllSound s.strands) (t y) : SoundNext (execTldm t y s) := by
  refine sound_tileOp h _ _ ?_
  dsimp only
  repeat' split
  all_goals simp [h]

@[simp] theorem State.writeSegment_strands (s : State) (core d r x) :
    (s.writeSegment core d r x).strands = s.strands :=
  foldl_strands (fun _ _ => State.writePlace_strands ..) s _

theorem sound_execTstm {s : State} (h : AllSound s.strands) (t y) : SoundNext (execTstm t y s) := by
  unfold execTstm
  refine sound_tileOp h _ _ ?_
  dsimp only
  split
  · simp [h]
  · split
    · simp [h]
    · split
      · simp [h]
      · rw [SoundNext, State.sound_retire]
        exact sound_foldl (fun _ _ hs => by simpa using hs) h _

theorem sound_execTzero {s : State} (h : AllSound s.strands) (t) : SoundNext (execTzero t s) :=
  sound_tileOp h _ _ (by simpa using h)

theorem sound_execTmov {s : State} (h : AllSound s.strands) (t src) : SoundNext (execTmov t src s) := by
  unfold execTmov
  refine sound_tileOp h _ _ ?_
  dsimp only
  repeat' split
  all_goals simp [h]

theorem sound_execTtrans {s : State} (h : AllSound s.strands) (t src) : SoundNext (execTtrans t src s) := by
  unfold execTtrans
  refine sound_tileOp h _ _ ?_
  dsimp only
  repeat' split
  all_goals simp [h]

theorem sound_execTcfg {s : State} (h : AllSound s.strands) (t y) : SoundNext (execTcfg t y s) := by
  unfold execTcfg
  refine sound_tileOp h _ _ ?_
  dsimp only
  repeat' split
  all_goals simp [h]

/-! #### Machine/Acc -/

theorem sound_execAccz {s : State} (h : AllSound s.strands) (x) : SoundNext (execAccz x s) :=
  sound_tileOp h _ _ (by simpa using h)

@[simp] theorem State.markPlace_strands (s : State) (p n) : (s.markPlace p n).strands = s.strands := by
  unfold markPlace
  split <;> rfl

theorem sound_execAccst {s : State} (h : AllSound s.strands) (x y z e) : SoundNext (execAccst x y z e s) := by
  unfold execAccst
  refine sound_tileOp h _ _ ?_
  dsimp only
  split
  · simp [h]
  · split
    · simp [h]
    · have hp := State.sound_takePieces h .store 0 16 (rowPieces (s.g y) (s.g z) 64 (4 * accBytes e))
      split <;> rename_i hl <;> rw [hl] at hp
      · exact hp
      · have hw := State.sound_writePieces hp 16
        refine State.sound_finish ?_ _
        split
        · rw [foldl_strands (fun s p => State.markPlace_strands s p 16)]
          exact hw ..
        · exact hw ..

theorem sound_execAccrd {s : State} (h : AllSound s.strands) (x y z) : SoundNext (execAccrd x y z s) := by
  refine sound_tileVecOp h _ _ _ ?_
  dsimp only
  repeat' split
  all_goals simp [h, h.me, sound_mapSet]

theorem sound_execAccwr {s : State} (h : AllSound s.strands) (x y z) : SoundNext (execAccwr x y z s) := by
  refine sound_tileVecOp h _ _ _ ?_
  dsimp only
  repeat' split
  all_goals simp [h]

theorem sound_execAccadd {s : State} (h : AllSound s.strands) (x y) : SoundNext (execAccadd x y s) := by
  unfold execAccadd
  refine sound_tileOp h _ _ ?_
  dsimp only
  repeat' split
  all_goals simp [h]

theorem sound_execAccscl {s : State} (h : AllSound s.strands) (x y) : SoundNext (execAccscl x y s) := by
  unfold execAccscl
  refine sound_tileOp h _ _ ?_
  dsimp only
  repeat' split
  all_goals simp [h]

theorem sound_execTrowv {s : State} (h : AllSound s.strands) (x t z) : SoundNext (execTrowv x t z s) := by
  refine sound_tileVecOp h _ _ _ ?_
  dsimp only
  repeat' split
  all_goals simp [h, h.me, sound_mapSet]

theorem sound_execVtrow {s : State} (h : AllSound s.strands) (t y z) : SoundNext (execVtrow t y z s) := by
  refine sound_tileVecOp h _ _ _ ?_
  dsimp only
  repeat' split
  all_goals simp [h]

theorem sound_execTcolv {s : State} (h : AllSound s.strands) (x t z) : SoundNext (execTcolv x t z s) := by
  refine sound_tileVecOp h _ _ _ ?_
  dsimp only
  repeat' split
  all_goals simp [h, h.me, sound_mapSet]

/-! #### Machine/Mem -/

theorem sound_loadOp {s : State} (h : AllSound s.strands) (n signed d base c off) :
    SoundNext (loadOp n signed d base c off s) := by
  unfold loadOp
  grind [State.sound_writeG, State.sound_stopped, State.keeps_resolve, State.sound_waiting, State.sendRequest_strands,
    State.sound_trap, SoundNext, KeepsBoth]

theorem sound_storeOp {s : State} (h : AllSound s.strands) (n d base c off) : SoundNext (storeOp n d base c off s) := by
  unfold storeOp
  grind [State.sound_retire, State.sound_stopped, State.sound_refuseNow, State.keeps_resolve, State.writePlace_strands,
    State.sound_waiting, State.sendRequest_strands, State.sound_trap, SoundNext, KeepsBoth]

theorem sound_execLoadDataReturn {s : State} (h : AllSound s.strands) (sid) : SoundNext (execLoadDataReturn sid s) := by
  unfold execLoadDataReturn
  repeat' split
  all_goals simp [h]

/-! #### Machine/Fetch -/

@[simp] theorem State.sectorAt_strands (s : State) (p) : (s.sectorAt p).2.strands = s.strands := by
  unfold sectorAt
  split <;> rfl

theorem State.keeps_fetchWord (s : State) (sid va) :
    KeepsBoth Prod.snd Prod.snd (s.fetchWord sid va) s.strands := by
  unfold fetchWord
  grind [State.sectorAt_strands, State.setCore_strands, State.keeps_resolve, State.drawn_strands, KeepsBoth]

theorem State.keeps_fetchWords (s : State) (sid va n) :
    KeepsBoth Prod.snd Prod.snd (s.fetchWords sid va n) s.strands := by
  induction n generalizing s va with
  | zero => rfl
  | succ n ih => unfold fetchWords; grind [State.keeps_fetchWord, KeepsBoth]


/-- The state of either kind of answer has the running strand as it stood. -/
@[simp] def MeBoth {ε α : Type} (s : State) : Except (ε × State) (α × State) → Prop
  | .ok x => x.2.me = s.me
  | .error x => x.2.me = s.me

theorem AccessBoth.me {ε α : Type} {s : State} {r : Except (ε × State) (α × State)} (h : AccessBoth Prod.snd Prod.snd s r) :
    MeBoth s r := by
  cases r <;> exact State.AccessOnly.me h

@[simp] theorem State.sectorAt_me (s : State) (p) : (s.sectorAt p).2.me = s.me := by
  unfold sectorAt
  split <;> rfl

theorem State.fetchWord_me (s : State) (sid va) : MeBoth s (s.fetchWord sid va) := by
  have hr := (State.access_resolve s (s.actorOf sid) .fetch va 4).me
  unfold fetchWord
  dsimp only
  split <;> rename_i e <;> rw [e] at hr
  · exact hr
  · split
    · exact hr
    · split <;> exact hr
    · exact hr
  · next s1 _ =>
    split
    · exact hr
    · have h2 := (State.access_resolve s1 (s.actorOf sid) .fetch (va &&& ~~~(31 : Word)) 32).me
      split <;> rename_i e2 <;> rw [e2] at h2
      · exact h2.trans hr
      · exact (State.sectorAt_me ..).trans (h2.trans hr)

/-! #### Machine/Samovar -/

@[simp] theorem State.setRecord_strands (s : State) (r) : (s.setRecord r).strands = s.strands := (rfl)

theorem State.keeps_readShadow (s : State) (who a) :
    KeepsBoth Prod.snd Prod.snd (s.readShadow who a) s.strands := by
  unfold readShadow
  grind [State.keeps_resolve, KeepsBoth]

@[simp] theorem State.storeRecordAt_strands (s : State) (f r) : (s.storeRecordAt f r).strands = s.strands := by
  unfold storeRecordAt
  grind [State.writeSpan_strands]

theorem State.sound_refuse (s : State) (sid r) :
    AllSound (s.setStrand sid ((s.strand sid).refuse r)).strands ↔ AllSound s.strands :=
  s.sound_setStrand rfl rfl rfl rfl

theorem State.sound_alightStore {s : State} (h : AllSound s.strands) (who cls r) :
    SoundBoth Prod.snd Prod.snd (s.alightStore who cls r) := by
  unfold alightStore
  grind [State.keeps_takeTurn, State.storeRecordAt_strands, State.keeps_reach, State.sendRequest_strands, State.sound_refuse,
    SoundBoth, KeepsBoth, id]

@[simp] theorem State.sound_alighted (s : State) (sid d r o) :
    AllSound (s.alighted sid d r o).strands ↔ AllSound s.strands := by
  unfold alighted
  cases o <;> simp

theorem sound_joinRing {s : State} (h : AllSound s.strands) (word d a c op) : SoundNext (joinRing word d a c op s) := by
  unfold joinRing
  repeat' split
  all_goals simp [h]

theorem sound_execSamCld {s : State} (h : AllSound s.strands) (d a c w) : SoundNext (execSamCld d a c w s) := by
  unfold execSamCld
  repeat' split
  all_goals simp [h]

theorem sound_execSamCst {s : State} (h : AllSound s.strands) (d a b c w) : SoundNext (execSamCst d a b c w s) := by
  unfold execSamCst
  repeat' split
  all_goals simp [h]

theorem sound_execSamRelease {s : State} (h : AllSound s.strands) (d a c) : SoundNext (execSamRelease d a c s) := by
  unfold execSamRelease
  repeat' split
  all_goals simp [h]

theorem sound_execSamBoard {s : State} (h : AllSound s.strands) (d a b c) : SoundNext (execSamBoard d a b c s) := by
  unfold execSamBoard
  grind [State.sound_writeG, State.plbGrants_strands, State.sound_waiting, State.sound_trap, SoundNext]

@[simp] theorem State.withdrawBoard_strands (s : State) (domain tag) : (s.withdrawBoard domain tag).strands = s.strands := (rfl)

theorem sound_execBoardFill {s : State} (h : AllSound s.strands) (sid) : SoundNext (execBoardFill sid s) := by
  unfold execBoardFill
  grind [State.withdrawBoard_strands, State.sound_writeG, State.keeps_readShadow, State.sound_trapOn, State.asStrand_strands,
    SoundNext,
    KeepsBoth]

theorem sound_execSamovarPassage {s : State} (h : AllSound s.strands) (sid) : SoundNext (execSamovarPassage sid s) := by
  unfold execSamovarPassage
  split
  · next op _ _ r _ _ =>
    dsimp only
    cases op.reads with
    | some k => dsimp only; split <;> simp [h]
    | none =>
      cases op with
      | alight =>
        have ha := State.sound_alightStore h (s.actorOf sid)
        dsimp only
        grind [SoundNext, SoundBoth, KeepsBoth, State.sound_trapOn, State.sound_alighted]
      | _ => simp [h]
  · exact h

@[simp] theorem State.sound_endAlight (s : State) (sid d name) :
    AllSound (s.endAlight sid d name).strands ↔ AllSound s.strands := by
  simp [State.endAlight]

theorem State.sound_finishAlight {s : State} (h : AllSound s.strands) (sid) : AllSound (s.finishAlight sid).strands := by
  unfold finishAlight
  grind [State.keeps_takeTurn, State.storeRecordAt_strands, State.sound_endAlight, KeepsBoth, id]

theorem sound_execSamNotag {s : State} (h : AllSound s.strands) (sid) : SoundNext (execSamNotag sid s) := by
  unfold execSamNotag
  repeat' split
  all_goals simp [h]

@[simp] theorem State.sound_tagsSeen (s : State) : AllSound s.tagsSeen.strands ↔ AllSound s.strands := by
  refine sound_foldl_iff (fun s sid => ?_) _ _
  dsimp only
  split
  · split
    · exact s.sound_setStrand rfl rfl rfl rfl
    · rfl
  · rfl

@[simp] theorem State.reenter_strands (s : State) (core) : (s.reenter core).strands = s.strands := by
  unfold reenter
  split <;> rfl

theorem sound_execRecordReentry {s : State} (h : AllSound s.strands) (sid) : SoundNext (execRecordReentry sid s) := by
  simp [execRecordReentry, h]

theorem sound_execCaptureMarkerClear {s : State} (h : AllSound s.strands) (sid) :
    SoundNext (execCaptureMarkerClear sid s) := by
  simp [execCaptureMarkerClear, h]

@[simp] theorem State.sound_ringTurn (s : State) : AllSound s.ringTurn.strands ↔ AllSound s.strands :=
  (sound_foldl_iff (fun s (e : Reentry) => by rw [s.reenter_strands e.core]) _ _).trans s.sound_tagsSeen

theorem sound_execCaptureHoldExpiry {s : State} (h : AllSound s.strands) (sid) : SoundNext (execCaptureHoldExpiry sid s) := by
  unfold execCaptureHoldExpiry
  repeat' split
  all_goals simp [h]

/-! #### Machine/Boundary -/

@[simp] theorem State.routeLoad_strands (s : State) (core cls) : (s.routeLoad core cls).2.strands = s.strands := by
  unfold routeLoad
  grind [State.loadOwn_strands]

@[simp] theorem State.touchRoute_strands (s : State) (core cls) : (s.touchRoute core cls).strands = s.strands := by
  unfold touchRoute
  grind [State.routeLoad_strands]

@[simp] theorem State.dropDeadline_strands (s : State) (sid) : (s.dropDeadline sid).strands = s.strands := (rfl)

theorem State.sound_settle {s t : State} {sid meet} (e : s.settle sid meet = some t) :
    AllSound t.strands ↔ AllSound s.strands := by
  unfold settle at e
  dsimp only at e
  repeat' split at e
  all_goals cases e
  all_goals simp

theorem State.sound_takeDue {s t : State} (h : AllSound s.strands) {sid} (e : s.takeDue sid = some t) :
    AllSound t.strands := by
  unfold takeDue at e
  split at e
  · cases e
  · dsimp only at e
    split at e
    · cases e
    · next hs =>
      cases e
      exact State.sound_trapOn (by simp [State.sound_settle hs, h]) ..

theorem State.sound_takeCause {s : State} (h : AllSound s.strands) (sid cause) : SoundNext (s.takeCause sid cause) := by
  unfold takeCause
  split
  · exact sound_getD h fun _ e => State.sound_takeDue h e
  · exact h

theorem State.sound_passageTurn {s : State} (h : AllSound s.strands) (sid) : SoundSomeNext (s.passageTurn sid) := by
  unfold passageTurn
  grind [sound_execBoardFill, sound_execSamovarPassage, SoundSomeNext, SoundNext]

theorem State.sound_ringFirst {s : State} (h : AllSound s.strands) (sid) : AllSound (s.ringFirst sid).strands := by
  have ht := State.sound_passageTurn h sid
  unfold ringFirst
  split
  · next e => rw [e] at ht; exact ht
  · exact h

theorem State.sound_showStop (s : State) (sid w) :
    AllSound (s.setStrand sid ((s.strand sid).showStop w)).strands ↔ AllSound s.strands := by
  apply State.sound_setStrand <;> cases w <;> rfl

theorem State.sound_quiet {s : State} (h : AllSound s.strands) (sid) : AllSound (s.quiet sid).strands := by
  unfold quiet
  grind [State.sound_ringFirst, State.releaseCapture_strands, State.sound_settle, State.sound_showStop]

theorem State.sound_park {s : State} (h : AllSound s.strands) (sid) : AllSound (s.park sid).strands := by
  simp [park, Strand.parkNow, State.sound_quiet h]

theorem State.sound_stopStrand {s : State} (h : AllSound s.strands) (sid) : AllSound (s.stopStrand sid).strands := by
  simp [stopStrand, State.sound_quiet h]

theorem State.sound_haltCore {s : State} (h : AllSound s.strands) (core) : AllSound (s.haltCore core).strands := by
  simpa [haltCore] using sound_foldl (fun s i hs => State.sound_quiet hs ..) h _

@[simp] theorem State.sound_recapture (s : State) (sid) : AllSound (s.recapture sid).strands ↔ AllSound s.strands := by
  unfold recapture
  dsimp only
  split <;> simp

@[simp] theorem State.sound_resumeCore (s : State) (core) : AllSound (s.resumeCore core).strands ↔ AllSound s.strands := by
  unfold resumeCore
  refine sound_foldl_iff (fun s x => ?_) _ _
  simp

theorem sound_execTrapEntry {s : State} (h : AllSound s.strands) (sid) : SoundNext (execTrapEntry sid s) :=
  sound_getD h fun _ e => State.sound_takeDue h e

theorem sound_execTimer {s : State} (h : AllSound s.strands) (sid) : SoundNext (execTimer sid s) := by
  unfold execTimer
  split <;> simp [h]

@[simp] theorem State.sound_endSleep (s : State) (sid) : AllSound (s.endSleep sid).strands ↔ AllSound s.strands := by
  unfold endSleep
  split <;> simp

theorem sound_execWakeCondition {s : State} (h : AllSound s.strands) (sid) : SoundNext (execWakeCondition sid s) := by
  unfold execWakeCondition
  split <;> simp [h]

theorem sound_execPauseExpiry {s : State} (h : AllSound s.strands) (sid) : SoundNext (execPauseExpiry sid s) := by
  unfold execPauseExpiry
  repeat' split
  all_goals simp [h]

theorem sound_execDebugHalt {s : State} (h : AllSound s.strands) (core) : SoundNext (execDebugHalt core s) := by
  unfold execDebugHalt
  grind [State.sound_haltCore, SoundNext]

theorem sound_execDebugResume {s : State} (h : AllSound s.strands) (core) : SoundNext (execDebugResume core s) := by
  unfold execDebugResume
  split <;> simp [h]

/-! #### Machine/Alloc -/

@[simp] theorem State.spoilBlock_strands (s : State) (b) : (s.spoilBlock b).strands = s.strands := by
  unfold spoilBlock
  grind [State.keeps_translate, State.writeSpan_strands, State.drawn_strands, KeepsSome]

theorem sound_execBalloc {s : State} (h : AllSound s.strands) (d c) : SoundNext (execBalloc d c s) := by
  unfold execBalloc
  grind [State.sound_writeG, State.spoilBlock_strands, State.sound_trap, SoundNext]

theorem sound_execBfree {s : State} (h : AllSound s.strands) (a) : SoundNext (execBfree a s) := by
  unfold execBfree
  dsimp only
  repeat' split
  all_goals simp [h]

theorem sound_execBlockReturn {s : State} (h : AllSound s.strands) : SoundNext (execBlockReturn s) := by
  unfold execBlockReturn
  repeat' split
  all_goals simp [h]

/-! #### Machine/Atomic -/

theorem State.combineAmo_strands {s t : State} {p a n op y} (e : s.combineAmo p a n op y = some t) : t.strands = s.strands := by
  unfold combineAmo at e
  split at e
  · split at e
    · have ht := State.combine_strands e
      exact ht
    · cases e
  · cases e

theorem sound_atomicOp {s : State} (h : AllSound s.strands) (op d a b c rl w) : SoundNext (atomicOp op d a b c rl w s) := by
  unfold atomicOp
  dsimp only
  split
  · simp [h]
  · have hr := State.keeps_resolve s s.actor .atomic (s.g a) (widthBytes w)
    split
    · next e => exact State.sound_stopped (h.of_error hr e) _
    · next e =>
      replace hr := h.of_ok hr e
      split
      · simpa using hr
      · split
        · grind [State.sound_waiting, State.sound_trap, State.sendRequest_strands, SoundNext, KeepsBoth]
        · grind [State.sound_waiting, State.combineAmo_strands, State.keeps_takeTurn, State.sound_trap,
          State.writePlace_strands,
            State.addCame_strands, State.sound_finish, State.sound_setG, SoundNext, KeepsBoth, id]

theorem sound_execAmoResponse {s : State} (h : AllSound s.strands) (sid) : SoundNext (execAmoResponse sid s) := by
  unfold execAmoResponse
  repeat' split
  all_goals simp [h]

/-! #### Machine/Gang -/

@[simp] theorem State.setGang_strands (s : State) (n g) : (s.setGang n g).strands = s.strands := (rfl)

@[simp] theorem State.sound_leaveGang (s : State) (sid) : AllSound (s.leaveGang sid).strands ↔ AllSound s.strands := by
  unfold leaveGang
  dsimp only
  split <;> simp

@[simp] theorem State.sound_enterGang (s : State) (sid n rank size) :
    AllSound (s.enterGang sid n rank size).strands ↔ AllSound s.strands := by
  simp [State.enterGang]

@[simp] theorem State.sound_leaveFor (s : State) (sid rank size) :
    AllSound (s.leaveFor sid rank size).strands ↔ AllSound s.strands := by
  simp [State.leaveFor]

theorem State.sound_setMembership {s : State} (h : AllSound s.strands) (sid v) : SoundEffect (s.setMembership sid v) := by
  unfold setMembership
  dsimp only
  repeat' split
  all_goals simp [h]

@[simp] theorem State.sound_releaseAhead (s : State) (sid) : AllSound (s.releaseAhead sid).strands ↔ AllSound s.strands := by
  unfold releaseAhead
  dsimp only
  repeat' split
  all_goals simp

theorem State.sound_stopGang {s : State} (h : AllSound s.strands) (n issuer) : AllSound (s.stopGang n issuer).strands := by
  unfold stopGang
  refine sound_foldl (fun s m hs => by simpa using hs) ?_ _
  exact sound_foldl (fun s m hs => State.sound_stopStrand hs m) (by simpa using h) _

theorem State.sound_gangStopBy {s : State} (h : AllSound s.strands) (issuer v) : SoundEffect (s.gangStopBy issuer v) := by
  unfold gangStopBy
  grind [State.sound_stopGang, SoundEffect]

@[simp] theorem State.sound_resumeGang (s : State) (n) : AllSound (s.resumeGang n).strands ↔ AllSound s.strands := by
  unfold resumeGang
  refine sound_foldl_iff (fun s x => ?_) _ _
  dsimp only
  split <;> simp

theorem State.sound_gangResumeBy {s : State} (h : AllSound s.strands) (issuer v) : SoundEffect (s.gangResumeBy issuer v) := by
  unfold gangResumeBy
  dsimp only
  split
  · trivial
  · simp [h]

theorem State.sound_writeGangCtl {s : State} (h : AllSound s.strands) (sid v) : SoundEffect (s.writeGangCtl sid v) := by
  unfold writeGangCtl
  grind [State.sound_setMembership, State.sound_gangStopBy, State.sound_gangResumeBy, SoundEffect]

theorem WriteEffect.sound_state {e : WriteEffect} (he : SoundEffect e) {s : State} (h : AllSound s.strands) :
    AllSound (e.state s).strands := by
  cases e with
  | done | wait => exact he
  | illegal => exact h

theorem sound_execGangSetMembership {s : State} (h : AllSound s.strands) (v) : SoundNext (execGangSetMembership v s) :=
  WriteEffect.sound_state (State.sound_setMembership h ..) h

theorem sound_execGangStop {s : State} (h : AllSound s.strands) (v) : SoundNext (execGangStop v s) :=
  WriteEffect.sound_state (State.sound_gangStopBy h ..) h

theorem sound_execGangResume {s : State} (h : AllSound s.strands) (v) : SoundNext (execGangResume v s) :=
  WriteEffect.sound_state (State.sound_gangResumeBy h ..) h

theorem sound_execGrank {s : State} (h : AllSound s.strands) (d a) : SoundNext (execGrank d a s) := by
  unfold execGrank
  dsimp only
  repeat' split
  all_goals simp [h]

/-! #### Machine/Barrier -/

theorem sound_execGbar {s : State} (h : AllSound s.strands) (d a) : SoundNext (execGbar d a s) := by
  unfold execGbar
  dsimp only
  repeat' split
  all_goals simp [h]

@[simp] theorem State.sound_releaseMember (s : State) (n rank sid) :
    AllSound (s.releaseMember n rank sid).strands ↔ AllSound s.strands := by
  unfold releaseMember
  split <;> simp

theorem sound_execBarrierPhaseComplete {s : State} (h : AllSound s.strands) (n) : SoundNext (execBarrierPhaseComplete n s) := by
  unfold execBarrierPhaseComplete
  dsimp only
  split
  · exact h
  · split
    · exact h
    · exact sound_foldl (fun s m hs => by simpa using hs) (by simpa using h) _

theorem sound_execGbarTimeout {s : State} (h : AllSound s.strands) (sid) : SoundNext (execGbarTimeout sid s) := by
  unfold execGbarTimeout
  dsimp only
  repeat' split
  all_goals simp [h]

@[simp] theorem State.copyTile_strands (s : State) (t bits tag cores) : (s.copyTile t bits tag cores).strands = s.strands := by
  unfold copyTile
  refine foldl_strands (fun s x => ?_) _ _
  simp

theorem sound_execGtmcast {s : State} (h : AllSound s.strands) (d a) : SoundNext (execGtmcast d a s) := by
  unfold execGtmcast
  refine sound_tileOp h _ _ ?_
  dsimp only
  repeat' split
  all_goals simp [h]

theorem sound_execGtmcastCopiesWritten {s : State} (h : AllSound s.strands) (sid) :
    SoundNext (execGtmcastCopiesWritten sid s) := by
  unfold execGtmcastCopiesWritten
  split <;> simp [h]

theorem sound_execSempost {s : State} (h : AllSound s.strands) (n) : SoundNext (execSempost n s) := by
  unfold execSempost
  dsimp only
  repeat' split
  all_goals simp [h]

theorem sound_execSemwait {s : State} (h : AllSound s.strands) (n) : SoundNext (execSemwait n s) := by
  unfold execSemwait
  dsimp only
  repeat' split
  all_goals simp [h]

theorem sound_execSemtry {s : State} (h : AllSound s.strands) (d n) : SoundNext (execSemtry d n s) := by
  unfold execSemtry
  dsimp only
  repeat' split
  all_goals simp [h]

/-! #### Machine/Migration -/

@[simp] theorem State.dropPlb_strands (s : State) (pick) : (s.dropPlb pick).strands = s.strands := (rfl)

@[simp] theorem State.sound_finishInval (s : State) (tags entries) :
    AllSound (s.finishInval tags entries).strands ↔ AllSound s.strands := by
  unfold finishInval
  split <;> simp

@[simp] theorem State.sendDomains_strands (s : State) (pick) : (s.sendDomains pick).strands = s.strands := by
  unfold sendDomains
  refine foldl_strands (fun s x => ?_) _ _
  simp

theorem sound_execPlbinv {s : State} (h : AllSound s.strands) (a) : SoundNext (execPlbinv a s) := by
  unfold execPlbinv
  dsimp only
  repeat' split
  all_goals simp [h]

@[simp] theorem State.dropTranslations_strands (s : State) (lo n) : (s.dropTranslations lo n).strands = s.strands := (rfl)

theorem State.sound_htinvRange {s : State} (h : AllSound s.strands) (lo n) : SoundNext (s.htinvRange lo n) := by
  unfold htinvRange
  dsimp only
  repeat' split
  all_goals simp [h]

@[simp] theorem State.sound_heldBack {s : State} (h : AllSound s.strands) (e a) : AllSound (s.heldBack e a).strands := by
  unfold heldBack
  split <;> simp [h]

theorem State.sound_htinvInvalidate {s : State} (h : AllSound s.strands) (word v) : SoundNext (s.htinvInvalidate word v) := by
  unfold htinvInvalidate
  dsimp only
  split
  · simp [h]
  · split
    · split
      · simp [h]
      · split
        · simp [h]
        · exact State.sound_htinvRange h ..
    · split
      · simp [h]
      · split <;> rename_i hr
        · exact State.sound_heldBack (h.of_error (State.keeps_plbRange s ..) hr) ..
        · exact State.sound_htinvRange (h.of_ok (State.keeps_plbRange s ..) hr) ..

@[simp] theorem State.writeField_strands (s : State) (desc at_ x) :
    (s.writeField desc at_ x).strands = s.strands := by
  have ht := State.keeps_translate s .store (desc.toNat + at_)
  unfold writeField
  split <;> rename_i e
  · rfl
  · rw [e] at ht
    cases er : State.sendRequest _ _ _ _ with
    | none => exact ht
    | some x => exact (State.sendRequest_strands er).trans ht
  · rw [e] at ht
    rwa [State.writePlace_strands]

theorem State.keeps_readDescriptor (s : State) (desc) :
    KeepsBoth Prod.snd Prod.snd (s.readDescriptor desc) s.strands := by
  unfold readDescriptor
  grind [State.keeps_translate, KeepsBoth, KeepsSome]

theorem State.sound_startMigration {s : State} (h : AllSound s.strands) (desc x) :
    AllSound (s.startMigration desc x).strands := by
  unfold startMigration
  grind [State.sound_retire, State.writeMem_strands, State.writeField_strands]

@[simp] theorem State.sound_stoppedHeld {s : State} (h : AllSound s.strands) (e) : AllSound (s.stoppedHeld e).strands := by
  unfold stoppedHeld
  dsimp only
  split <;> simp [h]

theorem State.sound_htinvMigrate {s : State} (h : AllSound s.strands) (word v) : SoundNext (s.htinvMigrate word v) := by
  unfold htinvMigrate
  dsimp only
  split
  · simp [h]
  · split <;> rename_i hr
    · exact State.sound_heldBack (h.of_error (State.keeps_plbRange s ..) hr) ..
    · have h1 := h.of_ok (State.keeps_plbRange s ..) hr
      split
      · simpa using h1
      · split <;> rename_i hd
        · exact State.sound_stoppedHeld (h1.of_error (State.keeps_readDescriptor ..) hd) _
        · have h2 := h1.of_ok (State.keeps_readDescriptor ..) hd
          split
          · simpa using h2
          · exact State.sound_startMigration h2 ..

theorem sound_execHtinv {s : State} (h : AllSound s.strands) (a) : SoundNext (execHtinv a s) := by
  unfold execHtinv
  grind [State.sound_htinvInvalidate, State.sound_htinvMigrate, State.sound_trap, SoundNext]

theorem sound_execHtinvMigrate {s : State} (h : AllSound s.strands) (a) : SoundNext (execHtinvMigrate a s) := by
  unfold execHtinvMigrate
  grind [State.sound_htinvMigrate, State.sound_trap, SoundNext]

@[simp] theorem State.setMigration_strands (s : State) (slot m) : (s.setMigration slot m).strands = s.strands := (rfl)

theorem sound_execMigrationSectorCopy {s : State} (h : AllSound s.strands) (slot) :
    SoundNext (execMigrationSectorCopy slot s) := by
  unfold execMigrationSectorCopy
  dsimp only
  split
  · exact h
  · split
    · exact h
    · simpa using h

theorem sound_execMigrationComplete {s : State} (h : AllSound s.strands) (slot) :
    SoundNext (execMigrationComplete slot s) := by
  unfold execMigrationComplete
  grind [State.writeMem_strands, State.setMigration_strands, State.writeField_strands, SoundNext]

theorem sound_execPlbFill {s : State} (h : AllSound s.strands) (sid va) : SoundNext (execPlbFill sid va s) := by
  unfold execPlbFill
  grind [State.plbLookup_strands, SoundNext]

theorem sound_execTranslationWalk {s : State} (h : AllSound s.strands) (kind va) :
    SoundNext (execTranslationWalk kind va s) := by
  unfold execTranslationWalk
  grind [State.keeps_translation, SoundNext, KeepsSome]

/-! #### Machine/Csr -/

@[simp] theorem State.sound_writeAgeMax (s : State) (domain v) :
    AllSound (s.writeAgeMax domain v).strands ↔ AllSound s.strands := by
  unfold writeAgeMax
  refine sound_foldl_iff (fun s x => ?_) _ _
  simp

/-- The write of FRM keeps its fields alone (R44). -/
theorem Strand.sound_frm {x : Strand} (h : x.sound = true) (v : BitVec 13) :
    Strand.sound { x with frm := v &&& 0x1F07 } = true := by
  obtain ⟨hp, hs, -, hh⟩ := x.sound_iff.mp h
  exact (Strand.sound_iff _).mpr ⟨hp, hs, by simp [BitVec.and_assoc], hh⟩

/-- The write of STATUS leaves MODE as it was (R283). -/
theorem Strand.sound_status {x : Strand} (h : x.sound = true) (v) :
    Strand.sound { x with status := statusWritten x.status v } = true := by
  obtain ⟨hp, hs, hf, hh⟩ := x.sound_iff.mp h
  refine (Strand.sound_iff _).mpr ⟨hp, ?_, hf, hh⟩
  have hm := getLsbD_one_of_statusSound hs
  exact (statusSound_statusWord ..).trans (by rw [BitVec.getLsbD_extractLsb', hm]; rfl)

theorem State.sound_csrStore {s : State} (h : AllSound s.strands) (sid n v) : SoundEffect (s.csrStore sid n v) := by
  have hx := h.strand sid
  unfold csrStore
  dsimp only
  split
  case h_2 => exact sound_mapSet h sid (Strand.sound_frm hx _)
  case h_7 => exact sound_mapSet h sid (Strand.sound_status hx v)
  case h_15 => split <;> simp [h]
  case h_28 => exact State.sound_writeGangCtl h ..
  case h_29 =>
    split
    · unfold Strand.writeVhwe
      split <;> simp [h]
    · exact h
  all_goals simp [h]

theorem sound_csrOp {s : State} (h : AllSound s.strands) (op f d a n) : SoundNext (csrOp op f d a n s) := by
  unfold csrOp
  grind [State.sound_writeG, State.sound_csrStore, State.sound_waiting, State.sound_trap, SoundNext, SoundEffect]

theorem sound_execStatus {s : State} (h : AllSound s.strands) (v) : SoundNext (execStatus v s) :=
  WriteEffect.sound_state (State.sound_csrStore h ..) h

theorem sound_execTileOwner {s : State} (h : AllSound s.strands) (v) : SoundNext (execTileOwner v s) :=
  WriteEffect.sound_state (State.sound_csrStore h ..) h

theorem sound_execTtags {s : State} (h : AllSound s.strands) (v) : SoundNext (execTtags v s) :=
  WriteEffect.sound_state (State.sound_csrStore h ..) h

theorem sound_execAtags {s : State} (h : AllSound s.strands) (v) : SoundNext (execAtags v s) := by
  unfold execAtags
  split
  · exact h
  · exact WriteEffect.sound_state (State.sound_csrStore h ..) h

theorem sound_execSteepAgeMax {s : State} (h : AllSound s.strands) (v) : SoundNext (execSteepAgeMax v s) :=
  WriteEffect.sound_state (State.sound_csrStore h ..) h

theorem sound_execVl {s : State} (h : AllSound s.strands) (v) : SoundNext (execVl v s) :=
  WriteEffect.sound_state (State.sound_csrStore h ..) h

theorem sound_execVhwe {s : State} (h : AllSound s.strands) (n v) : SoundNext (execVhwe n v s) :=
  WriteEffect.sound_state (State.sound_csrStore h ..) h

theorem sound_execFflags {s : State} (h : AllSound s.strands) (op v) : SoundNext (execFflags op v s) := by
  unfold execFflags
  split
  · exact h
  · dsimp only
    split
    · exact WriteEffect.sound_state (State.sound_csrStore h ..) h
    · exact WriteEffect.sound_state (State.sound_csrStore h ..) h
    · exact WriteEffect.sound_state (State.sound_csrStore h ..) h
    · exact h

theorem State.sound_writeDbgCtl {s : State} (h : AllSound s.strands) (v) : AllSound (s.writeDbgCtl v).strands := by
  unfold writeDbgCtl
  grind [State.sound_haltCore, State.sound_resumeCore, State.setCore_strands]

theorem sound_execCsrWrite {s : State} (h : AllSound s.strands) (csr v) : SoundNext (execCsrWrite csr v s) := by
  unfold execCsrWrite
  dsimp only
  split
  · exact State.sound_writeDbgCtl h ..
  · split
    · exact h
    · split
      · exact h
      · exact WriteEffect.sound_state (State.sound_csrStore h ..) h

/-! #### Machine/Errors -/

@[simp] theorem State.logError_strands (s : State) (unit event place) :
    (s.logError unit event place).strands = s.strands := (rfl)

@[simp] theorem State.sound_raiseCheck (s : State) (unit index sid) :
    AllSound (s.raiseCheck unit index sid).strands ↔ AllSound s.strands := by
  simp [State.raiseCheck]

@[simp] theorem State.sound_spoilV (s : State) (sid n) : AllSound (s.spoilV sid n).strands ↔ AllSound s.strands := by
  simp [State.spoilV]

@[simp] theorem State.spoilCapture_strands (s : State) (sid) : (s.spoilCapture sid).strands = s.strands := by
  unfold spoilCapture
  split <;> rfl

theorem State.sound_spoilNamed {s : State} (h : AllSound s.strands) (sid n v) : AllSound (s.spoilNamed sid n v).strands := by
  unfold spoilNamed
  dsimp only
  split
  case h_7 => exact WriteEffect.sound_state (State.sound_csrStore h ..) h
  all_goals simp [h]

theorem State.sound_spoilCsr {s : State} (h : AllSound s.strands) (sid) : AllSound (s.spoilCsr sid).strands := by
  unfold spoilCsr
  grind [State.drawn_strands, State.sound_spoilNamed]

theorem State.sound_spoil {s : State} (h : AllSound s.strands) (sid unit index) :
    AllSound (s.spoil sid unit index).strands := by
  unfold spoil
  dsimp only
  split
  case h_3 =>
    split
    · next hi => exact sound_mapSet h sid (Strand.sound_pSet (h.strand sid) hi.1 hi.2 _)
    · exact h
  case h_7 => exact State.sound_spoilCsr h sid
  all_goals first | split <;> simp [h] | simp [h]

theorem sound_execMachineCheck {s : State} (h : AllSound s.strands) (sid unit index) :
    SoundNext (execMachineCheck sid unit index s) := by
  unfold execMachineCheck
  split
  · exact h
  · split
    · simp [h]
    · exact sound_foldl (fun s i hs => by simpa using hs) (State.sound_spoil h ..) _

theorem sound_execThermalTrip {s : State} (h : AllSound s.strands) : SoundNext (execThermalTrip s) := by
  unfold execThermalTrip
  generalize allStrands = l
  exact sound_foldl (fun s i hs => by simpa using hs) h l

@[simp] theorem State.markEntry_strands (s : State) (n) : (s.markEntry n).strands = s.strands := (rfl)

@[simp] theorem State.markRecord_strands (s : State) (domain tag word) :
    (s.markRecord domain tag word).strands = s.strands := (rfl)

@[simp] theorem State.sound_markMessage (s : State) (core num) :
    AllSound (s.markMessage core num).strands ↔ AllSound s.strands := by
  unfold markMessage
  dsimp only
  repeat' split
  all_goals simp

theorem sound_execPoisonMark {s : State} (h : AllSound s.strands) (where_) : SoundNext (execPoisonMark where_ s) := by
  unfold execPoisonMark
  split <;> simp [h]

theorem sound_execSoftErrorCorrected {s : State} (h : AllSound s.strands) (unit place) :
    SoundNext (execSoftErrorCorrected unit place s) := by
  simp [execSoftErrorCorrected, h]

/-! #### Machine/Group -/

@[simp] theorem State.touchRights_strands (s : State) (p domain) :
    (s.touchRights p domain).strands = s.strands := by
  unfold touchRights
  grind [State.loadOwn_strands]

@[simp] theorem State.addLaunch_strands (s : State) (gang domain h owner) :
    (s.addLaunch gang domain h owner).2.strands = s.strands := (rfl)

@[simp] theorem State.setLaunch_strands (s : State) (l) : (s.setLaunch l).strands = s.strands := (rfl)

theorem State.keeps_readBlocks (s : State) (who a n) :
    KeepsBoth Prod.snd Prod.snd (s.readBlocks who a n) s.strands := by
  induction n generalizing s a with
  | zero => rfl
  | succ n ih => unfold readBlocks; grind [State.keeps_readBlock, KeepsBoth]

@[simp] theorem State.present_strands (s : State) (x foot) : (s.present x foot).2.strands = s.strands := by
  unfold present
  grind [State.addLaunch_strands, State.touchRights_strands]

theorem sound_execLaunch {s : State} (h : AllSound s.strands) (d a) : SoundNext (execLaunch d a s) := by
  unfold execLaunch
  grind [State.sound_writeG, State.present_strands, State.keeps_readBlock, State.keeps_readBlocks, State.sound_stopped,
    State.flushAll_strands, State.sound_waiting, State.sound_trap, SoundNext, KeepsBoth]

@[simp] theorem State.dropNotes_strands (s : State) (sid k regions) : (s.dropNotes sid k regions).strands = s.strands := (rfl)

@[simp] theorem State.spoilBuffers_strands (s : State) (sid k regions) :
    (s.spoilBuffers sid k regions).strands = s.strands := by
  unfold spoilBuffers
  refine foldl_strands (fun s x => ?_) _ _
  simp

@[simp] theorem State.sound_assign (s : State) (l w sid) : AllSound (s.assign l w sid).strands ↔ AllSound s.strands := by
  simp [State.assign]

theorem sound_execGroupAssign {s : State} (h : AllSound s.strands) (launch) : SoundNext (execGroupAssign launch s) := by
  unfold execGroupAssign
  dsimp only
  repeat' split
  all_goals simp [h]

@[simp] theorem State.fetchRows_strands (s : State) (sid h w k r done m n) :
    (s.fetchRows sid h w k r done m n).1.strands = s.strands := by
  induction n generalizing s done m with
  | zero => rfl
  | succ n ih => unfold fetchRows; grind [State.moveRow_strands]

@[simp] theorem State.fetchRegions_strands (s : State) (sid h w k l skip done m) :
    (s.fetchRegions sid h w k l skip done m).1.strands = s.strands := by
  induction l generalizing s skip done m with
  | nil => rfl
  | cons r t ih => unfold fetchRegions; grind [State.fetchRows_strands]

@[simp] theorem State.sound_setAhead (s : State) (sid a) : AllSound (s.setAhead sid a).strands ↔ AllSound s.strands := by
  simp [State.setAhead]

@[simp] theorem State.sound_askFoot (s : State) (sid a dev pa n) :
    AllSound (s.askFoot sid a dev pa n).strands ↔ AllSound s.strands := by
  unfold askFoot
  split <;> grind [State.sendRequest_strands, State.sound_setAhead]

theorem sound_execFootprintFetchComplete {s : State} (h : AllSound s.strands) (sid) :
    SoundNext (execFootprintFetchComplete sid s) := by
  unfold execFootprintFetchComplete
  grind [State.fetchRegions_strands, State.dropNotes_strands, State.sound_askFoot, State.spoilBuffers_strands,
    State.sound_setAhead,
    SoundNext]

theorem sound_execGnext {s : State} (h : AllSound s.strands) (d a) : SoundNext (execGnext d a s) := by
  unfold execGnext
  dsimp only
  repeat' split
  all_goals simp [h, Strand.dispatched]

theorem sound_execGfield {s : State} (h : AllSound s.strands) (d f) : SoundNext (execGfield d f s) := by
  unfold execGfield
  repeat' split
  all_goals simp [h]

@[simp] theorem State.sound_retireMine (s : State) (id w) : AllSound (s.retireMine id w).strands ↔ AllSound s.strands := by
  rw [retireMine, State.sound_retire, State.sound_setMe]
  · split <;> simp
  all_goals rfl

@[simp] theorem State.sound_tryDone {s : State} (h : AllSound s.strands) (id w) : AllSound (s.tryDone id w).strands := by
  unfold tryDone
  split <;> grind [State.sound_retireMine, State.serveStopped_strands, State.flushAll_strands, State.sound_waiting,
    State.sound_trap]

theorem sound_execGdone {s : State} (h : AllSound s.strands) : SoundNext (execGdone s) := by
  unfold execGdone
  split <;> simp [h]

theorem sound_execGroupRetire {s : State} (h : AllSound s.strands) (sid) : SoundNext (execGroupRetire sid s) := by
  unfold execGroupRetire
  dsimp only
  repeat' split
  all_goals simp [h]

theorem sound_execLwait {s : State} (h : AllSound s.strands) (d a) : SoundNext (execLwait d a s) := by
  unfold execLwait
  grind [State.sound_writeG, State.sound_waiting, SoundNext]

@[simp] theorem State.copyNotes_strands (s : State) (src dst k k' a regions) :
    (s.copyNotes src dst k k' a regions).strands = s.strands := by
  unfold copyNotes
  split <;> rfl

@[simp] theorem State.copyBuffers_strands (s : State) (src dst k k' regions) :
    (s.copyBuffers src dst k k' regions).strands = s.strands := by
  unfold copyBuffers
  refine foldl_strands (fun s x => ?_) _ _
  simp

@[simp] theorem State.sound_unassign (s : State) (sid a) : AllSound (s.unassign sid a).strands ↔ AllSound s.strands := by
  unfold unassign
  dsimp only
  split <;> simp

theorem State.sound_withAhead (s : State) (sid o) :
    AllSound (s.setStrand sid { s.strand sid with ahead := o }).strands ↔ AllSound s.strands :=
  s.sound_setStrand rfl rfl rfl rfl

@[simp] theorem State.sound_reassignAhead (s : State) (sid a l) :
    AllSound (s.reassignAhead sid a l).strands ↔ AllSound s.strands := by
  unfold reassignAhead
  dsimp only
  split
  · split
    · exact (State.sound_withAhead _ ..).trans (by simp)
    · simp
  · split <;> simp
  · simp

@[simp] theorem State.sound_reassignDue (s : State) (sid) : AllSound (s.reassignDue sid).strands ↔ AllSound s.strands := by
  unfold reassignDue
  dsimp only
  repeat' split
  all_goals simp

theorem sound_execReassign {s : State} (h : AllSound s.strands) (sid) : SoundNext (execReassign sid s) := by
  simp [execReassign, h]

@[simp] theorem State.sound_abortLaunch (s : State) (l) : AllSound (s.abortLaunch l).strands ↔ AllSound s.strands := by
  unfold abortLaunch
  refine sound_foldl_iff (fun s x => ?_) _ _
  simp

/-! #### Machine/Queue -/

theorem State.keeps_svcPart (s : State) (list a n) : KeepsBoth id Prod.snd (s.svcPart list a n) s.strands := by
  unfold svcPart
  grind [State.loadOwn_strands, KeepsBoth, id]

theorem State.keeps_svcRead (s : State) (list a n) : KeepsBoth id Prod.snd (s.svcRead list a n) s.strands := by
  unfold svcRead
  grind [State.keeps_svcPart, KeepsBoth, id]

theorem State.keeps_svcPlace (s : State) (list a) : KeepsBoth id Prod.snd (s.svcPlace list a) s.strands := by
  unfold svcPlace
  grind [State.keeps_translate, KeepsBoth, id, KeepsSome]

theorem State.keeps_svcWrite (s : State) (list a n x) : KeepsBoth id id (s.svcWrite list a n x) s.strands := by
  unfold svcWrite
  grind [State.writeSpan_strands, State.keeps_svcPlace, KeepsBoth, id]

theorem State.keeps_svcNeed (s : State) (list a n) :
    KeepsBoth (fun x => x.2.2) Prod.snd (s.svcNeed list a n) s.strands := by
  unfold svcNeed
  grind [State.keeps_svcRead, KeepsBoth, id]

theorem State.keeps_hostWrite (s : State) (a n x) : KeepsSome id (s.hostWrite a n x) s.strands := by
  unfold hostWrite
  grind [State.writeMem_strands, KeepsSome, id]

@[simp] theorem State.setQueue_strands (s : State) (q x) : (s.setQueue q x).strands = s.strands := (rfl)

theorem State.keeps_ringRead (s : State) (o a n) : KeepsBoth id Prod.snd (s.ringRead o a n) s.strands := by
  unfold ringRead
  grind [State.keeps_svcRead, KeepsBoth, id]

theorem State.keeps_ringWrite (s : State) (o a n x) : KeepsBoth id id (s.ringWrite o a n x) s.strands := by
  unfold ringWrite
  grind [State.keeps_hostWrite, State.keeps_svcWrite, KeepsBoth, id, KeepsSome]

@[simp] theorem State.fetchFrames_strands (s : State) (x at_ n) :
    (s.fetchFrames x at_ n).2.strands = s.strands := by
  induction n generalizing s at_ with
  | zero => rfl
  | succ n ih => unfold fetchFrames; grind [State.keeps_ringRead, KeepsBoth, id]

@[simp] theorem State.peerFrame_strands (s : State) (q dev) : (s.peerFrame q dev).strands = s.strands := (rfl)

theorem sound_execSqPoll {s : State} (h : AllSound s.strands) (q) : SoundNext (execSqPoll q s) := by
  unfold execSqPoll
  grind [State.setQueue_strands, State.peerFrame_strands, State.fetchFrames_strands, State.keeps_ringRead, SoundNext,
    KeepsBoth, id]

@[simp] theorem State.complete_strands (s : State) (q c) : (s.complete q c).strands = s.strands := by
  unfold complete
  dsimp only
  split <;> simp

theorem State.keeps_ringRoom (s : State) (x) : KeepsBoth id id (s.ringRoom x) s.strands := by
  unfold ringRoom
  grind [State.keeps_ringRead, KeepsBoth, id]

theorem State.keeps_ringPost (s : State) (x c) : KeepsBoth id id (s.ringPost x c) s.strands := by
  unfold ringPost
  grind [State.keeps_ringWrite, State.keeps_ringRoom, KeepsBoth, id]

theorem State.keeps_postCompletion (s : State) (q) : KeepsSome id (s.postCompletion q) s.strands := by
  unfold postCompletion
  grind [State.setQueue_strands, State.keeps_ringPost, KeepsSome, id, KeepsBoth]

theorem sound_execCompletionPost {s : State} (h : AllSound s.strands) (q) : SoundNext (execCompletionPost q s) := by
  have hp := State.keeps_postCompletion s q
  unfold execCompletionPost
  cases e : s.postCompletion q with
  | none => exact h
  | some t => exact h.of_some (get := id) hp e

@[simp] theorem State.acceptQpd_strands (s : State) : s.acceptQpd.strands = s.strands := by
  unfold acceptQpd
  dsimp only
  repeat' split
  all_goals simp

theorem sound_execQpdPost {s : State} (h : AllSound s.strands) (qpd) : SoundNext (execQpdPost qpd s) := by
  unfold execQpdPost
  repeat' split
  all_goals simp [h]

@[simp] theorem State.disownHost_strands (s : State) : s.disownHost.strands = s.strands := (rfl)

theorem sound_execFunctionLevelReset {s : State} (h : AllSound s.strands) : SoundNext (execFunctionLevelReset s) := by
  simp [execFunctionLevelReset, h]

theorem State.keeps_frameRead (s : State) (q f a n) :
    KeepsBoth id Prod.snd (s.frameRead q f a n) s.strands := by
  unfold frameRead
  grind [State.keeps_svcRead, State.keeps_ringRead, KeepsBoth, id]

theorem State.keeps_frameWrite (s : State) (q f a n x) :
    KeepsBoth id id (s.frameWrite q f a n x) s.strands := by
  unfold frameWrite
  grind [State.keeps_ringWrite, State.keeps_svcWrite, KeepsBoth, id]

@[simp] theorem State.touchTenant_strands (s : State) (f) : (s.touchTenant f).strands = s.strands := by
  unfold touchTenant
  grind [State.touchRights_strands]

theorem FrameEnd.sound_state {e : FrameEnd} (h : SoundEnd e) (q f now) : AllSound (e.state q f now).strands := by
  cases e <;> simpa [FrameEnd.state] using h

/-- The handling of a frame keeps what its body keeps. -/
theorem State.sound_handle {s : State} (h : AllSound s.strands) (q f argsOk) {body : State → FrameEnd}
    (hb : ∀ t, AllSound t.strands → SoundEnd (body t)) : SoundEnd (s.handle q f argsOk body) := by
  unfold handle
  grind [State.touchTenant_strands, SoundEnd]

theorem State.sound_startFrame {s : State} (h : AllSound s.strands) (q f argsOk) {body : State → FrameEnd}
    (hb : ∀ t, AllSound t.strands → SoundEnd (body t)) : AllSound (s.startFrame q f argsOk body).strands := by
  unfold startFrame
  split
  · exact FrameEnd.sound_state (State.sound_handle (by simpa using h) q f argsOk hb) ..
  · exact h

theorem State.sound_serveAgain {s : State} (h : AllSound s.strands) (w) {go : State → FrameEnd}
    (hb : ∀ t, AllSound t.strands → SoundEnd (go t)) : AllSound (s.serveAgain w go).strands := by
  unfold serveAgain
  exact FrameEnd.sound_state (hb _ (by exact h)) ..

theorem sound_execRetry {s : State} (h : AllSound s.strands) (q) : SoundNext (execRetry q s) := by
  unfold execRetry
  dsimp only
  split
  · exact h
  · split
    · exact sound_foldl (fun s f hs => by simpa using hs) (by simpa using h) _
    · exact h

/-! #### Machine/Requests -/

theorem State.sound_landEntries {s : State} (h : AllSound s.strands) (core) : AllSound (s.landEntries core).strands := by
  unfold landEntries
  exact sound_foldl (fun s e hs => State.sound_performEntry hs e) (by exact h) _

theorem State.sound_setCarve {s : State} (h : AllSound s.strands) (carve core) : AllSound (s.setCarve carve core).strands := by
  unfold setCarve
  grind [State.sound_landEntries, State.setCore_strands]

theorem State.keeps_claimRoute (s : State) (list at_ domain) :
    KeepsBoth id id (s.claimRoute list at_ domain) s.strands := by
  unfold claimRoute
  grind [State.keeps_svcRead, State.keeps_svcWrite, KeepsBoth, id]

theorem State.sound_claimRoutes {s : State} (h : AllSound s.strands) (list table domain) :
    SoundBoth id id (s.claimRoutes list table domain) := by
  refine List.foldlRecOn (motive := SoundBoth id id) _ _ h fun o ho i _ => ?_
  cases o with
  | error e => exact ho
  | ok t => exact AllSound.both ho (State.keeps_claimRoute ..)

/-- A strand that START sets has its predicates as after a reset and a STATUS that names U or S. -/
theorem Strand.sound_started {x : Strand} (h : x.sound = true) (r i share fresh domain) :
    (x.started r i share fresh domain).sound = true := by
  obtain ⟨-, -, hf, hh⟩ := x.sound_iff.mp h
  refine (Strand.sound_iff _).mpr ⟨rfl, (statusSound_statusWord ..).trans ?_, hf, hh⟩
  split <;> rfl

@[simp] theorem State.sound_startStrand {s : State} (h : AllSound s.strands) (r domain i sid) :
    AllSound (s.startStrand r domain i sid).strands := by
  have hs := sound_mapSet h sid (Strand.sound_started (h.strand sid) r i (min (cardField r 0x2E 1) (s.freeQuarters sid))
    s.fresh domain)
  unfold startStrand
  split <;> simpa using hs

theorem State.sound_startAll {s : State} (h : AllSound s.strands) (plist r domain) :
    SoundBoth id id (s.startAll plist r domain) := by
  have hc : SoundBoth id id (if BitVec.ofNat 64 (cardField r 0x18 8) = 0 then .ok s
      else s.claimRoutes plist (BitVec.ofNat 64 (cardField r 0x18 8)) domain) := by
    split
    · exact h
    · exact State.sound_claimRoutes h ..
  unfold startAll
  dsimp only
  split <;> rename_i e <;> rw [e] at hc
  · exact hc
  · refine sound_foldl (fun s q hs => State.sound_startStrand hs ..) (sound_foldl (fun s c hs => ?_) hc _) _
    split
    · exact State.sound_setCarve hs ..
    · simpa using State.sound_setCarve hs ..

theorem sound_startGo {s : State} (h : AllSound s.strands) (f r) : SoundEnd (startGo f r s) := by
  unfold startGo
  grind [State.sound_startAll, SoundEnd, SoundBoth, KeepsBoth, id]

theorem sound_startBody {s : State} (h : AllSound s.strands) (f) : SoundEnd (startBody f s) := by
  unfold startBody
  grind [State.keeps_svcRead, sound_startGo, SoundEnd, KeepsBoth, id]

theorem sound_execStart {s : State} (h : AllSound s.strands) (q f) : SoundNext (execStart q f s) := by
  unfold execStart
  grind [State.sound_serveAgain, State.sound_startFrame, sound_startGo, sound_startBody, SoundNext, SoundEnd]

theorem State.keeps_svcBlocks (s : State) (list a n) :
    KeepsBoth (fun x => x.2.2) Prod.snd (s.svcBlocks list a n) s.strands := by
  induction n generalizing s a with
  | zero => rfl
  | succ n ih => unfold svcBlocks; grind [State.keeps_svcNeed, KeepsBoth]

theorem State.keeps_svcHeader (s : State) (list a) :
    KeepsBoth (fun x => x.2.2) Prod.snd (s.svcHeader list a) s.strands := by
  unfold svcHeader
  grind [State.keeps_svcBlocks, State.keeps_svcNeed, KeepsBoth]

theorem sound_launchFrameBody {s : State} (h : AllSound s.strands) (q f) : SoundEnd (launchFrameBody q f s) := by
  unfold launchFrameBody
  grind [State.addLaunch_strands, State.keeps_svcHeader, SoundEnd, KeepsBoth]

theorem sound_execLaunchFrame {s : State} (h : AllSound s.strands) (q f) : SoundNext (execLaunchFrame q f s) := by
  unfold execLaunchFrame
  grind [sound_launchFrameBody, State.sound_startFrame, SoundNext, SoundEnd]

theorem State.keeps_readNodes (s : State) (list at_ j n) :
    KeepsBoth (fun x => x.2.2) Prod.snd (s.readNodes list at_ j n) s.strands := by
  induction n generalizing s at_ j with
  | zero => rfl
  | succ n ih => unfold readNodes; grind [State.keeps_svcNeed, State.keeps_svcHeader, KeepsBoth]

theorem sound_replayBody {s : State} (h : AllSound s.strands) (q f) : SoundEnd (replayBody q f s) := by
  unfold replayBody
  grind [State.keeps_svcRead, State.keeps_readNodes, SoundEnd, KeepsBoth, id]

theorem sound_execReplay {s : State} (h : AllSound s.strands) (q f) : SoundNext (execReplay q f s) := by
  unfold execReplay
  grind [sound_replayBody, State.sound_startFrame, SoundNext, SoundEnd]

@[simp] theorem State.setReplay_strands (s : State) (r) : (s.setReplay r).strands = s.strands := (rfl)

@[simp] theorem State.endReplay_strands (s : State) (r) : (s.endReplay r).strands = s.strands := by
  unfold endReplay
  split <;> simp

theorem sound_execReplayNodeLaunch {s : State} (h : AllSound s.strands) (replay node) :
    SoundNext (execReplayNodeLaunch replay node s) := by
  unfold execReplayNodeLaunch
  split <;> grind [State.setReplay_strands, State.addLaunch_strands, State.endReplay_strands, State.touchRights_strands,
    SoundNext]

theorem sound_execLaunchFrameCompletion {s : State} (h : AllSound s.strands) (launch) :
    SoundNext (execLaunchFrameCompletion launch s) := by
  unfold execLaunchFrameCompletion
  dsimp only
  repeat' split
  all_goals simp [h]

theorem sound_patchBody {s : State} (h : AllSound s.strands) (f) : SoundEnd (patchBody f s) := by
  unfold patchBody
  grind [State.keeps_svcRead, State.keeps_svcWrite, SoundEnd, KeepsBoth, id]

theorem sound_execPatch {s : State} (h : AllSound s.strands) (q f) : SoundNext (execPatch q f s) := by
  unfold execPatch
  grind [sound_patchBody, State.sound_startFrame, SoundNext, SoundEnd]

theorem sound_abortBody {s : State} (h : AllSound s.strands) (f) : SoundEnd (abortBody f s) := by
  unfold abortBody
  repeat' split
  all_goals simp [h]

theorem sound_execAbort {s : State} (h : AllSound s.strands) (q f) : SoundNext (execAbort q f s) := by
  unfold execAbort
  grind [State.sound_startFrame, sound_abortBody, SoundNext, SoundEnd]

theorem State.sound_askRerun {s : State} (h : AllSound s.strands) (sid rows m dev pa n) :
    SoundEnd (s.askRerun sid rows m dev pa n) := by
  unfold askRerun
  grind [State.sendRequest_strands, SoundEnd]

theorem sound_rerunNow {s : State} (h : AllSound s.strands) (f l w rows m) : SoundEnd (rerunNow f l w rows m s) := by
  unfold rerunNow
  grind [State.fetchRegions_strands, State.sound_askRerun, State.sound_setStrand, SoundEnd]

theorem sound_rerunBody {s : State} (h : AllSound s.strands) (f rows m) : SoundEnd (rerunBody f rows m s) := by
  unfold rerunBody
  grind [sound_rerunNow, SoundEnd]

theorem sound_execRerun {s : State} (h : AllSound s.strands) (q f) : SoundNext (execRerun q f s) := by
  unfold execRerun
  grind [State.sound_serveAgain, sound_rerunBody, State.sound_startFrame, SoundNext, SoundEnd]

@[simp] theorem State.sound_badControl {s : State} (h : AllSound s.strands) (q f) : AllSound (s.badControl q f).strands :=
  State.sound_startFrame h q f _ fun _ ht => ht

theorem sound_notifyBody {s : State} (h : AllSound s.strands) (f) : SoundEnd (notifyBody f s) := by
  unfold notifyBody
  dsimp only
  repeat' split
  all_goals simp [h]

theorem sound_execNotify {s : State} (h : AllSound s.strands) (q f) : SoundNext (execNotify q f s) := by
  unfold execNotify
  grind [sound_notifyBody, State.sound_startFrame, SoundNext, SoundEnd]

/-! #### Machine/VecConfig -/

@[simp] theorem Strand.sound_configure (x : Strand) (v first n) : (x.configure v first n).sound = x.sound := by
  induction n with
  | zero => rfl
  | succ n ih => simpa [configure] using ih

theorem sound_execVcfg {s : State} (h : AllSound s.strands) (d a i) : SoundNext (execVcfg d a i s) := by
  unfold execVcfg
  split
  · simp [h]
  · simpa using sound_mapSet h s.cur ((s.me.sound_configure i d.toNat (a.toNat + 1)).trans h.me)

theorem sound_execVsetl {s : State} (h : AllSound s.strands) (d a w) : SoundNext (execVsetl d a w s) := by
  unfold execVsetl
  dsimp only
  repeat' split
  all_goals simp [h]

theorem sound_execVacq {s : State} (h : AllSound s.strands) (d a) : SoundNext (execVacq d a s) := by
  simp [execVacq, h]

theorem sound_execVrelease {s : State} (h : AllSound s.strands) : SoundNext (execVrelease s) := by
  unfold execVrelease
  split <;> simp [h, Strand.released]

theorem sound_execVgettag {s : State} (h : AllSound s.strands) (d a) : SoundNext (execVgettag d a s) := by
  simp [execVgettag, h]

/-! #### Machine/Service -/

theorem State.sound_dbgWrite {s : State} (h : AllSound s.strands) (sid file i v) :
    AllSound (s.dbgWrite sid file i v).strands := by
  unfold dbgWrite
  dsimp only
  split
  case h_4 =>
    split
    · next hi => exact sound_mapSet h sid (Strand.sound_pSet (h.strand sid) (by omega) (by omega) _)
    · exact h
  case h_8 =>
    rw [State.asStrand_strands]
    split
    · exact WriteEffect.sound_state (State.sound_csrStore (by exact h) ..) h
    · exact h
  case h_10 => exact h
  all_goals split <;> simp [h, Strand.setV]

theorem sound_execDbgData {s : State} (h : AllSound s.strands) (v) : SoundNext (execDbgData v s) := by
  unfold execDbgData
  grind [State.sound_dbgWrite, SoundNext]

@[simp] theorem State.setCaps_strands (s : State) (core vl m) : (s.setCaps core vl m).strands = s.strands := (rfl)

theorem sound_execKettleCtl {s : State} (h : AllSound s.strands) (v) : SoundNext (execKettleCtl v s) := by
  unfold execKettleCtl
  dsimp only
  split
  · exact h
  · exact sound_foldl (g := fun s c => s.setCaps c _ _) (fun s c hs => by simpa using hs) (by exact h) allCores

theorem sound_execKettleAdjust {s : State} (h : AllSound s.strands) (cluster vlStep mStep) :
    SoundNext (execKettleAdjust cluster vlStep mStep s) := by
  unfold execKettleAdjust
  split
  · dsimp only [SoundNext]
    exact sound_foldl (fun s c hs => by simpa using hs) h _
  · exact h

theorem sound_execSvcMode {s : State} (h : AllSound s.strands) (v) : SoundNext (execSvcMode v s) := by
  simp [execSvcMode, h]

@[simp] theorem State.setSamQuota_strands (s : State) (domain v) : (s.setSamQuota domain v).strands = s.strands := (rfl)

@[simp] theorem State.setPinQuota_strands (s : State) (domain v) : (s.setPinQuota domain v).strands = s.strands := (rfl)

@[simp] theorem State.writeSamQuota_strands (s : State) (v) : (s.writeSamQuota v).strands = s.strands := (rfl)

@[simp] theorem State.writePinQuota_strands (s : State) (v) : (s.writePinQuota v).strands = s.strands := (rfl)

theorem sound_execSamQuotaSet {s : State} (h : AllSound s.strands) (v) : SoundNext (execSamQuotaSet v s) := by
  simp [execSamQuotaSet, h]

theorem sound_execPinQuotaSet {s : State} (h : AllSound s.strands) (v) : SoundNext (execPinQuotaSet v s) := by
  simp [execPinQuotaSet, h]

/-! #### Machine/Services -/

theorem State.sound_drained {s : State} (h : AllSound s.strands) (tags entries result) :
    SoundEnd (s.drained tags entries result) := by
  unfold drained
  split
  · exact h
  · exact sound_foldl (fun s d hs => by simpa using hs) h _

theorem State.sound_dropRights {s : State} (h : AllSound s.strands) (pick result) : SoundEnd (s.dropRights pick result) := by
  unfold dropRights
  grind [State.dropPlb_strands, State.sendDomains_strands, State.sound_drained, SoundEnd]

theorem sound_memoryFrame {s : State} (h : AllSound s.strands) (svc q f rsvOk) {body : State → FrameEnd}
    (hb : ∀ t, AllSound t.strands → SoundEnd (body t)) : SoundNext (memoryFrame svc q f rsvOk body s) := by
  unfold memoryFrame
  split
  · exact h
  · split
    · exact State.sound_serveAgain h _ fun t ht => State.sound_drained ht ..
    · exact State.sound_startFrame h _ _ _ hb

@[simp] theorem State.sound_badService {s : State} (h : AllSound s.strands) (q f) : AllSound (s.badService q f).strands :=
  State.sound_startFrame h q f _ fun _ ht => ht

@[simp] theorem State.sound_badKind {s : State} (h : AllSound s.strands) (q f) : AllSound (s.badKind q f).strands :=
  State.sound_startFrame h q f _ fun _ ht => ht

@[simp] theorem State.domainLists_strands (s : State) (p d) : (s.domainLists p d).2.strands = s.strands :=
  List.foldlRecOn (motive := fun acc : List (List (BitVec 128)) × State => acc.2.strands = s.strands) _ _ rfl
    fun _ hs _ _ => (State.readRights_strands ..).trans hs

theorem sound_arenaBody {s : State} (h : AllSound s.strands) (q f) : SoundEnd (arenaBody q f s) := by
  unfold arenaBody
  grind [State.domainLists_strands, SoundEnd]

theorem sound_execArena {s : State} (h : AllSound s.strands) (q f) : SoundNext (execArena q f s) := by
  unfold execArena
  grind [sound_memoryFrame, sound_arenaBody, SoundNext, SoundEnd]

theorem sound_keyBody {s : State} (h : AllSound s.strands) (q f) : SoundEnd (keyBody q f s) := by
  unfold keyBody
  grind [State.keeps_frameRead, SoundEnd, KeepsBoth, id]

theorem sound_execKey {s : State} (h : AllSound s.strands) (q f) : SoundNext (execKey q f s) := by
  unfold execKey
  grind [sound_keyBody, sound_memoryFrame, SoundNext, SoundEnd]

theorem sound_quotaBody {s : State} (h : AllSound s.strands) (q f) : SoundEnd (quotaBody q f s) := by
  unfold quotaBody
  dsimp only
  repeat' split
  all_goals simp [h]

theorem sound_execQuota {s : State} (h : AllSound s.strands) (q f) : SoundNext (execQuota q f s) := by
  unfold execQuota
  grind [sound_memoryFrame, sound_quotaBody, SoundNext, SoundEnd]

theorem State.keeps_readList (s : State) (at_ n) :
    KeepsBoth id Prod.snd (s.readList at_ n) s.strands := by
  induction n generalizing s at_ with
  | zero => rfl
  | succ n ih => unfold readList; grind [State.keeps_svcRead, KeepsBoth, id]

theorem State.keeps_localQueue (s : State) (num lqp) :
    KeepsBoth (fun x => x.2.2) Prod.snd (s.localQueue num lqp) s.strands := by
  unfold localQueue
  grind [State.keeps_svcNeed, KeepsBoth]

@[simp] theorem State.installPartition_strands (s : State) (p lq) : (s.installPartition p lq).strands = s.strands := by
  unfold installPartition
  split <;> rfl

@[simp] theorem State.deletePartition_strands (s : State) (p) : (s.deletePartition p).strands = s.strands := (rfl)

theorem sound_partitionBody {s : State} (h : AllSound s.strands) (q f) : SoundEnd (partitionBody q f s) := by
  unfold partitionBody
  grind [State.keeps_readList, State.keeps_localQueue, State.deletePartition_strands, State.installPartition_strands,
    State.sound_dropRights, SoundEnd, KeepsBoth, id]

theorem sound_execPartition {s : State} (h : AllSound s.strands) (q f) : SoundNext (execPartition q f s) := by
  unfold execPartition
  grind [sound_memoryFrame, sound_partitionBody, SoundNext, SoundEnd]

@[simp] theorem State.alightForced_strands (s : State) (plist r) :
    (s.alightForced plist r).1.strands = s.strands := by
  unfold alightForced
  grind [State.keeps_translate, State.storeRecordAt_strands, State.sendRequest_strands, State.logError_strands, KeepsSome]

@[simp] theorem State.alightDomain_strands (s : State) (d plist) :
    (s.alightDomain d plist).1.strands = s.strands := by
  unfold alightDomain
  exact List.foldlRecOn (motive := fun acc : State × Nat => acc.1.strands = s.strands) _ _ rfl
    fun _ hs _ _ => (State.alightForced_strands ..).trans hs

theorem sound_teardownBody {s : State} (h : AllSound s.strands) (q f) : SoundEnd (teardownBody q f s) := by
  unfold teardownBody
  dsimp only
  split
  · exact h
  · split
    · exact h
    · refine State.sound_dropRights (sound_foldl (fun s i hs => by simpa using hs) ?_ _) ..
      simpa using sound_foldl (fun s l hs => by simpa using hs) h _

theorem sound_execTeardown {s : State} (h : AllSound s.strands) (q f) : SoundNext (execTeardown q f s) := by
  unfold execTeardown
  grind [sound_memoryFrame, sound_teardownBody, SoundNext, SoundEnd]

theorem sound_attestBody {s : State} (h : AllSound s.strands) (q f) : SoundEnd (attestBody q f s) := by
  unfold attestBody
  dsimp only
  split
  · exact h
  · split
    · exact h
    · split <;> rename_i e
      · exact h.of_error (e := id) (State.keeps_frameWrite s ..) e
      · exact h.of_ok (get := id) (State.keeps_frameWrite s ..) e

theorem sound_execAttest {s : State} (h : AllSound s.strands) (q f) : SoundNext (execAttest q f s) := by
  unfold execAttest
  grind [sound_memoryFrame, sound_attestBody, SoundNext, SoundEnd]

theorem sound_errlogBody {s : State} (h : AllSound s.strands) (q f) : SoundEnd (errlogBody q f s) := by
  unfold errlogBody
  grind [State.keeps_hostWrite, SoundEnd, KeepsSome, id]

theorem sound_execErrlog {s : State} (h : AllSound s.strands) (q f) : SoundNext (execErrlog q f s) := by
  unfold execErrlog
  grind [sound_memoryFrame, sound_errlogBody, SoundNext, SoundEnd]

theorem sound_firmwareBody {s : State} (h : AllSound s.strands) (q f) : SoundEnd (firmwareBody q f s) := by
  unfold firmwareBody
  dsimp only
  repeat' split
  all_goals simp [h]

theorem sound_execFirmware {s : State} (h : AllSound s.strands) (q f) : SoundNext (execFirmware q f s) := by
  unfold execFirmware
  grind [sound_memoryFrame, sound_firmwareBody, SoundNext, SoundEnd]

/-! #### Machine/Boot -/

@[simp] theorem State.writeCaps_strands (s : State) : s.writeCaps.strands = s.strands := by
  unfold writeCaps
  grind [State.writeMem_strands]

@[simp] theorem State.bringUp_strands (s : State) : s.bringUp.strands = s.strands := by
  unfold bringUp
  grind [State.writeCaps_strands, State.writeMem_strands]

theorem sound_execFirmwareTakeover {s : State} (h : AllSound s.strands) : SoundNext (execFirmwareTakeover s) := by
  unfold execFirmwareTakeover
  grind [State.complete_strands, State.bringUp_strands, SoundNext]

/-- The strand as a reset leaves it. -/
theorem Strand.sound_reset : Strand.reset.sound = true := by
  refine (Strand.sound_iff _).mpr ⟨rfl, by decide, rfl, rfl⟩

/-- A reset leaves every strand as `Strand.reset` is. -/
theorem sound_execReset {s : State} : SoundNext (execReset s) := ⟨fun _ => Strand.sound_reset⟩

/-! #### Machine/Branch -/

theorem sound_branchOp {s : State} (h : AllSound s.strands) (taken a b o) : SoundNext (branchOp taken a b o s) := by
  unfold branchOp
  split <;> simp [h]

theorem sound_execJ {s : State} (h : AllSound s.strands) (o) : SoundNext (execJ o s) := by
  simp [execJ, h]

theorem sound_execJal {s : State} (h : AllSound s.strands) (o) : SoundNext (execJal o s) := by
  simp [execJal, h]

theorem sound_execJalr {s : State} (h : AllSound s.strands) (d a i) : SoundNext (execJalr d a i s) := by
  unfold execJalr
  dsimp only
  repeat' split
  all_goals simp [h]

/-! #### Machine/Cache -/

theorem State.keeps_rangeRights (s : State) (need a n) :
    KeepsBoth Prod.snd Prod.snd (s.rangeRights need a n) s.strands := by
  unfold rangeRights
  grind [State.keeps_plbRange, KeepsBoth]

theorem sound_execCpref {s : State} (h : AllSound s.strands) (d a b c) : SoundNext (execCpref d a b c s) := by
  unfold execCpref
  grind [State.sound_writeG, State.setMyCore_strands, State.keeps_readBlockOf, State.sound_stopped, State.sound_trap, SoundNext,
    KeepsBoth]

theorem sound_execPrefetch {s : State} (h : AllSound s.strands) (core) : SoundNext (execPrefetch core s) := by
  simp [execPrefetch, h]

theorem State.sound_writeBack {s : State} (h : AllSound s.strands) (d lo n) : SoundNext (s.writeBack d lo n) := by
  unfold writeBack
  split <;> simp [h]

theorem sound_execCflush {s : State} (h : AllSound s.strands) (d a b c) : SoundNext (execCflush d a b c s) := by
  unfold execCflush
  grind [State.sound_stopped, State.sound_waiting, State.keeps_rangeRights, State.sound_writeBack, SoundNext, KeepsBoth]

@[simp] theorem State.dropCopies_strands (s : State) (lo n) : (s.dropCopies lo n).strands = s.strands := (rfl)

@[simp] theorem State.refill_strands (s : State) (lo n) : (s.refill lo n).strands = s.strands := by
  unfold refill
  split <;> rfl

theorem sound_execCinv {s : State} (h : AllSound s.strands) (d a b c) : SoundNext (execCinv d a b c s) := by
  unfold execCinv
  grind [State.dropCopies_strands, State.sound_stopped, State.refill_strands, State.sound_waiting, State.keeps_rangeRights,
    State.sound_writeBack, SoundNext, KeepsBoth]

theorem sound_execWritebackComplete {s : State} (h : AllSound s.strands) (sid) : SoundNext (execWritebackComplete sid s) := by
  unfold execWritebackComplete
  split <;> simp [h]

theorem sound_execCpin {s : State} (h : AllSound s.strands) (d a b _c) : SoundNext (execCpin d a b _c s) := by
  unfold execCpin
  grind [State.sound_writeG, State.sound_stopped, State.keeps_rangeRights, State.sound_trap, SoundNext, KeepsBoth]

theorem sound_execCunpin {s : State} (h : AllSound s.strands) (d a b _c) : SoundNext (execCunpin d a b _c s) := by
  unfold execCunpin
  dsimp only
  repeat' split
  all_goals simp [h]

theorem sound_execCpri {s : State} (h : AllSound s.strands) (d a b _c) : SoundNext (execCpri d a b _c s) := by
  unfold execCpri
  grind [State.sound_writeG, State.sound_stopped, State.keeps_rangeRights, SoundNext, KeepsBoth]

/-! #### Machine/Message -/

theorem State.keeps_readWords (s : State) (who a n) :
    KeepsBoth Prod.snd Prod.snd (s.readWords who a n) s.strands := by
  induction n generalizing s a with
  | zero => rfl
  | succ n ih => unfold readWords; grind [State.keeps_readBlock, KeepsBoth]

theorem State.post_strands {s t : State} {own dev core reply handled cls payload} {y}
    (e : s.post own dev core reply handled cls payload = some (y, t)) : t.strands = s.strands := by
  unfold post at e
  dsimp only at e
  split at e
  · cases e; rfl
  · obtain ⟨⟨_, _⟩, er, e⟩ := Option.map_eq_some_iff.mp e
    cases e
    exact (State.sendRequest_strands er :)

theorem sound_sendOp {s : State} (h : AllSound s.strands) (handled d a b) : SoundNext (sendOp handled d a b s) := by
  unfold sendOp
  grind [State.post_strands, State.keeps_readWords, State.sound_writeG, State.sound_stopped, State.sound_waiting,
    State.sound_trap,
    SoundNext, KeepsBoth]

theorem sound_execAmreply {s : State} (h : AllSound s.strands) (d a b) : SoundNext (execAmreply d a b s) := by
  unfold execAmreply
  split <;> grind [State.post_strands, State.keeps_readWords, State.sound_writeG, State.sound_stopped, State.sound_trap,
    SoundNext,
    KeepsBoth]

@[simp] theorem State.sound_handled (s : State) (num status) :
    AllSound (s.handled num status).strands ↔ AllSound s.strands := by
  unfold handled
  dsimp only
  repeat' split
  all_goals simp

@[simp] theorem State.sound_freeMessage (s : State) (core num) :
    AllSound (s.freeMessage core num).strands ↔ AllSound s.strands := by
  unfold freeMessage
  dsimp only
  split <;> simp

/-- The thread a handler interrupted goes on in the mode it had. -/
theorem Strand.sound_leaveHandler {x : Strand} (h : x.sound = true) {c : HandlerCtx} (hc : x.handler = some c) :
    (x.leaveHandler c).sound = true := by
  obtain ⟨hp, -, hf, hh⟩ := x.sound_iff.mp h
  refine (Strand.sound_iff _).mpr ⟨hp, (statusSound_statusWord ..).trans ?_, hf, rfl⟩
  have hm : c.mode ≠ .f := by simpa [hc] using hh
  revert hm
  cases c.mode <;> decide

theorem sound_execAmdone {s : State} (h : AllSound s.strands) : SoundNext (execAmdone s) := by
  unfold execAmdone
  dsimp only
  split
  · simp [h]
  · next hc =>
    split
    · simp [h]
    · exact (State.sound_freeMessage ..).mpr (sound_mapSet h s.cur (Strand.sound_leaveHandler h.me hc))

theorem sound_execRcmask {s : State} (h : AllSound s.strands) (c) : SoundNext (execRcmask c s) := by
  simp [execRcmask, h]

theorem sound_execRcunmask {s : State} (h : AllSound s.strands) (c) : SoundNext (execRcunmask c s) := by
  simp [execRcunmask, h]

@[simp] theorem State.accept_strands (s : State) (core m) : (s.accept core m).strands = s.strands := (rfl)

theorem State.keeps_routeBrought (s : State) (core m) :
    KeepsBoth id Prod.snd (s.routeBrought core m) s.strands := by
  unfold routeBrought
  grind [State.dropReq_strands, State.routeLoad_strands, State.sendRequest_strands, State.touchRoute_strands, KeepsBoth, id]

theorem sound_execMessageArrival {s : State} (h : AllSound s.strands) : SoundNext (execMessageArrival s) := by
  unfold execMessageArrival
  split <;> grind [State.answer_strands, State.keeps_routeBrought, State.touchRoute_strands, State.drawn_strands,
    State.accept_strands,
    SoundNext, KeepsBoth, id]

theorem State.sound_withWait (s : State) (sid w) :
    AllSound (s.setStrand sid { s.strand sid with wait := w }).strands ↔ AllSound s.strands :=
  s.sound_setStrand rfl rfl rfl rfl

theorem sound_execAmsendAnswer {s : State} (h : AllSound s.strands) (sid) : SoundNext (execAmsendAnswer sid s) := by
  unfold execAmsendAnswer
  dsimp only
  split
  · split
    · exact h
    · split
      · exact (State.sound_withWait _ sid _).mpr h
      · simp [h]
  · exact h

theorem State.keeps_landingStore (s : State) (sid blk m) :
    KeepsBoth Prod.snd Prod.snd (s.landingStore sid blk m) s.strands := by
  unfold landingStore
  dsimp only
  split
  · rfl
  · have hr := State.keeps_resolve s (s.actorOf sid) .store blk 72
    split <;> rename_i e <;> rw [e] at hr
    · exact hr
    · split
      · exact hr
      · split
        · exact hr
        · next e1 =>
          have h1 := (State.sendRequest_strands e1).trans hr
          split
          · exact h1
          · next e2 => exact (State.sendRequest_strands e2).trans h1
    · split
      · exact hr
      · exact (State.writePlace_strands ..).trans hr

/-- What has landed leaves the strand's handler its mode to return to. -/
theorem Strand.sound_landedAt (x : Strand) (blk) : (x.landedAt blk).sound = x.sound := by
  have hh : (x.handler.map fun h => { h with landed := true }).all (fun h => h.mode != .f) =
      x.handler.all (fun h => h.mode != .f) := by cases x.handler <;> rfl
  simp [Strand.sound, landedAt, hh]

theorem State.sound_land {s : State} (h : AllSound s.strands) (sid blk m) : AllSound (s.land sid blk m).strands := by
  have hl := State.keeps_landingStore s sid blk m
  unfold land
  split <;> rename_i e
  · exact State.sound_trapOn (h.of_error hl e) ..
  · exact h.of_error hl e
  · have h1 := h.of_ok hl e
    exact sound_mapSet h1 sid ((Strand.sound_landedAt ..).trans (h1.strand sid))
  · exact (State.sound_withWait _ sid _).mpr (h.of_ok hl e)

theorem State.sound_finishLanding {s : State} (h : AllSound s.strands) (sid blk tags) :
    AllSound (s.finishLanding sid blk tags).strands := by
  unfold finishLanding
  dsimp only
  split
  · exact h
  · have h1 : AllSound (tags.foldl State.dropReq s).strands := by rwa [foldl_strands State.dropReq_strands]
    split
    · exact State.sound_trapOn h1 ..
    · exact sound_mapSet h1 sid ((Strand.sound_landedAt ..).trans (h1.strand sid))

theorem State.sound_landAgain {s : State} (h : AllSound s.strands) (sid c) : AllSound (s.landAgain sid c).strands := by
  unfold landAgain
  grind [State.sound_land, State.touchRoute_strands]

@[simp] theorem State.routeFetched_strands (s : State) (core m) : (s.routeFetched core m).strands = s.strands := by
  unfold routeFetched
  grind [State.keeps_routeBrought, State.setCore_strands, KeepsBoth, id]

/-- A handler's MODE is U, and it will return to U or S. -/
theorem Strand.sound_enterHandler {x : Strand} (h : x.sound = true) (m r budget) :
    (x.enterHandler m r budget).sound = true := by
  obtain ⟨hp, hs, hf, -⟩ := x.sound_iff.mp h
  refine (Strand.sound_iff _).mpr ⟨hp, ?_, hf, by simpa [enterHandler] using Strand.mode_ne_f h⟩
  simp only [statusSound, Bool.and_eq_true, beq_iff_eq] at hs ⊢
  obtain ⟨⟨-, hr⟩, hz⟩ := hs
  rw [enterHandler, BitVec.getLsbD_and, BitVec.getLsbD_and, BitVec.extractLsb'_and, hr, hz]
  simp

theorem State.sound_dispatch {s : State} (h : AllSound s.strands) (sid) : SoundSome id (s.dispatch sid) := by
  unfold dispatch
  split
  · trivial
  · split
    · split
      · trivial
      · simpa using h
    · trivial
    · split
      · trivial
      · next e =>
        have h1 := (State.sound_settle e).mpr h
        exact State.sound_land (by simpa using sound_mapSet h1 sid (Strand.sound_enterHandler (h1.strand sid) ..)) ..

theorem sound_execMessageDispatch {s : State} (h : AllSound s.strands) (sid) : SoundNext (execMessageDispatch sid s) := by
  have hd := State.sound_dispatch h sid
  unfold execMessageDispatch
  split
  · split
    · exact State.sound_landAgain h ..
    · exact h
  · cases e : s.dispatch sid with
    | none => exact h
    | some t => exact (by simpa [e] using hd)

/-! #### Machine/Links -/

@[simp] theorem State.goOn_strands (s : State) (dev) : (s.goOn dev).strands = s.strands := by
  simp [State.goOn]

@[simp] theorem State.setAnswer_strands (s : State) (xtag status data) :
    (s.setAnswer xtag status data).strands = s.strands := (rfl)

@[simp] theorem State.keepAnswer_strands (s : State) (r sid status data) :
    (s.keepAnswer r sid status data).strands = s.strands := by
  unfold keepAnswer
  split <;> rfl

@[simp] theorem State.onCard_strands (s : State) (core num f) : (s.onCard core num f).strands = s.strands := by
  unfold onCard
  split <;> rfl

@[simp] theorem State.sound_messageAnswered (s : State) (r num status handled) :
    AllSound (s.messageAnswered r num status handled).strands ↔ AllSound s.strands := by
  unfold messageAnswered
  dsimp only
  split
  · simp
  · split
    · split
      · cases e : (s.dropReq r.xtag).sendRequest r.packet.ddev.toNat r.purpose r.packet with
        | none => simp
        | some q =>
        have hq : q.2.strands = s.strands := by simpa using State.sendRequest_strands e
        simp [hq]
      · simp
    · split <;> simp

theorem State.sound_entryAnswered {s : State} (h : AllSound s.strands) (status data i e) :
    AllSound (s.entryAnswered status data i e).strands := by
  unfold entryAnswered
  grind [State.sound_entryDone, State.sound_entryFault]

theorem State.sound_concluded {s : State} (h : AllSound s.strands) (r status data aux) :
    AllSound (s.concluded r status data aux).strands := by
  unfold concluded
  split
  case h_6 => exact sound_foldl (fun s x hs => State.sound_entryAnswered hs ..) (by simpa using h) _
  all_goals grind [State.dropReq_strands, State.keepAnswer_strands, State.setAnswer_strands, State.onCard_strands,
    State.sound_refuse,
    State.sound_withAhead, State.logError_strands, State.sound_messageAnswered]

theorem State.sound_endRequest {s : State} (h : AllSound s.strands) (r status data aux) :
    AllSound (s.endRequest r status data aux).strands := by
  unfold endRequest
  grind [State.sound_concluded, State.goOn_strands]

theorem State.sound_endOver {s : State} (h : AllSound s.strands) (port) : AllSound (s.endOver port).strands :=
  sound_foldl (fun _ _ hs => State.sound_endRequest hs ..) h _

theorem State.sound_stopPort {s : State} (h : AllSound s.strands) (port exhausted) :
    AllSound (s.stopPort port exhausted).strands := by
  unfold stopPort
  grind [State.setPort_strands, State.reroute_strands, State.sound_endOver]

@[simp] theorem State.untrain_strands (s : State) (port) : (s.untrain port).strands = s.strands := by
  unfold untrain
  grind [State.writeCaps_strands, State.setPort_strands]

theorem State.sound_loseTraining {s : State} (h : AllSound s.strands) (port) : AllSound (s.loseTraining port).strands := by
  unfold loseTraining
  grind [State.sound_stopPort, State.untrain_strands]

theorem State.sound_hearStop {s : State} (h : AllSound s.strands) (port) : AllSound (s.hearStop port).strands := by
  unfold hearStop
  grind [State.sound_stopPort]

theorem sound_execPortStop {s : State} (h : AllSound s.strands) (n) : SoundNext (execPortStop n s) := by
  unfold execPortStop
  grind [State.sound_loseTraining, State.sound_hearStop, SoundNext]

theorem sound_execLinkTrained {s : State} (h : AllSound s.strands) (port) : SoundNext (execLinkTrained port s) := by
  unfold execLinkTrained
  grind [State.writeCaps_strands, State.setPort_strands, State.reroute_strands, State.sound_endOver, SoundNext]

theorem State.sound_linkFails {s : State} (h : AllSound s.strands) (port) : AllSound (s.linkFails port).strands := by
  unfold linkFails
  grind [State.setPort_strands, State.sound_stopPort]

theorem sound_execBlockReplay {s : State} (h : AllSound s.strands) (port receive) :
    SoundNext (execBlockReplay port receive s) := by
  unfold execBlockReplay
  grind [State.sound_linkFails, State.setPort_strands, State.drawn_strands, State.portSent_strands, SoundNext]

theorem sound_execKeyRotation {s : State} (h : AllSound s.strands) (port) : SoundNext (execKeyRotation port s) := by
  unfold execKeyRotation
  split <;> simp [h]

theorem sound_execKeyExhausted {s : State} (h : AllSound s.strands) (port) : SoundNext (execKeyExhausted port s) := by
  unfold execKeyExhausted
  grind [State.sound_stopPort, SoundNext]

@[simp] theorem State.keySelected_strands (s : State) (v) : (s.keySelected v).strands = s.strands := (rfl)

@[simp] theorem State.setKeyDir_strands (s : State) (v d) : (s.setKeyDir v d).strands = s.strands := (rfl)

theorem sound_execLinkKeySelect {s : State} (h : AllSound s.strands) (v) : SoundNext (execLinkKeySelect v s) := by
  unfold execLinkKeySelect
  split <;> simp [h]

theorem sound_execLinkKeyStage {s : State} (h : AllSound s.strands) (v) : SoundNext (execLinkKeyStage v s) := by
  unfold execLinkKeyStage
  split <;> simp [h]

theorem sound_execLinkKeyInstall {s : State} (h : AllSound s.strands) (v) : SoundNext (execLinkKeyInstall v s) := by
  unfold execLinkKeyInstall
  repeat' split
  all_goals simp [h]

theorem sound_execLinkPortStop {s : State} (h : AllSound s.strands) (v) : SoundNext (execLinkPortStop v s) := by
  unfold execLinkPortStop
  grind [State.sound_stopPort, State.keySelected_strands, SoundNext]

theorem sound_execLinkRetrain {s : State} (h : AllSound s.strands) (v) : SoundNext (execLinkRetrain v s) := by
  unfold execLinkRetrain
  grind [State.sound_loseTraining, State.keySelected_strands, SoundNext]

theorem sound_execLinkKeyData {s : State} (h : AllSound s.strands) (v) : SoundNext (execLinkKeyData v s) := by
  simp [execLinkKeyData, h]

/-! #### Machine/VecArith -/

@[simp] theorem Strand.sound_elementEffect (x : Strand) (dom tag ifn ffn d a y p) :
    (x.elementEffect dom tag ifn ffn d a y p).1.sound = x.sound := Strand.sound_deliver ..

theorem sound_elementwise {s : State} (h : AllSound s.strands) (word ifn ffn reads rounds rtag d a y resolveY p) :
    SoundNext (elementwise word ifn ffn reads rounds rtag d a y resolveY p s) := by
  unfold elementwise
  dsimp only
  repeat' split
  all_goals simp [h, h.me]

theorem sound_vBinary {s : State} (h : AllSound s.strands) (major fn ifn ffn reads rounds d a b f p) :
    SoundNext (vBinary major fn ifn ffn reads rounds d a b f p s) := by
  unfold vBinary
  grind [sound_elementwise, SoundNext]

theorem sound_vUnary {s : State} (h : AllSound s.strands) (major fn ifn ffn rounds rtag d a p) :
    SoundNext (vUnary major fn ifn ffn rounds rtag d a p s) := by
  unfold vUnary
  grind [sound_elementwise, SoundNext]

theorem sound_bitwiseOp {s : State} (h : AllSound s.strands) (word op unary reads d a b f p) :
    SoundNext (bitwiseOp word op unary reads d a b f p s) := by
  unfold bitwiseOp
  dsimp only
  repeat' split
  all_goals simp [h, h.me]

theorem sound_shiftOp {s : State} (h : AllSound s.strands) (fn ifn d a b f p) : SoundNext (shiftOp fn ifn d a b f p s) := by
  unfold shiftOp
  grind [sound_vBinary, State.sound_trap, SoundNext]

theorem sound_execVdot4 {s : State} (h : AllSound s.strands) (d a b f p) : SoundNext (execVdot4 d a b f p s) := by
  unfold execVdot4
  dsimp only
  repeat' split
  all_goals simp [h, h.me]

/-! #### Machine/VecMem -/

theorem State.keeps_elemCheck (s : State) (x o i) :
    KeepsBoth Prod.snd Prod.snd (s.elemCheck x o i) s.strands := by
  unfold elemCheck
  grind [State.keeps_resolve, KeepsBoth]

@[simp] theorem State.sound_putElem (s : State) (d i x) : AllSound (s.putElem d i x).strands ↔ AllSound s.strands := by
  exact s.sound_setMe rfl rfl rfl rfl

theorem State.sound_elemPerform {s : State} (h : AllSound s.strands) (x o i p) : AllSound (s.elemPerform x o i p).strands := by
  unfold elemPerform
  grind [State.writePlace_strands, State.sound_putElem]

@[simp] theorem State.takeRun_strands (s : State) (x o dev dense head prev l) :
    (s.takeRun x o dev dense head prev l).2.strands = s.strands := by
  induction l generalizing s dense prev with
  | nil => rfl
  | cons i t ih => unfold takeRun; grind [State.keeps_elemCheck, KeepsBoth]

@[simp] theorem State.sound_vmDone (s : State) (o sc) : AllSound (s.vmDone o sc).strands ↔ AllSound s.strands := by
  cases hs : o.store <;> simp [State.vmDone, Strand.setProgress, Strand.setV, hs]

@[simp] theorem State.sound_vmFault {s : State} (h : AllSound s.strands) (o first k t) :
    AllSound (s.vmFault o first k t).strands := by
  unfold vmFault
  split
  · simp [h]
  · cases o.store <;> simp [Strand.setProgress, Strand.setV, h]

@[simp] theorem State.sound_vmWait (s : State) (o k w) : AllSound (s.vmWait o k w).strands ↔ AllSound s.strands := by
  cases hs : o.store <;> simp [State.vmWait, Strand.setProgress, Strand.setV, hs]

theorem State.sound_vmLoop {s : State} (h : AllSound s.strands) (x o first l) : AllSound (s.vmLoop x o first l).strands := by
  induction l generalizing s with
  | nil => simp [vmLoop, h]
  | cons i t ih =>
    unfold vmLoop
    grind [State.keeps_elemCheck, State.takeRun_strands, State.sendRequest_strands, State.sound_elemPerform,
      State.sound_vmFault,
      State.sound_vmWait, State.sound_refuseNow, KeepsBoth, KeepsSome]

@[simp] theorem State.sound_putElems (s : State) (d l) : AllSound (s.putElems d l).strands ↔ AllSound s.strands := by
  unfold putElems
  refine sound_foldl_iff (fun s x => ?_) _ _
  simp

@[simp] theorem State.sound_refuseRun (s : State) (cls run) : AllSound (s.refuseRun cls run).strands ↔ AllSound s.strands := by
  unfold refuseRun
  refine sound_foldl_iff (fun s x => ?_) _ _
  simp

theorem State.sound_vmNext {s : State} (h : AllSound s.strands) (x o first run) :
    AllSound (s.vmNext x o first run).strands := by
  unfold vmNext
  grind [State.sound_vmLoop, State.sound_vmWait]

theorem State.sound_vmResume {s : State} (h : AllSound s.strands) (o xtag first run) :
    AllSound (s.vmResume o xtag first run).strands := by
  unfold vmResume
  split <;> grind [State.sound_putElems, State.dropReq_strands, State.sound_vmFault, State.sound_vmNext, State.sound_refuseRun,
    State.sound_vmLoop]

theorem sound_vmemOp {s : State} (h : AllSound s.strands) (w o) : SoundNext (vmemOp w o s) := by
  unfold vmemOp
  grind [State.sound_vmResume, State.sound_waiting, State.sound_vmLoop, State.sound_trap, SoundNext]

theorem State.keeps_elemCheckAll (s : State) (x o l) :
    KeepsBoth (fun x => x.2.2) Prod.snd (s.elemCheckAll x o l) s.strands := by
  induction l generalizing s with
  | nil => rfl
  | cons i t ih => unfold elemCheckAll; grind [State.keeps_elemCheck, KeepsBoth]

@[simp] theorem State.sound_giveUp {s : State} (h : AllSound s.strands) (n k t) : AllSound (s.giveUp n k t).strands := by
  exact State.sound_trap (s := { s with tickets := s.tickets.filter (fun m => m != n) }) h _

@[simp] theorem State.sound_scatterGo (s : State) (o n l) : AllSound (s.scatterGo o n l).strands ↔ AllSound s.strands := by
  induction l generalizing s with
  | nil => simp [scatterGo]
  | cons q t ih =>
    unfold scatterGo
    dsimp only
    split
    · simp
    · split
      · simp [ih]
      · next e => simp [show _ = _ from State.sendRequest_strands e]

@[simp] theorem State.sound_scatterResume (s : State) (o n xtag run left) :
    AllSound (s.scatterResume o n xtag run left).strands ↔ AllSound s.strands := by
  unfold scatterResume
  repeat' split
  all_goals simp

theorem State.sound_orderedPerform {s : State} (h : AllSound s.strands) (o n got) :
    AllSound (s.orderedPerform o n got).strands := by
  have hc := State.keeps_elemCheckAll s s.me o (s.me.active o.p)
  unfold orderedPerform
  dsimp only
  split <;> rename_i e
  · exact State.sound_giveUp (h.of_error hc e) ..
  · exact (State.sound_waiting ..).mpr (h.of_error hc e)
  · replace hc := h.of_ok hc e
    split
    · rw [State.sound_scatterGo]
      exact sound_foldl (fun s q hs => State.sound_elemPerform hs ..) hc _
    · rw [State.sound_vmDone, State.sound_putElems]
      exact sound_foldl (fun s q hs => State.sound_elemPerform hs ..) hc _

theorem State.sound_orderedGo {s : State} (h : AllSound s.strands) (o n got l) : AllSound (s.orderedGo o n got l).strands := by
  induction l generalizing s with
  | nil => exact State.sound_orderedPerform h ..
  | cons i t ih =>
    unfold orderedGo
    grind [State.keeps_elemCheck, State.takeRun_strands, State.sendRequest_strands, State.sound_giveUp, State.sound_waiting,
      KeepsBoth,
      KeepsSome]

theorem State.sound_orderedResume {s : State} (h : AllSound s.strands) (o n xtag run upto got) :
    AllSound (s.orderedResume o n xtag run upto got).strands := by
  unfold orderedResume
  grind [State.dropReq_strands, State.sound_giveUp, State.sound_orderedGo]

theorem sound_ticketOp {s : State} (h : AllSound s.strands) (w o) : SoundNext (ticketOp w o s) := by
  unfold ticketOp
  grind [State.sound_vmDone, State.sound_scatterResume, State.sound_waiting, State.flushCovered_strands, State.sound_trap,
    State.sound_orderedResume, SoundNext]

theorem sound_execTicketServed {s : State} (h : AllSound s.strands) : SoundNext (execTicketServed s) := by
  unfold execTicketServed
  grind [State.sound_orderedGo, State.asStrand_strands, SoundNext]

/-! #### Machine/Rininori -/

@[simp] theorem State.heard_strands (s : State) (p) : (s.heard p).strands = s.strands := by
  unfold heard
  split <;> rfl

@[simp] theorem State.serveRead_strands (s : State) (p) : (s.serveRead p).strands = s.strands := by
  unfold serveRead
  repeat' split
  all_goals simp

@[simp] theorem State.writeLine_strands (s : State) (p image) : (s.writeLine p image).strands = s.strands := by
  refine foldl_strands (fun s i => ?_) s _
  split <;> rfl

@[simp] theorem State.writeNibble_strands (s : State) (p image half) :
    (s.writeNibble p image half).strands = s.strands := by
  refine foldl_strands (fun s i => ?_) s _
  split <;> rfl

@[simp] theorem State.serveWrite_strands (s : State) (p) : (s.serveWrite p).strands = s.strands := by
  unfold serveWrite
  grind [State.writeNibble_strands, State.answer_strands, State.writeLine_strands]

@[simp] theorem State.serveAtomic_strands (s : State) (p) : (s.serveAtomic p).strands = s.strands := by
  unfold serveAtomic
  generalize (if p.aux.getLsbD 4 then 8 else 4) = n
  dsimp only
  split
  · simp
  · split
    · simp
    · rw [State.answer_strands]
      split
      · exact State.writeMem_strands s ..
      · rfl

@[simp] theorem State.serveVread_strands (s : State) (p) : (s.serveVread p).strands = s.strands := by
  unfold serveVread
  split <;> simp

@[simp] theorem State.serveVwrite_strands (s : State) (p) : (s.serveVwrite p).strands = s.strands := by
  unfold serveVwrite
  dsimp only
  split
  · simp
  · simpa using foldl_strands (fun s i => State.writeMem_strands ..) s _

@[simp] theorem State.targetWord_strands (s : State) (e) : (s.targetWord e).1.strands = s.strands := by
  unfold targetWord
  grind [State.writeMem_strands]

@[simp] theorem State.servePacket_strands (s : State) (p) : (s.servePacket p).strands = s.strands := by
  unfold servePacket
  grind [State.serveWrite_strands, State.serveVread_strands, State.serveAtomic_strands, State.serveVwrite_strands,
    State.serveRead_strands]

@[simp] theorem State.takePacket_strands (s : State) (p) : (s.takePacket p).strands = s.strands := by
  unfold takePacket
  split
  · simp
  · exact State.servePacket_strands s p
  · next pa n _ _ =>
    cases e : s.combine none pa n (.packet p) with
    | none => exact (State.servePacket_strands ..).trans rfl
    | some t => exact State.combine_strands e

@[simp] theorem State.setJob_strands (s : State) (j) : (s.setJob j).strands = s.strands := (rfl)

theorem State.wordJoins_strands {s t : State} {num e} {y} (e : s.wordJoins num e = some (y, t)) : t.strands = s.strands := by
  unfold wordJoins at e
  split at e
  · obtain ⟨_, hc, e⟩ := Option.bind_eq_some_iff.mp e
    obtain ⟨_, _, e⟩ := Option.map_eq_some_iff.mp e
    cases e
    exact State.combine_strands hc
  · cases e

theorem State.keeps_nextWord (s : State) (j) : KeepsSome id (s.nextWord j) s.strands := by
  unfold nextWord
  grind [State.addCame_strands, State.targetWord_strands, State.wordJoins_strands, State.setJob_strands, KeepsSome, id]

theorem State.keeps_jobStep (s : State) (j) : KeepsSome id (s.jobStep j) s.strands := by
  unfold jobStep
  grind [State.answer_strands, State.keeps_nextWord, KeepsSome, id]

@[simp] theorem State.runJobs_strands (s : State) (n) : (s.runJobs n).strands = s.strands := by
  induction n generalizing s with
  | zero => rfl
  | succ n ih =>
    unfold runJobs
    split
    · rfl
    · next e =>
      obtain ⟨j, _, ej⟩ := List.exists_of_findSome?_eq_some e
      have hj := State.keeps_jobStep s j
      rw [ej] at hj
      exact (ih _).trans hj

@[simp] theorem State.wordsCome_strands (s : State) (p) : (s.wordsCome p).strands = s.strands := by
  unfold wordsCome
  grind [State.answer_strands, State.runJobs_strands]

@[simp] theorem State.wordDone_strands (s : State) (num answer) : (s.wordDone num answer).strands = s.strands := by
  unfold wordDone
  grind [State.setJob_strands, State.runJobs_strands]

theorem State.sound_request {s : State} (h : AllSound s.strands) (p kind) : SoundNext (s.request p kind) := by
  unfold request
  grind [State.heard_strands, State.takePacket_strands, SoundNext]

theorem sound_execWords {s : State} (h : AllSound s.strands) (p) : SoundNext (execWords p s) := by
  unfold execWords
  grind [State.heard_strands, State.wordsCome_strands, SoundNext]

theorem sound_execMsg {s : State} (h : AllSound s.strands) (p) : SoundNext (execMsg p s) := by
  unfold execMsg
  grind [State.answer_strands, State.heard_strands, State.touchRoute_strands, State.accept_strands, SoundNext]

theorem sound_execRsp {s : State} (h : AllSound s.strands) (p) : SoundNext (execRsp p s) := by
  unfold execRsp
  grind [State.heard_strands, State.sound_endRequest, SoundNext]

theorem sound_execAck {s : State} (h : AllSound s.strands) (p) : SoundNext (execAck p s) := by
  unfold execAck
  dsimp only
  split
  · exact h
  · split
    · simp [h]
    · split
      · exact State.sound_endRequest (by simpa using h) ..
      · exact sound_foldl (fun s x hs => State.sound_endRequest hs ..) (by simpa using h) _

theorem sound_execDemand {s : State} (h : AllSound s.strands) (p) : SoundNext (execDemand p s) := by
  unfold execDemand
  dsimp only
  repeat' split
  all_goals simp [h]

theorem sound_execGrant {s : State} (h : AllSound s.strands) (p) : SoundNext (execGrant p s) := by
  unfold execGrant
  repeat' split
  all_goals simp [h]

theorem sound_execGrantLapse {s : State} (h : AllSound s.strands) (dev) : SoundNext (execGrantLapse dev s) := by
  unfold execGrantLapse
  dsimp only
  repeat' split
  all_goals simp [h]

theorem sound_execBadPacket {s : State} (h : AllSound s.strands) (p) : SoundNext (execBadPacket p s) := by
  unfold execBadPacket
  repeat' split
  all_goals simp [h]

/-! #### Machine/Mesh -/

theorem sound_execStarvationToken {s : State} (h : AllSound s.strands) (router port) :
    SoundNext (execStarvationToken router port s) := by
  unfold execStarvationToken
  dsimp only
  repeat' split
  all_goals simp [h]

theorem State.sound_deliverOld {s : State} (h : AllSound s.strands) (o width old) :
    AllSound (s.deliverOld o width old).strands := by
  unfold deliverOld
  grind [State.answer_strands, State.sound_writeG, State.wordDone_strands, State.sound_entryDone, State.asStrand_strands]

@[simp] theorem State.performWord_strands (s : State) (num e) : (s.performWord num e).strands = s.strands := by
  unfold performWord
  grind [State.targetWord_strands, State.wordDone_strands]

theorem State.sound_deliverFault {s : State} (h : AllSound s.strands) (o cause) :
    AllSound (s.deliverFault o cause).strands := by
  unfold deliverFault
  grind [State.performWord_strands, State.servePacket_strands, State.sound_entryFault, State.sound_trap, State.asStrand_strands]

theorem State.sound_performBatch {s : State} (h : AllSound s.strands) (c b) : AllSound (s.performBatch c b).strands := by
  unfold performBatch
  dsimp only
  split
  · split
    · exact sound_foldl (fun s o hs => State.sound_deliverFault hs ..) h _
    · exact sound_foldl (fun s x hs => State.sound_deliverOld hs ..) (by simpa using h) _
  · have ht := State.keeps_translate s .atomic c.addr
    split
    · next e =>
      replace ht := h.of_some ht e
      split
      · exact sound_foldl (fun s o hs => State.sound_deliverFault hs ..) ht _
      · exact sound_foldl (fun s x hs => State.sound_deliverOld hs ..) (by simpa using ht) _
    · exact sound_foldl (fun s o hs => State.sound_deliverFault hs ..) h _

theorem State.sound_performAlone {s : State} (h : AllSound s.strands) (o) : AllSound (s.performAlone o).strands := by
  unfold performAlone
  grind [State.sound_deliverEntry, State.performWord_strands, State.servePacket_strands]

theorem sound_execCombineBatch {s : State} (h : AllSound s.strands) (cluster queue) :
    SoundNext (execCombineBatch cluster queue s) := by
  unfold execCombineBatch
  grind [State.popQueue_strands, State.sound_performBatch, State.sound_performAlone, SoundNext]

theorem sound_execCombiningQueueClose {s : State} (h : AllSound s.strands) (cluster queue) :
    SoundNext (execCombiningQueueClose cluster queue s) := by
  unfold execCombiningQueueClose
  dsimp only
  repeat' split
  all_goals simp [h]

theorem sound_execBridgeLinkFailure {s : State} (h : AllSound s.strands) (link retrained) :
    SoundNext (execBridgeLinkFailure link retrained s) := by
  unfold execBridgeLinkFailure
  generalize allStrands = l
  dsimp only
  split
  · exact h
  · split
    · simp [h]
    · exact sound_foldl (fun s i hs => by simpa using hs) (by simpa using h) l

/-! #### Machine/Mma -/

@[simp] theorem State.mmaJob_strands (s : State) (x clear sub a b ca cb fa fb tag group es k rate) :
    (s.mmaJob x clear sub a b ca cb fa fb tag group es k rate).2.strands = s.strands := by
  unfold mmaJob
  dsimp only
  split <;> simp

theorem sound_mmaOp {s : State} (h : AllSound s.strands) (fn x y z e sa sb) : SoundNext (mmaOp fn x y z e sa sb s) := by
  unfold mmaOp
  refine sound_tileOp h _ _ ?_
  dsimp only
  repeat' split
  all_goals simp [h]

theorem sound_execMmaCompletion {s : State} (h : AllSound s.strands) (core) : SoundNext (execMmaCompletion core s) := by
  unfold execMmaCompletion
  dsimp only
  repeat' split
  all_goals simp [h]

/-! #### Machine/VecCmp -/

@[simp] theorem Strand.sound_putP (x : Strand) (d mask bits) : (x.putP d mask bits).sound = x.sound := x.sound_setP ..

theorem sound_compareOp {s : State} (h : AllSound s.strands) (fn c d a b f p) : SoundNext (compareOp fn c d a b f p s) := by
  unfold compareOp
  dsimp only
  repeat' split
  all_goals simp [h, h.me]

/-! #### Machine/Pred -/

theorem sound_predOp {s : State} (h : AllSound s.strands) (fn op d a b p) : SoundNext (predOp fn op d a b p s) := by
  unfold predOp
  dsimp only
  repeat' split
  all_goals simp [h, h.me]

theorem sound_predScalar {s : State} (h : AllSound s.strands) (fn f d a p) : SoundNext (predScalar fn f d a p s) := by
  unfold predScalar
  dsimp only
  repeat' split
  all_goals simp [h, h.me]

theorem sound_execPfirst {s : State} (h : AllSound s.strands) (d a p) : SoundNext (execPfirst d a p s) := by
  unfold execPfirst
  grind [sound_predScalar, SoundNext]

theorem sound_execPfromv {s : State} (h : AllSound s.strands) (d a p) : SoundNext (execPfromv d a p s) := by
  unfold execPfromv
  dsimp only
  repeat' split
  all_goals simp [h, h.me]

theorem sound_execPtov {s : State} (h : AllSound s.strands) (d a p) : SoundNext (execPtov d a p s) := by
  unfold execPtov
  dsimp only
  repeat' split
  all_goals simp [h, h.me]

/-! #### Machine/Sys -/

theorem sound_execEcall {s : State} (h : AllSound s.strands) : SoundNext (execEcall s) := by
  simp [execEcall, h]

theorem sound_execEbreak {s : State} (h : AllSound s.strands) : SoundNext (execEbreak s) := by
  unfold execEbreak
  grind [State.sound_haltCore, State.sound_trap, SoundNext]

theorem State.keeps_resumePoint (s : State) : KeepsBoth Prod.snd Prod.snd s.resumePoint s.strands := by
  unfold resumePoint
  grind [State.keeps_fetchWord, KeepsBoth]

theorem State.resumePoint_me {s s1 : State} {f} (e : s.resumePoint = .ok (f, s1)) : s1.me = s.me := by
  have hw := State.fetchWord_me s s.cur s.me.trapPc
  unfold resumePoint at e
  dsimp only at e
  split at e
  · cases e
    rfl
  · split at e <;> rename_i ew <;> rw [ew] at hw
    · cases e
      exact hw
    · cases e
    · split at e
      · cases e
        exact hw
      · split at e
        · cases e
        · cases e
          exact hw

/-- ERET to U or S leaves a strand sound; its handler keeps the mode to return to. -/
theorem Strand.sound_leave {x : Strand} (h : x.sound = true) (hm : (x.status.extractLsb' 2 2).toNat < 2) (frame budget) :
    (x.leave frame budget).sound = true := by
  obtain ⟨hp, -, hf, hh⟩ := x.sound_iff.mp h
  refine (Strand.sound_iff _).mpr ⟨hp, (statusSound_statusWord ..).trans ?_, hf, ?_⟩
  · generalize x.status.extractLsb' 2 2 = m at hm ⊢
    revert m
    decide
  · cases e : x.handler with
    | none => simp [leave, e]
    | some c => simpa [leave, e] using hh

theorem sound_execEret {s : State} (h : AllSound s.strands) : SoundNext (execEret s) := by
  unfold execEret
  dsimp only
  split
  · simp [h]
  · split
    · simp [h]
    · next hm =>
      split <;> rename_i e
      · exact State.sound_stopped (h.of_error (State.keeps_resumePoint s) e) _
      · have h1 := h.of_ok (State.keeps_resumePoint s) e
        refine sound_mapSet h1 _ (Strand.sound_leave h1.me ?_ ..)
        rw [State.resumePoint_me e]
        omega

theorem sound_execWfi {s : State} (h : AllSound s.strands) : SoundNext (execWfi s) := by
  unfold execWfi
  split <;> simp [h]

theorem sound_execYield {s : State} (h : AllSound s.strands) : SoundNext (execYield s) := by
  simp [execYield, h]

theorem sound_execPause {s : State} (h : AllSound s.strands) : SoundNext (execPause s) := by
  unfold execPause
  split <;> simp [h]

theorem sound_execStrandpark {s : State} (h : AllSound s.strands) (a) : SoundNext (execStrandpark a s) := by
  unfold execStrandpark
  grind [State.sound_retire, State.sound_waiting, State.sound_trap, State.sound_park, SoundNext]

theorem sound_execStrandwake {s : State} (h : AllSound s.strands) (a) : SoundNext (execStrandwake a s) := by
  unfold execStrandwake
  dsimp only
  repeat' split
  all_goals simp [h]

/-! #### Machine/Repf -/

theorem sound_execIllegalInstr {s : State} (h : AllSound s.strands) (w) : SoundNext (execIllegalInstr w s) := by
  simp [execIllegalInstr, h]

theorem sound_execRepf {s : State} (h : AllSound s.strands) (c r x y z) : SoundNext (execRepf c r x y z s) := by
  unfold execRepf
  grind [State.sound_stopped, State.sound_setMe, State.keeps_fetchWords, State.sound_trap, SoundNext, KeepsBoth]

theorem State.sound_frameWord {s : State} (h : AllSound s.strands) (sid f) :
    SoundBoth Prod.snd Prod.snd (s.frameWord sid f) := by
  unfold frameWord
  grind [State.keeps_fetchWords, State.sound_setStrand, SoundBoth, KeepsBoth]

/-! #### Machine/Scale -/

theorem State.sound_setScale (s : State) (e v) : AllSound (s.setMe (s.me.setE e v)).strands ↔ AllSound s.strands :=
  s.sound_setMe rfl rfl rfl rfl

theorem sound_execElds {s : State} (h : AllSound s.strands) (e a) : SoundNext (execElds e a s) := by
  unfold execElds
  grind [State.sound_takePieces, State.sound_retire, State.sound_setScale, State.sound_trap, SoundNext, SoundBoth, KeepsBoth,
    id]

theorem sound_execEsts {s : State} (h : AllSound s.strands) (e a) : SoundNext (execEsts e a s) := by
  unfold execEsts
  grind [State.sound_takePieces, State.sound_writePieces, State.sound_retire, State.sound_trap, SoundNext, SoundBoth,
    KeepsBoth, id]

theorem sound_execEzero {s : State} (h : AllSound s.strands) (e) : SoundNext (execEzero e s) := by
  unfold execEzero
  split <;> simp [h, Strand.setE]

/-! #### Machine/VecForm -/

theorem sound_vForm {s : State} (h : AllSound s.strands) (fn ifn ffn rtag d a p) :
    SoundNext (vForm fn ifn ffn rtag d a p s) := by
  unfold vForm
  grind [sound_vUnary, SoundNext]

theorem sound_vFormIf {s : State} (h : AllSound s.strands) (bad fn ffn rtag d a p) :
    SoundNext (vFormIf bad fn ffn rtag d a p s) := by
  unfold vFormIf
  grind [sound_vForm, State.sound_trap, SoundNext]

theorem sound_execVbxpack {s : State} (h : AllSound s.strands) (d a p) : SoundNext (execVbxpack d a p s) := by
  unfold execVbxpack
  dsimp only
  repeat' split
  all_goals simp [h, h.me]

/-! #### Machine/VecPerm -/

theorem sound_permuteOp {s : State} (h : AllSound s.strands) (word bad same other d a out) :
    SoundNext (permuteOp word bad same other d a out s) := by
  unfold permuteOp
  dsimp only
  repeat' split
  all_goals simp [h, h.me]

theorem sound_execVpermute {s : State} (h : AllSound s.strands) (d a b f p) : SoundNext (execVpermute d a b f p s) := by
  unfold execVpermute
  exact sound_permuteOp h ..

theorem sound_execVbcast {s : State} (h : AllSound s.strands) (d b f p) : SoundNext (execVbcast d b f p s) := by
  unfold execVbcast
  dsimp only
  repeat' split
  all_goals simp [h, h.me]

theorem sound_execVextr {s : State} (h : AllSound s.strands) (d a b f p) : SoundNext (execVextr d a b f p s) := by
  unfold execVextr
  dsimp only
  repeat' split
  all_goals simp [h, h.me]

theorem sound_execVins {s : State} (h : AllSound s.strands) (d a b f p) : SoundNext (execVins d a b f p s) := by
  unfold execVins
  dsimp only
  repeat' split
  all_goals simp [h, h.me]

theorem sound_execVzip {s : State} (h : AllSound s.strands) (d a b f p) : SoundNext (execVzip d a b f p s) := by
  unfold execVzip
  exact sound_permuteOp h ..

theorem sound_execVunzip {s : State} (h : AllSound s.strands) (d a b f p) : SoundNext (execVunzip d a b f p s) := by
  unfold execVunzip
  grind [sound_permuteOp, SoundNext]

theorem sound_execVid {s : State} (h : AllSound s.strands) (d p) : SoundNext (execVid d p s) := by
  unfold execVid
  dsimp only
  repeat' split
  all_goals simp [h, h.me]

theorem sound_execVmvix {s : State} (h : AllSound s.strands) (d a p) : SoundNext (execVmvix d a p s) := by
  unfold execVmvix
  dsimp only
  repeat' split
  all_goals simp [h, h.me]

/-! #### Machine/VecRed -/

theorem sound_reduceOp {s : State} (h : AllSound s.strands) (fn c kind tree d a b f p) :
    SoundNext (reduceOp fn c kind tree d a b f p s) := by
  unfold reduceOp
  dsimp only
  repeat' split
  all_goals simp [h, h.me]

theorem sound_execVrecur {s : State} (h : AllSound s.strands) (d a b f p) : SoundNext (execVrecur d a b f p s) := by
  unfold execVrecur
  dsimp only
  repeat' split
  all_goals simp [h, h.me]

/-! #### Machine/Dispatch -/

/-- Every instruction and every hardware step of the table keeps the memory canonical. -/
theorem sound_exec {s : State} (h : AllSound s.strands) (i : Instr) : SoundNext (exec i s) := by
  cases i with
  | add | sub | and | or | xor | andn | orn | sll | srl | sra | rol | ror | slt | sltu | min | max | minu | maxu
  | mul | mulh | mulhu | mulhsu | div | divu | rem | remu => dsimp only [exec]; exact sound_aluRR h ..
  | clz | ctz | popc | bswap | sextb | sexth | sextw | zextw | addi | andi | ori | xori | slli | srli | srai | rori
  | slti | sltiu => dsimp only [exec]; exact sound_aluR h ..
  | fadd | fsub | fmul | fdiv | fsqrt | fcvti | fcvtu | fcvtf | fcvtfu | fcvtff =>
    dsimp only [exec]; exact sound_fpRounding h ..
  | fmin | fmax | fsgnj | fsgnjn | fsgnjx | feq | flt | fle | fclass => dsimp only [exec]; exact sound_fpExact h ..
  | fmadd | fmsub | fnmadd | fnmsub => dsimp only [exec]; exact sound_fmaResult h ..
  | lb | lbu | lh | lhu | lw | lwu | ld => dsimp only [exec]; exact sound_loadOp h ..
  | sb | sh | sw | sd => dsimp only [exec]; exact sound_storeOp h ..
  | amoSwap | amoAdd | amoAnd | amoOr | amoXor | amoMin | amoMax | amoMinu | amoMaxu | amoFadd | cas =>
    dsimp only [exec]; exact sound_atomicOp h ..
  | beq | bne | blt | bge | bltu | bgeu => dsimp only [exec]; exact sound_branchOp h ..
  | csrrw | csrrs | csrrc | csrrd => dsimp only [exec]; exact sound_csrOp h ..
  | vadd | vsub | vrsub | vmul | vmulh | vdiv | vrem | vmin | vmax | vabsd | vsadd | vssub | vmacc | vnmsac | vmadd
  | vnmsub => dsimp only [exec]; exact sound_vBinary h ..
  | vabs | vneg | vsqrt | vclz | vpopc => dsimp only [exec]; exact sound_vUnary h ..
  | vand | vor | vxor | vnot | vmerge | vmov => dsimp only [exec]; exact sound_bitwiseOp h ..
  | vsll | vsrl | vsra | vrol => dsimp only [exec]; exact sound_shiftOp h ..
  | vceq | vcne | vclt | vcle | vcgt | vcge | vcun => dsimp only [exec]; exact sound_compareOp h ..
  | vcvt | vfrint | vfrexp | vfmant | vrecipe | vrsqrte => dsimp only [exec]; exact sound_vForm h ..
  | vfexp2f | vclass => dsimp only [exec]; exact sound_vFormIf h ..
  | vfscale => dsimp only [exec]; exact sound_elementwise h ..
  | vslideup | vslidedn | vcompress | vexpand | vrev => dsimp only [exec]; exact sound_permuteOp h ..
  | vredsum | vredmin | vredmax | vredand | vredor | vredxor | vfredosum | vscanadd | vscanmax | vscanmin =>
    dsimp only [exec]; exact sound_reduceOp h ..
  | pand | por | pxor | pandn | pnot | pset | pclr => dsimp only [exec]; exact sound_predOp h ..
  | pcnt => dsimp only [exec]; exact sound_predScalar h ..
  | vld | vst | vldff | vlds | vsts | vldx | vstx | vstxo => dsimp only [exec]; exact sound_vmemOp h ..
  | vldsc | vstsc => dsimp only [exec]; exact sound_ticketOp h ..
  | mma | mmaz | mmas => dsimp only [exec]; exact sound_mmaOp h ..
  | secopy | seload2d | sestore2d | segather | sefoot => dsimp only [exec]; exact sound_cardOp h ..
  | samAlight | samLd | samSt | samAdd | samMin | samMax | samCas | samCapture | samWaitrev =>
    dsimp only [exec]; exact sound_joinRing h ..
  | rstw | rstd | ramo => dsimp only [exec]; exact sound_postWord h ..
  | steepAsync | handlerOverrun | groupBudget => dsimp only [exec]; exact State.sound_takeCause h ..
  | amsend | amsendw => dsimp only [exec]; exact sound_sendOp h ..
  | read | write | atomic | vread | vwrite => dsimp only [exec]; exact State.sound_request h ..
  | sel => dsimp only [exec]; exact sound_execSel h ..
  | ldi => dsimp only [exec]; exact sound_execLdi h ..
  | ldis => dsimp only [exec]; exact sound_execLdis h ..
  | loadDataReturn => dsimp only [exec]; exact sound_execLoadDataReturn h ..
  | amoResponse => dsimp only [exec]; exact sound_execAmoResponse h ..
  | fence => dsimp only [exec]; exact sound_execFence h ..
  | fenceCompletion => dsimp only [exec]; exact sound_execFenceCompletion h ..
  | vdrain => dsimp only [exec]; exact sound_execVdrain h ..
  | ifence => dsimp only [exec]; exact sound_execIfence h
  | j => dsimp only [exec]; exact sound_execJ h ..
  | jal => dsimp only [exec]; exact sound_execJal h ..
  | jalr => dsimp only [exec]; exact sound_execJalr h ..
  | ecall => dsimp only [exec]; exact sound_execEcall h
  | ebreak => dsimp only [exec]; exact sound_execEbreak h
  | eret => dsimp only [exec]; exact sound_execEret h
  | wfi => dsimp only [exec]; exact sound_execWfi h
  | wakeCondition => dsimp only [exec]; exact sound_execWakeCondition h ..
  | yield => dsimp only [exec]; exact sound_execYield h
  | pause => dsimp only [exec]; exact sound_execPause h
  | plbinv => dsimp only [exec]; exact sound_execPlbinv h ..
  | htinv => dsimp only [exec]; exact sound_execHtinv h ..
  | htinvMigrate => dsimp only [exec]; exact sound_execHtinvMigrate h ..
  | strandpark => dsimp only [exec]; exact sound_execStrandpark h ..
  | strandwake => dsimp only [exec]; exact sound_execStrandwake h ..
  | vcfg => dsimp only [exec]; exact sound_execVcfg h ..
  | vsetl => dsimp only [exec]; exact sound_execVsetl h ..
  | vacq => dsimp only [exec]; exact sound_execVacq h ..
  | vrelease => dsimp only [exec]; exact sound_execVrelease h
  | vgettag => dsimp only [exec]; exact sound_execVgettag h ..
  | vdot4 => dsimp only [exec]; exact sound_execVdot4 h ..
  | vbxpack => dsimp only [exec]; exact sound_execVbxpack h ..
  | vpermute => dsimp only [exec]; exact sound_execVpermute h ..
  | vbcast => dsimp only [exec]; exact sound_execVbcast h ..
  | vextr => dsimp only [exec]; exact sound_execVextr h ..
  | vins => dsimp only [exec]; exact sound_execVins h ..
  | vzip => dsimp only [exec]; exact sound_execVzip h ..
  | vunzip => dsimp only [exec]; exact sound_execVunzip h ..
  | vid => dsimp only [exec]; exact sound_execVid h ..
  | vmvix => dsimp only [exec]; exact sound_execVmvix h ..
  | vrecur => dsimp only [exec]; exact sound_execVrecur h ..
  | pfirst => dsimp only [exec]; exact sound_execPfirst h ..
  | pfromv => dsimp only [exec]; exact sound_execPfromv h ..
  | ptov => dsimp only [exec]; exact sound_execPtov h ..
  | ticketServed => dsimp only [exec]; exact sound_execTicketServed h
  | elds => dsimp only [exec]; exact sound_execElds h ..
  | ests => dsimp only [exec]; exact sound_execEsts h ..
  | ezero => dsimp only [exec]; exact sound_execEzero h ..
  | repf => dsimp only [exec]; exact sound_execRepf h ..
  | mmaCompletion => dsimp only [exec]; exact sound_execMmaCompletion h ..
  | tld => dsimp only [exec]; exact sound_execTld h ..
  | tst => dsimp only [exec]; exact sound_execTst h ..
  | tldm => dsimp only [exec]; exact sound_execTldm h ..
  | tstm => dsimp only [exec]; exact sound_execTstm h ..
  | tzero => dsimp only [exec]; exact sound_execTzero h ..
  | tmov => dsimp only [exec]; exact sound_execTmov h ..
  | ttrans => dsimp only [exec]; exact sound_execTtrans h ..
  | tcfg => dsimp only [exec]; exact sound_execTcfg h ..
  | trowv => dsimp only [exec]; exact sound_execTrowv h ..
  | vtrow => dsimp only [exec]; exact sound_execVtrow h ..
  | tcolv => dsimp only [exec]; exact sound_execTcolv h ..
  | accz => dsimp only [exec]; exact sound_execAccz h ..
  | accst => dsimp only [exec]; exact sound_execAccst h ..
  | accrd => dsimp only [exec]; exact sound_execAccrd h ..
  | accwr => dsimp only [exec]; exact sound_execAccwr h ..
  | accadd => dsimp only [exec]; exact sound_execAccadd h ..
  | accscl => dsimp only [exec]; exact sound_execAccscl h ..
  | gbar => dsimp only [exec]; exact sound_execGbar h ..
  | barrierPhaseComplete => dsimp only [exec]; exact sound_execBarrierPhaseComplete h ..
  | gbarTimeout => dsimp only [exec]; exact sound_execGbarTimeout h ..
  | gtmcast => dsimp only [exec]; exact sound_execGtmcast h ..
  | grank => dsimp only [exec]; exact sound_execGrank h ..
  | sempost => dsimp only [exec]; exact sound_execSempost h ..
  | semwait => dsimp only [exec]; exact sound_execSemwait h ..
  | semtry => dsimp only [exec]; exact sound_execSemtry h ..
  | sewait => dsimp only [exec]; exact sound_execSewait h ..
  | cardStart => dsimp only [exec]; exact sound_execCardStart h ..
  | cardComplete => dsimp only [exec]; exact sound_execCardComplete h ..
  | cardStop => dsimp only [exec]; exact sound_execCardStop h ..
  | cpref => dsimp only [exec]; exact sound_execCpref h ..
  | prefetch => dsimp only [exec]; exact sound_execPrefetch h ..
  | cflush => dsimp only [exec]; exact sound_execCflush h ..
  | cinv => dsimp only [exec]; exact sound_execCinv h ..
  | cpin => dsimp only [exec]; exact sound_execCpin h ..
  | cunpin => dsimp only [exec]; exact sound_execCunpin h ..
  | cpri => dsimp only [exec]; exact sound_execCpri h ..
  | samBoard => dsimp only [exec]; exact sound_execSamBoard h ..
  | boardFill => dsimp only [exec]; exact sound_execBoardFill h ..
  | samCld => dsimp only [exec]; exact sound_execSamCld h ..
  | samCst => dsimp only [exec]; exact sound_execSamCst h ..
  | samRelease => dsimp only [exec]; exact sound_execSamRelease h ..
  | samovarPassage => dsimp only [exec]; exact sound_execSamovarPassage h ..
  | recordReentry => dsimp only [exec]; exact sound_execRecordReentry h ..
  | captureHoldExpiry => dsimp only [exec]; exact sound_execCaptureHoldExpiry h ..
  | samNotag => dsimp only [exec]; exact sound_execSamNotag h ..
  | ramow => dsimp only [exec]; exact sound_execRamow h ..
  | sflush => dsimp only [exec]; exact sound_execSflush h
  | sflushw => dsimp only [exec]; exact sound_execSflushw h ..
  | sfrec => dsimp only [exec]; exact sound_execSfrec h ..
  | steepAgeTrigger => dsimp only [exec]; exact sound_execSteepAgeTrigger h ..
  | steepAck => dsimp only [exec]; exact sound_execSteepAck h
  | amreply => dsimp only [exec]; exact sound_execAmreply h ..
  | amdone => dsimp only [exec]; exact sound_execAmdone h
  | rcmask => dsimp only [exec]; exact sound_execRcmask h ..
  | rcunmask => dsimp only [exec]; exact sound_execRcunmask h ..
  | messageArrival => dsimp only [exec]; exact sound_execMessageArrival h
  | amsendAnswer => dsimp only [exec]; exact sound_execAmsendAnswer h ..
  | messageDispatch => dsimp only [exec]; exact sound_execMessageDispatch h ..
  | gnext => dsimp only [exec]; exact sound_execGnext h ..
  | gfield => dsimp only [exec]; exact sound_execGfield h ..
  | gdone => dsimp only [exec]; exact sound_execGdone h
  | groupRetire => dsimp only [exec]; exact sound_execGroupRetire h ..
  | launch => dsimp only [exec]; exact sound_execLaunch h ..
  | lwait => dsimp only [exec]; exact sound_execLwait h ..
  | groupAssign => dsimp only [exec]; exact sound_execGroupAssign h ..
  | footprintFetchComplete => dsimp only [exec]; exact sound_execFootprintFetchComplete h ..
  | reassign => dsimp only [exec]; exact sound_execReassign h ..
  | balloc => dsimp only [exec]; exact sound_execBalloc h ..
  | bfree => dsimp only [exec]; exact sound_execBfree h ..
  | blockReturn => dsimp only [exec]; exact sound_execBlockReturn h
  | illegalInstr => dsimp only [exec]; exact sound_execIllegalInstr h ..
  | trapEntry => dsimp only [exec]; exact sound_execTrapEntry h ..
  | timer => dsimp only [exec]; exact sound_execTimer h ..
  | machineCheck => dsimp only [exec]; exact sound_execMachineCheck h ..
  | poisonMark => dsimp only [exec]; exact sound_execPoisonMark h ..
  | softErrorCorrected => dsimp only [exec]; exact sound_execSoftErrorCorrected h ..
  | thermalTrip => dsimp only [exec]; exact sound_execThermalTrip h
  | status => dsimp only [exec]; exact sound_execStatus h ..
  | tileOwner => dsimp only [exec]; exact sound_execTileOwner h ..
  | ttags => dsimp only [exec]; exact sound_execTtags h ..
  | atags => dsimp only [exec]; exact sound_execAtags h ..
  | steepAgeMax => dsimp only [exec]; exact sound_execSteepAgeMax h ..
  | vl => dsimp only [exec]; exact sound_execVl h ..
  | vhwe => dsimp only [exec]; exact sound_execVhwe h ..
  | fflags => dsimp only [exec]; exact sound_execFflags h ..
  | csrWrite => dsimp only [exec]; exact sound_execCsrWrite h ..
  | gangSetMembership => dsimp only [exec]; exact sound_execGangSetMembership h ..
  | gangStop => dsimp only [exec]; exact sound_execGangStop h ..
  | gangResume => dsimp only [exec]; exact sound_execGangResume h ..
  | debugHalt => dsimp only [exec]; exact sound_execDebugHalt h ..
  | debugResume => dsimp only [exec]; exact sound_execDebugResume h ..
  | dbgData => dsimp only [exec]; exact sound_execDbgData h ..
  | kettleCtl => dsimp only [exec]; exact sound_execKettleCtl h ..
  | kettleAdjust => dsimp only [exec]; exact sound_execKettleAdjust h ..
  | svcMode => dsimp only [exec]; exact sound_execSvcMode h ..
  | samQuotaSet => dsimp only [exec]; exact sound_execSamQuotaSet h ..
  | pinQuotaSet => dsimp only [exec]; exact sound_execPinQuotaSet h ..
  | plbFill => dsimp only [exec]; exact sound_execPlbFill h ..
  | translationWalk => dsimp only [exec]; exact sound_execTranslationWalk h ..
  | migrationSectorCopy => dsimp only [exec]; exact sound_execMigrationSectorCopy h ..
  | migrationComplete => dsimp only [exec]; exact sound_execMigrationComplete h ..
  | start => dsimp only [exec]; exact sound_execStart h ..
  | launchFrame => dsimp only [exec]; exact sound_execLaunchFrame h ..
  | launchFrameCompletion => dsimp only [exec]; exact sound_execLaunchFrameCompletion h ..
  | replay => dsimp only [exec]; exact sound_execReplay h ..
  | replayNodeLaunch => dsimp only [exec]; exact sound_execReplayNodeLaunch h ..
  | patch => dsimp only [exec]; exact sound_execPatch h ..
  | abort => dsimp only [exec]; exact sound_execAbort h ..
  | rerun => dsimp only [exec]; exact sound_execRerun h ..
  | notify => dsimp only [exec]; exact sound_execNotify h ..
  | arena => dsimp only [exec]; exact sound_execArena h ..
  | key => dsimp only [exec]; exact sound_execKey h ..
  | quota => dsimp only [exec]; exact sound_execQuota h ..
  | partition => dsimp only [exec]; exact sound_execPartition h ..
  | teardown => dsimp only [exec]; exact sound_execTeardown h ..
  | attest => dsimp only [exec]; exact sound_execAttest h ..
  | errlog => dsimp only [exec]; exact sound_execErrlog h ..
  | firmware => dsimp only [exec]; exact sound_execFirmware h ..
  | firmwareTakeover => dsimp only [exec]; exact sound_execFirmwareTakeover h
  | retry => dsimp only [exec]; exact sound_execRetry h ..
  | completionPost => dsimp only [exec]; exact sound_execCompletionPost h ..
  | sqPoll => dsimp only [exec]; exact sound_execSqPoll h ..
  | qpdPost => dsimp only [exec]; exact sound_execQpdPost h ..
  | functionLevelReset => dsimp only [exec]; exact sound_execFunctionLevelReset h
  | reset => dsimp only [exec]; exact sound_execReset
  | starvationToken => dsimp only [exec]; exact sound_execStarvationToken h ..
  | combineBatch => dsimp only [exec]; exact sound_execCombineBatch h ..
  | combiningQueueClose => dsimp only [exec]; exact sound_execCombiningQueueClose h ..
  | bridgeLinkFailure => dsimp only [exec]; exact sound_execBridgeLinkFailure h ..
  | words => dsimp only [exec]; exact sound_execWords h ..
  | msg => dsimp only [exec]; exact sound_execMsg h ..
  | rsp => dsimp only [exec]; exact sound_execRsp h ..
  | ack => dsimp only [exec]; exact sound_execAck h ..
  | demand => dsimp only [exec]; exact sound_execDemand h ..
  | grant => dsimp only [exec]; exact sound_execGrant h ..
  | grantLapse => dsimp only [exec]; exact sound_execGrantLapse h ..
  | blockReplay => dsimp only [exec]; exact sound_execBlockReplay h ..
  | keyRotation => dsimp only [exec]; exact sound_execKeyRotation h ..
  | keyExhausted => dsimp only [exec]; exact sound_execKeyExhausted h ..
  | portStop => dsimp only [exec]; exact sound_execPortStop h ..
  | linkKeySelect => dsimp only [exec]; exact sound_execLinkKeySelect h ..
  | linkKeyStage => dsimp only [exec]; exact sound_execLinkKeyStage h ..
  | linkKeyInstall => dsimp only [exec]; exact sound_execLinkKeyInstall h ..
  | linkPortStop => dsimp only [exec]; exact sound_execLinkPortStop h ..
  | linkRetrain => dsimp only [exec]; exact sound_execLinkRetrain h ..
  | linkKeyData => dsimp only [exec]; exact sound_execLinkKeyData h ..
  | ramowResponse => dsimp only [exec]; exact sound_execRamowResponse h ..
  | gtmcastCopiesWritten => dsimp only [exec]; exact sound_execGtmcastCopiesWritten h ..
  | writebackComplete => dsimp only [exec]; exact sound_execWritebackComplete h ..
  | badPacket => dsimp only [exec]; exact sound_execBadPacket h ..
  | linkTrained => dsimp only [exec]; exact sound_execLinkTrained h ..
  | captureMarkerClear => dsimp only [exec]; exact sound_execCaptureMarkerClear h ..
  | pauseExpiry => dsimp only [exec]; exact sound_execPauseExpiry h ..

/-! #### Machine/Turns -/

theorem State.sound_candidate {s : State} (h : AllSound s.strands) (sid) : SoundBoth Prod.snd Prod.snd (s.candidate sid) := by
  unfold candidate
  split
  · exact State.sound_frameWord h ..
  · exact h.both (State.keeps_fetchWord ..)

@[simp] theorem State.passSlot_strands (s : State) (w) : (s.passSlot w).strands = s.strands := by
  unfold passSlot
  repeat' split
  all_goals simp

theorem State.sound_issue {s : State} (h : AllSound s.strands) : SoundNext s.issue := by
  have hc := State.sound_candidate h s.cur
  unfold issue
  split <;> rename_i e <;> rw [e] at hc
  · exact State.sound_trap (by simpa [Strand.dropStale] using hc) _
  · exact State.sound_fetchStopped hc _
  · split
    · exact sound_execIllegalInstr (by simpa using hc) _
    · exact sound_exec (by simpa using hc) _

theorem State.sound_await {s : State} (h : AllSound s.strands) (sid) : SoundNext (s.await sid) := by
  unfold await
  cases (s.strand sid).wait with
  | none | poll | gnext | sem | amdone => exact h
  | hold | vector | ordered | scatter => exact State.sound_issue h
  | fetch tag => exact sound_getD h fun _ e => (State.sound_takeGathered e).mpr h
  | gather tags =>
    dsimp only
    split
    · next e => exact State.sound_issue ((State.sound_takeGathered e).mpr h)
    · exact h
  | landing => exact State.sound_finishLanding h ..
  | inval | cardSlot | sewait => simp [h]
  | load => exact sound_execLoadDataReturn h sid
  | amo => exact sound_execAmoResponse h sid
  | ramow => exact sound_execRamowResponse h sid
  | fence | sflushw => exact sound_execFenceCompletion h sid
  | ticket => exact sound_execTicketServed h
  | gbar => exact sound_execGbarTimeout h sid
  | wfi => exact sound_execWakeCondition h sid
  | pause =>
    dsimp only
    split
    · exact sound_execWakeCondition h sid
    · exact sound_execPauseExpiry h sid
  | ring =>
    dsimp only
    split
    · exact sound_execSamovarPassage h sid
    · exact sound_execSamNotag h sid
  | alight | alightTurn => exact State.sound_finishAlight h sid
  | board => exact sound_execBoardFill h sid
  | amsend => exact sound_execAmsendAnswer h sid
  | writeback => exact sound_execWritebackComplete h sid
  | gdone => exact sound_execGroupRetire h sid
  | gtmcast => exact sound_execGtmcastCopiesWritten h sid

/-- A strand's turn: a passage, an event, a dispatch, a landing, or the next instruction. -/
theorem State.sound_turnOf {s : State} (h : AllSound s.strands) (sid) : SoundNext (s.turnOf sid) := by
  have hp := State.sound_passageTurn h sid
  have hd := State.sound_dispatch h sid
  unfold turnOf
  split
  · next e => rw [e] at hp; exact hp
  · split
    · split
      · exact State.sound_quiet h sid
      · exact State.sound_await h sid
    · split
      · exact State.sound_await h sid
      · split
        · next e => exact State.sound_takeDue h e
        · split
          · next e => rw [e] at hd; exact hd
          · split
            · exact State.sound_landAgain h ..
            · split
              · exact State.sound_issue h
              · exact State.sound_await h sid

theorem sound_onNext {g : State → State} (hg : ∀ s, AllSound s.strands → AllSound (g s).strands) {r : Result} (h : SoundNext r) :
    SoundNext (onNext g r) := by
  cases r with
  | next t => exact hg t h
  | fault | refused => trivial

theorem State.sound_strandTurn {s : State} (h : AllSound s.strands) (sid) : SoundNext (s.strandTurn sid) :=
  sound_onNext (fun t ht => by simpa using ht) (State.sound_turnOf (by exact h) sid)

theorem State.sound_beginFrame {s : State} (h : AllSound s.strands) (q f) : SoundNext (s.beginFrame q f) := by
  unfold beginFrame
  split
  · exact sound_execStart h ..
  · exact sound_execLaunchFrame h ..
  · exact sound_execReplay h ..
  · exact sound_execPatch h ..
  · split
    · exact sound_execArena h ..
    · exact sound_execKey h ..
    · exact sound_execQuota h ..
    · exact sound_execPartition h ..
    · exact sound_execTeardown h ..
    · exact sound_execAttest h ..
    · exact sound_execErrlog h ..
    · exact sound_execFirmware h ..
    · exact State.sound_badService h ..
  · split
    · exact sound_execAbort h ..
    · exact sound_execRerun h ..
    · exact State.sound_badControl h ..
  · exact sound_execNotify h ..
  · exact State.sound_badKind h ..

theorem State.sound_pollWork {s : State} (h : AllSound s.strands) (q) : SoundSomeNext (s.pollWork q) := by
  unfold pollWork
  grind [sound_execSqPoll, SoundSomeNext, SoundNext]

theorem State.sound_queueWork {s : State} (h : AllSound s.strands) (q) : SoundSomeNext (s.queueWork q) := by
  have hp := State.keeps_postCompletion s q
  unfold queueWork
  split
  · next e => exact h.of_some (get := id) hp e
  · split
    · split
      · split
        · trivial
        · exact State.sound_beginFrame h ..
      · split
        · exact sound_execRetry h q
        · exact State.sound_pollWork h q
    · exact State.sound_pollWork h q

theorem State.sound_cardWork {s : State} (h : AllSound s.strands) (core k) : SoundSomeNext (s.cardWork core k) := by
  unfold cardWork
  grind [State.cardOutcome_strands, sound_execCardComplete, sound_execCardStop, SoundSomeNext, SoundNext]

theorem State.sound_coreWork {s : State} (h : AllSound s.strands) (core) : SoundSomeNext (s.coreWork core) := by
  unfold coreWork
  dsimp only
  split
  · exact sound_execMmaCompletion h core
  · split
    · next e =>
      obtain ⟨k, _, ek⟩ := List.exists_of_findSome?_eq_some e
      have hk := State.sound_cardWork h core k
      rw [ek] at hk
      exact hk
    · split
      · exact sound_execCardStart h core
      · split
        · exact sound_execPrefetch h core
        · trivial

theorem State.sound_strandWork {s : State} (h : AllSound s.strands) (sid) : SoundSomeNext (s.strandWork sid) := by
  unfold strandWork
  grind [sound_execGbarTimeout, sound_execTimer, sound_execFootprintFetchComplete, SoundSomeNext, SoundNext]

theorem State.sound_launchWork {s : State} (h : AllSound s.strands) (l) : SoundSomeNext (s.launchWork l) := by
  unfold launchWork
  grind [sound_execGroupAssign, sound_execLaunchFrameCompletion, SoundSomeNext, SoundNext]

theorem State.sound_replayWork {s : State} (h : AllSound s.strands) (r) : SoundSomeNext (s.replayWork r) :=
  soundSomeNext_map (fun j => sound_execReplayNodeLaunch h r.id j) _

theorem State.sound_migrationWork {s : State} (h : AllSound s.strands) (slot) : SoundSomeNext (s.migrationWork slot) := by
  unfold migrationWork
  grind [sound_execMigrationComplete, sound_execMigrationSectorCopy, SoundSomeNext, SoundNext]

theorem State.sound_steepWork {s : State} (h : AllSound s.strands) : SoundSomeNext s.steepWork := by
  unfold steepWork
  grind [State.keeps_storeOwed, sound_execSteepAgeTrigger, sound_execSteepAck, SoundSomeNext, KeepsSome, id, SoundNext]

theorem State.sound_pacingWork {s : State} (h : AllSound s.strands) : SoundSomeNext s.pacingWork := by
  unfold pacingWork
  split
  · exact sound_execGrantLapse h _
  · exact soundSomeNext_map (fun d => sound_execGrant h _) _

theorem State.sound_portWork {s : State} (h : AllSound s.strands) (port l) : SoundSomeNext (s.portWork port l) := by
  unfold portWork
  grind [sound_execKeyRotation, sound_execBridgeLinkFailure, sound_execKeyExhausted, SoundSomeNext, SoundNext]

theorem State.sound_combineWork {s : State} (h : AllSound s.strands) : SoundSomeNext s.combineWork := by
  refine soundSomeNext_map (fun c => ?_) _
  split
  · exact sound_execCombiningQueueClose h ..
  · exact sound_execCombineBatch h ..

theorem sound_unitWork {s : State} (h : AllSound s.strands) : ∀ f ∈ unitWork, SoundSomeNext (f s) := by
  simp only [unitWork, List.forall_mem_cons]
  refine ⟨?_, ?_, ?_, ?_, ?_, ?_, ?_, State.sound_steepWork h, State.sound_combineWork h, State.sound_pacingWork h, ?_, by simp⟩
  · exact soundSomeNext_map (fun _ => sound_execBarrierPhaseComplete h _) _
  · split
    · trivial
    · exact sound_execBlockReturn h
  · split
    · exact sound_execFirmwareTakeover h
    · trivial
  · exact soundSomeNext_map (fun _ => State.sound_beginFrame h ..) _
  · split
    · exact sound_execQpdPost h ..
    · trivial
  · cases s.tickets.head? with
    | none => trivial
    | some n =>
      dsimp only [Option.bind_some]
      split
      · exact sound_execTicketServed h
      · trivial
  · split
    · trivial
    · exact sound_execMessageArrival h
  · exact soundSomeNext_findSome fun p _ => State.sound_portWork h p.1 p.2

/-- What any unit has due leaves sound strands. -/
theorem State.sound_allWork {s : State} (h : AllSound s.strands) : ∀ f ∈ s.allWork, SoundSomeNext (f s) := by
  intro f hf
  simp only [allWork, List.mem_append, List.mem_map] at hf
  obtain (((((hu | ⟨q, _, rfl⟩) | ⟨c, _, rfl⟩) | ⟨x, _, rfl⟩) | ⟨l, _, rfl⟩) | ⟨r, _, rfl⟩) | ⟨k, _, rfl⟩ := hf
  · exact sound_unitWork h f hu
  · exact State.sound_queueWork h q.1
  · exact State.sound_coreWork h c.1
  · exact State.sound_strandWork h x.1
  · exact State.sound_launchWork h l
  · exact State.sound_replayWork h r
  · exact State.sound_migrationWork h k

theorem State.sound_hardware {s : State} (h : AllSound s.strands) : SoundSomeNext s.hardware := by
  refine soundSomeNext_findSome fun f hf => State.sound_allWork h f ?_
  exact (List.mem_append.mp hf).elim List.mem_of_mem_drop List.mem_of_mem_take

@[simp] theorem State.expireHolds_strands (s : State) : s.expireHolds.strands = s.strands := by
  refine foldl_strands (fun s c => ?_) _ _
  split
  · exact State.releaseCapture_strands ..
  · rfl

/-- The end of a cycle counts down and parks, and leaves the mode a handler returns to. -/
theorem Strand.sound_tick {x : Strand} (h : x.sound = true) (halted now) : (x.tick halted now).sound = true := by
  have hh (f : HandlerCtx → HandlerCtx) (hf : ∀ c, (f c).mode = c.mode) (o : Option HandlerCtx) :
      (o.map f).all (fun c => c.mode != .f) = o.all (fun c => c.mode != .f) := by
    cases o <;> simp [hf]
  unfold tick parkNow
  dsimp only
  split
  · exact h
  · obtain ⟨hp, hs, hf, ho⟩ := x.sound_iff.mp h
    split <;> refine (Strand.sound_iff _).mpr ⟨hp, hs, hf, ?_⟩ <;> dsimp only <;> split
    all_goals simpa [hh] using ho

theorem sound_map {m : Map Strand} (h : AllSound m) {f : Nat × Strand → Strand}
    (hf : ∀ x, x.2.sound = true → (f x).sound = true) : AllSound (m.map fun x => (x.1, f x)) := by
  refine ⟨fun i => ?_⟩
  have hi := h.get i
  clear h
  induction m with
  | nil => exact hi
  | cons e t ih =>
    obtain ⟨k, x⟩ := e
    simp only [List.map_cons, mapGet] at hi ⊢
    split
    · next hk => exact hf (k, x) (by simpa [hk] using hi)
    · next hk => exact ih (by simpa [hk] using hi)

theorem State.sound_advance {s : State} (h : AllSound s.strands) : AllSound s.advance.strands :=
  sound_map h fun _ hx => Strand.sound_tick hx ..

@[simp] theorem State.sound_reassignAll (s : State) : AllSound s.reassignAll.strands ↔ AllSound s.strands := by
  unfold reassignAll
  refine sound_foldl_iff (fun s x => ?_) _ _
  simp

theorem State.sound_tick {s : State} (h : AllSound s.strands) : AllSound s.tick.strands := by
  simpa [tick] using State.sound_advance (s := s.ringTurn) (by simpa using h)

theorem State.sound_endCycle {s : State} (h : AllSound s.strands) : SoundNext s.endCycle := by
  unfold endCycle
  grind [State.sound_hardware, State.sound_tick, SoundNext, SoundSomeNext]

/-! #### Machine/Step -/

/-- The step lemma: a turn of the agenda, of the machine's own order, or the end of a cycle. -/
theorem sound_step {s : State} (h : AllSound s.strands) : SoundNext (step s) := by
  unfold step
  split
  · trivial
  · split
    · split
      · exact State.sound_tick h
      · exact sound_onNext (fun t ht => by simpa using ht) (sound_exec (by exact h) _)
    · exact State.sound_strandTurn (by exact h) _
    · exact State.sound_tick h
    · split
      · exact State.sound_strandTurn (by exact h) _
      · exact State.sound_endCycle h

end Sys2Proof.Machine

/-- Settles O59, by a lemma per function that what soundness reads of a strand (p0, STATUS, FRM, the mode of its handler) is
kept or written with a sound value. -/
theorem stepsKeepStrandsSound : Obligations.StepsKeepStrandsSound := by
  intro s t hs e
  have h := Sys2Proof.Machine.sound_step (s.strandsSound_iff.mp hs)
  rw [e] at h
  exact t.strandsSound_iff.mpr h
end

section
/-! ### O16: environment calls, and what U-mode may not execute -/
namespace Sys2Proof.Machine

theorem execEbreak_of_ebrk {s : State} (h : s.myCore.ebrk = true) : execEbreak s = .next (s.haltCore (coreOf s.cur)) := by
  rw [execEbreak, if_pos h]

theorem execEbreak_of_not_ebrk {s : State} (h : s.myCore.ebrk = false) :
    execEbreak s = .next (s.trap (plainTrap causeEbreak)) := by
  rw [execEbreak, h, if_neg Bool.false_ne_true]

/-- R142: the first thing a supervisor instruction looks at is the mode. -/
theorem exec_supervisor_of_user {s : State} (h : s.me.mode = .u) (a : BitVec 5) :
    exec .eret s = .next (s.trap (wordTrap causePrivileged (sysWord 2 0))) ∧
    exec (.plbinv a) s = .next (s.trap (wordTrap causePrivileged (encRri 0x20 6 a 0))) ∧
    exec (.htinv a) s = .next (s.trap (wordTrap causePrivileged (encRri 0x20 7 a 0))) ∧
    exec (.strandpark a) s = .next (s.trap (wordTrap causePrivileged (sysWord 8 a))) ∧
    exec (.strandwake a) s = .next (s.trap (wordTrap causePrivileged (sysWord 9 a))) :=
  ⟨if_pos h, if_pos h, if_pos h, if_pos h, if_pos h⟩

end Sys2Proof.Machine

open Sys2Proof.Machine in
/-- Settles O16: EBREAK by the core's EBRK, each supervisor instruction by the mode it looks at first. -/
theorem callsAndPrivilegedTraps : Obligations.CallsAndPrivilegedTraps := by
  refine ⟨fun s => ⟨rfl, execEbreak_of_not_ebrk, execEbreak_of_ebrk⟩, fun s a hu i hi w hw => ?_⟩
  obtain ⟨heret, hplbinv, hhtinv, hpark, hwake⟩ := exec_supervisor_of_user hu a
  simp only [supervisorInstrs, List.mem_cons, List.not_mem_nil, or_false] at hi
  obtain rfl | rfl | rfl | rfl | rfl := hi <;> cases hw
  · exact heret
  · exact hplbinv
  · exact hhtinv
  · exact hpark
  · exact hwake
end

section
/-! ### O56: a turn at which no event is due issues -/
namespace Sys2Proof.Machine

/-- A strand that issues, or whose wait is tried again, holds no place in a board's queue. -/
theorem State.boardDue_of_retries {s : State} {sid : Nat} (h : (s.strand sid).wait.retries = true) : s.boardDue sid = false := by
  unfold boardDue
  split
  · next hw => rw [hw] at h; cases h
  · rfl

theorem State.passageTurn_eq_none {s : State} {sid : Nat} (hp : s.passageDue sid = none)
    (hr : (s.strand sid).wait.retries = true) : s.passageTurn sid = none := by
  simp [passageTurn, hp, State.boardDue_of_retries hr]

/-- R289: a strand in the rotation for which no event is due issues. -/
theorem State.turnOf_eq_issue {s : State} {sid : Nat} (hp : s.passageDue sid = none) (hrot : s.inRotation sid = true)
    (hdue : s.takeDue sid = none) (hd : s.dispatch sid = none) (hl : (s.strand sid).landingDue = false)
    (hr : (s.strand sid).wait.retries = true) : s.turnOf sid = s.issue := by
  obtain ⟨hatt, hheld⟩ : s.attends sid = true ∧ (s.strand sid).heldUntil ≤ s.cycle := by simpa [inRotation] using hrot
  simp [turnOf, State.passageTurn_eq_none hp hr, hatt, Nat.not_lt.mpr hheld, hdue, hd, hl, hr]

theorem State.issue_of_decoded {s s1 : State} {w : InstrWord} {i : Instr} (hc : s.candidate s.cur = .ok (w, s1))
    (hd : decode w = .ok i) : s.issue = exec i (s1.passSlot w) := by
  simp [issue, hc, hd]

theorem State.issue_of_not_decoded {s s1 : State} {w : InstrWord} {e : DecodeError} (hc : s.candidate s.cur = .ok (w, s1))
    (hd : decode w = .error e) : s.issue = .next ((s1.passSlot w).trap (wordTrap causeIllegal w)) := by
  simp [issue, hc, hd, execIllegalInstr, illegalTrap]

theorem State.issue_of_trap {s s1 : State} {t : Trap} (hc : s.candidate s.cur = .error (.trap t, s1)) :
    s.issue = .next ((s1.setMe s1.me.dropStale).trap t) := by
  simp [issue, hc]

theorem strandTurn_runs (b : State) (sid : Nat) : TurnRuns b sid (b.strandTurn sid) := by
  rintro s0 rfl hp hrot hdue hd hl hr
  have ht : b.strandTurn sid = onNext (fun t => t.reassignDue sid)
      (State.issue { b with cur := sid, turned := sid :: b.turned }) := by
    rw [State.strandTurn, State.turnOf_eq_issue hp hrot hdue hd hl hr]
  refine ⟨fun w s1 i hc hi => ?_, fun w s1 e hc he => ?_, fun t s1 hc => ?_⟩
  · rw [ht, State.issue_of_decoded hc hi]
  · rw [ht, State.issue_of_not_decoded hc he]
  · rw [ht, State.issue_of_trap hc]

theorem step_of_agenda_strand {s : State} {sid : Nat} {rest : List Turn} (hp : s.powered = true)
    (ha : s.agenda = .strand sid :: rest) : step s = State.strandTurn { s with agenda := rest } sid := by
  simp [step, hp, ha]

theorem step_of_nextTurn {s : State} {p sid : Nat} (hp : s.powered = true) (ha : s.agenda = [])
    (hn : s.nextTurn = some (p, sid)) : step s = State.strandTurn { s with phase := p + 1 } sid := by
  simp [step, hp, ha, hn]

end Sys2Proof.Machine

open Sys2Proof.Machine in
/-- Settles O56: the step is the strand's turn (`step_of_agenda_strand`, `step_of_nextTurn`), and the turn issues
(`State.turnOf_eq_issue`). -/
theorem stepRunsTheDecodedInstruction : Obligations.StepRunsTheDecodedInstruction :=
  ⟨fun _ sid _ hp ha => step_of_agenda_strand hp ha ▸ strandTurn_runs _ sid,
    fun _ _ sid hp ha hn => step_of_nextTurn hp ha hn ▸ strandTurn_runs _ sid⟩
end

section
/-! ### O44: memory blocks, and gang control

#### The allocator (R81, R233) -/
namespace Sys2Proof.Machine

/-- What BALLOC looks for: a block of the class on the cluster's list for the strand's domain. -/
def State.suits (s : State) (cls : Nat) (b : BlockTransit) : Bool :=
  b.cluster == clusterOf s.cur && b.cls == cls && b.domain == s.me.domain

theorem State.suits_iff (s : State) (cls : Nat) (b : BlockTransit) :
    s.suits cls b = true ↔ b.cluster = clusterOf s.cur ∧ b.cls = cls ∧ b.domain = s.me.domain := by
  simp [suits, and_assoc]

theorem classOf_balloc (c : BitVec 5) : (c.extractLsb' 0 4).toNat = c.toNat % 16 := by
  simp [BitVec.extractLsb'_toNat]

theorem execBalloc_of_class {s : State} {d c : BitVec 5} (hc : 9 ≤ c.toNat % 16) :
    execBalloc d c s = .next (s.trap (wordTrap causeIllegal (allocWord d c 0))) := by
  rw [← classOf_balloc] at hc
  exact if_pos hc

theorem execBalloc_of_find {s : State} {d c : BitVec 5} (hc : c.toNat % 16 < 9) {o : Option BlockTransit}
    (ho : s.freeBlocks.find? (s.suits (c.toNat % 16)) = o) :
    execBalloc d c s = .next (match o with
      | none => s.writeG d 0
      | some b => ({ s with freeBlocks := s.freeBlocks.erase b }.spoilBlock b).writeG d (BitVec.ofNat 64 b.addr)) := by
  rw [← classOf_balloc] at hc ho
  unfold execBalloc
  rw [if_neg (Nat.not_le.mpr hc)]
  change (match s.freeBlocks.find? (s.suits _) with | none => _ | some b => _) = _
  rw [ho]
  cases o <;> rfl

theorem execBfree_of_none {s : State} {a : BitVec 5} (h : s.arenaOf s.me.domain (s.g a).toNat = none) :
    execBfree a s = .next (s.trap (addrTrap causeDomainRights (s.g a))) := by
  simp [execBfree, h]

theorem execBfree_of_some {s : State} {a : BitVec 5} {q : Arena} (h : s.arenaOf s.me.domain (s.g a).toNat = some q) :
    execBfree a s =
      if (s.g a).toNat % blockBytes q.cls ≠ 0 then .next (s.trap (addrTrap causeMisaligned (s.g a)))
      else if q.cluster = clusterOf s.cur then
        .next (State.retire { s with freeBlocks := s.freeBlocks ++ [⟨q.cluster, q.cls, q.domain, (s.g a).toNat⟩] })
      else .next (State.retire { s with blocksBack := s.blocksBack ++ [⟨q.cluster, q.cls, q.domain, (s.g a).toNat⟩] }) := by
  simp [execBfree, h]

theorem blocksComplete : Claims.BlocksComplete := by
  intro s d c a b l r q m n cls mine at_ in_
  have hin (x : Arena) :
      (x.domain == s.me.domain && decide (x.base ≤ at_.toNat) && decide (at_.toNat < x.base + x.bytes)) = true ↔ in_ x := by
    simp [in_, and_assoc]
  refine ⟨fun hc w hw => ?_, fun hc hx => ?_, fun hc hl hx hb => ?_, fun hx => ?_, fun ha hx hq => ?_,
    fun hb hq hk hc hd hlo hhi => ?_⟩
  · cases hw
    exact execBalloc_of_class hc
  · exact execBalloc_of_find hc (List.find?_eq_none.mpr fun x h => (s.suits_iff cls x).not.mpr (hx x h))
  · have hf : s.freeBlocks.find? (s.suits cls) = some b := List.find?_eq_some_iff_append.mpr
      ⟨(s.suits_iff cls b).mpr hb, l, r, hl, fun x h => by
        rw [Bool.not_eq_true', ← Bool.not_eq_true, s.suits_iff]; exact hx x h⟩
    have he : s.freeBlocks.erase b = l ++ r := by
      rw [hl, List.erase_append_right _ fun h => hx b h hb, List.erase_cons_head]
    rw [← he]
    exact execBalloc_of_find hc hf
  · exact execBfree_of_none (List.find?_eq_none.mpr fun x h => (hin x).not.mpr (hx x h))
  · have hf : s.arenaOf s.me.domain at_.toNat = some q := List.find?_eq_some_iff_append.mpr
      ⟨(hin q).mpr hq, m, n, ha, fun x h => by rw [Bool.not_eq_true', ← Bool.not_eq_true, hin]; exact hx x h⟩
    have he := execBfree_of_some hf
    exact ⟨fun h => he.trans (if_pos h), fun h hk => he.trans ((if_neg (not_not.mpr h)).trans (if_pos hk)),
      fun h hk => he.trans ((if_neg (not_not.mpr h)).trans (if_neg hk))⟩
  · have ho : s.arenas.any (fun r => r.cluster == b.cluster && r.cls == b.cls && r.domain == b.domain &&
        decide (r.base ≤ b.addr) && decide (b.addr < r.base + r.bytes)) = true :=
      List.any_eq_true.mpr ⟨q, hq, by simp [hk, hc, hd, hlo, hhi]⟩
    rw [exec_blockReturn, execBlockReturn, hb]
    exact if_pos ho

end Sys2Proof.Machine
end

section
/-! #### What leaves gangs and stops alone

A gang's stop is quiet work on one member after the other: a passage of the ring, a wait that is given up. None of it touches a
gang or whether a strand is stopped. -/
namespace Sys2Proof.Machine

/-- The gangs, and which strands are stopped, are as before. -/
structure State.GangsKept (s t : State) : Prop where
  gangs : t.gangs = s.gangs
  stopped : ∀ i, (t.strand i).stopped = (s.strand i).stopped

theorem State.GangsKept.refl (s : State) : s.GangsKept s := ⟨rfl, fun _ => rfl⟩

theorem State.GangsKept.trans {s t u : State} (h : s.GangsKept t) (h' : t.GangsKept u) : s.GangsKept u :=
  ⟨h'.gangs.trans h.gangs, fun i => (h'.stopped i).trans (h.stopped i)⟩

theorem State.GangsKept.of_eq {s t : State} (hg : t.gangs = s.gangs) (hs : t.strands = s.strands) : s.GangsKept t :=
  ⟨hg, fun i => by rw [State.strand, hs, State.strand]⟩

theorem State.AccessOnly.gangsKept {s t : State} (h : s.AccessOnly t) : s.GangsKept t := by
  obtain ⟨⟨_, _, _, _, _, rfl⟩, -⟩ := h
  exact State.GangsKept.of_eq rfl rfl

theorem State.gangsKept_setStrand (s : State) (sid : Nat) {x : Strand} (hx : x.stopped = (s.strand sid).stopped) :
    s.GangsKept (s.setStrand sid x) := by
  refine ⟨rfl, fun i => ?_⟩
  by_cases hi : i = sid
  · rw [hi, State.strand_setStrand_same, hx]
  · rw [State.strand_setStrand_ne _ _ hi]

theorem State.GangsKept.same {s t u : State} (h : s.GangsKept t) (hg : u.gangs = t.gangs) (hs : u.strands = t.strands) :
    s.GangsKept u := h.trans (State.GangsKept.of_eq hg hs)

theorem State.GangsKept.setStrand {s t : State} (h : s.GangsKept t) (sid : Nat) {x : Strand}
    (hx : x.stopped = (t.strand sid).stopped) : s.GangsKept (t.setStrand sid x) :=
  h.trans (t.gangsKept_setStrand sid hx)

theorem State.gangsKept_retire (s : State) : s.GangsKept s.retire :=
  s.gangsKept_setStrand s.cur (by obtain ⟨_, _, h⟩ := s.me.retire_place; rw [h]; rfl)

theorem State.gangsKept_writeG (s : State) (d v) : s.GangsKept (s.writeG d v) :=
  (s.gangsKept_setStrand s.cur (by unfold Strand.setG; split <;> rfl)).trans (State.gangsKept_retire _)

theorem State.GangsKept.trapOn {s t : State} (h : s.GangsKept t) (sid tr) : s.GangsKept (t.trapOn sid tr) := by
  refine h.trans ⟨State.trapOn_gangs .., fun i => ?_⟩
  by_cases hi : i = sid
  · rw [hi, State.trapOn_strand]
    rfl
  · rw [State.trapOn_other _ _ hi]

theorem State.GangsKept.asStrand {s t : State} (h : s.GangsKept t) (sid : Nat) {f : State → State}
    (hf : ∀ u : State, u.GangsKept (f u)) : s.GangsKept (t.asStrand sid f) :=
  have h' := hf { t with cur := sid }
  h.trans ⟨h'.gangs, h'.stopped⟩

theorem State.GangsKept.writeAs {s t : State} (h : s.GangsKept t) (sid d v) :
    s.GangsKept (t.asStrand sid fun u => u.writeG d v) := h.asStrand sid fun _ => State.gangsKept_writeG ..

theorem State.gangsKept_releaseCapture (s : State) (sid lost) : s.GangsKept (s.releaseCapture sid lost) := by
  unfold releaseCapture
  split <;> exact State.GangsKept.of_eq rfl rfl

@[simp] theorem State.transmit_gangs (s : State) (port p) : (s.transmit port p).gangs = s.gangs := by
  have hp (l) : (s.portSent port l).gangs = s.gangs := by
    unfold portSent
    dsimp only
    split <;> rfl
  unfold transmit
  dsimp only
  split <;> exact hp _

@[simp] theorem State.announce_gangs (s : State) (dev) : (s.announce dev).gangs = s.gangs := by
  unfold announce emit
  split <;> simp

theorem State.sendRequest_gangs {s t : State} {dev why p} {y} (e : s.sendRequest dev why p = some (y, t)) :
    t.gangs = s.gangs := by
  unfold sendRequest at e
  split at e
  · cases e
  · dsimp only at e
    split at e <;> cases e <;> simp

theorem State.gangsKept_sendRequest {s t : State} {dev why p} {y} (e : s.sendRequest dev why p = some (y, t)) :
    s.GangsKept t := State.GangsKept.of_eq (State.sendRequest_gangs e) (State.sendRequest_strands e)

theorem State.gangsKept_storeRecordAt (s : State) (f r) : s.GangsKept (s.storeRecordAt f r) :=
  State.GangsKept.of_eq (State.writeSpan_gangs ..) (State.storeRecordAt_strands ..)

/-- The state of either kind of answer keeps the gangs. -/
@[simp] def GangsBoth {ε α : Type} (s : State) : Except (ε × State) (α × State) → Prop
  | .ok x => s.GangsKept x.2
  | .error x => s.GangsKept x.2

theorem State.gangs_readShadow (s : State) (who a) : GangsBoth s (s.readShadow who a) := by
  have hr := State.access_resolve s who .load a 48
  unfold readShadow
  split <;> rename_i e <;> rw [e] at hr
  · exact hr.gangsKept
  · repeat' split
    all_goals exact hr.gangsKept
  · exact hr.gangsKept

theorem State.gangs_alightStore (s : State) (who cls r) : GangsBoth s (s.alightStore who cls r) := by
  have hr := State.access_reach s who .store r.shadow 48
  unfold alightStore
  split <;> rename_i e <;> rw [e] at hr
  · exact hr.gangsKept
  · next f s1 =>
    have ht := State.access_takeTurn s1 who (.mem f) 48
    split <;> rename_i et <;> rw [et] at ht
    · exact (hr.trans ht).gangsKept.trans (State.gangsKept_storeRecordAt ..)
    · exact (hr.trans ht).gangsKept
  · split
    · next es => exact hr.gangsKept.trans (State.gangsKept_sendRequest es)
    · exact hr.gangsKept.trans (State.gangsKept_setStrand _ _ rfl)
  · exact hr.gangsKept

theorem State.gangsKept_setRecord (s : State) (r) : s.GangsKept (s.setRecord r) := State.GangsKept.of_eq rfl rfl

theorem State.GangsKept.alighted {s t : State} (h : s.GangsKept t) (sid d r o) : s.GangsKept (t.alighted sid d r o) := by
  have hw {u : State} (hu : s.GangsKept u) (w) : s.GangsKept (u.asStrand sid fun s => s.waiting w) :=
    hu.asStrand sid fun u => u.gangsKept_setStrand u.cur rfl
  cases o with
  | done => exact h.writeAs ..
  | sent =>
    refine hw ?_ _
    exact h.same rfl rfl
  | queued =>
    refine hw ?_ _
    exact h.same rfl rfl

/-- The next state of an outcome, if there is one, keeps the gangs. -/
@[simp] def GangsNext (s : State) : Result → Prop
  | .next t => s.GangsKept t
  | .fault _ => True
  | .refused _ => True

theorem gangs_execBoardFill (s : State) (sid) : GangsNext s (execBoardFill sid s) := by
  unfold execBoardFill
  split
  · dsimp only
    split
    · next shadow _ _ _ _ =>
      have hr := State.gangs_readShadow s (s.actorOf sid) shadow
      split <;> rename_i e <;> rw [e] at hr
      · refine State.GangsKept.trapOn ?_ ..
        exact hr.same rfl rfl
      · exact hr
      · refine State.GangsKept.writeAs ?_ ..
        exact hr.same rfl rfl
    · exact State.GangsKept.refl s
  · exact State.GangsKept.refl s

theorem gangs_execSamovarPassage (s : State) (sid) : GangsNext s (execSamovarPassage sid s) := by
  have hs := State.GangsKept.refl s
  unfold execSamovarPassage
  split
  · next op _ _ r _ _ =>
    dsimp only
    cases op.reads with
    | some k =>
      dsimp only
      split
      · exact hs.trapOn ..
      · exact (s.gangsKept_setRecord _).writeAs ..
    | none =>
      cases op with
      | alight =>
        dsimp only
        split <;> rename_i e <;> have ha := e ▸ State.gangs_alightStore s (s.actorOf sid) ..
        · refine State.GangsKept.trapOn ?_ ..
          exact ha
        · exact ha
        · refine State.GangsKept.alighted ?_ ..
          exact ha.same rfl rfl
      | capture =>
        refine State.GangsKept.asStrand ?_ sid fun _ => State.gangsKept_writeG ..
        exact State.GangsKept.of_eq rfl rfl
      | _ => exact (s.gangsKept_setRecord _).asStrand sid fun _ => State.gangsKept_writeG ..
  · exact hs

theorem State.gangsKept_ringFirst (s : State) (sid) : s.GangsKept (s.ringFirst sid) := by
  have hp := gangs_execSamovarPassage s sid
  have hb := gangs_execBoardFill s sid
  have h : ∀ r, s.passageTurn sid = some r → GangsNext s r := by
    intro r
    unfold passageTurn
    split
    · rintro ⟨⟩
      exact hp
    · split
      · rintro ⟨⟩
        exact hb
      · rintro ⟨⟩
  unfold ringFirst
  split
  · next e => exact h _ e
  · exact State.GangsKept.refl s

theorem State.gangsKept_settle {s t : State} {sid} (e : s.settle sid .stop = some t) : s.GangsKept t := by
  have hs := State.GangsKept.refl s
  have hc : s.GangsKept (s.setStrand sid { s.strand sid with wait := .none }) := hs.setStrand sid rfl
  unfold settle at e
  dsimp only at e
  cases hw : (s.strand sid).wait <;> rw [hw] at e <;> dsimp only at e
  case none =>
    cases e
    exact hs
  case poll | cardSlot | sewait | gnext | gdone =>
    cases e
    exact hc
  case hold | load | amo | ramow | ticket | ordered | scatter | gather | landing | inval | alight | alightTurn | amsend |
      gtmcast => cases e
  case fence =>
    split at e
    · cases e
    · split at e <;> cases e
      exact hc
  case sflushw =>
    split at e <;> cases e
    exact hc
  case vector =>
    split at e <;> cases e
    exact hc
  case fetch =>
    cases e
    exact hs.setStrand sid rfl
  case gbar =>
    cases e
    exact hc
  case sem =>
    cases e
    exact hc.same rfl rfl
  case wfi =>
    cases e
    exact hc
  case pause =>
    cases e
    exact hs.asStrand sid State.gangsKept_retire
  case ring =>
    split at e <;> cases e
    exact hc
  case board =>
    split at e <;> cases e
    exact hc.same rfl rfl
  case amdone =>
    cases e
    exact hs.writeAs ..
  case writeback =>
    cases e
    refine State.GangsKept.writeAs ?_ ..
    exact hs.same rfl rfl

theorem State.gangsKept_quiet (s : State) (sid) : s.GangsKept (s.quiet sid) := by
  have h1 := (s.gangsKept_ringFirst sid).trans (State.gangsKept_releaseCapture _ sid true)
  unfold quiet
  dsimp only
  split
  · next s2 e => exact (h1.trans (State.gangsKept_settle e)).setStrand sid (by unfold Strand.showStop; split <;> rfl)
  · exact h1

theorem State.stopStrand_gangs (s : State) (sid) : (s.stopStrand sid).gangs = s.gangs := (s.gangsKept_quiet sid).gangs

/-- R18: a stop stops the strand, and leaves every other as it was. -/
theorem State.stopStrand_stopped (s : State) (sid i : Nat) :
    ((s.stopStrand sid).strand i).stopped = (decide (i = sid) || (s.strand i).stopped) := by
  unfold stopStrand
  dsimp only
  by_cases hi : i = sid
  · rw [hi, State.strand_setStrand_same]
    simp
  · rw [State.strand_setStrand_ne _ _ hi, (s.gangsKept_quiet sid).stopped]
    simp [hi]

theorem State.foldl_stopStrand_gangs (s : State) (l : List Nat) : (l.foldl State.stopStrand s).gangs = s.gangs := by
  induction l generalizing s with
  | nil => rfl
  | cons sid t ih => exact (ih _).trans (s.stopStrand_gangs sid)

theorem State.foldl_stopStrand_stopped {l : List Nat} {i : Nat} (hi : i ∈ l) (s : State) :
    ((l.foldl State.stopStrand s).strand i).stopped = true := by
  have keep (l : List Nat) (s : State) (h : (s.strand i).stopped = true) :
      ((l.foldl State.stopStrand s).strand i).stopped = true := by
    induction l generalizing s with
    | nil => exact h
    | cons sid t ih => exact ih _ (by rw [State.stopStrand_stopped, h, Bool.or_true])
  induction l generalizing s with
  | nil => cases hi
  | cons sid t ih =>
    rcases List.mem_cons.mp hi with rfl | ht
    · exact keep t _ (by rw [State.stopStrand_stopped, decide_eq_true rfl, Bool.true_or])
    · exact ih ht _

theorem State.gangsKept_releaseAhead (s : State) (sid) : s.GangsKept (s.releaseAhead sid) := by
  have hs := State.GangsKept.refl s
  unfold releaseAhead
  dsimp only
  split
  · exact hs
  · split
    · split
      · exact (hs.setStrand sid (x := { s.strand sid with ahead := none }) rfl).same rfl rfl
      · exact hs
    · exact hs

theorem State.gangsKept_foldl {α : Type} {f : State → α → State} (hf : ∀ (s : State) x, s.GangsKept (f s x)) (s : State)
    (l : List α) :
    s.GangsKept (l.foldl f s) := by
  induction l generalizing s with
  | nil => exact State.GangsKept.refl s
  | cons x t ih => exact (hf s x).trans (ih _)

end Sys2Proof.Machine
end

section
/-! #### Gang control (R18, R297) -/
namespace Sys2Proof.Machine

@[simp] theorem mapGet_mapDrop_same {α : Type} (m : Map α) (k : Nat) (d : α) : mapGet (mapDrop m k) k d = d := by
  induction m with
  | nil => rfl
  | cons x t ih =>
    by_cases hx : x.1 = k
    · simpa [mapDrop, hx] using ih
    · simpa [mapDrop, hx, mapGet] using ih

theorem State.gang_setGang_same {g : Gang} (s : State) (n : Nat) (h : g.members ≠ []) : (s.setGang n g).gang n = g := by
  simp [gang, setGang, h]

/-- A gang that has lost its last member is gone: it has none. -/
theorem State.gang_setGang_members (s : State) (n : Nat) (g : Gang) : ((s.setGang n g).gang n).members = g.members := by
  by_cases h : g.members = []
  · simp [gang, setGang, h, Gang.none]
  · rw [State.gang_setGang_same s n h]

@[simp] theorem Gang.judge_members (g : Gang) (now) : (g.judge now).members = g.members := by
  unfold judge
  split <;> rfl

@[simp] theorem Gang.judge_size (g : Gang) (now) : (g.judge now).size = g.size := by
  unfold judge
  split <;> rfl

/-- R297: a strand that enters has its rank in its CSRs, and is stopped as its gang is. -/
theorem State.enterGang_me (s : State) (n rank size : Nat) :
    (s.enterGang s.cur n rank size).me.gangId = BitVec.ofNat 16 n ∧
    (s.enterGang s.cur n rank size).me.gangRank = BitVec.ofNat 16 rank ∧
    (s.enterGang s.cur n rank size).me.gangSize = BitVec.ofNat 16 size ∧
    (s.enterGang s.cur n rank size).me.stopped = (s.gang n).stopped := by
  have h : (s.enterGang s.cur n rank size).me = { s.me with
      gangId := BitVec.ofNat 16 n, gangRank := BitVec.ofNat 16 rank, gangSize := BitVec.ofNat 16 size
      stopped := (s.gang n).stopped } := State.strand_setStrand_same ..
  rw [h]
  exact ⟨rfl, rfl, rfl, rfl⟩

theorem State.enterGang_gang (s : State) (sid n rank size : Nat) : (s.enterGang sid n rank size).gang n =
    Gang.judge { s.gang n with size := size, members := (s.gang n).members ++ [(rank, sid)] } s.cycle :=
  State.gang_setGang_same s n (by simp)

theorem State.leaveGang_of_none {s : State} {sid : Nat} (h : (s.strand sid).gangId = 0) : s.leaveGang sid = s := if_pos h

/-- R297: a strand that leaves names no gang, and is a member of the one it named no more. -/
theorem State.leaveGang_gangId (s : State) (sid : Nat) : ((s.leaveGang sid).strand sid).gangId = 0 := by
  unfold leaveGang
  dsimp only
  split
  · assumption
  · rw [State.strand_setStrand_same]

theorem State.leaveGang_members {s : State} {sid : Nat} (h : (s.strand sid).gangId ≠ 0) :
    ((s.leaveGang sid).gang (s.strand sid).gangId.toNat).members =
      (s.gang (s.strand sid).gangId.toNat).members.filter (fun m => m.2 != sid) := by
  rw [leaveGang, if_neg h]
  exact State.gang_setGang_members ..

/-- R297: one that leaves for good keeps the RANK and SIZE it wrote. -/
theorem State.leaveFor_me (s : State) (rank size : Nat) :
    (s.leaveFor s.cur rank size).me.gangId = 0 ∧ (s.leaveFor s.cur rank size).me.gangRank = BitVec.ofNat 16 rank ∧
      (s.leaveFor s.cur rank size).me.gangSize = BitVec.ofNat 16 size := by
  have hc : (s.leaveGang s.cur).cur = s.cur := by
    unfold leaveGang
    dsimp only
    split <;> rfl
  have h : (s.leaveFor s.cur rank size).me = { (s.leaveGang s.cur).strand s.cur with
      gangRank := BitVec.ofNat 16 rank, gangSize := BitVec.ofNat 16 size } := by
    unfold me leaveFor
    dsimp only
    rw [State.setStrand_cur, hc, State.strand_setStrand_same]
  rw [h]
  exact ⟨s.leaveGang_gangId s.cur, rfl, rfl⟩

theorem rankOutside_iff (v : Word) : rankOutside v = true ↔ (v.extractLsb' 16 16).toNat < 1 ∨
    4608 < (v.extractLsb' 16 16).toNat ∨ (v.extractLsb' 16 16).toNat ≤ (v.extractLsb' 32 16).toNat := by
  simp only [rankOutside, Bool.or_eq_true, decide_eq_true_eq, or_assoc]
  rfl

theorem not_rankOutside {v : Word} (h1 : 1 ≤ (v.extractLsb' 16 16).toNat) (h2 : (v.extractLsb' 16 16).toNat ≤ 4608)
    (h3 : (v.extractLsb' 32 16).toNat < (v.extractLsb' 16 16).toNat) : rankOutside v = false := by
  rw [← Bool.not_eq_true, rankOutside_iff]
  omega

theorem State.gangReachable_iff (s : State) (cluster n : Nat) : s.gangReachable cluster n = true ↔
    ∀ m ∈ (s.gang n).members, s.samePartition cluster (clusterOf m.2) = true := by
  simp [gangReachable, Gang.strands]

theorem State.setMembership_enters {s : State} {sid : Nat} {v : Word} (hw : (s.strand sid).workId = 0)
    (hr : rankOutside v = false) (hn : gangField v ≠ 0) (hp : s.gangReachable (clusterOf sid) (gangField v) = true)
    (hs : (s.gang (gangField v)).members = [] ∨ (s.gang (gangField v)).size = sizeField v)
    (hf : ∀ m ∈ (s.gang (gangField v)).members, m.2 ≠ sid → m.1 ≠ rankField v) :
    s.setMembership sid v = .done ((s.leaveGang sid).enterGang sid (gangField v) (rankField v) (sizeField v)) := by
  have ho : ((s.gang (gangField v)).members.filter (fun m => m.2 != sid)).any (fun m => m.1 == rankField v) = false := by
    simpa using hf
  have hg : (!(s.gang (gangField v)).members.isEmpty && (s.gang (gangField v)).size != sizeField v) = false := by
    rcases hs with h | h <;> simp [h]
  simp only [setMembership, hw, hr, hn, hp, ho, hg]
  rfl

theorem State.setMembership_leaves {s : State} {sid : Nat} {v : Word} (hw : (s.strand sid).workId = 0)
    (hr : rankOutside v = false) (hn : gangField v = 0) :
    s.setMembership sid v = .done (s.leaveFor sid (rankField v) (sizeField v)) := by
  simp only [setMembership, hw, hr, hn]
  rfl

/-- R297: a RANK or SIZE out of range is illegal, whatever GANG says (log entry 47). -/
theorem State.setMembership_illegal (s : State) (sid : Nat) {v : Word} (hr : rankOutside v = true) :
    s.setMembership sid v = .illegal := by
  simp [setMembership, hr]

theorem State.gangResumeBy_illegal (s : State) (issuer : Nat) {v : Word} (hr : rankOutside v = true) :
    s.gangResumeBy issuer v = .illegal := by
  simp [gangResumeBy, hr]

theorem State.gangStopBy_state {s : State} {issuer : Nat} {v : Word} (hn : gangField v ≠ 0)
    (hp : s.gangReachable (clusterOf issuer) (gangField v) = true) (u : State) :
    (s.gangStopBy issuer v).state u = s.stopGang (gangField v) issuer := by
  unfold gangStopBy
  rw [if_neg (by simp [hn, hp])]
  dsimp only
  split <;> rfl

/-- R18: after a stop the gang stands stopped, and every member but the one that stopped it. -/
theorem State.stopGang_gang {s : State} {n : Nat} (h : (s.gang n).members ≠ []) (issuer : Nat) :
    ((s.stopGang n issuer).gang n).stopped = true := by
  have hk := State.gangsKept_foldl State.gangsKept_releaseAhead
  unfold stopGang gang
  rw [(hk ..).gangs, State.foldl_stopStrand_gangs]
  exact congrArg Gang.stopped (State.gang_setGang_same s n (g := { s.gang n with stopped := true }) h)

theorem State.stopGang_stopped {s : State} {n issuer : Nat} {m : Nat × Nat} (hm : m ∈ (s.gang n).members)
    (hi : m.2 ≠ issuer) : ((s.stopGang n issuer).strand m.2).stopped = true := by
  have hk := State.gangsKept_foldl State.gangsKept_releaseAhead
  unfold stopGang
  rw [(hk ..).stopped]
  refine State.foldl_stopStrand_stopped (List.mem_filter.mpr ⟨List.mem_map_of_mem hm, ?_⟩) _
  simpa using hi

theorem State.gangResumeBy_state {s : State} {issuer : Nat} {v : Word} (hr : rankOutside v = false) (hn : gangField v ≠ 0)
    (hp : s.gangReachable (clusterOf issuer) (gangField v) = true) (u : State) :
    (s.gangResumeBy issuer v).state u = s.resumeGang (gangField v) := by
  simp [gangResumeBy, hr, hn, hp, WriteEffect.state]

/-- R18: one member of a gang that is resumed: it goes on after its delay. -/
def State.startAgain (delay : Nat → Nat) (s : State) (m : Nat) : State :=
  if (s.strand m).stopped then s.setStrand m { s.strand m with stopped := false, heldUntil := s.cycle + delay m } else s

theorem State.resumeGang_eq (s : State) (n : Nat) : ∃ delay, s.resumeGang n =
    (s.gang n).strands.foldl (State.startAgain delay) (s.setGang n { s.gang n with stopped := false }) :=
  ⟨fun m => resumeCycle (s.gang n).cores.length ((s.gang n).cores.idxOf (coreOf m)), rfl⟩

theorem State.startAgain_strands (delay) (s : State) (m : Nat) :
    s.startAgain delay m = { s with strands := (s.startAgain delay m).strands } := by
  unfold startAgain
  split <;> rfl

theorem State.startAgain_stopped (delay) (s : State) (m i : Nat) :
    ((s.startAgain delay m).strand i).stopped = (decide (i ≠ m) && (s.strand i).stopped) := by
  unfold startAgain
  by_cases hi : i = m
  · subst hi
    split
    · rw [State.strand_setStrand_same]
      simp
    · next h => simpa using h
  · split
    · rw [State.strand_setStrand_ne _ _ hi]
      simp [hi]
    · simp [hi]

theorem State.foldl_startAgain_strands (delay) (s : State) (l : List Nat) :
    l.foldl (State.startAgain delay) s = { s with strands := (l.foldl (State.startAgain delay) s).strands } := by
  induction l generalizing s with
  | nil => rfl
  | cons m t ih =>
    rw [List.foldl_cons, ih, State.startAgain_strands delay s m]

theorem State.foldl_startAgain_stopped (delay) {l : List Nat} {i : Nat} (hi : i ∈ l) (s : State) :
    ((l.foldl (State.startAgain delay) s).strand i).stopped = false := by
  have keep (l : List Nat) (s : State) (h : (s.strand i).stopped = false) :
      ((l.foldl (State.startAgain delay) s).strand i).stopped = false := by
    induction l generalizing s with
    | nil => exact h
    | cons m t ih => exact ih _ (by rw [State.startAgain_stopped, h, Bool.and_false])
  induction l generalizing s with
  | nil => cases hi
  | cons m t ih =>
    rcases List.mem_cons.mp hi with rfl | ht
    · exact keep t _ (by rw [State.startAgain_stopped]; simp)
    · exact ih ht _

/-- R18: after a resume the gang stands stopped no more, and none of its members; memory is as it was. -/
theorem State.resumeGang_runs {s : State} {n : Nat} (h : (s.gang n).members ≠ []) :
    ((s.resumeGang n).gang n).stopped = false ∧
      (∀ m ∈ (s.gang n).members, ((s.resumeGang n).strand m.2).stopped = false) ∧ (s.resumeGang n).mem = s.mem := by
  obtain ⟨delay, e⟩ := s.resumeGang_eq n
  rw [e]
  refine ⟨?_, fun m hm => State.foldl_startAgain_stopped delay (List.mem_map_of_mem hm) _, ?_⟩
  · rw [State.foldl_startAgain_strands]
    exact congrArg Gang.stopped (State.gang_setGang_same s n (g := { s.gang n with stopped := false }) h)
  · rw [State.foldl_startAgain_strands]
    rfl

theorem gangControlCompletes : Claims.GangControlCompletes := by
  intro s v n rank size g reach
  have hfield (x : BitVec 16) : BitVec.ofNat 16 x.toNat = x := by simp
  have hreach : reach → s.gangReachable (clusterOf s.cur) n = true := (s.gangReachable_iff _ n).mpr
  refine ⟨fun hw hn h1 h2 h3 hp hs hf hg => ?_, fun hw hn h1 h2 h3 => ?_, fun h => ?_,
    fun hn hp hm => ⟨?_, fun h1 h2 h3 => ?_⟩⟩
  · have he := State.setMembership_enters (sid := s.cur) hw (not_rankOutside h1 h2 h3) hn (hreach hp) hs hf
    rw [State.leaveGang_of_none hg] at he
    refine ⟨_, congrArg (fun e : WriteEffect => Host.Outcome.next (e.state s)) he, ?_⟩
    obtain ⟨hid, hrank, hsize, hstop⟩ := s.enterGang_me n rank size
    have hgang := s.enterGang_gang s.cur n rank size
    exact ⟨hid.trans (hfield _), hrank.trans (hfield _), hsize.trans (hfield _), hstop,
      (congrArg Gang.members hgang).trans (by simp [g]), (congrArg Gang.size hgang).trans (by simp)⟩
  · have he := State.setMembership_leaves (sid := s.cur) hw (not_rankOutside h1 h2 h3) hn
    refine ⟨_, congrArg (fun e : WriteEffect => Host.Outcome.next (e.state s)) he, ?_⟩
    obtain ⟨hid, hrank, hsize⟩ := s.leaveFor_me rank size
    refine ⟨hid, hrank.trans (hfield _), hsize.trans (hfield _), fun hg m hm => ?_⟩
    have hl := State.leaveGang_members (sid := s.cur) hg
    have hm' := (List.mem_filter.mp (hl ▸ hm :)).2
    simpa using hm'
  · rw [← rankOutside_iff] at h
    exact ⟨s.setMembership_illegal s.cur h, s.gangResumeBy_illegal s.cur h⟩
  · refine ⟨_, congrArg Host.Outcome.next (State.gangStopBy_state hn (hreach hp) s), State.stopGang_gang hm s.cur, ?_⟩
    exact fun m hm hi => State.stopGang_stopped hm hi
  · exact ⟨_, congrArg Host.Outcome.next (State.gangResumeBy_state (not_rankOutside h1 h2 h3) hn (hreach hp) s),
      State.resumeGang_runs hm⟩

end Sys2Proof.Machine

open Sys2Proof.Machine in
/-- Settles O44: BALLOC, BFREE and BLOCK_RETURN by what the lists and arenas hold (`blocksComplete`), GANG_CTL by
what each of its writes leaves (`gangControlCompletes`). -/
theorem blocksAndGangControl : Obligations.BlocksAndGangControl := ⟨blocksComplete, gangControlCompletes⟩
end

section
/-! ### O31: scale registers and tiles

#### Pieces of the own package, checked, read and written (R177, R194) -/
namespace Sys2Proof.Machine

theorem readBytes_lt (f : Nat → Byte) (a n : Nat) : readBytes f a n < 256 ^ n := by
  induction n generalizing a with
  | zero => simp [readBytes]
  | succ n ih =>
    have hb := (f a).isLt
    have hr := ih (a + 1)
    rw [readBytes, Nat.pow_succ]
    omega

theorem State.readSpan_lt (s : State) (f : Span) (n : Nat) : s.readSpan f n < 256 ^ n := by
  unfold readSpan
  split
  · exact readBytes_lt ..
  · have hlow : s.readUnder f.key f.pa f.cut < 256 ^ f.cut := readBytes_lt ..
    have hhigh : s.readUnder f.restKey (f.rest + f.cut) (n - f.cut) < 256 ^ (n - f.cut) := readBytes_lt ..
    calc s.readUnder f.key f.pa f.cut + 256 ^ f.cut * s.readUnder f.restKey (f.rest + f.cut) (n - f.cut)
        < 256 ^ f.cut * (s.readUnder f.restKey (f.rest + f.cut) (n - f.cut) + 1) := by rw [Nat.mul_succ]; omega
      _ ≤ 256 ^ f.cut * 256 ^ (n - f.cut) := Nat.mul_le_mul_left _ hhigh
      _ = 256 ^ n := by rw [← Nat.pow_add]; congr 1; omega

theorem State.readPlace_lt (s : State) (p : Place) (n : Nat) : s.readPlace p n < 256 ^ n := by
  cases p with
  | mem f => exact s.readSpan_lt f n
  | spad c off => exact readBytes_lt ..
  | decode al c off => exact readBytes_lt ..
  | fabric dev pa => exact Nat.pow_pos (by decide)

theorem State.loadPlace_own {s : State} {who cls n : Nat} {p : Place} {a : Word} (hp : p.remote = false)
    (hpoison : s.placePoisoned p n = false) : s.loadPlace who cls p a n = .ok (s.readPlace p n) := by
  cases p with
  | fabric dev pa => cases hp
  | mem f | spad c off | decode al c off => simp [loadPlace, hpoison]

/-- What `pieces` gathers of pieces found on the own package: the values of those it reads, and their places. -/
def foundPieces (kind : AccessKind) (l : List (Place × Nat)) : Pieces :=
  ⟨l.map (fun q => if kind = .load then q.2 else 0), l.map Prod.fst, [], false, none⟩

theorem State.PiecesFound.pieces {kind : AccessKind} {n : Nat} {at_ : List Word} :
    ∀ {s : State} {l : List (Place × Nat)} {t : State}, s.PiecesFound kind n at_ l t → ∀ cls,
      s.pieces kind cls n at_ = (foundPieces kind l, t) := by
  induction at_ with
  | nil =>
    rintro s l t ⟨rfl, rfl⟩ cls
    rfl
  | cons a as ih =>
    rintro s l t ⟨p, s1, v, rest, rfl, hr, hown, hread, hrest⟩ cls
    have htail := ih hrest cls
    rw [State.pieces, hr]
    dsimp only
    rw [htail]
    by_cases hk : kind = .load
    · obtain ⟨hpoison, rfl⟩ := hread hk
      rw [if_pos hk, loadPlace_own hown hpoison]
      simp [foundPieces, hk]
    · rw [if_neg hk]
      simp [foundPieces, hk]

theorem State.PiecesFound.length {kind : AccessKind} {n : Nat} {at_ : List Word} :
    ∀ {s : State} {l : List (Place × Nat)} {t : State}, s.PiecesFound kind n at_ l t → l.length = at_.length := by
  induction at_ with
  | nil =>
    rintro s l t ⟨rfl, -⟩
    rfl
  | cons a as ih =>
    rintro s l t ⟨p, s1, v, rest, rfl, -, -, -, hrest⟩
    simp [ih hrest]

theorem State.PiecesFound.own {kind : AccessKind} {n : Nat} {at_ : List Word} :
    ∀ {s : State} {l : List (Place × Nat)} {t : State}, s.PiecesFound kind n at_ l t → ∀ q ∈ l, q.1.remote = false := by
  induction at_ with
  | nil =>
    rintro s l t ⟨rfl, -⟩
    simp
  | cons a as ih =>
    rintro s l t ⟨p, s1, v, rest, rfl, -, hown, -, hrest⟩
    simp only [List.mem_cons, forall_eq_or_imp]
    exact ⟨hown, ih hrest⟩

theorem State.PiecesFound.value_lt {n : Nat} {at_ : List Word} :
    ∀ {s : State} {l : List (Place × Nat)} {t : State}, s.PiecesFound .load n at_ l t → ∀ q ∈ l, q.2 < 256 ^ n := by
  induction at_ with
  | nil =>
    rintro s l t ⟨rfl, -⟩
    simp
  | cons a as ih =>
    rintro s l t ⟨p, s1, v, rest, rfl, -, -, hread, hrest⟩
    obtain ⟨-, rfl⟩ := hread rfl
    simp only [List.mem_cons, forall_eq_or_imp]
    exact ⟨s1.readPlace_lt p n, ih hrest⟩

theorem State.PiecesFound.access {kind : AccessKind} {n : Nat} {at_ : List Word} :
    ∀ {s : State} {l : List (Place × Nat)} {t : State}, s.PiecesFound kind n at_ l t → s.AccessOnly t := by
  induction at_ with
  | nil =>
    rintro s l t ⟨-, rfl⟩
    exact .refl t
  | cons a as ih =>
    rintro s l t ⟨p, s1, v, rest, -, hr, -, -, hrest⟩
    have hone := State.access_resolve s s.actor kind a n
    rw [hr] at hone
    exact hone.trans (ih hrest)

/-- R355 asks nothing of a place of the own package but that the class's stores elsewhere are answered. -/
theorem State.PiecesFound.takePieces {kind : AccessKind} {n : Nat} {at_ : List Word} {s : State} {l : List (Place × Nat)}
    {t : State} (h : s.PiecesFound kind n at_ l t) (hmay : s.mayTarget s.cur 0 none = true) :
    s.takePieces kind 0 n at_ = .ok (foundPieces kind l, t) := by
  have hall : (l.map Prod.fst).all (fun p => s.mayTarget s.cur 0 (match p with
      | .fabric dev _ => if kind = .load then none else some dev
      | _ => none)) = true := by
    rw [List.all_map, List.all_eq_true]
    rintro ⟨p, v⟩ hq
    have hp := h.own _ hq
    cases p with
    | fabric dev pa => cases hp
    | mem f | spad c off | decode al c off => exact hmay
  unfold State.takePieces
  simp only [h.pieces 0]
  exact if_pos hall

/-- Pieces of the own package are written one by one at their places. -/
theorem State.writePieces_own {n : Nat} {at_ : List Word} {l : List (Place × Nat)} :
    ∀ {s : State} {x : Nat}, at_.length = l.length → (∀ q ∈ l, q.1.remote = false) → ∀ k,
      s.writePieces n (x / 2 ^ (8 * n * k)) (at_.zip (l.map Prod.fst)) =
        ((List.range' k l.length).zip l).foldl (fun u q => u.writePlace q.2.1 n (x / 2 ^ (8 * n * q.1) % 2 ^ (8 * n))) s := by
  induction at_ generalizing l with
  | nil =>
    intro s x hl hown k
    obtain rfl := List.eq_nil_of_length_eq_zero hl.symm
    rfl
  | cons a as ih =>
    intro s x hl hown k
    cases l with
    | nil => cases hl
    | cons q l =>
      simp only [List.mem_cons, forall_eq_or_imp] at hown
      obtain ⟨hq, hrest⟩ := hown
      have hnext : x / 2 ^ (8 * n * k) / 2 ^ (8 * n) = x / 2 ^ (8 * n * (k + 1)) := by
        rw [Nat.div_div_eq_div_mul, ← Nat.pow_add, Nat.mul_succ]
      have htail := fun s => @ih l s x (by simpa using hl) hrest (k + 1)
      obtain ⟨p, v⟩ := q
      cases p with
      | fabric dev pa => cases hq
      | mem f | spad c off | decode al c off =>
        simp only [List.map_cons, List.zip_cons_cons, State.writePieces, hnext, htail]
        rfl

theorem State.PiecesFound.writePieces {kind : AccessKind} {n : Nat} {at_ : List Word} {s : State} {l : List (Place × Nat)}
    {t : State} (h : s.PiecesFound kind n at_ l t) (u : State) (x : Nat) :
    u.writePieces n x (at_.zip (l.map Prod.fst)) =
      ((List.range l.length).zip l).foldl (fun u q => u.writePlace q.2.1 n (x / 2 ^ (8 * n * q.1) % 2 ^ (8 * n))) u := by
  have hw := State.writePieces_own (s := u) (x := x) (n := n) h.length.symm h.own 0
  rwa [Nat.mul_zero, Nat.pow_zero, Nat.div_one, ← List.range_eq_range'] at hw

/-! #### Registers put together from pieces -/

theorem extractLsb'_ofNat_toNat {N x a w : Nat} (h : a + w ≤ N) :
    ((BitVec.ofNat N x).extractLsb' a w).toNat = x / 2 ^ a % 2 ^ w := by
  rw [BitVec.extractLsb'_toNat, BitVec.toNat_ofNat, Nat.shiftRight_eq_div_pow]
  refine Nat.eq_of_testBit_eq fun i => ?_
  by_cases hi : i < w
  · simp [Nat.testBit_mod_two_pow, Nat.testBit_div_two_pow, show i + a < N by omega]
  · simp [Nat.testBit_mod_two_pow, hi]

theorem packElems_div_mod (w : Nat) (l : List Nat) (k : Nat) (hk : k < l.length) :
    packElems w l / 2 ^ (w * k) % 2 ^ w = l[k] % 2 ^ w := by
  induction l generalizing k with
  | nil => cases hk
  | cons x t ih =>
    have hpos : 0 < 2 ^ w := Nat.two_pow_pos w
    cases k with
    | zero => simp [packElems]
    | succ k =>
      have hdrop : packElems w (x :: t) / 2 ^ w = packElems w t := by
        rw [packElems, Nat.add_mul_div_left _ _ hpos, Nat.div_eq_of_lt (Nat.mod_lt _ hpos), Nat.zero_add]
      rw [Nat.mul_succ, Nat.add_comm, Nat.pow_add, ← Nat.div_div_eq_div_mul, hdrop]
      exact ih k (Nat.lt_of_succ_lt_succ hk)

theorem joinValues_eq_packElems (w : Nat) (l : List Nat) (h : ∀ x ∈ l, x < 2 ^ w) : joinValues w l = packElems w l := by
  induction l with
  | nil => rfl
  | cons x t ih =>
    simp only [List.mem_cons, forall_eq_or_imp] at h
    obtain ⟨hx, ht⟩ := h
    rw [joinValues, packElems, Nat.mod_eq_of_lt hx, ih ht]

theorem extractLsb'_packElems {N w : Nat} {l : List Nat} {k : Nat} (hk : k < l.length) (hN : w * l.length ≤ N) :
    ((BitVec.ofNat N (packElems w l)).extractLsb' (w * k) w).toNat = l[k] % 2 ^ w := by
  have hfit : w * k + w ≤ N := calc
    w * k + w = w * (k + 1) := (Nat.mul_succ w k).symm
    _ ≤ w * l.length := Nat.mul_le_mul_left w hk
    _ ≤ N := hN
  rw [extractLsb'_ofNat_toNat hfit, packElems_div_mod w l k hk]

/-- What the pieces read are together: each value stands in its place of the register. -/
theorem State.PiecesFound.joined {n N : Nat} {at_ : List Word} {s : State} {l : List (Place × Nat)} {t : State}
    (h : s.PiecesFound .load n at_ l t) (hN : 8 * n * l.length ≤ N) (k : Nat) (hk : k < l.length) :
    ((BitVec.ofNat N (joinValues (8 * n) (foundPieces .load l).values)).extractLsb' (8 * n * k) (8 * n)).toNat =
      l[k].2 % 2 ^ (8 * n) := by
  have hvalues : (foundPieces .load l).values = l.map Prod.snd := by simp [foundPieces]
  have hlt : ∀ x ∈ l.map Prod.snd, x < 2 ^ (8 * n) := by
    simp only [List.mem_map, forall_exists_index, and_imp]
    rintro x q hq rfl
    rw [Nat.pow_mul]
    exact h.value_lt q hq
  rw [hvalues, joinValues_eq_packElems _ _ hlt, extractLsb'_packElems (by simpa using hk) (by simpa using hN),
    List.getElem_map]

end Sys2Proof.Machine
end

section
/-! #### ELDS, ESTS and EZERO (R177, R178) -/
namespace Sys2Proof.Machine

theorem State.scaleTrap_eq_none {s : State} {a : BitVec 5} (hs : s.me.share ≠ 0) (ha : (s.g a).toNat % 256 = 0)
    (w : InstrWord) : s.scaleTrap w a = none := by
  simp [State.scaleTrap, aligned, hs, ha]

theorem scaleRegistersMove : Claims.ScaleRegistersMove := by
  intro s e a hs
  refine ⟨if_neg hs, ?_⟩
  intro ha hmay at_
  refine ⟨fun l s1 h => ?_, fun l s1 h => ?_⟩
  · have hlen : l.length = 32 := by simpa [at_] using h.length
    refine ⟨_, ?_, hlen, fun k hk => h.joined (by omega) k hk⟩
    rw [exec_elds, execElds, State.scaleTrap_eq_none hs ha]
    dsimp only
    rw [show scaleAddrs (s.g a) = at_ from rfl, h.takePieces hmay]
  · have hlen : l.length = 32 := by simpa [at_] using h.length
    rw [exec_ests, execEsts, State.scaleTrap_eq_none hs ha]
    dsimp only
    rw [show scaleAddrs (s.g a) = at_ from rfl, h.takePieces hmay]
    dsimp only [foundPieces]
    rw [h.writePieces, hlen]
    simp only [BitVec.extractLsb'_toNat, Nat.shiftRight_eq_div_pow]

end Sys2Proof.Machine
end

section
/-! #### Instructions without the tiles (R16, R115) -/
namespace Sys2Proof.Machine

theorem tileOp_of_not_owns {s : State} (h : s.myCore.owns s.cur = false) (w : InstrWord) (accs : List (BitVec 2))
    (body : State → Result) : tileOp w accs body s = .next (s.trap (wordTrap causeTileUnavail w)) := by
  simp [tileOp, h]

theorem tileVecOp_of_not_owns {s : State} (h : s.myCore.owns s.cur = false) {bad : Bool} {fits : Prop} [Decidable fits]
    (hbad : bad = !decide fits) (w : InstrWord) (accs : List (BitVec 2)) (body : State → Result) :
    tileVecOp bad w accs body s = .next (s.trap (wordTrap (if fits then causeTileUnavail else causeIllegal) w)) := by
  subst hbad
  by_cases hf : fits <;> simp [tileVecOp, hf, tileOp_of_not_owns h]

theorem accForeign_eq (t : BitVec 8) : accForeign t = !decide (t = 0 ∨ t = 0x03 ∨ t = 0x11) := by
  simp only [accForeign, Bool.decide_or, Bool.not_or, Bool.and_assoc]
  rfl

theorem tileForeign_eq (t : BitVec 8) : tileForeign t = !decide (t = 0 ∨ isTileTag t = true) := by
  simp only [tileForeign, Bool.decide_or, Bool.not_or, Bool.decide_eq_true]
  rfl

/-- The encoder's spelling of a tile's number in a field of 5 bits. -/
theorem low3_eq_setWidth (x : BitVec 3) : low3 x = x.setWidth 5 := by revert x; decide

/-- The encoder's spelling of an accumulator's number in a field of 5 bits. -/
theorem low2_eq_setWidth (x : BitVec 2) : low2 x = x.setWidth 5 := by revert x; decide

theorem tilesUnavailable : Claims.TilesUnavailable := by
  intro s x x' t u v y z e sa sb tag hown
  refine ⟨fun i hi w hw => ?_, fun i hi w hw => ?_, fun i hi w hw => ?_⟩ <;>
    simp only [List.mem_cons, List.not_mem_nil, or_false] at hi
  · obtain rfl | rfl | rfl | rfl | rfl | rfl | rfl | rfl | rfl | rfl | rfl | rfl | rfl | rfl | rfl | rfl := hi <;>
      (cases hw
       simp only [exec_tld, execTld, exec_tst, execTst, exec_tldm, execTldm, exec_tstm, execTstm, exec_tzero, execTzero,
         exec_tmov, execTmov, exec_ttrans, execTtrans, exec_tcfg, execTcfg, exec_accz, execAccz, exec_accst, execAccst,
         exec_accadd, execAccadd, exec_accscl, execAccscl, exec_mma, execMma, exec_mmaz, execMmaz, exec_mmas, execMmas,
         mmaOp, exec_gtmcast, execGtmcast, tileOp_of_not_owns hown, low3_eq_setWidth, low2_eq_setWidth]
       rfl)
  · obtain rfl | rfl := hi <;>
      (cases hw
       simp only [exec_accrd, execAccrd, exec_accwr, execAccwr, tileVecOp_of_not_owns hown (accForeign_eq (s.me.tag v)),
         low2_eq_setWidth]
       rfl)
  · obtain rfl | rfl | rfl := hi <;>
      (cases hw
       simp only [exec_trowv, execTrowv, exec_vtrow, execVtrow, exec_tcolv, execTcolv,
         tileVecOp_of_not_owns hown (tileForeign_eq (s.me.tag v)), low3_eq_setWidth]
       rfl)

end Sys2Proof.Machine
end

section
/-! #### Moves and transfers of tiles (R194, R195) -/
namespace Sys2Proof.Machine

theorem tileOp_of_owns {s : State} (h : s.myCore.owns s.cur = true) (w : InstrWord) (body : State → Result) :
    tileOp w [] body s = body s := by
  have hbusy : s.myCore.accBusy [] = false := by simp [Core.accBusy]
  simp [tileOp, h, hbusy]

/-- A tile written, as the record of its core (R181). -/
theorem Core.setTile_eq (c : Core) (t : BitVec 3) (bits : BitVec 32768) (tag : BitVec 8) :
    c.setTile t bits tag = { c with
      tiles := c.tiles.set t.toNat bits t.isLt
      tileTags := c.tileTags.set t.toNat tag t.isLt
      tdirty := c.tdirty ||| BitVec.ofNat 12 (2 ^ t.toNat) } := by
  have hbit : (1#12 <<< t.toNat) = BitVec.ofNat 12 (2 ^ t.toNat) := by
    revert t; decide
  rw [Core.setTile, hbit]

theorem transposed_elem (bits : BitVec 32768) {r q : Nat} (hr : r < 64) (hq : q < 64) :
    tileElem (transposed bits) 8 r q = tileElem bits 8 q r := by
  have hk : 64 * r + q < ((List.range 4096).map fun i => tileElem bits 8 (i % 64) (i / 64)).length := by
    rw [List.length_map, List.length_range]; omega
  have hpos : 512 * r + 8 * q = 8 * (64 * r + q) := by omega
  have hcol : (64 * r + q) % 64 = q := by omega
  have hrow : (64 * r + q) / 64 = r := by omega
  rw [tileElem, transposed, hpos, extractLsb'_packElems hk (by simp), List.getElem_map, List.getElem_range, hcol, hrow]
  exact Nat.mod_eq_of_lt (BitVec.isLt _)

theorem execTzero_of_owns {s : State} {t : BitVec 3} (h : s.myCore.owns s.cur = true) :
    execTzero t s = .next (s.setMyCore (s.myCore.setTile t 0 (liveTag (s.myCore.tileTag t) tagUint8))).retire :=
  tileOp_of_owns h ..

theorem execTmov_of_owns {s : State} {t u : BitVec 3} (h : s.myCore.owns s.cur = true) (hu : s.myCore.tileTag u ≠ 0) :
    execTmov t u s = .next (s.setMyCore (s.myCore.setTile t (s.myCore.tile u) (s.myCore.tileTag u))).retire := by
  rw [execTmov, tileOp_of_owns h]
  exact if_neg hu

theorem execTtrans_of_owns {s : State} {t u : BitVec 3} (h : s.myCore.owns s.cur = true)
    (hu : transposable (s.myCore.tileTag u) = true) :
    execTtrans t u s =
      .next (s.setMyCore (s.myCore.setTile t (transposed (s.myCore.tile u)) (s.myCore.tileTag u))).retire := by
  have hlive : s.myCore.tileTag u ≠ 0 := fun h0 => by rw [h0] at hu; exact absurd hu (by decide)
  rw [execTtrans, tileOp_of_owns h]
  dsimp only
  rw [if_neg hlive, hu]
  rfl

theorem execTcfg_of_owns {s : State} {t : BitVec 3} {y : BitVec 5} (h : s.myCore.owns s.cur = true)
    (hv : (s.g y).toNat < 256) (htag : isTileTag ((s.g y).setWidth 8) = true) :
    execTcfg t y s = .next (s.setMyCore (s.myCore.setTile t (s.myCore.tile t) ((s.g y).setWidth 8))).retire := by
  have hlow : (s.g y).extractLsb' 0 8 = (s.g y).setWidth 8 :=
    BitVec.eq_of_toNat_eq (by rw [BitVec.extractLsb'_toNat, BitVec.toNat_setWidth, Nat.shiftRight_zero])
  have hhigh : (s.g y).extractLsb' 8 56 = 0 := by
    apply BitVec.eq_of_toNat_eq
    rw [BitVec.extractLsb'_toNat, Nat.shiftRight_eq_div_pow, Nat.div_eq_of_lt hv]
    rfl
  rw [execTcfg, tileOp_of_owns h]
  dsimp only
  rw [hlow, hhigh, htag]
  rfl

/-! ##### By base and pitch -/

theorem pitchTrap_eq_none {base pitch : Word} (hb : base.toNat % 16 = 0) (hp : pitch.toNat % 16 = 0) :
    pitchTrap base pitch = none := by
  simp [pitchTrap, aligned, hb, hp]

theorem rowPieces_length (base pitch : Word) (rows chunks : Nat) :
    (rowPieces base pitch rows chunks).length = rows * chunks := by
  simp [rowPieces, List.length_flatMap]

theorem State.AccessOnly.tileTag {s t : State} (h : s.AccessOnly t) (n : BitVec 3) :
    t.myCore.tileTag n = s.myCore.tileTag n := by
  obtain ⟨p, hp⟩ := h.2 (coreOf s.cur)
  rw [State.myCore, h.cur, hp]
  rfl

theorem execTld_of_ready {s s1 : State} {t : BitVec 3} {y z : BitVec 5} {l : List (Place × Nat)}
    (h : s.myCore.owns s.cur = true) (hl : s.PiecesReady s1 .load (s.g y) (s.g z) 4 l) :
    execTld t y z s = .next (s1.setMyCore (s1.myCore.setTile t
      (BitVec.ofNat 32768 (joinValues 128 (foundPieces .load l).values))
      (liveTag (s.myCore.tileTag t) tagUint8))).retire := by
  obtain ⟨hbase, hpitch, hfound, hmay⟩ := hl
  rw [execTld, tileOp_of_owns h]
  dsimp only
  rw [pitchTrap_eq_none hbase hpitch, hfound.takePieces hmay]
  dsimp only
  rw [hfound.access.tileTag]

theorem execTst_of_ready {s s1 : State} {t : BitVec 3} {y z : BitVec 5} {l : List (Place × Nat)}
    (h : s.myCore.owns s.cur = true) (ht : s.myCore.tileTag t ≠ 0)
    (hl : s.PiecesReady s1 .store (s.g y) (s.g z) 4 l) :
    execTst t y z s = .next (s1.storePieces l (s.myCore.tile t).toNat).retire := by
  obtain ⟨hbase, hpitch, hfound, hmay⟩ := hl
  rw [execTst, tileOp_of_owns h, if_neg ht]
  dsimp only
  rw [pitchTrap_eq_none hbase hpitch, hfound.takePieces hmay]
  dsimp only [foundPieces]
  rw [hfound.writePieces]
  rfl

/-! ##### By descriptor -/

theorem State.DescReady.tileDesc {s : State} {d : Desc} {core : Nat} (h : s.DescReady d core) (w : InstrWord) :
    s.tileDesc d w false = .ok core := by
  obtain ⟨hrsv, halign, hcore, -⟩ := h
  simp [State.tileDesc, hrsv, halign, hcore]

theorem execTldm_of_ready {s : State} {t : BitVec 3} {y : BitVec 5} {core : Nat} (h : s.myCore.owns s.cur = true)
    (hd : s.DescReady (s.me.desc y) core) (hpoison : s.descPoison core (s.me.desc y) firstSegments = none) :
    execTldm t y s = .next (s.setMyCore (s.myCore.setTile t
      (BitVec.ofNat 32768 (packElems 512 ((List.range 64).map fun r => s.readSegment core (s.me.desc y) r 0)))
      ((s.me.desc y).windowTag.getD (liveTag (s.myCore.tileTag t) tagUint8)))).retire := by
  have ⟨_, _, _, hmay⟩ := hd
  rw [execTldm, tileOp_of_owns h]
  dsimp only
  rw [hd.tileDesc]
  dsimp only
  rw [hmay, hpoison]
  rfl

theorem execTstm_of_ready {s : State} {t : BitVec 3} {y : BitVec 5} {core : Nat} (h : s.myCore.owns s.cur = true)
    (hd : s.DescReady (s.me.desc y) core) (ht : s.myCore.tileTag t ≠ 0) (hraw : windowAlias (s.me.desc y).base = 0) :
    execTstm t y s = .next ((List.range 64).foldl (fun q r => q.writeSegment core (s.me.desc y) r
      ((s.myCore.tile t).extractLsb' (512 * r) 512).toNat) s).retire := by
  have ⟨_, _, _, hmay⟩ := hd
  have hlive : (s.myCore.tileTag t == 0) = false := by simpa using ht
  rw [execTstm, tileOp_of_owns h]
  dsimp only
  rw [hlive, hd.tileDesc]
  dsimp only
  rw [if_neg (not_not.mpr hraw), hmay]
  rfl

theorem tilesMove : Claims.TilesMove := by
  intro s t u y z c raw v d set moved hown
  refine ⟨?_, fun hu => ?_, fun hu => ⟨_, ?_, fun r q => transposed_elem (c.tile u)⟩, fun hv htag => ?_,
    fun l s1 hl => ⟨_, execTld_of_ready hown hl, fun k hk => ?_⟩, fun l s1 ht hl => execTst_of_ready hown ht hl,
    fun core hd hpoison => ?_, fun core hd ht hraw => execTstm_of_ready hown hd ht hraw⟩
  · exact (execTzero_of_owns hown).trans (by rw [Core.setTile_eq]; rfl)
  · exact (execTmov_of_owns hown hu).trans (by rw [Core.setTile_eq])
  · have htags : transposable (c.tileTag u) = true := by simpa [transposable, or_assoc] using hu
    exact (execTtrans_of_owns hown htags).trans (by rw [Core.setTile_eq])
  · exact (execTcfg_of_owns hown hv htag).trans (by rw [Core.setTile_eq])
  · obtain ⟨-, -, hfound, -⟩ := hl
    have hlen : l.length = 256 := by rw [hfound.length, rowPieces_length]
    exact hfound.joined (by omega) k hk
  · refine ⟨_, (execTldm_of_ready hown hd hpoison).trans (by rw [Core.setTile_eq]; rfl), fun r hr => ?_⟩
    have hrow := extractLsb'_packElems (w := 512) (N := 32768) (k := r)
      (l := (List.range 64).map fun r => s.readSegment core d r 0) (by simpa using hr) (by simp)
    rwa [List.getElem_map, List.getElem_range] at hrow

end Sys2Proof.Machine

open Sys2Proof.Machine in
/-- Settles O31: a transfer whose pieces are all found takes each value, or writes each place, in turn. -/
theorem scalesAndTilesMove : Obligations.ScalesAndTilesMove := by
  exact ⟨scaleRegistersMove, tilesUnavailable, tilesMove⟩
end

section
/-! ### O41: message handlers

#### Dispatch (R29, R223) -/
namespace Sys2Proof.Machine

theorem State.dispatch_of_unread {s : State} {sid : Nat} {m : Msg} (hopen : s.dispatchOpen sid = true)
    (hm : s.routeUnread (coreOf sid) = some m) :
    s.dispatch sid =
      if (s.routeAsked m.num).any (fun r => r.answer.isNone) then none else some (s.routeFetched (coreOf sid) m) := by
  simp [State.dispatch, hopen, hm]

theorem State.entry_of_routeUnread {s : State} {core : Nat} {m : Msg} (hm : s.routeUnread core = some m) :
    m.entry = none := by
  have hp := List.find?_some hm
  simp only [Bool.and_eq_true, Option.isNone_iff_eq_none] at hp
  obtain ⟨⟨-, hentry⟩, -⟩ := hp
  exact hentry

theorem execMessageDispatch_of_none {s : State} {sid : Nat} (h : (s.strand sid).handler = none) :
    execMessageDispatch sid s = .next ((s.dispatch sid).getD s) := by
  simp [execMessageDispatch, h]

/-- R75: the READ of a route entry that another device holds goes out. -/
theorem State.routeFetched_of_sent {s s1 : State} {core : Nat} {m : Msg} {dev pa xtag : Nat} (hentry : m.entry = none)
    (hfar : (s.routeLoad core m.cls).1 = .far dev pa) (hasked : (s.touchRoute core m.cls).routeAsked m.num = none)
    (hsent : (s.touchRoute core m.cls).sendRequest dev (.route m.num) (readPacket 0 pa 32) = some (xtag, s1)) :
    s.routeFetched core m = s1 := by
  have hbrought : s.routeBrought core m = .error s1 := by simp [State.routeBrought, hfar, hentry, hasked, hsent]
  rw [State.routeFetched, hbrought]

/-- R75: the bytes that the READ brought stay with the message. -/
theorem State.routeFetched_mailbox {s : State} {core : Nat} {m : Msg} {dev pa : Nat} {q : FabricReq} {data : List Byte}
    (hentry : m.entry = none) (hfar : (s.routeLoad core m.cls).1 = .far dev pa)
    (hasked : (s.touchRoute core m.cls).routeAsked m.num = some q) (hanswer : q.answer = some (0, data)) :
    ((s.routeFetched core m).core core).mailbox = ((s.touchRoute core m.cls).core core).mailbox.map (fun y =>
      if y.num = m.num then { m with entry := some (readValue q.packet.mask data pa 32) } else y) := by
  have hbrought : s.routeBrought core m = .ok ({ m with entry := some (readValue q.packet.mask data pa 32) },
      (s.touchRoute core m.cls).dropReq q.xtag) := by
    simp [State.routeBrought, hfar, hentry, hasked, hanswer]
  rw [State.routeFetched, hbrought]
  dsimp only
  rw [State.core_setCore_same]
  rfl

/-- R223: the strand at the handler's entry, the touched route before it, as `land` finds them. -/
def State.entered (s : State) (sid : Nat) (m : Msg) (r : RouteEntry) : State :=
  (s.setStrand sid ((s.strand sid).enterHandler m r (s.core (coreOf sid)).handlerBudget)).touchRoute (coreOf sid) m.cls

theorem State.entered_strand (s : State) (sid : Nat) (m : Msg) (r : RouteEntry) :
    (s.entered sid m r).strand sid = (s.strand sid).enterHandler m r (s.core (coreOf sid)).handlerBudget := by
  rw [State.strand, State.entered, State.touchRoute_strands]
  exact State.strand_setStrand_same ..

theorem State.dispatch_of_message {s : State} {sid : Nat} {m : Msg} {r : RouteEntry} (hwait : (s.strand sid).wait = .none)
    (hopen : s.dispatchOpen sid = true) (hread : s.routeUnread (coreOf sid) = none)
    (hm : s.messageFor sid = some (m, r)) :
    s.dispatch sid = some ((s.entered sid m r).land sid r.land m) := by
  have hsettle : s.settle sid .handler = some s := by simp [State.settle, hwait]
  simp [State.dispatch, hopen, hread, hm, hsettle, State.entered]

theorem State.handler_of_dispatchOpen {s : State} {sid : Nat} (h : s.dispatchOpen sid = true) :
    (s.strand sid).handler = none := by
  simp only [State.dispatchOpen, Bool.and_eq_true, Option.isNone_iff_eq_none] at h
  obtain ⟨⟨⟨⟨⟨-, hhandler⟩, -⟩, -⟩, -⟩, -⟩ := h
  exact hhandler

theorem execMessageDispatch_of_message {s : State} {sid : Nat} {m : Msg} {r : RouteEntry}
    (hwait : (s.strand sid).wait = .none) (hopen : s.dispatchOpen sid = true) (hread : s.routeUnread (coreOf sid) = none)
    (hm : s.messageFor sid = some (m, r)) :
    execMessageDispatch sid s = .next ((s.entered sid m r).land sid r.land m) := by
  rw [execMessageDispatch_of_none (State.handler_of_dispatchOpen hopen),
    State.dispatch_of_message hwait hopen hread hm]
  rfl

/-! #### The landing block (R223) -/

theorem State.strand_of_strands {s t : State} (h : t.strands = s.strands) (sid : Nat) : t.strand sid = s.strand sid := by
  rw [State.strand, h, State.strand]

theorem State.landingStore_strand {s u : State} {sid : Nat} {blk : Word} {m : Msg} {l : List Nat}
    (h : s.landingStore sid blk m = .ok (l, u)) : u.strand sid = s.strand sid := by
  have hk := State.keeps_landingStore s sid blk m
  rw [h] at hk
  exact State.strand_of_strands hk sid

theorem State.landingStore_own {s u : State} {sid : Nat} {blk : Word} {m : Msg} {f : Span} (ha : blk.toNat % 128 = 0)
    (hr : s.resolve (s.actorOf sid) .store blk 72 = .ok (.mem f, u)) (hmay : u.mayTarget sid 0 none = true) :
    s.landingStore sid blk m = .ok ([], u.writeSpan f 72 (m.bytes.toNat + 2 ^ 512 * ((s.strand sid).getG 1).toNat)) := by
  have haligned : aligned blk 128 = true := by simp [aligned, ha]
  rw [State.landingStore, haligned, hr]
  dsimp only
  rw [hmay]
  rfl

theorem State.landingStore_fault {s u : State} {sid : Nat} {blk : Word} {m : Msg} {tr : Trap} (ha : blk.toNat % 128 = 0)
    (hr : s.resolve (s.actorOf sid) .store blk 72 = .error (.trap tr, u)) :
    s.landingStore sid blk m = .error (.trap tr, u) := by
  simp [State.landingStore, aligned, ha, hr]

theorem State.landingStore_misaligned {s : State} {sid : Nat} {blk : Word} {m : Msg} (ha : blk.toNat % 128 ≠ 0) :
    s.landingStore sid blk m = .error (.trap (addrTrap causeMisaligned blk), s) := by
  simp [State.landingStore, aligned, ha]

theorem State.land_of_done {s u : State} {sid : Nat} {blk : Word} {m : Msg} (h : s.landingStore sid blk m = .ok ([], u)) :
    s.land sid blk m = u.setStrand sid ((s.strand sid).landedAt blk) := by
  rw [State.land, h]
  dsimp only
  rw [State.landingStore_strand h]

theorem State.land_of_sent {s u : State} {sid : Nat} {blk : Word} {m : Msg} {tag : Nat} {tags : List Nat}
    (h : s.landingStore sid blk m = .ok (tag :: tags, u)) :
    s.land sid blk m = u.setStrand sid { s.strand sid with wait := .landing blk (tag :: tags) } := by
  rw [State.land, h]
  dsimp only
  rw [State.landingStore_strand h]

theorem State.land_of_fault {s u : State} {sid : Nat} {blk : Word} {m : Msg} {tr : Trap}
    (h : s.landingStore sid blk m = .error (.trap tr, u)) : s.land sid blk m = u.trapOn sid tr := by
  rw [State.land, h]

theorem messagesDispatch : Claims.MessagesDispatch := by
  intro s sid m r x core
  refine ⟨fun hopen hhandler hm dev pa hfar => ?_, fun hwait hopen hread hm => ?_⟩
  · have hentry := State.entry_of_routeUnread hm
    rw [exec_messageDispatch, execMessageDispatch_of_none hhandler, State.dispatch_of_unread hopen hm]
    refine ⟨fun xtag s1 htouched hasked hsent => ?_, fun q hasked hanswer => ?_,
      fun q data hasked htouched hanswer => ⟨_, rfl, ?_⟩⟩
    · rw [hasked, State.routeFetched_of_sent hentry hfar htouched hsent]
      rfl
    · simp [hasked, hanswer]
    · simpa [hasked, hanswer] using State.routeFetched_mailbox hentry hfar htouched hanswer
  · intro h x1 s1
    rw [exec_messageDispatch, execMessageDispatch_of_message hwait hopen hread hm]
    have hs1 : s.entered sid m r = s1 := rfl
    have hx1 : s1.strand sid = x1 := s.entered_strand sid m r
    rw [hs1]
    refine ⟨fun u f ha hr hmay => ?_, fun u tag tags hl => ?_, fun tr u ha hr => ?_, fun ha => ?_⟩
    · have hl := State.landingStore_own (m := m) ha hr hmay
      rw [State.land_of_done hl, hx1]
      exact ⟨_, rfl, State.strand_setStrand_same .., rfl⟩
    · rw [State.land_of_sent hl, hx1]
      exact ⟨_, rfl, rfl, by rw [State.strand_setStrand_same], by rw [State.strand_setStrand_same]⟩
    · rw [State.land_of_fault (State.landingStore_fault ha hr)]
    · rw [State.land_of_fault (State.landingStore_misaligned ha)]

end Sys2Proof.Machine
end

section
/-! #### A handler ends, and replies (R222 to R224, R291) -/
namespace Sys2Proof.Machine

theorem modeOf_statusWord (mcx phdlr pie ie : Bool) (pmode : BitVec 2) (m : Mode) :
    modeOf (statusWord mcx phdlr pie ie pmode m.code) = m := by
  have hlow : (statusWord mcx phdlr pie ie pmode m.code).extractLsb' 0 2 = m.code := by
    revert mcx phdlr pie ie pmode
    cases m <;> decide
  rw [modeOf, hlow]
  cases m <;> rfl

theorem statusWord_ie (mcx phdlr pie ie : Bool) (pmode mode : BitVec 2) :
    (statusWord mcx phdlr pie ie pmode mode).getLsbD 4 = ie := by
  revert mcx phdlr pie ie pmode mode
  decide

/-- What does not touch the cores or the memory, nor a strand that waits for nothing. -/
def State.Aside (s t : State) : Prop :=
  t.cores = s.cores ∧ t.mem = s.mem ∧ t.cur = s.cur ∧ ∀ sid, (s.strand sid).wait = .none → t.strand sid = s.strand sid

theorem State.transmit_aside (s : State) (port : Nat) (p : Packet) : s.Aside (s.transmit port p) := by
  have hport (l : LinkPort) : s.Aside (s.portSent port l) := by
    unfold portSent
    split <;> exact ⟨rfl, rfl, rfl, fun _ _ => rfl⟩
  unfold transmit
  dsimp only
  split <;> exact hport _

theorem State.emit_aside (s : State) (p : Packet) : s.Aside (s.emit p) := by
  unfold emit
  split
  · exact s.transmit_aside ..
  · exact ⟨rfl, rfl, rfl, fun _ _ => rfl⟩

theorem State.writeG_strand_ne (s : State) (d : BitVec 5) (v : Word) {sid : Nat} (h : sid ≠ s.cur) :
    (s.writeG d v).strand sid = s.strand sid :=
  ((s.setG d v).strand_setStrand_ne _ h).trans (s.strand_setStrand_ne _ h)

/-- A sender that waits for the end of its message's handler is told; no other strand is. -/
theorem State.handled_aside (s : State) (num status : Nat) : s.Aside (s.handled num status) := by
  unfold handled
  dsimp only
  split
  · exact ⟨rfl, rfl, rfl, fun _ _ => rfl⟩
  · next sid hfind =>
    split
    · next d n hw =>
      split
      · refine ⟨rfl, rfl, rfl, fun i hi => ?_⟩
        have hne : i ≠ sid := by
          rintro rfl
          exact Wait.noConfusion (hw.symm.trans hi)
        exact State.writeG_strand_ne { s with handling := s.handling.filter (fun x => x.1 != num), cur := sid } d _ hne
      · exact ⟨rfl, rfl, rfl, fun _ _ => rfl⟩
    · exact ⟨rfl, rfl, rfl, fun _ _ => rfl⟩

/-- R223: the slot of a message is freed; telling its sender is all that happens besides. -/
theorem State.freeMessage_aside (s : State) (core num : Nat) :
    (s.setCore core { s.core core with mailbox := (s.core core).mailbox.filter (fun m => m.num != num) }).Aside
      (s.freeMessage core num) := by
  unfold freeMessage
  dsimp only
  split
  · exact State.emit_aside ..
  · exact State.handled_aside ..

theorem State.freeMessage_me {s : State} (h : s.me.wait = .none) (core num : Nat) : (s.freeMessage core num).me = s.me := by
  obtain ⟨-, -, hcur, hstrand⟩ := s.freeMessage_aside core num
  rw [State.me, hcur]
  exact hstrand s.cur h

theorem State.freeMessage_mailbox (s : State) (num : Nat) :
    (s.freeMessage (coreOf s.cur) num).myCore.mailbox = s.myCore.mailbox.filter (fun m => m.num != num) := by
  obtain ⟨hcores, -, hcur, -⟩ := s.freeMessage_aside (coreOf s.cur) num
  rw [State.myCore, hcur, State.core, hcores]
  exact congrArg Core.mailbox (State.core_setCore_same ..)

theorem execAmdone_of_handler {s : State} {h : HandlerCtx} (hh : s.me.handler = some h)
    (hmode : s.me.mode = .u ∨ s.me.status.getLsbD 7 = true) :
    execAmdone s = .next ((s.setMe (s.me.leaveHandler h)).freeMessage (coreOf s.cur) h.msg) := by
  have hgo : ¬ (s.me.mode ≠ .u ∧ (!s.me.status.getLsbD 7) = true) := by simpa [or_iff_not_imp_left] using hmode
  rw [execAmdone, hh]
  exact if_neg hgo

theorem execAmdone_of_supervisor {s : State} (hmode : s.me.mode ≠ .u) (hphdlr : s.me.status.getLsbD 7 = false) :
    execAmdone s = .next (s.trap (wordTrap causeIllegal (amWord 0 0 0 3))) := by
  rw [execAmdone]
  split
  · rfl
  · exact if_pos ⟨hmode, by rw [hphdlr]; rfl⟩

theorem execAm_of_no_handler {s : State} (h : s.me.handler = none) (d a b : BitVec 5) :
    execAmreply d a b s = .next (s.trap (wordTrap causeIllegal (amWord d a b 2))) ∧
      execAmdone s = .next (s.trap (wordTrap causeIllegal (amWord 0 0 0 3))) := by
  simp [execAmreply, execAmdone, h]

/-! ##### The bytes of a message (R222) -/

theorem msgBytes_eq_append (header : BitVec 64) (payload : Nat) :
    msgBytes header payload = (BitVec.ofNat 448 payload ++ header : BitVec 512) := by
  have hlow : header.toNat < 2 ^ 64 := header.isLt
  apply BitVec.eq_of_toNat_eq
  rw [msgBytes, BitVec.toNat_ofNat, BitVec.toNat_append, ← Nat.shiftLeft_add_eq_or_of_lt hlow, BitVec.toNat_ofNat,
    Nat.shiftLeft_eq]
  omega

theorem getLsbD_append_low {v w i : Nat} {x : BitVec v} {y : BitVec w} {b : Bool} (hi : i < w) (hy : y.getLsbD i = b) :
    (x ++ y).getLsbD i = b := by
  rw [BitVec.getLsbD_append, if_pos hi, hy]

theorem getLsbD_append_high {v w i : Nat} {x : BitVec v} {y : BitVec w} {b : Bool} (hi : w ≤ i)
    (hx : x.getLsbD (i - w) = b) : (x ++ y).getLsbD i = b := by
  rw [BitVec.getLsbD_append, if_neg (Nat.not_lt.mpr hi), hx]

theorem msgBytes_payload (header : BitVec 64) (payload : Nat) :
    (msgBytes header payload).extractLsb' 64 448 = BitVec.ofNat 448 payload := by
  refine BitVec.eq_of_getLsbD_eq fun i hi => ?_
  rw [msgBytes_eq_append, BitVec.getLsbD_extractLsb', decide_eq_true hi, Bool.true_and]
  exact getLsbD_append_high (Nat.le_add_right 64 i) (by rw [Nat.add_sub_cancel_left])

/-- R222: the low bytes of the header word are CLASS and REPLY. -/
theorem msgHeader_low (own : Bool) (dev sid : Nat) (reply : Bool) (cls : Nat) {i : Nat} {b : Bool} (hi : i < 9)
    (h : ((BitVec.ofBool reply ++ ((0 : BitVec 4) ++ BitVec.ofNat 4 cls)) : BitVec 9).getLsbD i = b) :
    (msgHeader own dev sid reply cls).getLsbD i = b :=
  getLsbD_append_low (by omega) (getLsbD_append_low (by omega) (getLsbD_append_low (by omega)
    (getLsbD_append_low (by omega) (getLsbD_append_low hi h))))

theorem msgBytes_low {header : BitVec 64} {i : Nat} {b : Bool} (hi : i < 64) (h : header.getLsbD i = b) (payload : Nat) :
    (msgBytes header payload).getLsbD i = b := by
  rw [msgBytes_eq_append]
  exact getLsbD_append_low hi h

theorem msgBytes_class (own : Bool) (dev sid : Nat) (reply : Bool) (cls payload : Nat) :
    (msgBytes (msgHeader own dev sid reply cls) payload).extractLsb' 0 4 = BitVec.ofNat 4 cls := by
  refine BitVec.eq_of_getLsbD_eq fun i hi => ?_
  rw [BitVec.getLsbD_extractLsb', decide_eq_true hi, Bool.true_and, Nat.zero_add]
  exact msgBytes_low (by omega) (msgHeader_low own dev sid reply cls (by omega)
    (getLsbD_append_low (by omega) (getLsbD_append_low hi rfl))) payload

theorem msgBytes_reply (own : Bool) (dev sid : Nat) (reply : Bool) (cls payload : Nat) :
    (msgBytes (msgHeader own dev sid reply cls) payload).getLsbD 8 = reply :=
  msgBytes_low (by decide) (msgHeader_low own dev sid reply cls (by decide)
    (getLsbD_append_high (Nat.le_refl 8) (by cases reply <;> rfl))) payload

/-- A message of the own package on its way, as `post` makes it. -/
def State.ownFlight (s : State) (dev core : Nat) (reply : Bool) (cls payload : Nat) : MsgFlight :=
  ⟨⟨s.serial, cls, msgBytes (msgHeader true 0 s.cur reply cls) payload, s.cur, s.device, true, reply, false, none, none⟩,
    core, dev, true, none, none⟩

theorem State.post_own (s : State) (dev core : Nat) (reply handled : Bool) (cls payload : Nat) :
    s.post true dev core reply handled cls payload = some (s.serial, { s with
      serial := s.serial + 1, messages := s.messages ++ [s.ownFlight dev core reply cls payload] }) := rfl

theorem execAmreply_of_served {s s1 : State} {d a b : BitVec 5} {h : HandlerCtx} {m : Msg} {payload : Nat}
    (hh : s.me.handler = some h) (ha : (s.g b).toNat % 8 = 0)
    (hread : s.readWords s.actor (s.g b) 7 = .ok (payload, s1)) (hm : s1.servedBy s.cur h = some m)
    (hown : m.fromOwn = true) :
    execAmreply d a b s = .next (State.writeG { s1 with
      serial := s1.serial + 1
      messages := s1.messages ++
        [s1.ownFlight m.fromDev (m.fromStrand / 4) true ((s.g a).extractLsb' 0 4).toNat payload] } d 0) := by
  have haligned : aligned (s.g b) 8 = true := by simp [aligned, ha]
  simp only [execAmreply, hh, haligned, hread, hm, hown, State.post_own]
  rfl

/-- A status of 0 reads as 0 from g0, too. -/
theorem State.writeG_zero_getG (s : State) (d : BitVec 5) : (s.writeG d 0).me.getG d = 0 := by
  rw [State.me_writeG, Strand.retire_getG]
  by_cases hd : d = 0
  · rw [Strand.getG, if_pos hd]
  · exact s.me.getG_setG_same 0 hd

theorem handlersComplete : Claims.HandlersComplete := by
  intro s s1 d a b c h m payload
  refine ⟨fun hnone i hi w hw => ?_, fun hh hmode => ⟨_, execAmdone_of_handler hh hmode, ?_⟩,
    fun hmode hphdlr w hw => ?_, fun hh ha hread hm hown => ?_, rfl, rfl⟩
  · obtain ⟨hreply, hdone⟩ := execAm_of_no_handler hnone d a b
    simp only [List.mem_cons, List.not_mem_nil, or_false] at hi
    obtain rfl | rfl := hi <;> cases hw
    · exact hreply
    · exact hdone
  · have hme : ((s.setMe (s.me.leaveHandler h)).freeMessage (coreOf s.cur) h.msg).me = s.me.leaveHandler h := by
      rw [State.freeMessage_me (by rw [State.me_setMe]; rfl), State.me_setMe]
    rw [hme, State.freeMessage_mem]
    refine ⟨rfl, rfl, rfl, ?_, modeOf_statusWord .., rfl, rfl, State.freeMessage_mailbox (s.setMe _) h.msg⟩
    exact statusWord_ie ..
  · cases hw
    exact execAmdone_of_supervisor hmode hphdlr
  · refine ⟨_, s1.ownFlight m.fromDev (m.fromStrand / 4) true ((s.g a).extractLsb' 0 4).toNat payload,
      execAmreply_of_served hh ha hread hm hown, State.writeG_zero_getG .., rfl, rfl, rfl, msgBytes_reply .., ?_,
      msgBytes_payload ..⟩
    rw [State.ownFlight, msgBytes_class, BitVec.ofNat_toNat, BitVec.setWidth_eq]

end Sys2Proof.Machine

open Sys2Proof.Machine in
/-- Settles O41: dispatch by what the landing stores answer, AMDONE and AMREPLY by what they leave of the strand. -/
theorem handlersRun : Obligations.HandlersRun := by
  exact ⟨messagesDispatch, handlersComplete⟩
end

section
/-! ### O42: a footprint fetch without a flight slot waits

R208: a core moves at most 8 rows of cards and footprint fetches at a time, and a fetch beyond them waits for a slot. The claim on
footprints leaves that condition out: it has every fetch that is not complete, faulted or asked for end in a complete one. In the
state below 8 cards of core 0 are in flight, and the fetch of strand 0, of a group with no regions, waits. -/
namespace Sys2Proof.Machine

/-- A card in flight on core 0. -/
def flyingCard : Card :=
  { num := 1, sid := 0, domain := 0, plb := 0, fn := 0, src := 0, dst := 0, spitch := 0, dpitch := 0, rowBytes := 16, rows := 1
    idx := 0, span := 0, rot := 0, moved := 0, mover := .reset, off := none, failed := none, inFlight := true }

/-- An active launch whose groups have no footprint. -/
def bareLaunch : Launch :=
  { id := 1, gang := 0, domain := 0, owner := .strand, base := 0, retired := [], assigned := [(0, 0)], homes := []
    aborted := false, done := false, endedAt := 0, forgotten := false
    header :=
      { entry := 0, args := 0, extents := [1, 1, 1, 1, 1, 1], widths := [0, 0, 0, 0, 0, 0], deps := []
        sweep := [0, 1, 2, 3, 4, 5], place := 0, flags := 0, budget := 0, vlceil := 0, lanes := 0, regions := [] } }

/-- The launch's only group, assigned ahead and not fetched. -/
def unfetched : Ahead :=
  { launch := 1, work := 0, ready := false, fault := none, told := false, count := 0, rows := 0, mover := .reset }

/-- The 8 flight slots of core 0 are taken, and strand 0 has a group ahead. -/
def crowded : State := { State.reset with
  launches := [bareLaunch]
  strands := [(0, { Strand.reset with ahead := some unfetched })]
  cores := [(0, { Core.reset with cards := List.replicate 8 flyingCard })] }

/-- R208: without a flight slot a footprint fetch does nothing. -/
theorem execFootprintFetchComplete_of_not_runs {s : State} {sid : Nat} (h : s.fetchRuns sid = false) :
    execFootprintFetchComplete sid s = .next s := by
  unfold execFootprintFetchComplete
  dsimp only
  split
  · rfl
  · split
    · rfl
    · simp [h]

theorem crowded_fetchRuns : crowded.fetchRuns 0 = false := by decide

end Sys2Proof.Machine

open Sys2Proof.Machine in
/-- Refutes O42: with 8 cards in flight on its core (`crowded`) the footprint fetch of a group with no regions leaves the group
not ready, though every one of its rows, of which there are none, is fetched. -/
theorem not_launchesAndAssignment : ¬ Obligations.LaunchesAndAssignment := by
  rintro ⟨-, assigned⟩
  obtain ⟨-, fetches, -⟩ := assigned crowded bareLaunch 0 0 unfetched
  obtain ⟨complete, -⟩ := fetches rfl rfl rfl rfl rfl crowded 0 .reset none rfl
  obtain ⟨t, he, -, -, -, hready⟩ := complete rfl
  rw [exec_footprintFetchComplete, execFootprintFetchComplete_of_not_runs crowded_fetchRuns] at he
  cases he
  exact absurd hready (by decide)
end

section
/-! ### O3 and O8: what completes an instruction, with flags or without (R33, R44, R45, R60, R116, R139) -/
namespace Sys2Proof.Machine

/-! #### The running strand replaced -/

/-- The later of two writes at one key stands. -/
@[simp] theorem mapSet_mapSet_same {α : Type} (m : Map α) (k : Nat) (v w : α) :
    mapSet (mapSet m k v) k w = mapSet m k w := by
  induction m with
  | nil => simp [mapSet]
  | cons h t ih =>
    obtain ⟨j, x⟩ := h
    by_cases hj : j = k
    · simp [mapSet, hj]
    by_cases hk : k < j
    · simp [mapSet, hj, hk]
    · simp [mapSet, hj, hk, ih]

@[simp] theorem State.setMe_setMe (s : State) (x y : Strand) : (s.setMe x).setMe y = s.setMe y := by
  simp [State.setMe, State.setStrand]

@[simp] theorem State.retire_setMe (s : State) (x : Strand) : (s.setMe x).retire = s.setMe x.retire := by
  rw [State.retire_only, State.me_setMe, State.setMe_setMe]

theorem State.writeG_only (s : State) (d : BitVec 5) (v : Word) : s.writeG d v = s.setMe (s.me.setG d v).retire :=
  s.retire_setMe _

theorem State.onlyRunning_setMe (s : State) (x : Strand) : s.OnlyRunning (s.setMe x) :=
  ⟨rfl, fun _ h => s.strand_setMe_ne x h⟩

/-- A write of g(d) changes the register file alone. -/
theorem Strand.setG_only (x : Strand) (d : BitVec 5) (v : Word) : x.setG d v = { x with g := (x.setG d v).g } := by
  unfold Strand.setG
  split <;> rfl

theorem Strand.onlyG_setG_retire (x : Strand) (d : BitVec 5) (v : Word) : x.OnlyG d (x.setG d v).retire := by
  obtain ⟨pc, f, h⟩ := (x.setG d v).retire_place
  refine ⟨?_, fun a ha => by rw [Strand.retire_getG, x.getG_setG_ne v ha]⟩
  rw [h, x.setG_only d v]

/-- R33: g(d) reads as written, g0 as zero. -/
theorem Strand.getG_setG_self (x : Strand) (d : BitVec 5) (v : Word) :
    (x.setG d v).getG d = if d = 0 then 0 else v := by
  split
  · next h => rw [h, Strand.getG_zero]
  · next h => exact x.getG_setG_same v h

/-! #### A trap of the running strand -/

@[simp] theorem State.trap_cur (s : State) (t : Trap) : (s.trap t).cur = s.cur := State.trapOn_cur ..

@[simp] theorem State.trap_cores (s : State) (t : Trap) : (s.trap t).cores = s.cores := State.trapOn_cores ..

@[simp] theorem State.trap_me (s : State) (t : Trap) : (s.trap t).me = s.me.enter t := by
  rw [State.me, State.trap_cur]
  exact s.trapOn_strand s.cur t

theorem State.trap_strand_ne (s : State) (t : Trap) {sid : Nat} (h : sid ≠ s.cur) : (s.trap t).strand sid = s.strand sid :=
  s.trapOn_other t h

/-! #### What `OnlyEntry` keeps -/

section
variable {x y z : Strand}

theorem Strand.OnlyEntry.trans (h : x.OnlyEntry y) (h' : y.OnlyEntry z) : x.OnlyEntry z := by
  rw [Strand.OnlyEntry] at *
  rw [h', h]

theorem Strand.onlyEntry_enter (x : Strand) (t : Trap) : x.OnlyEntry (x.enter t) := rfl

theorem Strand.onlyEntry_retire (x : Strand) : x.OnlyEntry x.retire := by
  obtain ⟨pc, f, h⟩ := x.retire_place
  rw [Strand.OnlyEntry, h]

variable (h : x.OnlyEntry y)
include h

theorem Strand.OnlyEntry.g : y.g = x.g := by rw [h]
theorem Strand.OnlyEntry.v : y.v = x.v := by rw [h]
theorem Strand.OnlyEntry.p : y.p = x.p := by rw [h]
theorem Strand.OnlyEntry.e : y.e = x.e := by rw [h]
theorem Strand.OnlyEntry.vl : y.vl = x.vl := by rw [h]
theorem Strand.OnlyEntry.vstart : y.vstart = x.vstart := by rw [h]
theorem Strand.OnlyEntry.share : y.share = x.share := by rw [h]
theorem Strand.OnlyEntry.fflags : y.fflags = x.fflags := by rw [h]

end

/-! #### `State.finish` -/

/-- The strand with flags ORed into FFLAGS (R60). -/
def Strand.raise (x : Strand) (fl : Flags) : Strand := { x with fflags := x.fflags ||| fl }

/-- The flags raised that FRM enables (R45). -/
def Strand.enabled (x : Strand) (fl : Flags) : Flags := fl &&& x.frm.extractLsb' 8 5

/-- FP_ENABLED with the enabled flags (R45). -/
def enabledTrap (hit : Flags) : Trap := ⟨causeFpEnabled, 0, 0, hit.setWidth 48⟩

theorem State.finish_of_quiet {s : State} {fl : Flags} (h : s.me.enabled fl = 0) :
    s.finish fl = s.setMe (s.me.raise fl).retire := by
  unfold State.finish
  dsimp only
  rw [State.me_setMe]
  exact (if_pos h).trans (s.retire_setMe _)

theorem State.finish_of_enabled {s : State} {fl : Flags} (h : s.me.enabled fl ≠ 0) :
    s.finish fl = (s.setMe (s.me.raise fl)).trapAfter (enabledTrap (s.me.enabled fl)) := by
  unfold State.finish
  dsimp only
  rw [State.me_setMe]
  exact if_neg h

/-- Outside a frame FP_ENABLED is taken at the instruction itself, inside one behind it (R45, R117). -/
theorem State.trapAfter_eq (s : State) (t : Trap) :
    s.trapAfter t = if s.me.frame = none then s.trap t else s.retire.trap t := by
  unfold State.trapAfter
  cases s.me.frame <;> rfl

/-- Of the running strand a completion with flags changes FFLAGS and what a trap entry or the next word does. -/
theorem State.finish_onlyEntry (s : State) (fl : Flags) : (s.me.raise fl).OnlyEntry (s.finish fl).me := by
  by_cases h : s.me.enabled fl = 0
  · rw [State.finish_of_quiet h, State.me_setMe]
    exact Strand.onlyEntry_retire _
  · rw [State.finish_of_enabled h, State.trapAfter_eq]
    split
    · rw [State.trap_me, State.me_setMe]
      exact Strand.onlyEntry_enter ..
    · rw [State.trap_me, State.me_retire, State.me_setMe]
      exact (Strand.onlyEntry_retire _).trans (Strand.onlyEntry_enter ..)

@[simp] theorem State.finish_cur (s : State) (fl : Flags) : (s.finish fl).cur = s.cur := by
  unfold State.finish State.trapAfter
  dsimp only
  repeat' split
  all_goals simp [State.retire_only]

@[simp] theorem State.finish_cores (s : State) (fl : Flags) : (s.finish fl).cores = s.cores := by
  unfold State.finish State.trapAfter
  dsimp only
  repeat' split
  all_goals simp

theorem State.finish_strand_ne (s : State) (fl : Flags) {sid : Nat} (h : sid ≠ s.cur) :
    (s.finish fl).strand sid = s.strand sid := by
  by_cases he : s.me.enabled fl = 0
  · rw [State.finish_of_quiet he, State.strand_setMe_ne _ _ h]
  · rw [State.finish_of_enabled he, State.trapAfter_eq]
    split
    · exact (State.trap_strand_ne (s.setMe _) _ h).trans (s.strand_setMe_ne _ h)
    · rw [State.retire_setMe]
      exact (State.trap_strand_ne (s.setMe _) _ h).trans (s.strand_setMe_ne _ h)

/-- Without an enabled flag only FFLAGS and the place of control change. -/
theorem Strand.onlyGFlags_raise_retire (x : Strand) (fl : Flags) : x.OnlyGFlags 0 (x.raise fl).retire := by
  obtain ⟨pc, f, h⟩ := (x.raise fl).retire_place
  rw [h]
  exact ⟨rfl, fun _ _ => rfl, by simp only [Strand.raise]; ext i; simp +contextual⟩

theorem State.finish_me_of_enabled {s : State} {fl : Flags} (h : s.me.enabled fl ≠ 0) (hf : s.me.frame = none) :
    (s.finish fl).me = (s.me.raise fl).enter (enabledTrap (s.me.enabled fl)) := by
  have hfr : (s.setMe (s.me.raise fl)).me.frame = none := by rw [State.me_setMe]; exact hf
  rw [State.finish_of_enabled h, State.trapAfter_eq, if_pos hfr, State.trap_me, State.me_setMe]

end Sys2Proof.Machine

open Sys2Proof.Machine in
/-- Settles O8: a completion with flags is `State.finish`, quiet (`finish_of_quiet`) or trapping (`finish_of_enabled`). -/
theorem flagDelivery : Obligations.FlagDelivery := by
  intro s fl t
  have hkept := s.finish_onlyEntry fl
  refine ⟨hkept.fflags, hkept.g, (s.finish_cur fl).symm, fun _ => s.finish_strand_ne fl, s.finish_mem fl,
    s.finish_cores fl, fun h => ?_, fun h hf => ?_⟩
  · have ht : t = s.setMe (s.me.raise fl).retire := State.finish_of_quiet h
    rw [ht, State.me_setMe]
    exact ⟨s.onlyRunning_setMe _, s.me.onlyGFlags_raise_retire fl⟩
  · have ht : t.me = _ := State.finish_me_of_enabled h hf
    rw [ht]
    refine ⟨rfl, rfl, ?_⟩
    change frameInfo s.me.frame ++ (s.me.enabled fl).setWidth 48 = (s.me.enabled fl).setWidth 64
    rw [hf]
    have hlow := (s.me.enabled fl).isLt
    exact BitVec.eq_of_toNat_eq (by rw [frameInfo, BitVec.toNat_append]; simp; omega)

open Sys2Proof.Machine in
/-- Settles O3: both replace the running strand and nothing else (`State.onlyRunning_setMe`). -/
theorem resultAndJumpFrames : Obligations.ResultAndJumpFrames := by
  refine ⟨?_, ?_⟩
  · intro s d v t
    have ht : t = s.setMe (s.me.setG d v).retire := s.writeG_only d v
    have hme : t.me = (s.me.setG d v).retire := s.me_writeG d v
    refine ⟨ht ▸ s.onlyRunning_setMe _, hme ▸ s.me.onlyG_setG_retire d v, ?_, rfl, ?_, fun x => rfl, fun hf => ?_⟩
    · rw [hme, Strand.retire_getG, Strand.getG_setG_self]
    · rw [hme, Strand.retire_wait]
    · have hf' : (s.me.setG d v).frame = none := by rw [Strand.setG_only, hf]
      rw [hme, Strand.retire_word hf', Strand.setG_only]
      exact ⟨rfl, hf⟩
  · intro s target t
    have hme : t.me = _ := s.me_jump target
    rw [hme]
    exact ⟨s.onlyRunning_setMe _, rfl, rfl, rfl, fun _ => rfl⟩
end

section
/-! ### O7: scalar floating point (R45, R128 to R130) -/
namespace Sys2Proof.Machine

/-! #### Instructions that round -/

theorem fpRounding_of_mode {s : State} {mode : RMode} (h : s.scalarMode = some mode) (w : InstrWord) (d : BitVec 5)
    (f : RMode → Nat × Flags) : fpRounding w d f s = .next (s.fpNext d (f mode)) := by
  rw [fpRounding, h]
  rfl

theorem fpRounding_of_no_mode {s : State} (h : s.scalarMode = none) (w : InstrWord) (d : BitVec 5)
    (f : RMode → Nat × Flags) : fpRounding w d f s = .next (s.trap (wordTrap causeIllegal w)) := by
  rw [fpRounding, h]

/-- R45: the codes from 5 on name no mode. -/
theorem rmodeOf_eq_none {frm : Nat} (h : 5 ≤ frm) : rmodeOf frm = none := by
  obtain ⟨k, rfl⟩ := Nat.exists_eq_add_of_le' h
  rfl

theorem floatingResultsRoundOnce : Claims.FloatingResultsRoundOnce := by
  intro s d a b c f sf mode h
  have round := fpRounding_of_mode h
  exact ⟨round .., round .., round .., round .., round .., round .., round .., round .., round .., round .., round ..,
    round .., round .., round ..⟩

theorem reservedRoundingModeTraps : Claims.ReservedRoundingModeTraps := by
  intro s d a b c f sf h i hi w hw
  have trap := fpRounding_of_no_mode (s := s) (rmodeOf_eq_none h)
  simp only [List.mem_cons, List.not_mem_nil, or_false] at hi
  obtain rfl | rfl | rfl | rfl | rfl | rfl | rfl | rfl | rfl | rfl | rfl | rfl | rfl | rfl := hi <;>
    (cases hw; exact trap ..)

/-! #### Instructions that never round -/

theorem State.fbitsOf_lt (s : State) (fm : FFmt) (a : BitVec 5) : s.fbitsOf fm a < 2 ^ fm.width :=
  Nat.mod_lt _ (Nat.two_pow_pos _)

/-- The sign bit of a pattern of the format. -/
theorem FFmt.sign_lt_two (fm : FFmt) {x : Nat} (h : x < 2 ^ fm.width) : x / 2 ^ (fm.width - 1) < 2 := by
  have hw : 2 ^ fm.width = 2 ^ (fm.width - 1) * 2 := by cases fm <;> rfl
  exact Nat.div_lt_of_lt_mul (hw ▸ h)

/-- R129: the sign that the result takes, as the multiple of the sign bit's weight. -/
theorem signInject_eq {fm : FFmt} {x y : Nat} (hx : x < 2 ^ fm.width) (hy : y < 2 ^ fm.width) {pick : Bool → Bool → Bool}
    {sign : Nat → Nat → Nat} (h : ∀ m < 2, ∀ n < 2, (if pick (m == 1) (n == 1) then 1 else 0) = sign m n) :
    signInject pick fm x y =
      (x % 2 ^ (fm.width - 1) +
        sign (x / 2 ^ (fm.width - 1)) (y / 2 ^ (fm.width - 1)) * 2 ^ (fm.width - 1), 0) := by
  have hm := fm.sign_lt_two hx
  have hn := fm.sign_lt_two hy
  rw [signInject, Nat.mod_eq_of_lt hm, Nat.mod_eq_of_lt hn, ← h _ hm _ hn, ite_mul, one_mul, zero_mul]

/-- R129: the class of a value among the ten rows of the table. -/
theorem classBit_spec (fm : FFmt) (p : Nat) :
    classBit fm p < 10 ∧ (8 ≤ classBit fm p ↔ (fm.decode p).isNan = true) ∧
      ((classBit fm p = 0 ∨ classBit fm p = 7) ↔ (fm.decode p).isInf = true) ∧
      (classBit fm p ≤ 3 → (fm.decode p).sign = true) ∧ (4 ≤ classBit fm p → (fm.decode p).sign = false) := by
  unfold classBit
  split
  · next sig h => cases sig <;> simp [h, FVal.isNan, FVal.isInf, FVal.sign]
  · next neg h => cases neg <;> simp [h, FVal.isNan, FVal.isInf, FVal.sign]
  · next neg m e h =>
    rw [h]
    simp only [FVal.isNan, FVal.isInf, FVal.sign]
    cases neg <;> simp only [Bool.false_eq_true, if_true, if_false] <;> split_ifs <;> simp

theorem exactFloatingInstructions : Claims.ExactFloatingInstructions := by
  intro s d a b f fm p q x y sgn
  have hp := s.fbitsOf_lt fm a
  have hq := s.fbitsOf_lt fm b
  have exact_ (r r' : Nat × Flags) (h : r = r') : fpExact d r s = .next (s.fpNext d r') := h ▸ rfl
  refine ⟨rfl, rfl, ?_, ?_, ?_, rfl, rfl, rfl, _, (classBit_spec fm p).1, rfl, (classBit_spec fm p).2⟩
  · exact exact_ _ _ (signInject_eq hp hq (sign := fun _ n => n) (by decide))
  · exact exact_ _ _ (signInject_eq hp hq (sign := fun _ n => 1 - n) (by decide))
  · exact exact_ _ _ (signInject_eq hp hq (sign := fun m n => (m + n) % 2) (by decide))

end Sys2Proof.Machine

open Sys2Proof.Machine in
/-- Settles O7: the instructions that round by what FRM names, the exact ones by their bits and classes. -/
theorem floatingInstructionsComplete : Obligations.FloatingInstructionsComplete :=
  ⟨floatingResultsRoundOnce, reservedRoundingModeTraps, exactFloatingInstructions⟩
end

section
/-! ### O19: CSR instructions (R140) -/
namespace Sys2Proof.Machine

/-! #### Which accesses are denied -/

section
variable (s : State) {n : Nat}

theorem State.csrDenied_service (h : isServiceCsr n = true) (mode : Mode) (write : Bool) :
    s.csrDenied n mode write = some causePrivileged := by
  have hn : 0x2000 ≤ n ∧ n < 0x3000 := by
    have hall : ∀ k ∈ [0x2000, 0x2001, 0x2002, 0x2010, 0x2020, 0x2021, 0x2030, 0x2031, 0x2032],
        0x2000 ≤ k ∧ k < 0x3000 := by decide
    exact hall n (List.contains_iff_mem.mp h)
  rw [State.csrDenied, if_pos hn, if_pos h]

theorem State.csrDenied_super_of_user (h0 : 0x1000 ≤ n) (h1 : n < 0x2000) (hr : (s.superCsr s.cur n).isSome = true)
    (write : Bool) : s.csrDenied n .u write = some causePrivileged := by
  obtain ⟨v, hv⟩ := Option.isSome_iff_exists.mp hr
  have hread : s.csrRead s.cur n = some v := by
    rw [State.csrRead, if_neg (Nat.not_lt.mpr h0), if_pos h1, hv]
  simp [State.csrDenied, hread, h0, Nat.not_le.mpr h1, show ¬ 0x3000 ≤ n by omega]

theorem State.csrDenied_unassigned (h : isServiceCsr n = false) (hr : s.csrRead s.cur n = none) (mode : Mode)
    (write : Bool) : s.csrDenied n mode write = some causeIllegal := by
  rw [State.csrDenied, h, hr]
  exact ite_self _

theorem State.csrDenied_identity (h : 0x3000 ≤ n) (mode : Mode) : s.csrDenied n mode true = some causeIllegal := by
  rw [State.csrDenied, if_neg (by omega)]
  cases s.csrRead s.cur n with
  | none => rfl
  | some v => exact if_pos h

theorem State.csrDenied_readOnly (h : n < 0x1000) (ha : userAccess n = .ro) (mode : Mode) :
    s.csrDenied n mode true = some causeIllegal := by
  rw [State.csrDenied, if_neg (by omega)]
  cases s.csrRead s.cur n with
  | none => rfl
  | some v => simp [ha, show ¬ 0x3000 ≤ n by omega, show ¬ 0x1000 ≤ n by omega]

/-- R43: the VHWE counts stand from 0x0100 on. -/
theorem State.csrRead_vhwe (sid : Nat) (h0 : 0x0100 ≤ n) (h1 : n < 0x0120) : (s.csrRead sid n).isSome = true := by
  rw [State.csrRead, if_pos (by omega)]
  rw [State.userCsr, dif_pos ⟨h0, h1⟩]
  · rfl
  all_goals omega

theorem State.csrDenied_length_of_user (h : n = 0x0010 ∨ (0x0100 ≤ n ∧ n < 0x0120)) :
    s.csrDenied n .u true = some causePrivileged := by
  have hread : (s.csrRead s.cur n).isSome = true := by
    obtain rfl | ⟨h0, h1⟩ := h
    · rfl
    · exact s.csrRead_vhwe s.cur h0 h1
  obtain ⟨v, hv⟩ := Option.isSome_iff_exists.mp hread
  have ha : userAccess n = .rwS := by
    rw [userAccess, if_neg (by omega), if_pos h]
  simp [State.csrDenied, hv, ha, show ¬ 0x3000 ≤ n by omega, show ¬ 0x1000 ≤ n by omega, show ¬ 0x2000 ≤ n by omega]

end

/-! #### The instructions -/

section
variable {s : State} {op : BitVec 2} {d a : BitVec 5} {n : BitVec 14}

theorem csrOp_of_denied {f : Option (Word → Word → Word)} {cause : BitVec 8}
    (h : s.csrDenied n.toNat s.me.mode f.isSome = some cause) :
    csrOp op f d a n s = .next (s.trap (wordTrap cause (encRri 0x1F d a (op ++ n)))) := by
  rw [csrOp, h]

theorem csrOp_of_read {old : Word} (hd : s.csrDenied n.toNat s.me.mode false = none)
    (hw : s.csrMustWait n.toNat = false) (ho : s.csrRead s.cur n.toNat = some old) :
    csrOp op none d a n s = .next (s.writeG d old) := by
  simp [csrOp, hd, hw, ho]

theorem csrOp_of_stored {f : Word → Word → Word} {old : Word} {s1 : State}
    (hd : s.csrDenied n.toNat s.me.mode true = none) (hw : s.csrMustWait n.toNat = false)
    (ho : s.csrRead s.cur n.toNat = some old) (hs : s.csrStore s.cur n.toNat (f old (s.g a)) = .done s1) :
    csrOp op (some f) d a n s = .next (s1.writeG d old) := by
  simp [csrOp, hd, hw, ho, hs]

/-- A denied access traps with the instruction's word, whichever instruction makes it. -/
theorem exec_csr_of_denied {i : Instr} {w : InstrWord} {cause : BitVec 8} (hw : encode i = some w)
    (hi : i = .csrrd d n ∧ s.csrDenied n.toNat s.me.mode false = some cause ∨
      i ∈ [Instr.csrrw d a n, .csrrs d a n, .csrrc d a n] ∧ s.csrDenied n.toNat s.me.mode true = some cause) :
    exec i s = .next (s.trap (wordTrap cause w)) := by
  simp only [List.mem_cons, List.not_mem_nil, or_false] at hi
  obtain ⟨rfl, h⟩ | ⟨rfl | rfl | rfl, h⟩ := hi <;> (cases hw; exact csrOp_of_denied h)

end

theorem csrInstructionsComplete : Claims.CsrInstructionsComplete := by
  intro s s1 d a n old ho hw
  exact ⟨fun hd => csrOp_of_read hd hw ho,
    fun hd => ⟨csrOp_of_stored (f := fun _ v => v) hd hw ho, csrOp_of_stored (f := fun old v => old ||| v) hd hw ho,
      csrOp_of_stored (f := fun old v => old &&& ~~~v) hd hw ho⟩⟩

/-- R44: the user CSRs that no instruction writes. -/
theorem userAccess_readOnly : ∀ n ∈ [0x0011, 0x0013, 0x0020, 0x0021, 0x0032, 0x0040, 0x0050, 0x0051, 0x0052, 0x0060, 0x0061,
    0x0070, 0x0071, 0x0080, 0x0081, 0x0082, 0x0083, 0x0090, 0x00A0, 0x00A1, 0x00A2], n < 0x1000 ∧ userAccess n = .ro := by
  decide

theorem csrAccessTraps : Claims.CsrAccessTraps := by
  intro s d a n writes
  refine ⟨fun i hi w hw => ?_, fun i hi w hw => ?_⟩
  · have denied {cause : BitVec 8} (h : ∀ write, s.csrDenied n.toNat s.me.mode write = some cause) :
        exec i s = .next (s.trap (wordTrap cause w)) :=
      exec_csr_of_denied hw ((List.mem_cons.mp hi).imp (⟨·, h false⟩) (⟨·, h true⟩))
    exact ⟨fun h => denied (s.csrDenied_service h s.me.mode),
      fun h0 h1 hr hm => denied (hm ▸ s.csrDenied_super_of_user h0 h1 hr),
      fun h hr => denied (s.csrDenied_unassigned h hr s.me.mode)⟩
  · have denied {cause : BitVec 8} (h : s.csrDenied n.toNat s.me.mode true = some cause) :
        exec i s = .next (s.trap (wordTrap cause w)) := exec_csr_of_denied hw (.inr ⟨hi, h⟩)
    refine ⟨fun h => denied (s.csrDenied_identity h s.me.mode), fun h => ?_,
      fun h hm => denied (hm ▸ s.csrDenied_length_of_user h)⟩
    obtain ⟨hlt, hro⟩ := userAccess_readOnly _ h
    exact denied (s.csrDenied_readOnly hlt hro s.me.mode)

end Sys2Proof.Machine

open Sys2Proof.Machine in
/-- Settles O19: what `State.csrDenied` answers for each class of numbers, and `csrOp` by that answer. -/
theorem csrAccesses : Obligations.CsrAccesses := ⟨csrInstructionsComplete, csrAccessTraps⟩
end

section
/-! ### O20: what a CSR write leaves (R41, R43, R44, R283, R284, R293) -/
namespace Sys2Proof.Machine

/-- R283: the fields of STATUS stand where they are put. -/
theorem statusWord_fields (mcx phdlr pie ie : Bool) (pmode mode : BitVec 2) :
    let st := statusWord mcx phdlr pie ie pmode mode
    st.extractLsb' 0 2 = mode ∧ st.getLsbD 7 = phdlr ∧ st.extractLsb' 2 2 = pmode ∧ st.getLsbD 4 = ie ∧
      st.getLsbD 5 = pie ∧ st.getLsbD 8 = mcx ∧ st.getLsbD 6 = false ∧ st.extractLsb' 9 55 = 0 := by
  revert mcx phdlr pie ie pmode mode
  decide

theorem State.csrStore_vhwe (s : State) (sid : Nat) {n : Nat} (h : n < 32) (v : Word) :
    s.csrStore sid (0x0100 + n) v = .done (s.setStrand sid ((s.strand sid).writeVhwe n v)) := by
  have hn : 0x0100 ≤ 0x0100 + n ∧ 0x0100 + n < 0x0120 := by omega
  rw [State.csrStore, if_pos hn, Nat.add_sub_cancel_left] <;> omega

theorem execCsrWrite_of_stored {s t : State} {csr : BitVec 14} {v : Word} (h0 : csr ≠ 0x2030) (h1 : csr ≠ 0x2031)
    (hd : s.csrDenied csr.toNat .s true = none) (hw : s.csrMustWait csr.toNat = false)
    (hs : s.csrStore s.cur csr.toNat v = .done t) : execCsrWrite csr v s = .next t := by
  have h0' : csr.toNat ≠ 0x2030 := fun h => h0 (BitVec.eq_of_toNat_eq h)
  have h1' : csr.toNat ≠ 0x2031 := fun h => h1 (BitVec.eq_of_toNat_eq h)
  simp [execCsrWrite, h0', h1', hd, hw, hs, WriteEffect.state]

theorem execTileOwner_of_quiet {s : State} (h : s.tilesQuiet (coreOf s.cur) = true) (v : Word) :
    execTileOwner v s = .next (s.setMyCore { s.myCore with tileOwner := v.extractLsb' 0 3 }) := by
  have hs : s.csrStore s.cur 0x1010 v = .done (s.setMyCore { s.myCore with tileOwner := v.extractLsb' 0 3 }) := if_pos h
  rw [execTileOwner, hs]
  rfl

theorem accTag_written (t : BitVec 8) : (if isAccTag t then t else 0) = if t = 0x03 ∨ t = 0x11 then t else 0 := by
  revert t
  decide

theorem execAtags_of_quiet {s : State} (h : s.myCore.matrix = []) (v : Word) :
    execAtags v s = .next (s.setMyCore { s.myCore with
      accTags := Vector.ofFn (fun i => if isAccTag (byteOf v i.val) then byteOf v i.val else 0) }) := by
  have hw : s.csrMustWait 0x1013 = false := by simp [State.csrMustWait, h]
  rw [execAtags, hw]
  rfl

/-- FFLAGS as a write, a set and a clear of the low five bits leave it (R141). -/
theorem execFflags_of_quiet {s : State} (h : s.myCore.matrix = []) (v : Word) :
    execFflags 0 v s = .next (s.setMe { s.me with fflags := v.extractLsb' 0 5 }) ∧
    execFflags 1 v s = .next (s.setMe { s.me with fflags := s.me.fflags ||| v.extractLsb' 0 5 }) ∧
    execFflags 2 v s = .next (s.setMe { s.me with fflags := s.me.fflags &&& ~~~(v.extractLsb' 0 5) }) := by
  have hw : s.csrMustWait 1 = false := by simp [State.csrMustWait, h]
  have hor : (s.me.fflags.setWidth 64 ||| v).extractLsb' 0 5 = s.me.fflags ||| v.extractLsb' 0 5 := by
    ext i hi
    simp [BitVec.getLsbD_eq_getElem, hi, show i < 64 by omega]
  have hclear : (s.me.fflags.setWidth 64 &&& ~~~v).extractLsb' 0 5 = s.me.fflags &&& ~~~(v.extractLsb' 0 5) := by
    ext i hi
    simp [BitVec.getLsbD_eq_getElem, hi, show i < 64 by omega]
  refine ⟨?_, ?_, ?_⟩
  all_goals rw [execFflags, hw, if_neg Bool.false_ne_true]
  · rfl
  · rw [← hor]
    rfl
  · rw [← hclear]
    rfl

theorem mapGet_of_not_listed {α : Type} {m : Map α} {k : Nat} {d : α} (h : k ∉ m.map Prod.fst) : mapGet m k d = d := by
  induction m with
  | nil => rfl
  | cons x t ih =>
    rw [List.map_cons, List.mem_cons, not_or] at h
    obtain ⟨hx, ht⟩ := h
    rw [mapGet, if_neg (Ne.symm hx), ih ht]

/-- R284: a strand that nothing has written is in domain 0 with the greatest STEEP_AGE of reset. -/
theorem State.strand_of_not_listed {s : State} {sid : Nat} (h : sid ∉ s.strandIds) : s.strand sid = Strand.reset := by
  exact mapGet_of_not_listed h

theorem State.mem_agedStrands {s : State} {domain : BitVec 12} {limit sid : Nat} (he : strandExists sid = true)
    (hd : (s.strand sid).domain = domain) : sid ∈ s.agedStrands domain limit ↔ limit < (s.strand sid).steepAge := by
  unfold State.agedStrands
  rw [List.mem_filter, hd, beq_self_eq_true, Bool.true_and, decide_eq_true_iff, and_iff_right_iff_imp]
  intro hlt
  split
  · simpa [he] using (by simpa [strandExists] using he : sid < 6144 ∧ _).1
  · next h =>
    by_contra hl
    have hreset := State.strand_of_not_listed hl
    rw [hreset] at hd hlt
    exact h ⟨hd.symm, hlt⟩

/-- Lowering STEEP_AGE of the listed strands, one after the other. -/
theorem State.foldl_steepAge (limit : Nat) (l : List Nat) (s : State) (sid : Nat) :
    ((l.foldl (fun s i => s.setStrand i { s.strand i with steepAge := limit }) s).strand sid).steepAge =
      if sid ∈ l then limit else (s.strand sid).steepAge := by
  induction l generalizing s with
  | nil => rfl
  | cons i t ih =>
    rw [List.foldl_cons, ih]
    by_cases hi : sid = i
    · simp [hi]
    · simp [hi, State.strand_setStrand_ne _ _ hi]

theorem State.foldl_setStrand_domains (f : State → Nat → Strand) (l : List Nat) (s : State) :
    (l.foldl (fun s i => s.setStrand i (f s i)) s).domains = s.domains := by
  induction l generalizing s with
  | nil => rfl
  | cons i t ih => exact ih _

/-- R284: no STEEP_AGE of the domain stays above its new limit. -/
theorem State.writeAgeMax_steepAge {s : State} {domain : BitVec 12} {sid : Nat} (he : strandExists sid = true)
    (hd : (s.strand sid).domain = domain) (v : Word) : ((s.writeAgeMax domain v).strand sid).steepAge =
      min (s.strand sid).steepAge (max (v.toNat % 65536) 32) := by
  rw [State.writeAgeMax, State.foldl_steepAge]
  simp only [State.mem_agedStrands he hd]
  split
  · next h => rw [Nat.min_eq_right (Nat.le_of_lt h)]
  · next h => rw [Nat.min_eq_left (Nat.not_lt.mp h)]; rfl

theorem State.writeAgeMax_domain (s : State) (domain : BitVec 12) (v : Word) :
    ((s.writeAgeMax domain v).domainOf domain).steepAgeMax = max (v.toNat % 65536) 32 := by
  rw [State.writeAgeMax, State.domainOf, State.foldl_setStrand_domains, ← State.domainOf, State.domainOf_setDomain_same]

/-- R43: the VHWE of one register is written. -/
theorem Strand.writeVhwe_eq (x : Strand) (n : BitVec 5) (v : Word) : x.writeVhwe n.toNat v =
    x.setV n { x.getV n with vhwe := min v.toNat 2048, progress := min v.toNat 2048 } := by
  rw [Strand.writeVhwe, dif_pos n.isLt]
  rfl

@[simp] theorem Strand.getV_setV_same (x : Strand) (n : BitVec 5) (r : VReg) : (x.setV n r).getV n = r :=
  Vector.getElem_set_self _

theorem Strand.getV_setV_ne (x : Strand) {m n : BitVec 5} (r : VReg) (h : m ≠ n) : (x.setV n r).getV m = x.getV m :=
  Vector.getElem_set_ne n.isLt m.isLt fun e => h (BitVec.eq_of_toNat_eq e.symm)

end Sys2Proof.Machine

open Sys2Proof.Machine in
/-- Settles O20: `State.csrStore` at each number, the limit of STEEP_AGE strand by strand. -/
theorem csrWriteRules : Obligations.CsrWriteRules := by
  intro s v n x core
  refine ⟨rfl, ?_, ⟨_, rfl, ?_⟩, ?_, ?_, ?_, ?_, ?_, fun h => execTileOwner_of_quiet h v, ⟨_, rfl, ?_⟩, fun h => ?_, fun h => ?_,
    ⟨_, rfl, ?_⟩⟩
  · have hs : s.csrStore s.cur (0x0100 + n.toNat) v = .done (s.setMe (x.writeVhwe n.toNat v)) := s.csrStore_vhwe s.cur n.isLt v
    refine ⟨s.setMe (x.writeVhwe n.toNat v), ?_, ?_⟩
    · rw [exec_vhwe, execVhwe, hs]
      rfl
    · rw [State.me_setMe, Strand.writeVhwe_eq]
      exact ⟨rfl, x.getV_setV_same n _, fun m hm => x.getV_setV_ne _ hm⟩
  · obtain ⟨hmode, hphdlr, hpmode, hie, hpie, hmcx, hrsv, htop⟩ := statusWord_fields (x.status.getLsbD 8 && v.getLsbD 8)
      (x.status.getLsbD 7) (v.getLsbD 5) (v.getLsbD 4) (v.extractLsb' 2 2) (x.status.extractLsb' 0 2)
    exact ⟨hmode, hphdlr, hpmode, hie, hpie, hmcx, hrsv, htop⟩
  · exact execCsrWrite_of_stored (csr := 0x0030) (by decide) (by decide) rfl rfl rfl
  · exact execCsrWrite_of_stored (csr := 0x0002) (by decide) (by decide) rfl rfl rfl
  · exact execCsrWrite_of_stored (csr := 0x1006) (by decide) (by decide) rfl rfl rfl
  · exact execCsrWrite_of_stored (csr := 0x1002) (by decide) (by decide) rfl rfl rfl
  · exact execCsrWrite_of_stored (csr := 0x1051) (by decide) (by decide) rfl rfl rfl
  · intro i hi
    exact Vector.getElem_ofFn hi
  · exact ⟨_, execAtags_of_quiet h v, fun i hi => (Vector.getElem_ofFn hi).trans (accTag_written (byteOf v i))⟩
  · exact execFflags_of_quiet h v
  · exact ⟨s.writeAgeMax_domain x.domain v, fun sid he hd => State.writeAgeMax_steepAge he hd v⟩
end

section
/-! ### O50: what reset leaves (R32, R44, R284, R370) -/
namespace Sys2Proof.Machine

/-- R32: every register of a reset strand is clear or DEAD. -/
theorem Strand.reset_registers (n : BitVec 5) :
    Strand.reset.getG n = 0 ∧ (Strand.reset.getV n).vtype = 0 ∧ (Strand.reset.getV n).vhwe = 0 := by
  have hv : Strand.reset.getV n = VReg.reset := Vector.getElem_replicate n.isLt
  have hg : Strand.reset.getG n = 0 := by
    rw [Strand.getG]
    split
    · rfl
    · exact Vector.getElem_replicate n.isLt
  rw [hv]
  exact ⟨hg, rfl, rfl⟩

/-- R16, R198: no tile and no accumulator of a reset core has a tag, and its semaphores are 0. -/
theorem Core.reset_tags : (∀ i (h : i < 8), Core.reset.sems[i] = 0 ∧ Core.reset.tileTags[i] = 0) ∧
    ∀ i (h : i < 4), Core.reset.accTags[i] = 0 :=
  ⟨fun _ h => ⟨Vector.getElem_replicate h, Vector.getElem_replicate h⟩, fun _ h => Vector.getElem_replicate h⟩

/-- A byte of a memory from which some keys are taken. -/
theorem memGet_filter (q : Nat → Bool) (m : List Host.Cell) (a : Nat) :
    memGet (m.filter (fun c => q c.1)) a = if q a then memGet m a else 0 := by
  induction m with
  | nil => simp [memGet]
  | cons c t ih =>
    obtain ⟨k, b⟩ := c
    by_cases hk : k = a
    · subst hk
      cases hq : q k <;> simp [memGet, hq, ih]
    · cases hq : q k <;> simp [memGet, hq, hk, ih]

end Sys2Proof.Machine

open Sys2Proof.Machine in
/-- Settles O50: nothing is listed after reset, so every strand and core reads as its reset value; RESET keeps of the memory
the host's keys alone (`memGet_filter`). -/
theorem resetLeaves : Obligations.ResetLeaves := by
  have hie : Strand.reset.ie = false := by decide
  refine ⟨fun sid => ⟨rfl, rfl, rfl, hie, rfl, rfl, rfl, rfl, rfl, rfl, rfl, rfl, rfl, rfl, rfl, rfl, rfl, rfl,
      Strand.reset_registers⟩,
    fun core => ⟨rfl, rfl, rfl, rfl, rfl, rfl, rfl, rfl, rfl, Core.reset_tags⟩, fun a => rfl, rfl, rfl, rfl, rfl,
    fun s => ⟨_, rfl, rfl, rfl, rfl, fun sid => rfl, fun core => rfl, fun a => ?_⟩⟩
  exact (memGet_filter (fun k => decide (hostBase ≤ k)) s.mem a).trans (by simp only [decide_eq_true_eq]; rfl)
end

section
/-! ### The vector layer, first part: elements of registers (R35 to R42)

#### A field of a bit vector -/
namespace Sys2Proof.Machine

/-- A bit vector with the `w` bits from `k` on replaced by a number below 2^w. -/
def putField {N : Nat} (bits : BitVec N) (w k v : Nat) : BitVec N :=
  (bits &&& ~~~(BitVec.ofNat N (2 ^ w - 1) <<< k)) ||| (BitVec.ofNat N v <<< k)

theorem setElemBits_eq_putField (bits : BitVec 8192) (w i x : Nat) :
    setElemBits bits w i x = putField bits w (w * i) (x % 2 ^ w) := rfl

theorem setScale_eq_putField (e : BitVec 2048) (block e0 e1 : Nat) :
    setScale e block e0 e1 = putField e 16 (16 * block) (e0 + 256 * e1) := rfl

theorem getLsbD_putField {N : Nat} (bits : BitVec N) {w k v i : Nat} (hv : v < 2 ^ w) (hi : i < N) :
    (putField bits w k v).getLsbD i = if k ≤ i ∧ i < k + w then v.testBit (i - k) else bits.getLsbD i := by
  have hones : (2 ^ w - 1).testBit (i - k) = decide (i - k < w) := Nat.testBit_two_pow_sub_one w (i - k)
  have hik : i - k < N := by omega
  simp only [putField, BitVec.getLsbD_or, BitVec.getLsbD_and, BitVec.getLsbD_not, BitVec.getLsbD_shiftLeft,
    BitVec.getLsbD_ofNat, hones, hi, hik, decide_true, Bool.true_and]
  by_cases hk : k ≤ i
  · by_cases hw : i < k + w
    · simp [hk, hw, Nat.not_lt.mpr hk, show i - k < w by omega]
    · have hzero : v.testBit (i - k) = false :=
        Nat.testBit_lt_two_pow (Nat.lt_of_lt_of_le hv (Nat.pow_le_pow_right (by omega) (by omega)))
      simp [hw, hzero, show ¬ i - k < w by omega]
  · simp [hk, Nat.lt_of_not_le hk]

/-- Bits within the field. -/
theorem extractLsb'_putField_inside {N : Nat} (bits : BitVec N) {w k v a n : Nat} (hv : v < 2 ^ w) (hN : k + w ≤ N)
    (ha : k ≤ a) (hn : a + n ≤ k + w) : ((putField bits w k v).extractLsb' a n).toNat = v / 2 ^ (a - k) % 2 ^ n := by
  refine Nat.eq_of_testBit_eq fun i => ?_
  rw [BitVec.testBit_toNat, BitVec.getLsbD_extractLsb', Nat.testBit_mod_two_pow, Nat.testBit_div_two_pow]
  by_cases hi : i < n
  · rw [getLsbD_putField bits hv (by omega), if_pos (by omega), show a + i - k = i + (a - k) by omega]
  · simp [hi]

/-- Bits beside the field. -/
theorem extractLsb'_putField_outside {N : Nat} (bits : BitVec N) {w k v a n : Nat} (hv : v < 2 ^ w) (hN : a + n ≤ N)
    (h : a + n ≤ k ∨ k + w ≤ a) : (putField bits w k v).extractLsb' a n = bits.extractLsb' a n := by
  refine BitVec.eq_of_getLsbD_eq fun i hi => ?_
  rw [BitVec.getLsbD_extractLsb', BitVec.getLsbD_extractLsb', getLsbD_putField bits hv (by omega), if_neg (by omega)]

/-! #### Elements of a register image -/

/-- An element below VLMAX lies in the register (R36). -/
theorem Elem.fits_of_lt_vlmax {t : Elem} {k : Nat} (h : k < t.vlmax) : t.width * k + t.width ≤ 8192 := by
  unfold Elem.vlmax at h
  split at h
  · omega
  · calc t.width * k + t.width = t.width * (k + 1) := (Nat.mul_succ ..).symm
      _ ≤ t.width * (8192 / t.width) := Nat.mul_le_mul_left _ h
      _ ≤ 8192 := Nat.mul_div_le ..

theorem elemBits_setElemBits_same (bits : BitVec 8192) {w i : Nat} (x : Nat) (h : w * i + w ≤ 8192) :
    elemBits (setElemBits bits w i x) w i = x % 2 ^ w := by
  rw [elemBits, setElemBits_eq_putField, extractLsb'_putField_inside bits (Nat.mod_lt _ (Nat.two_pow_pos w)) h le_rfl le_rfl,
    Nat.sub_self, Nat.pow_zero, Nat.div_one, Nat.mod_mod]

theorem elemBits_setElemBits_ne (bits : BitVec 8192) {w i j : Nat} (x : Nat) (h : w * j + w ≤ 8192) (hij : j ≠ i) :
    elemBits (setElemBits bits w i x) w j = elemBits bits w j := by
  have hsep : w * j + w ≤ w * i ∨ w * i + w ≤ w * j := by
    rcases Nat.lt_or_gt_of_ne hij with hlt | hlt
    · exact .inl (Nat.mul_succ w j ▸ Nat.mul_le_mul_left w hlt)
    · exact .inr (Nat.mul_succ w i ▸ Nat.mul_le_mul_left w hlt)
  rw [elemBits, setElemBits_eq_putField, extractLsb'_putField_outside bits (Nat.mod_lt _ (Nat.two_pow_pos w)) h hsep, elemBits]

/-! #### Elements written -/

@[simp] theorem VReg.put_elemType (r : VReg) (i x : Nat) : (r.put i x).elemType = r.elemType := rfl

@[simp] theorem VReg.putAll_vtype (r : VReg) (l : List (Nat × Nat)) : (r.putAll l).vtype = r.vtype := by
  induction l generalizing r with
  | nil => rfl
  | cons q t ih => exact ih (r.put q.1 q.2)

@[simp] theorem VReg.putAll_elemType (r : VReg) (l : List (Nat × Nat)) : (r.putAll l).elemType = r.elemType := by
  rw [VReg.elemType, VReg.putAll_vtype, VReg.elemType]

theorem VReg.raw_put (r : VReg) (i x : Nat) {k : Nat} (hk : k < r.elemType.vlmax) :
    (r.put i x).raw k = if k = i then x % 2 ^ r.elemType.width else r.raw k := by
  rw [VReg.raw, VReg.put_elemType]
  split
  · next h => subst h; exact elemBits_setElemBits_same r.bits x (Elem.fits_of_lt_vlmax hk)
  · next h => exact elemBits_setElemBits_ne r.bits x (Elem.fits_of_lt_vlmax hk) h

/-- Elements written one after the other, each index with one value only: what each holds. -/
theorem VReg.raw_putAll {f : Nat → Nat} {l : List (Nat × Nat)} (hf : ∀ q ∈ l, q.2 = f q.1) (r : VReg) {k : Nat}
    (hk : k < r.elemType.vlmax) :
    (r.putAll l).raw k = if k ∈ l.map Prod.fst then f k % 2 ^ r.elemType.width else r.raw k := by
  induction l generalizing r with
  | nil => rfl
  | cons q t ih =>
    obtain ⟨hq, ht⟩ := List.forall_mem_cons.mp hf
    rw [show r.putAll (q :: t) = (r.put q.1 q.2).putAll t from rfl, ih ht _ (by simpa using hk), r.raw_put _ _ hk,
      VReg.put_elemType]
    simp only [List.map_cons, List.mem_cons]
    by_cases hkt : k ∈ t.map Prod.fst
    · simp [hkt]
    · by_cases hkq : k = q.1
      · simp [hkq, hq]
      · simp [hkt, hkq]

/-- The same, the writes given as a partial function on the indices. -/
theorem VReg.raw_putAll_graph {g : Nat → Option Nat} {l : List (Nat × Nat)} (hg : ∀ k v, (k, v) ∈ l ↔ g k = some v)
    (r : VReg) {k : Nat} (hk : k < r.elemType.vlmax) :
    (r.putAll l).raw k = match g k with
      | some v => v % 2 ^ r.elemType.width
      | none => r.raw k := by
  have hf : ∀ q ∈ l, q.2 = (g q.1).getD 0 := fun q hq => by rw [(hg q.1 q.2).mp hq]; rfl
  rw [VReg.raw_putAll (f := fun k => (g k).getD 0) hf r hk]
  cases h : g k with
  | some v => rw [if_pos (List.mem_map_of_mem ((hg k v).mpr h))]; rfl
  | none =>
    refine if_neg fun hm => ?_
    obtain ⟨q, hq, rfl⟩ := List.mem_map.mp hm
    exact Option.some_ne_none _ (((hg q.1 q.2).mp hq).symm.trans h)

/-! #### Registers of a strand -/

theorem Strand.setV_getV (x : Strand) (n : BitVec 5) : x.setV n (x.getV n) = x := by
  rw [Strand.setV, Strand.getV, Vector.set_getElem_self]

@[simp] theorem Strand.setV_setV (x : Strand) (n : BitVec 5) (r r' : VReg) : (x.setV n r).setV n r' = x.setV n r' := by
  rw [Strand.setV, Strand.setV, Strand.setV, Vector.set_set]

/-! #### Active elements (R34, R41) -/

theorem Strand.mem_activeFrom {x : Strand} {start : Nat} {p : BitVec 3} {k : Nat} :
    k ∈ x.activeFrom start p ↔ k < x.vl ∧ start ≤ k ∧ (x.getP p).getLsbD k = true := by
  rw [Strand.activeFrom, List.mem_filter, List.mem_range, Bool.and_eq_true, decide_eq_true_iff]

theorem Strand.active_eq_nil {x : Strand} (h : x.vl ≤ x.vstart) (p : BitVec 3) : x.active p = [] :=
  List.eq_nil_iff_forall_not_mem.mpr fun _ hk =>
    have ⟨hlt, hle, _⟩ := Strand.mem_activeFrom.mp hk
    absurd (Nat.lt_of_lt_of_le hlt h) (Nat.not_lt.mpr hle)

/-- Where an element-wise instruction begins: at VSTART, or at element 0 in majors 0x28 and 0x29 (R41, R161). -/
def Strand.firstElement (x : Strand) (whole : Bool) : Nat := if whole then 0 else x.vstart

/-- One value written at each active element, as a partial function. -/
theorem Strand.mem_active_map {α : Type} {x : Strand} {whole : Bool} {p : BitVec 3} {f : Nat → α} {k : Nat} {v : α} :
    (k, v) ∈ (x.activeFrom (x.firstElement whole) p).map (fun i => (i, f i)) ↔
      (if k < x.vl ∧ (whole = true ∨ x.vstart ≤ k) ∧ (x.getP p).getLsbD k = true then some (f k) else none) = some v := by
  have hstart : x.firstElement whole ≤ k ↔ whole = true ∨ x.vstart ≤ k := by cases whole <;> simp [Strand.firstElement]
  rw [Option.ite_none_right_eq_some, ← hstart, ← Strand.mem_activeFrom, List.mem_map]
  constructor
  · rintro ⟨i, hi, h⟩
    cases h
    exact ⟨hi, rfl⟩
  · rintro ⟨hk, h⟩
    exact ⟨k, hk, by rw [Option.some.inj h]⟩

/-! #### Flags ORed together (R60) -/

theorem foldl_or_eq (l : List Flags) (a : Flags) : l.foldl (fun a b => a ||| b) a = a ||| orFlags l := by
  rw [orFlags]
  induction l generalizing a with
  | nil => simp
  | cons b t ih => rw [List.foldl_cons, ih, List.foldl_cons, ih (0 ||| b)]; simp [BitVec.or_assoc]

@[simp] theorem orFlags_nil : orFlags [] = 0 := rfl

@[simp] theorem orFlags_cons (a : Flags) (l : List Flags) : orFlags (a :: l) = a ||| orFlags l := by
  rw [orFlags, List.foldl_cons, foldl_or_eq]; simp

/-- A flag is among the raised ones when some element raises it. -/
theorem getLsbD_orFlags (l : List Flags) (i : Nat) : (orFlags l).getLsbD i = l.any (fun f => f.getLsbD i) := by
  induction l with
  | nil => simp
  | cons f t ih => rw [orFlags_cons, BitVec.getLsbD_or, ih, List.any_cons]

/-- Only which flags occur matters, not in what order or how often. -/
theorem orFlags_congr {l l' : List Flags} (h : ∀ f, f ∈ l ↔ f ∈ l') : orFlags l = orFlags l' := by
  refine BitVec.eq_of_getLsbD_eq fun i _ => ?_
  rw [getLsbD_orFlags, getLsbD_orFlags, Bool.eq_iff_iff, List.any_eq_true, List.any_eq_true]
  simp only [h]

theorem orFlags_map_or {α : Type} (f g : α → Flags) (l : List α) :
    orFlags (l.map (fun k => f k ||| g k)) = orFlags (l.map f) ||| orFlags (l.map g) := by
  induction l with
  | nil => exact (BitVec.or_self).symm
  | cons k t ih => simp only [List.map_cons, orFlags_cons, ih]; ac_rfl

/-- A flag that some elements of a list raise. -/
theorem orFlags_map_flagIf {α : Type} (q : α → Bool) (f : Flags) (l : List α) :
    orFlags (l.map (fun k => flagIf (q k) f)) = if l.any q then f else 0 := by
  induction l with
  | nil => rfl
  | cons k t ih =>
    rw [List.map_cons, orFlags_cons, ih, List.any_cons]
    cases q k <;> cases t.any q <;> simp [flagIf]

end Sys2Proof.Machine
end

section
/-! ### The vector layer, second part: checks, delivery, completion (R37, R41, R115, R146, R147) -/
namespace Sys2Proof.Machine

/-! #### Resolution (R147) -/

theorem resolveTags_eq_dead_iff (tags : List (BitVec 8)) :
    resolveTags tags = .dead ↔ ∃ t ∈ tags, elemOf t = .dead := by
  have hany : (tags.map elemOf).any (fun t => t == .dead) = true ↔ ∃ t ∈ tags, elemOf t = .dead := by simp
  rw [← hany]
  unfold resolveTags
  dsimp only
  constructor
  · intro h
    by_contra hn
    rw [if_neg hn] at h
    repeat' split at h
    all_goals cases h
  · exact fun h => if_pos h

/-- A resolution is held up by a DEAD register alone: BF16, the tag a scalar brings, is live. -/
theorem Strand.resolveWith_eq_dead_iff (x : Strand) (l : List (BitVec 5)) (y : Second) :
    x.resolveWith l y = .dead ↔ ∃ n ∈ l ++ y.regs, (x.getV n).elemType = .dead := by
  have hscalar : ∀ t ∈ y.tags, elemOf t ≠ .dead := by cases y <;> simp [Second.tags, elemOf]
  rw [Strand.resolveWith, resolveTags_eq_dead_iff]
  constructor
  · rintro ⟨t, ht, hd⟩
    obtain h | h := List.mem_append.mp ht
    · obtain ⟨n, hn, rfl⟩ := List.mem_map.mp h
      exact ⟨n, hn, hd⟩
    · exact absurd hd (hscalar t h)
  · rintro ⟨n, hn, hd⟩
    exact ⟨x.tag n, List.mem_append_left _ (List.mem_map_of_mem hn), hd⟩

theorem Strand.live_of_resolveWith {x : Strand} {l : List (BitVec 5)} {y : Second} {dom : VDom} {tag : BitVec 8}
    (h : x.resolveWith l y = .ok dom tag) : ∀ n ∈ l ++ y.regs, (x.getV n).elemType ≠ .dead := by
  intro n hn hd
  rw [(x.resolveWith_eq_dead_iff l y).mpr ⟨n, hn, hd⟩] at h
  cases h

/-- A register alone resolves to the floating domain only when its type is no integer. -/
theorem Strand.isInt_of_resolveWith_float {x : Strand} {a : BitVec 5} {tag : BitVec 8}
    (h : x.resolveWith [a] .none = .ok .float tag) : (x.getV a).elemType.isInt = false := by
  have hres : resolveTags [vtypeTag (x.getV a).vtype] = .ok .float tag := h
  rw [VReg.elemType]
  unfold resolveTags at hres
  cases ht : elemOf (vtypeTag (x.getV a).vtype) with
  | int w sg => simp [ht, Elem.isInt] at hres
  | _ => rfl

/-! #### Checks at issue (R115) -/

section
variable {x : Strand} {w : InstrWord} {illegal : Bool} {read : List (BitVec 5)} {held : List (Elem × Nat)}

theorem Strand.vectorTrap_illegal (h : illegal = true) : x.vectorTrap w illegal read held = some (wordTrap causeIllegal w) :=
  if_pos h

theorem Strand.vectorTrap_noLanes (h : illegal = false) (hs : x.share = 0) :
    x.vectorTrap w illegal read held = some (wordTrap causeVectNolanes w) := by
  simp [Strand.vectorTrap, h, hs]

theorem Strand.vectorTrap_dead (h : illegal = false) (hs : x.share ≠ 0) {n : BitVec 5} (hn : n ∈ read)
    (hd : (x.getV n).elemType = .dead) : x.vectorTrap w illegal read held = some (wordTrap causeVectDead w) := by
  have hany : read.any (fun n => (x.getV n).elemType == .dead) = true := List.any_eq_true.mpr ⟨n, hn, by simp [hd]⟩
  rw [Strand.vectorTrap, h, if_neg Bool.false_ne_true, if_neg hs, if_pos hany]

theorem Strand.not_any_dead (h : ∀ n ∈ read, (x.getV n).elemType ≠ .dead) :
    ¬ read.any (fun n => (x.getV n).elemType == .dead) = true := by
  simpa using h

theorem Strand.vectorTrap_range (h : illegal = false) (hs : x.share ≠ 0)
    (hl : ∀ n ∈ read, (x.getV n).elemType ≠ .dead) {q : Elem × Nat} (hq : q ∈ held) (hd : q.1 ≠ .dead)
    (hlt : q.1.vlmax < q.2) : x.vectorTrap w illegal read held = some (wordTrap causeVlRange w) := by
  have hany : held.any (fun h => h.1 != .dead && decide (h.1.vlmax < h.2)) = true :=
    List.any_eq_true.mpr ⟨q, hq, by simp [hd, hlt]⟩
  rw [Strand.vectorTrap, h, if_neg Bool.false_ne_true, if_neg hs, if_neg (Strand.not_any_dead hl), if_pos hany]

theorem Strand.vectorTrap_eq_none (h : illegal = false) (hs : x.share ≠ 0)
    (hl : ∀ n ∈ read, (x.getV n).elemType ≠ .dead) (hfit : ∀ q ∈ held, q.2 ≤ q.1.vlmax) :
    x.vectorTrap w illegal read held = none := by
  have hany : ¬ held.any (fun h => h.1 != .dead && decide (h.1.vlmax < h.2)) = true := by
    rw [List.any_eq_true]
    rintro ⟨q, hq, hlt⟩
    exact absurd (hfit q hq) (Nat.not_le.mpr (by simpa using (Bool.and_elim_right hlt)))
  rw [Strand.vectorTrap, h, if_neg Bool.false_ne_true, if_neg hs, if_neg (Strand.not_any_dead hl), if_neg hany]

end

/-- A destination and registers that can hold VL elements each. -/
theorem Strand.held_fit {x : Strand} {td : Elem} {regs : List (BitVec 5)} (ht : x.vl ≤ td.vlmax)
    (hr : ∀ n ∈ regs, x.vl ≤ (x.getV n).elemType.vlmax) :
    ∀ q ∈ (td, x.vl) :: regs.map (fun n => ((x.getV n).elemType, x.vl)), q.2 ≤ q.1.vlmax := by
  simpa using ⟨ht, hr⟩

/-! #### Rounding (R45, R56) -/

theorem Strand.badRounding_of_mode {x : Strand} {vt : BitVec 16} {mode : RMode} (h : x.roundingOf vt = some mode)
    (floating : Bool) : x.badRounding vt floating = false := by
  simp [Strand.badRounding, h]

theorem Strand.badRounding_of_int {x : Strand} {vt : BitVec 16} (h : (elemOf (vtypeTag vt)).isInt = true) :
    x.badRounding vt false = false := by
  simp [Strand.badRounding, h]

/-! #### The destination (R37) -/

theorem Strand.destVtype_of_live {x : Strand} {d : BitVec 5} (h : (x.getV d).elemType ≠ .dead) (tag : BitVec 8) :
    x.destVtype d tag = (x.getV d).vtype := if_neg h

/-- vd with a vtype and elements written: what delivery leaves of a register. -/
def Strand.written (x : Strand) (d : BitVec 5) (vt : BitVec 16) (l : List (Nat × Nat)) : Strand :=
  x.setV d (VReg.putAll { x.getV d with vtype := vt } l)

/-- R146: results delivered at a type that is not BX, one by one. -/
theorem Strand.deliver_of_not_bx {x : Strand} {d : BitVec 5} {tag : BitVec 8}
    (h : ∀ q, elemOf (vtypeTag (x.destVtype d tag)) ≠ .bx q) (mode : RMode) (l : List (Nat × EVal)) :
    let vt := x.destVtype d tag
    let put (v : EVal) : Nat × Flags := (elemOf (vtypeTag vt)).deliver mode (vt.getLsbD 8) v
    x.deliver d tag mode l =
      (x.written d vt (l.map (fun q => (q.1, (put q.2).1))), orFlags (l.map (fun q => (put q.2).2))) := by
  dsimp only
  rw [Strand.deliver]
  split
  · next q hq => exact absurd hq (h q)
  · simp only [List.map_map]
    rfl

theorem Strand.deliverRaw_eq (x : Strand) (d : BitVec 5) (vt : BitVec 16) (l : List (Nat × Nat)) :
    x.deliverRaw d vt l = x.written d (if (x.getV d).elemType = .dead then vt else (x.getV d).vtype) l := by
  unfold Strand.deliverRaw Strand.written
  dsimp only
  split <;> rfl

/-! #### Completion (R41, R60) -/

section
variable (s : State) (y : Strand) (fl : Flags)

theorem State.endVector_onlyEntry :
    (Strand.raise { y with vstart := 0 } fl).OnlyEntry (s.endVector y fl).me := by
  have h := (s.setMe { y with vstart := 0 }).finish_onlyEntry fl
  rwa [State.me_setMe] at h

theorem State.endVector_fflags : (s.endVector y fl).me.fflags = y.fflags ||| fl := (s.endVector_onlyEntry y fl).fflags

theorem State.endVector_v : (s.endVector y fl).me.v = y.v := (s.endVector_onlyEntry y fl).v

theorem State.endVector_g : (s.endVector y fl).me.g = y.g := (s.endVector_onlyEntry y fl).g

theorem State.endVector_p : (s.endVector y fl).me.p = y.p := (s.endVector_onlyEntry y fl).p

theorem State.endVector_e : (s.endVector y fl).me.e = y.e := (s.endVector_onlyEntry y fl).e

theorem State.endVector_vl : (s.endVector y fl).me.vl = y.vl := (s.endVector_onlyEntry y fl).vl

theorem State.endVector_share : (s.endVector y fl).me.share = y.share := (s.endVector_onlyEntry y fl).share

theorem State.endVector_vstart : (s.endVector y fl).me.vstart = 0 := (s.endVector_onlyEntry y fl).vstart

theorem State.endVector_getV (n : BitVec 5) : (s.endVector y fl).me.getV n = y.getV n := by
  simp only [Strand.getV, s.endVector_v y fl]

theorem State.endVector_getG (n : BitVec 5) : (s.endVector y fl).me.getG n = y.getG n := by
  simp only [Strand.getG, s.endVector_g y fl]

theorem State.endVector_getP (n : BitVec 3) : (s.endVector y fl).me.getP n = y.getP n := by
  simp only [Strand.getP, s.endVector_p y fl]

theorem State.endVector_scaleOf (n : BitVec 5) : (s.endVector y fl).me.scaleOf n = y.scaleOf n := by
  simp only [Strand.scaleOf, s.endVector_e y fl]

theorem State.endVector_strand_ne {sid : Nat} (h : sid ≠ s.cur) : (s.endVector y fl).strand sid = s.strand sid :=
  (State.finish_strand_ne (s.setMe _) fl h).trans (s.strand_setMe_ne _ h)

theorem State.endVector_cores : (s.endVector y fl).cores = s.cores := State.finish_cores ..

theorem State.endFrom_of_skip (h : s.me.vl ≤ s.me.vstart) : s.endFrom y fl = s.endVector s.me 0 := if_pos h

theorem State.endFrom_of_begun (h : s.me.vstart < s.me.vl) : s.endFrom y fl = s.endVector y fl :=
  if_neg (Nat.not_le.mpr h)

end

/-- The frame of an instruction that has written elements of vd, from the register it leaves. -/
theorem State.wroteAt_endVector {s : State} {d : BitVec 5} {fresh : BitVec 16} {skips : Bool} {g : Nat → Option Nat}
    {r : VReg} (fl : Flags)
    (hvt : r.vtype = if skips = false ∧ (s.me.getV d).elemType = .dead then fresh else (s.me.getV d).vtype)
    (hr : ∀ k, k < r.elemType.vlmax → r.raw k = match g k with
      | some v => v % 2 ^ r.elemType.width
      | none => elemBits (s.me.getV d).bits r.elemType.width k) :
    s.WroteAt (s.endVector (s.me.setV d r) fl) d fresh skips g := by
  have hd : (s.endVector (s.me.setV d r) fl).me.getV d = r := by rw [State.endVector_getV, Strand.getV_setV_same]
  rw [State.WroteAt, hd]
  refine ⟨hvt, ?_, fun n hn => ?_, State.endVector_g .., State.endVector_p .., State.endVector_e .., State.endVector_vl ..,
    State.endVector_share .., State.endVector_vstart .., fun sid h => State.endVector_strand_ne _ _ _ h, State.endVector_mem ..,
    State.endVector_cores ..⟩
  · exact fun k hk => (hr k hk).trans (by cases g k <;> rfl)
  · rw [State.endVector_getV, Strand.getV_setV_ne _ _ hn]

/-- R41: an instruction that writes nothing. -/
theorem State.wroteAt_endVector_self (s : State) (d : BitVec 5) (fresh : BitVec 16) (fl : Flags) :
    s.WroteAt (s.endVector s.me fl) d fresh true (fun _ => none) := by
  have h : s.WroteAt (s.endVector (s.me.setV d (s.me.getV d)) fl) d fresh true (fun _ => none) :=
    State.wroteAt_endVector fl (by simp) fun _ _ => rfl
  rwa [Strand.setV_getV] at h

/-- Writes listed as the graph of a partial function. -/
theorem State.wroteAt_written {s : State} {d : BitVec 5} {vt fresh : BitVec 16} {g : Nat → Option Nat} {l : List (Nat × Nat)}
    (fl : Flags) (hvt : vt = if (s.me.getV d).elemType = .dead then fresh else (s.me.getV d).vtype)
    (hg : ∀ k v, (k, v) ∈ l ↔ g k = some v) : s.WroteAt (s.endVector (s.me.written d vt l) fl) d fresh false g := by
  refine State.wroteAt_endVector fl (by rw [VReg.putAll_vtype, hvt]; simp) fun k hk => ?_
  rw [VReg.putAll_elemType] at hk ⊢
  rw [VReg.raw_putAll_graph hg _ hk]
  cases g k <;> rfl

/-- One value at each active element from element 0 on (R161). -/
theorem State.wroteElements_whole {s : State} {d : BitVec 5} {vt fresh : BitVec 16} {p : BitVec 3} (f : Nat → Nat)
    (fl : Flags) (hvt : vt = if (s.me.getV d).elemType = .dead then fresh else (s.me.getV d).vtype) :
    s.WroteElements (s.endVector (s.me.written d vt ((s.me.activeFrom 0 p).map (fun k => (k, f k)))) fl) d fresh true p f :=
  State.wroteAt_written fl hvt fun _ _ => Strand.mem_active_map (whole := true)

/-- One value at each active element from VSTART on, none with VSTART at or beyond VL (R41). -/
theorem State.wroteElements_part {s : State} {d : BitVec 5} {vt fresh : BitVec 16} {p : BitVec 3} (f : Nat → Nat)
    (fl : Flags) (hvt : vt = if (s.me.getV d).elemType = .dead then fresh else (s.me.getV d).vtype) :
    s.WroteElements (s.endFrom (s.me.written d vt ((s.me.active p).map (fun k => (k, f k)))) fl) d fresh false p f := by
  rw [State.WroteElements]
  by_cases h : s.me.vl ≤ s.me.vstart
  · rw [State.endFrom_of_skip _ _ _ h, decide_eq_true h]
    have hnone (k : Nat) : ¬ (k < s.me.vl ∧ (false = true ∨ s.me.vstart ≤ k) ∧ (s.me.getP p).getLsbD k = true) := by
      rintro ⟨hlt, hle | hle, -⟩
      · cases hle
      · omega
    simp only [hnone, if_false]
    exact s.wroteAt_endVector_self d fresh 0
  · rw [State.endFrom_of_begun _ _ _ (Nat.lt_of_not_le h), decide_eq_false h]
    exact State.wroteAt_written fl hvt fun _ _ => Strand.mem_active_map (whole := false)

section
variable {s : State} {d : BitVec 5} {tag : BitVec 8} (h : ∀ q, elemOf (vtypeTag (s.me.destVtype d tag)) ≠ .bx q)
  (mode : RMode) (p : BitVec 3) (res : Nat → EVal) (fl : Flags)
include h

/-- R146: one result for each active element from VSTART on, delivered at vd's type. -/
theorem State.wroteElements_deliver_part :
    s.WroteElements (s.endFrom (s.me.deliver d tag mode ((s.me.active p).map (fun k => (k, res k)))).1 fl) d (freshVtype tag)
      false p (fun k => ((elemOf (vtypeTag (s.me.destVtype d tag))).deliver mode ((s.me.destVtype d tag).getLsbD 8)
        (res k)).1) := by
  rw [Strand.deliver_of_not_bx h, List.map_map]
  exact State.wroteElements_part _ fl rfl

/-- R161: the same from element 0 on. -/
theorem State.wroteElements_deliver_whole :
    s.WroteElements (s.endVector (s.me.deliver d tag mode ((s.me.activeFrom 0 p).map (fun k => (k, res k)))).1 fl) d
      (freshVtype tag) true p (fun k => ((elemOf (vtypeTag (s.me.destVtype d tag))).deliver mode
        ((s.me.destVtype d tag).getLsbD 8) (res k)).1) := by
  rw [Strand.deliver_of_not_bx h, List.map_map]
  exact State.wroteElements_whole _ fl rfl

/-- The flags of the deliveries. -/
theorem Strand.deliver_flags (l : List Nat) : (s.me.deliver d tag mode (l.map (fun k => (k, res k)))).2 =
    orFlags (l.map (fun k => ((elemOf (vtypeTag (s.me.destVtype d tag))).deliver mode
      ((s.me.destVtype d tag).getLsbD 8) (res k)).2)) := by
  rw [Strand.deliver_of_not_bx h, List.map_map, List.map_map]
  rfl

end

/-- Delivery changes registers alone. -/
theorem Strand.deliver_fflags (x : Strand) (d : BitVec 5) (tag : BitVec 8) (mode : RMode) (l : List (Nat × EVal)) :
    (x.deliver d tag mode l).1.fflags = x.fflags := by
  unfold Strand.deliver
  dsimp only
  split <;> rfl

/-- The flags of an instruction that begins at VSTART; it has none to raise with VSTART at or beyond VL. -/
theorem State.endFrom_fflags {s : State} {y : Strand} {fl : Flags} (hy : y.fflags = s.me.fflags)
    (h : s.me.vl ≤ s.me.vstart → fl = 0) : (s.endFrom y fl).me.fflags = s.me.fflags ||| fl := by
  by_cases hs : s.me.vl ≤ s.me.vstart
  · rw [State.endFrom_of_skip _ _ _ hs, State.endVector_fflags, h hs]
  · rw [State.endFrom_of_begun _ _ _ (Nat.lt_of_not_le hs), State.endVector_fflags, hy]

end Sys2Proof.Machine
end

section
/-! ### O24: the vector settings, and the checks of a vector instruction (R35, R115, R144, R145, R153, R162) -/
namespace Sys2Proof.Machine

/-! #### VCFG (R35, R144) -/

/-- An instruction that writes g(d) after other fields of its strand. -/
theorem Strand.setG_retire_place (x : Strand) (d : BitVec 5) (v : Word) : ∃ g pc f,
    (x.setG d v).retire = { x with g := g, pc := pc, frame := f, wait := .none, gathered := [] } := by
  obtain ⟨pc, f, h⟩ := (x.setG d v).retire_place
  exact ⟨(x.setG d v).g, pc, f, by rw [h, x.setG_only d v]⟩

theorem Strand.getG_setG_retire (x : Strand) (d : BitVec 5) (v : Word) :
    (x.setG d v).retire.getG d = if d = 0 then 0 else v := by
  rw [Strand.retire_getG, Strand.getG_setG_self]

@[simp] theorem Strand.retire_getV (x : Strand) (n : BitVec 5) : x.retire.getV n = x.getV n := by
  simp only [Strand.getV, Strand.retire_v]

theorem Strand.configure_only (x : Strand) (v : BitVec 16) (first n : Nat) :
    x.configure v first n = { x with v := (x.configure v first n).v } := by
  induction n with
  | zero => rfl
  | succ n ih => rw [Strand.configure, Strand.setV, ih]

theorem Strand.getV_configure (x : Strand) (v : BitVec 16) {first n : Nat} (hn : first + n ≤ 32) (m : BitVec 5) :
    (x.configure v first n).getV m =
      if first ≤ m.toNat ∧ m.toNat < first + n then (x.getV m).configured v else x.getV m := by
  induction n with
  | zero => exact (if_neg (by omega)).symm
  | succ n ih =>
    have hlast : (BitVec.ofNat 5 (first + n)).toNat = first + n := by rw [BitVec.toNat_ofNat]; omega
    rw [Strand.configure]
    by_cases hm : m = BitVec.ofNat 5 (first + n)
    · rw [← hm, Strand.getV_setV_same, if_pos (by rw [hm, hlast]; omega)]
    · have hne : m.toNat ≠ first + n := fun h => hm (BitVec.eq_of_toNat_eq (h.trans hlast.symm))
      rw [Strand.getV_setV_ne _ _ hm, ih (by omega)]
      exact if_congr (by omega) rfl rfl

/-- A register without a type keeps nothing (R144, R145). -/
theorem VReg.configured_dead (r : VReg) : (r.configured 0).vtype = 0 ∧ (r.configured 0).vhwe = 0 := ⟨rfl, rfl⟩

theorem Strand.getV_released (x : Strand) (n : BitVec 5) : x.released.getV n = (x.getV n).configured 0 :=
  Vector.getElem_map ..

theorem vectorConfiguration : Claims.VectorConfiguration := by
  intro s d a i w
  have hword : encRri 0x22 d a (w.setWidth 16) = encRri 0x22 d a ((0 : BitVec 2) ++ ((0 : BitVec 10) ++ w)) := by
    congr 1
    revert w
    decide
  refine ⟨fun hok hrun => ?_, fun hbad q hq => ?_, fun _ hs => ?_, fun _ hs q hq => ?_, ?_, fun hs => ?_, fun hs q hq => ?_,
    rfl⟩
  · have hx := s.me.configure_only i d.toNat (a.toNat + 1)
    refine ⟨s.setMe (s.me.configure i d.toNat (a.toNat + 1)).retire, ?_, s.onlyRunning_setMe _, ?_, fun n h0 h1 => ?_,
      fun n hn => ?_⟩
    · rw [exec_vcfg, execVcfg, if_neg (by simp [hok]; omega), State.retire_setMe]
    · rw [State.me_setMe, Strand.retire_g, hx]
    · rw [State.me_setMe, Strand.retire_getV, Strand.getV_configure _ _ (by omega)]
      exact if_pos ⟨h0, by omega⟩
    · rw [State.me_setMe, Strand.retire_getV, Strand.getV_configure _ _ (by omega)]
      rw [BitVec.lt_def] at hn
      exact if_neg (by omega)
  · cases hq
    exact if_pos (hbad.imp (by simp [·]) id)
  · obtain ⟨g, pc, f, hplace⟩ := Strand.setG_retire_place { s.me with
        vl := s.me.granted (s.g a).toNat w.toNat s.myCore.vlcap, vstart := 0, issueShare := s.me.share } d
        (BitVec.ofNat 64 (s.me.granted (s.g a).toNat w.toNat s.myCore.vlcap))
    refine ⟨s.setMe _, (if_neg hs).trans (congrArg _ (s.retire_setMe _)), ?_, ?_, ?_, ?_, s.onlyRunning_setMe _⟩ <;>
      rw [State.me_setMe]
    · rw [hplace]; rfl
    · rw [hplace]
    · exact Strand.getG_setG_retire ..
    · rw [hplace]
  · cases hq
    rw [← hword]
    exact if_pos hs
  · obtain ⟨g, pc, f, hplace⟩ := Strand.setG_retire_place { s.me with share := s.acquired (s.g a).toNat } d
        (BitVec.ofNat 64 (s.acquired (s.g a).toNat))
    refine ⟨s.setMe _, congrArg _ (s.retire_setMe _), ?_, ?_, ?_⟩ <;> rw [State.me_setMe]
    · rw [hplace]
    · exact Strand.getG_setG_retire ..
    · rw [hplace]
  · obtain ⟨pc, f, hplace⟩ := s.me.released.retire_place
    refine ⟨s.setMe s.me.released.retire, (if_neg hs).trans (congrArg _ (s.retire_setMe _)), ?_⟩
    rw [State.me_setMe]
    refine ⟨by rw [hplace]; rfl, by rw [hplace]; rfl, by rw [hplace]; rfl, by rw [hplace]; rfl, by rw [hplace]; rfl,
      by rw [hplace]; rfl, fun n => ?_⟩
    rw [Strand.retire_getV, Strand.getV_released]
    exact VReg.configured_dead _
  · cases hq
    exact if_pos hs

/-! #### The checks (R115, R153, R162) -/

section
variable {s : State} {word : InstrWord} {ifn : Option IntOp} {ffn : Option FpOp} {reads rounds resolveY : Bool}
  {rtag : Option (BitVec 8)} {d a : BitVec 5} {y : Second} {p : BitVec 3} {res : Resolution}

/-- What an element-wise instruction checks: its domain and FRM, its sources, the elements each must hold. -/
theorem elementwise_of_trap {t : Trap}
    (hres : s.me.resolveWith (a :: if reads then [d] else []) (if resolveY then y else .none) = res)
    (h : s.me.vectorTrap word (s.me.elementIllegal res ifn ffn rounds d rtag) ([a] ++ y.regs ++ if reads then [d] else [])
      ((s.me.destType d res rtag, s.me.vl) :: ([a] ++ y.regs).map (fun n => ((s.me.getV n).elemType, s.me.vl))) = some t) :
    elementwise word ifn ffn reads rounds rtag d a y resolveY p s = .next (s.trap t) := by
  subst hres
  simp only [elementwise, h]

theorem elementwise_of_ok {dom : VDom} {tag : BitVec 8}
    (hres : s.me.resolveWith (a :: if reads then [d] else []) (if resolveY then y else .none) = .ok dom tag)
    (h : s.me.vectorTrap word (s.me.elementIllegal (.ok dom tag) ifn ffn rounds d rtag)
      ([a] ++ y.regs ++ if reads then [d] else [])
      ((s.me.destType d (.ok dom tag) rtag, s.me.vl) ::
        ([a] ++ y.regs).map (fun n => ((s.me.getV n).elemType, s.me.vl))) = none) :
    elementwise word ifn ffn reads rounds rtag d a y resolveY p s =
      .next (s.endFrom (s.me.elementEffect dom (rtag.getD tag) ifn ffn d a y p).1
        (s.me.elementEffect dom (rtag.getD tag) ifn ffn d a y p).2) := by
  simp only [elementwise, hres, h]

end

/-- R153: a floating source makes a shift or VROL illegal before any other check. -/
theorem shiftOp_of_floatSource {s : State} {fn : BitVec 6} {ifn : IntOp} {d a b : BitVec 5} {f : BitVec 2} {p : BitVec 3}
    (h : s.me.floatSource (a :: s.me.formRegs f b) = true) :
    shiftOp fn ifn d a b f p s = .next (s.trap (wordTrap causeIllegal (encV 0x24 d a b f p fn))) := if_pos h

/-- R162: live tags that differ make a permute illegal before any other check. -/
theorem permuteOp_of_tagsDiffer {s : State} {word : InstrWord} {bad : Bool} {same other : List (BitVec 5)} {d a : BitVec 5}
    {out : Strand → List (Nat × Nat)} (h : s.me.tagsDiffer same d = true) :
    permuteOp word bad same other d a out s = .next (s.trap (wordTrap causeIllegal word)) := by
  rw [permuteOp, h, Bool.or_true]
  rfl

theorem Strand.tagsDiffer_iff (x : Strand) (srcs : List (BitVec 5)) (d : BitVec 5) : x.tagsDiffer srcs d = true ↔
    ∃ n ∈ srcs ++ [d], ∃ m ∈ srcs ++ [d], (x.getV n).elemType ≠ .dead ∧ (x.getV m).elemType ≠ .dead ∧ x.tag n ≠ x.tag m := by
  simp only [Strand.tagsDiffer, List.any_eq_true, List.mem_filter, bne_iff_ne, ne_eq]
  constructor
  · rintro ⟨n, ⟨hn, hln⟩, m, ⟨hm, hlm⟩, h⟩
    exact ⟨n, hn, m, hm, hln, hlm, h⟩
  · rintro ⟨n, hn, m, hm, hln, hlm, h⟩
    exact ⟨n, ⟨hn, hln⟩, m, ⟨hm, hlm⟩, h⟩

theorem vectorChecksInOrder : Claims.VectorChecksInOrder := by
  intro s d a b f p w x y res trap hw
  cases hw
  have traps {t : Trap} (h : x.vectorTrap (encV 0x23 d a b f p 0) (x.elementIllegal res _ _ true d none) _ _ = some t) :
      exec (.vadd d a b f p) s = .next (s.trap t) := elementwise_of_trap (reads := false) (resolveY := true) rfl h
  have hok {n : Nat} {sg : Bool} {tag : BitVec 8} (h : res = .ok (.int n sg) tag)
      (hd : (elemOf (vtypeTag (x.destVtype d tag))).isInt = true) {ifn : IntOp} {ffn : Option FpOp} :
      x.elementIllegal res (some ifn) ffn true d none = false := by
    rw [h, Strand.elementIllegal, VDom.lacks]
    exact Strand.badRounding_of_int hd
  have hdead (h : res = .dead) (hd : (x.getV d).elemType.isInt = true) {ifn ffn} :
      x.elementIllegal res ifn ffn true d none = false := by
    rw [h, Strand.elementIllegal, Strand.badRounding_of_int hd, Bool.and_false]
  refine ⟨fun h => ?_, fun n sg tag h hd => ⟨fun hs => ?_, fun hs hr => ?_⟩, fun h hd => ⟨fun hs => ?_, fun hs => ?_⟩,
    fun i hi q hq hsrc => ?_, fun i hi q hq hsrc => ?_⟩
  · exact traps (Strand.vectorTrap_illegal (by rw [h]; rfl))
  · exact traps (Strand.vectorTrap_noLanes (hok h hd) hs)
  · obtain ⟨r, hr, hlt⟩ := hr
    have hlive := Strand.live_of_resolveWith h
    exact traps (Strand.vectorTrap_range (q := ((x.getV r).elemType, x.vl)) (hok h hd) hs (by simpa using hlive)
      (List.mem_cons_of_mem _ (List.mem_map_of_mem hr)) (hlive r hr) hlt)
  · exact traps (Strand.vectorTrap_noLanes (hdead h hd) hs)
  · obtain ⟨n, hn, hnd⟩ := (x.resolveWith_eq_dead_iff [a] y).mp h
    exact traps (Strand.vectorTrap_dead (hdead h hd) hs (by simpa using hn) hnd)
  · have hfloat : s.me.floatSource (a :: s.me.formRegs f b) = true := by
      obtain ⟨n, hn, hlive, hint⟩ := hsrc
      exact List.any_eq_true.mpr ⟨n, hn, by rw [hint]; simpa using hlive⟩
    simp only [List.mem_cons, List.not_mem_nil, or_false] at hi
    obtain rfl | rfl | rfl | rfl := hi <;> (cases hq; exact shiftOp_of_floatSource hfloat)
  · have hdiffer : s.me.tagsDiffer [a, s.me.vb f b] d = true := (s.me.tagsDiffer_iff _ d).mpr hsrc
    simp only [List.mem_cons, List.not_mem_nil, or_false] at hi
    obtain rfl | rfl := hi <;> cases hq
    · rw [exec_vzip, execVzip, permuteOp_of_tagsDiffer hdiffer]
      rfl
    · rw [exec_vunzip, execVunzip, permuteOp_of_tagsDiffer hdiffer]
      rfl

end Sys2Proof.Machine
open Sys2Proof.Machine in
/-- Settles O24: the settings instruction by instruction, the checks by what `Strand.vectorTrap` answers. -/
theorem vectorSettingsAndChecks : Obligations.VectorSettingsAndChecks := ⟨vectorConfiguration, vectorChecksInOrder⟩
end

section
/-! ### O27: comparisons and predicates (R34, R41, R156, R164) -/
namespace Sys2Proof.Machine

/-! #### Writing a predicate register under a mask -/

theorem Strand.getP_setP_same (x : Strand) {q : BitVec 3} (v : BitVec 2048) (h : q ≠ 0) : (x.setP q v).getP q = v := by
  rw [Strand.getP, if_neg h, Strand.setP]
  simp only [if_neg h, Vector.getElem_set_self]

theorem Strand.getP_setP_ne (x : Strand) {q n : BitVec 3} (v : BitVec 2048) (h : n ≠ q) : (x.setP q v).getP n = x.getP n := by
  have hne : q.toNat ≠ n.toNat := fun e => h (BitVec.eq_of_toNat_eq e.symm)
  by_cases hn : n = 0
  · rw [Strand.getP, if_pos hn, Strand.getP, if_pos hn]
  by_cases hq : q = 0
  · rw [Strand.setP, if_pos hq]
  rw [Strand.getP, if_neg hn, Strand.getP, if_neg hn, Strand.setP]
  simp only [if_neg hq, Vector.getElem_set_ne _ _ hne]

theorem Strand.setP_only (x : Strand) (q : BitVec 3) (v : BitVec 2048) : x.setP q v = { x with p := (x.setP q v).p } := by
  unfold Strand.setP
  split <;> rfl

/-- Element k takes part: below VL, from VSTART on, selected by the governing predicate (R34, R41). -/
def Strand.takesPart (x : Strand) (p : BitVec 3) (k : Nat) : Bool :=
  decide (k < x.vl) && decide (x.vstart ≤ k) && (x.getP p).getLsbD k

theorem Strand.mem_active {x : Strand} {p : BitVec 3} {k : Nat} : k ∈ x.active p ↔ x.takesPart p k = true := by
  rw [Strand.active, Strand.mem_activeFrom, Strand.takesPart]
  simp [and_assoc]

theorem Strand.getLsbD_activeMask (x : Strand) (p : BitVec 3) {k : Nat} (hk : k < 2048) :
    (x.activeMask p).getLsbD k = x.takesPart p k := by
  have hvl : (2 ^ x.vl - 1).testBit k = decide (k < x.vl) := Nat.testBit_two_pow_sub_one ..
  have hvs : (2 ^ x.vstart - 1).testBit k = decide (k < x.vstart) := Nat.testBit_two_pow_sub_one ..
  rw [Strand.activeMask, Strand.takesPart, BitVec.getLsbD_and, BitVec.getLsbD_and, BitVec.getLsbD_not, BitVec.getLsbD_ofNat,
    BitVec.getLsbD_ofNat, hvl, hvs]
  by_cases h : x.vstart ≤ k
  · simp [hk, h, Nat.not_lt.mpr h, Bool.and_comm]
  · simp [h, Nat.lt_of_not_le h]

theorem getLsbD_maskOf (l : List Nat) {k : Nat} (hk : k < 2048) : (maskOf l).getLsbD k = decide (k ∈ l) := by
  have hfold (m : BitVec 2048) : (l.foldl (fun m i => m ||| (1#2048 <<< i)) m).getLsbD k =
      (m.getLsbD k || decide (k ∈ l)) := by
    induction l generalizing m with
    | nil => simp
    | cons i t ih =>
      have hbit : (1#2048 <<< i).getLsbD k = decide (k = i) := by
        rw [BitVec.getLsbD_shiftLeft, BitVec.getLsbD_one]
        by_cases h : k = i
        · simp [h, h ▸ hk]
        · simp [h]; omega
      rw [List.foldl_cons, ih, BitVec.getLsbD_or, hbit, Bool.or_assoc]
      simp [List.mem_cons]
  rw [maskOf, hfold]
  simp

/-- What a comparison or predicate function leaves: bit k of pq is `g k` at each active element and as before at every
other; nothing else of the vector state changes. -/
def State.PredicateSet (s t : State) (q p : BitVec 3) (g : Nat → Bool) : Prop :=
  t.me.vstart = 0 ∧ t.me.v = s.me.v ∧ t.me.g = s.me.g ∧ t.mem = s.mem ∧ (∀ n, n ≠ q → t.me.getP n = s.me.getP n) ∧
    (q ≠ 0 → ∀ k, k < 2048 → (t.me.getP q).getLsbD k = if s.me.takesPart p k then g k else (s.me.getP q).getLsbD k)

theorem State.predicateSet_endVector {s : State} {q p : BitVec 3} {bits : BitVec 2048} {g : Nat → Bool} (fl : Flags)
    (h : ∀ k, k < 2048 → s.me.takesPart p k = true → bits.getLsbD k = g k) :
    s.PredicateSet (s.endVector (s.me.putP q (s.me.activeMask p) bits) fl) q p g := by
  have honly := s.me.setP_only q ((s.me.getP q &&& ~~~(s.me.activeMask p)) ||| (bits &&& s.me.activeMask p))
  refine ⟨State.endVector_vstart .., ?_, ?_, State.endVector_mem .., fun n hn => ?_, fun hq k hk => ?_⟩
  · rw [State.endVector_v, Strand.putP, honly]
  · rw [State.endVector_g, Strand.putP, honly]
  · rw [State.endVector_getP, Strand.putP, Strand.getP_setP_ne _ _ hn]
  · rw [State.endVector_getP, Strand.putP, Strand.getP_setP_same _ _ hq, BitVec.getLsbD_or, BitVec.getLsbD_and,
      BitVec.getLsbD_and, BitVec.getLsbD_not, Strand.getLsbD_activeMask _ _ hk]
    cases hpart : s.me.takesPart p k with
    | true => simp [h k hk hpart]
    | false => simp [hk]

/-- The bits of a comparison: those of the active elements for which it holds. -/
theorem getLsbD_maskOf_active {x : Strand} {p : BitVec 3} (g : Nat → Bool) {k : Nat} (hk : k < 2048)
    (h : x.takesPart p k = true) : (maskOf ((x.active p).filter g)).getLsbD k = g k := by
  rw [getLsbD_maskOf _ hk, Bool.eq_iff_iff, decide_eq_true_iff, List.mem_filter, Strand.mem_active]
  simp [h]

/-! #### The order of floating values (R52) -/

theorem FVal.isNan_of_isSignalling {x : FVal} (h : x.isSignalling = true) : x.isNan = true := by
  cases x with
  | nan _ => rfl
  | _ => cases h

/-- A NaN is below nothing and nothing is below it. -/
theorem FVal.lt_of_isNan {x y : FVal} (h : (x.isNan || y.isNan) = true) : x.lt y = false := by
  obtain hx | hy := Bool.or_eq_true_iff.mp h
  · cases x with
    | nan _ => rfl
    | _ => cases hx
  · cases y with
    | nan _ => cases x <;> rfl
    | _ => cases hy

theorem FVal.lt_asymm {x y : FVal} (h : x.lt y = true) : y.lt x = false := by
  cases hn : y.isNan || x.isNan with
  | true => exact FVal.lt_of_isNan hn
  | false =>
    obtain ⟨hy, hx⟩ := Bool.or_eq_false_iff.mp hn
    cases x with
    | nan _ => cases hx
    | inf neg =>
      cases y with
      | nan _ => cases hy
      | inf neg' => cases neg <;> cases neg' <;> trivial
      | fin _ _ _ => exact congrArg (!·) h
    | fin _ _ _ =>
      cases y with
      | nan _ => cases hy
      | inf neg => exact (Bool.not_eq_true' neg).mp h
      | fin _ _ _ =>
        simp only [FVal.lt, decide_eq_true_eq, decide_eq_false_iff_not] at h ⊢
        rw [min_comm]
        omega

/-! #### Comparisons (R156) -/

section
variable {s : State} {q p : BitVec 3} {a b : BitVec 5} {f : BitVec 2} {y : Second} {dom : VDom} {tag : BitVec 8}

/-- A comparison that passes its checks sets the bits of its active elements and raises what they raise. -/
theorem compareOp_of_ok (hs : s.me.share ≠ 0) (hy : s.me.second f (s.me.getV a).elemType b = y)
    (hres : s.me.resolveWith [a] y = .ok dom tag) (hfit : ∀ n ∈ [a] ++ y.regs, s.me.vl ≤ (s.me.getV n).elemType.vlmax)
    (fn : BitVec 6) {c : Comparison} (hc : c.illegal (.ok dom tag) = false) :
    let bit (k : Nat) : Bool := (c.at_ dom (s.me.value a k) (s.me.secondAt y k)).1
    let raised (k : Nat) : Flags := (c.at_ dom (s.me.value a k) (s.me.secondAt y k)).2
    ∃ t, compareOp fn c q a b f p s = .next t ∧ s.PredicateSet t q p bit ∧
      t.me.fflags = s.me.fflags ||| orFlags ((s.me.active p).map raised) := by
  intro bit raised
  have hnone (w : InstrWord) : s.me.vectorTrap w (c.illegal (.ok dom tag)) ([a] ++ y.regs)
      (([a] ++ y.regs).map (fun n => ((s.me.getV n).elemType, s.me.vl))) = none :=
    Strand.vectorTrap_eq_none hc hs (Strand.live_of_resolveWith hres) (by simpa using hfit)
  refine ⟨s.endVector (s.me.putP q (s.me.activeMask p) (maskOf ((s.me.active p).filter bit)))
    (orFlags ((s.me.active p).map raised)), ?_, ?_, ?_⟩
  · simp only [compareOp, hy, hres, hnone, List.filter_map, List.map_map]
    congr 3
    exact congrArg maskOf (List.map_id _)
  · exact State.predicateSet_endVector _ fun k hk h => getLsbD_maskOf_active bit hk h
  · rw [State.endVector_fflags, Strand.putP, Strand.setP_only]

end

theorem State.PredicateSet.congr {s t : State} {q p : BitVec 3} {g g' : Nat → Bool} (h : s.PredicateSet t q p g)
    (hg : ∀ k, g k = g' k) : s.PredicateSet t q p g' := funext hg ▸ h

/-- R156: what a comparison of floating values raises. -/
theorem Comparison.raised_float (c : Comparison) (u v : FVal) (x y : EVal) (hx : x.toF = u) (hy : y.toF = v) :
    (c.at_ .float x y).2 = flagIf (if c.loud then u.isNan || v.isNan else u.isSignalling || v.isSignalling) flagNV := by
  subst hx hy
  have hsig (z : FVal) : z.isSignalling = true → z.isNan = true := FVal.isNan_of_isSignalling
  rw [Comparison.at_]
  cases c.loud with
  | false => simp
  | true =>
    have hor : (x.toF.isSignalling || y.toF.isSignalling || (x.toF.isNan || y.toF.isNan)) =
        (x.toF.isNan || y.toF.isNan) := by
      rw [Bool.or_eq_right_iff_imp, Bool.or_eq_true, Bool.or_eq_true]
      exact Or.imp (hsig _) (hsig _)
    rw [Bool.true_and, hor, if_pos rfl]

/-! #### Predicate functions (R164) -/

section
variable {s : State} {q qa p : BitVec 3} {d : BitVec 5}

theorem predOp_of_lanes (hs : s.me.share ≠ 0) (fn : BitVec 6) {op : BitVec 2048 → BitVec 2048 → BitVec 2048}
    {qb : BitVec 3} {g : Nat → Bool} (h : ∀ k, k < 2048 → (op (s.me.getP qa) (s.me.getP qb)).getLsbD k = g k) :
    ∃ t, predOp fn op q qa qb p s = .next t ∧ s.PredicateSet t q p g := by
  have hnone (w : InstrWord) : s.me.vectorTrap w false [] [] = none :=
    Strand.vectorTrap_eq_none rfl hs (by simp) (by simp)
  refine ⟨_, ?_, State.predicateSet_endVector (bits := op (s.me.getP qa) (s.me.getP qb)) 0 fun k hk _ => h k hk⟩
  simp only [predOp, hnone]

theorem execPfromv_of_live {a : BitVec 5} (hs : s.me.share ≠ 0) (hl : (s.me.getV a).elemType ≠ .dead)
    (hfit : s.me.vl ≤ (s.me.getV a).elemType.vlmax) :
    ∃ t, execPfromv q a p s = .next t ∧ s.PredicateSet t q p (fun k => (s.me.value a k).nonzero) := by
  have hnone (w : InstrWord) : s.me.vectorTrap w false [a] [((s.me.getV a).elemType, s.me.vl)] = none :=
    Strand.vectorTrap_eq_none rfl hs (by simpa using hl) (by simpa using hfit)
  refine ⟨_, ?_, State.predicateSet_endVector 0 fun k hk h => getLsbD_maskOf_active (fun k => (s.me.value a k).nonzero) hk h⟩
  simp only [execPfromv, hnone]

theorem predScalar_of_lanes (hs : s.me.share ≠ 0) (fn : BitVec 6) (f : List Nat → Word) :
    predScalar fn f d qa p s = .next (s.endFrom (s.me.setG d (f (s.me.activeOnes qa p))) 0) := by
  have hnone (w : InstrWord) : s.me.vectorTrap w false [] [] = none :=
    Strand.vectorTrap_eq_none rfl hs (by simp) (by simp)
  simp only [predScalar, hnone]

/-- R41: with VSTART at or beyond VL nothing is written. -/
theorem predScalar_of_skip (hs : s.me.share ≠ 0) (h : s.me.vl ≤ s.me.vstart) (fn : BitVec 6) (f : List Nat → Word) :
    ∃ t, predScalar fn f d qa p s = .next t ∧ t.me.vstart = 0 ∧ t.me.g = s.me.g := by
  refine ⟨s.endVector s.me 0, ?_, State.endVector_vstart .., State.endVector_g ..⟩
  rw [predScalar_of_lanes hs, State.endFrom_of_skip _ _ _ h]

theorem predScalar_of_begun (hs : s.me.share ≠ 0) (h : s.me.vstart < s.me.vl) (fn : BitVec 6) (f : List Nat → Word) :
    ∃ t, predScalar fn f d qa p s = .next t ∧ t.me.vstart = 0 ∧
      t.me.getG d = if d = 0 then 0 else f (s.me.activeOnes qa p) := by
  refine ⟨s.endVector (s.me.setG d (f (s.me.activeOnes qa p))) 0, ?_, State.endVector_vstart .., ?_⟩
  · rw [predScalar_of_lanes hs, State.endFrom_of_begun _ _ _ h]
  · rw [State.endVector_getG, Strand.getG_setG_self]

theorem Strand.activeOnes_eq (x : Strand) (qa p : BitVec 3) : x.activeOnes qa p =
    (List.range x.vl).filter (fun k => x.takesPart p k && (x.getP qa).getLsbD k) := by
  rw [Strand.activeOnes, Strand.active, Strand.activeFrom, List.filter_filter]
  refine List.filter_congr fun k hk => ?_
  rw [Strand.takesPart, decide_eq_true (List.mem_range.mp hk), Bool.true_and, Bool.and_comm]

/-- The least active element whose bit is set comes first. -/
theorem Strand.activeOnes_head {x : Strand} {k : Nat} (hk : k < x.vl) (hpart : x.takesPart p k = true)
    (hbit : (x.getP qa).getLsbD k = true)
    (hleast : ∀ j, j < k → x.takesPart p j = true → (x.getP qa).getLsbD j = false) :
    ∃ rest, x.activeOnes qa p = k :: rest := by
  have hhead : (x.activeOnes qa p).head? = some k := by
    rw [Strand.activeOnes_eq, List.head?_filter, List.find?_range_eq_some]
    refine ⟨by simp [hpart, hbit], List.mem_range.mpr hk, fun j hj => ?_⟩
    cases hjp : x.takesPart p j with
    | false => rfl
    | true => simp [hleast j hj hjp]
  cases ho : x.activeOnes qa p with
  | nil => rw [ho] at hhead; cases hhead
  | cons i rest => rw [ho] at hhead; cases hhead; exact ⟨rest, rfl⟩

theorem Strand.activeOnes_eq_nil {x : Strand}
    (h : ∀ j, j < x.vl → x.takesPart p j = true → (x.getP qa).getLsbD j = false) : x.activeOnes qa p = [] := by
  rw [Strand.activeOnes_eq, List.filter_eq_nil_iff]
  intro j hj hjp
  obtain ⟨hpart, hbit⟩ := Bool.and_eq_true_iff.mp hjp
  rw [h j (List.mem_range.mp hj) hpart] at hbit
  cases hbit

/-- PCNT counts the active elements whose bit is set. -/
theorem execPcnt_of_begun (hs : s.me.share ≠ 0) (h : s.me.vstart < s.me.vl) :
    ∃ t, execPcnt d qa p s = .next t ∧ t.me.vstart = 0 ∧ t.me.getG d = if d = 0 then 0 else BitVec.ofNat 64
      ((List.range s.me.vl).filter (fun k => s.me.takesPart p k && (s.me.getP qa).getLsbD k)).length := by
  rw [execPcnt, ← Strand.activeOnes_eq]
  exact predScalar_of_begun hs h 7 _

/-- PFIRST: the first of the active elements whose bit is set. -/
theorem execPfirst_of_cons (hs : s.me.share ≠ 0) (h : s.me.vstart < s.me.vl) {k : Nat} {rest : List Nat}
    (hk : s.me.activeOnes qa p = k :: rest) :
    ∃ t, execPfirst d qa p s = .next t ∧ t.me.getG d = if d = 0 then 0 else BitVec.ofNat 64 k := by
  rw [execPfirst]
  obtain ⟨t, ht, -, hg⟩ := predScalar_of_begun (d := d) (qa := qa) (p := p) hs h 8 _
  rw [hk] at hg
  exact ⟨t, ht, hg⟩

/-- PFIRST: all ones where there is none. -/
theorem execPfirst_of_nil (hs : s.me.share ≠ 0) (h : s.me.vstart < s.me.vl) (hnil : s.me.activeOnes qa p = []) :
    ∃ t, execPfirst d qa p s = .next t ∧ t.me.getG d = if d = 0 then 0 else BitVec.allOnes 64 := by
  rw [execPfirst]
  obtain ⟨t, ht, -, hg⟩ := predScalar_of_begun (d := d) (qa := qa) (p := p) hs h 8 _
  rw [hnil] at hg
  exact ⟨t, ht, hg⟩

/-- R164: 1 and 0 fit every integer type, clamped or not. -/
theorem deliverInt_bit {w : Nat} (h : 8 ≤ w) (sg sat c : Bool) :
    deliverInt w sg sat (if c then 1 else 0) = if c then 1 else 0 := by
  have hhalf : (2 : Int) ≤ 2 ^ (w - 1) := by
    calc (2 : Int) = 2 ^ 1 := rfl
      _ ≤ 2 ^ (w - 1) := pow_le_pow_right₀ (by norm_num) (by omega)
  have hfull : (2 : Int) ^ w = 2 * 2 ^ (w - 1) := by rw [← pow_succ']; congr 1; omega
  have hclamp (v : Int) (h0 : 0 ≤ v) (h1 : v ≤ 1) : deliverInt w sg sat v = v.toNat := by
    unfold deliverInt
    dsimp only
    rw [hfull]
    congr 1
    cases sg <;> cases sat <;> simp only [if_true, if_false, Bool.false_eq_true] <;>
      (rw [Int.emod_eq_of_lt] <;> omega)
  cases c
  · exact hclamp 0 le_rfl (by norm_num)
  · exact hclamp 1 (by norm_num) le_rfl

theorem execPtov_of_int {w : Nat} {sg : Bool} (hs : s.me.share ≠ 0)
    (ht : elemOf (vtypeTag (s.me.destVtype d 0x09)) = .int w sg) (hfit : s.me.vl ≤ 8192 / w) (hw : 8 ≤ w) :
    ∃ t, execPtov d qa p s = .next t ∧
      s.WroteElements t d (freshVtype 0x09) false p (fun k => if (s.me.getP qa).getLsbD k then 1 else 0) := by
  have hmax : (Elem.int w sg).vlmax = 8192 / w := if_neg (by change w ≠ 0; omega)
  have hnone (word : InstrWord) : s.me.vectorTrap word (s.me.badRounding (s.me.destVtype d 0x09) false) []
      [(elemOf (vtypeTag (s.me.destVtype d 0x09)), s.me.vl)] = none :=
    Strand.vectorTrap_eq_none (Strand.badRounding_of_int (by rw [ht]; rfl)) hs (by simp) fun h hh => by
      rw [List.mem_singleton.mp hh, ht]
      exact hmax ▸ hfit
  have hbx (q : BxFmt) : elemOf (vtypeTag (s.me.destVtype d 0x09)) ≠ .bx q := by
    rw [ht]
    exact Elem.noConfusion
  have h := State.wroteElements_deliver_part hbx ((s.me.roundingOf (s.me.destVtype d 0x09)).getD .rne) p
    (fun k => .int (if (s.me.getP qa).getLsbD k then 1 else 0))
    (s.me.deliver d 0x09 ((s.me.roundingOf (s.me.destVtype d 0x09)).getD .rne)
      ((s.me.active p).map (fun i => (i, .int (if (s.me.getP qa).getLsbD i then 1 else 0))))).2
  simp only [ht, Elem.deliver, deliverInt_bit hw] at h
  refine ⟨_, ?_, h⟩
  simp only [execPtov, hnone]

end

theorem getLsbD_not_of_lt (v : BitVec 2048) {k : Nat} (hk : k < 2048) : (~~~v).getLsbD k = !v.getLsbD k := by
  rw [BitVec.getLsbD_not, decide_eq_true hk, Bool.true_and]

section
variable {s : State} {q p : BitVec 3} {a b : BitVec 5} {f : BitVec 2} {y : Second} {tag : BitVec 8}
  (hs : s.me.share ≠ 0) (hy : s.me.second f (s.me.getV a).elemType b = y)
  (hfit : ∀ n ∈ [a] ++ y.regs, s.me.vl ≤ (s.me.getV n).elemType.vlmax)
include hs hy hfit

/-- R156: a comparison of integers. -/
theorem compareOp_int {w : Nat} {sg : Bool} (hres : s.me.resolveWith [a] y = .ok (.int w sg) tag) (fn : BitVec 6)
    (onInt : Int → Int → Bool) (onFp : FVal → FVal → Bool) (loud : Bool) {g : Nat → Bool}
    (hg : ∀ k, onInt (s.me.value a k).toI (s.me.secondAt y k).toI = g k) :
    ∃ t, compareOp fn ⟨some onInt, onFp, loud⟩ q a b f p s = .next t ∧ s.PredicateSet t q p g := by
  obtain ⟨t, ht, hset, -⟩ := compareOp_of_ok (q := q) (p := p) hs hy hres hfit fn (c := ⟨some onInt, onFp, loud⟩) rfl
  exact ⟨t, ht, hset.congr hg⟩

/-- R156: a comparison of floating values, and the NV it raises for a NaN, if `loud`, or a signalling one. -/
theorem compareOp_float (hres : s.me.resolveWith [a] y = .ok .float tag) (fn : BitVec 6)
    (onInt : Option (Int → Int → Bool)) (onFp : FVal → FVal → Bool) (loud : Bool) {g raises : Nat → Bool}
    (hg : ∀ k, onFp (s.me.value a k).toF (s.me.secondAt y k).toF = g k)
    (hraises : ∀ k, (if loud then (s.me.value a k).toF.isNan || (s.me.secondAt y k).toF.isNan
      else (s.me.value a k).toF.isSignalling || (s.me.secondAt y k).toF.isSignalling) = raises k) :
    (∃ t, compareOp fn ⟨onInt, onFp, loud⟩ q a b f p s = .next t ∧ s.PredicateSet t q p g) ∧
    ∃ t, compareOp fn ⟨onInt, onFp, loud⟩ q a b f p s = .next t ∧
      t.me.fflags = s.me.fflags ||| (if (s.me.active p).any raises then flagNV else 0) := by
  obtain ⟨t, ht, hset, hfl⟩ := compareOp_of_ok (q := q) (p := p) hs hy hres hfit fn (c := ⟨onInt, onFp, loud⟩) rfl
  refine ⟨⟨t, ht, hset.congr hg⟩, t, ht, ?_⟩
  rw [hfl, ← orFlags_map_flagIf]
  congr 3
  funext k
  rw [Comparison.raised_float _ _ _ _ _ rfl rfl, ← hraises]

end

/-- Of two numbers neither is below the other, or one is. -/
theorem FVal.eq_eq (u v : FVal) : u.eq v = (!(u.isNan || v.isNan) && !u.lt v && !v.lt u) := by
  rw [FVal.eq, Bool.not_or]

theorem FVal.lt_eq (u v : FVal) : u.lt v = (!(u.isNan || v.isNan) && u.lt v) := by
  cases h : u.isNan || v.isNan with
  | true => rw [FVal.lt_of_isNan h]; rfl
  | false => rfl

theorem FVal.le_eq (u v : FVal) : (u.lt v || u.eq v) = (!(u.isNan || v.isNan) && !v.lt u) := by
  rw [FVal.eq_eq]
  cases hn : u.isNan || v.isNan with
  | true => rw [FVal.lt_of_isNan hn]; rfl
  | false =>
    cases h : u.lt v with
    | true => rw [FVal.lt_asymm h]; rfl
    | false => rfl

theorem FVal.ne_eq (u v : FVal) : (!u.eq v) = ((u.isNan || v.isNan) || u.lt v || v.lt u) := by
  rw [FVal.eq_eq]
  simp [Bool.or_assoc]

theorem FVal.gt_eq (u v : FVal) : v.lt u = (!(u.isNan || v.isNan) && v.lt u) := by
  rw [Bool.or_comm]
  exact FVal.lt_eq v u

theorem FVal.ge_eq (u v : FVal) : (v.lt u || u.eq v) = (!(u.isNan || v.isNan) && !u.lt v) := by
  have hcomm : u.eq v = v.eq u := by
    rw [FVal.eq_eq, FVal.eq_eq, Bool.or_comm, Bool.and_assoc, Bool.and_assoc, Bool.and_comm (!u.lt v)]
  rw [hcomm, Bool.or_comm u.isNan]
  exact FVal.le_eq v u

theorem comparisonsAndPredicates : Claims.ComparisonsAndPredicates := by
  intro s q qa qb p d a b f x y act set hs hvl hvs
  have lanes (fn : BitVec 6) (op : BitVec 2048 → BitVec 2048 → BitVec 2048) (r r' : BitVec 3) (g : Nat → Bool)
      (h : ∀ k, k < 2048 → (op (s.me.getP r) (s.me.getP r')).getLsbD k = g k) :
      ∃ t, predOp fn op q r r' p s = .next t ∧ s.PredicateSet t q p g := predOp_of_lanes hs fn h
  refine ⟨?_, ?_, ?_, ?_, ?_, ?_, ?_, ?_, ?_, execPfromv_of_live hs, fun h i hi => ?_,
    fun h => ?_, fun k hk hpart hbit hleast => ?_, fun h hnone => ?_, fun w sg ht hfit hw => execPtov_of_int hs ht hfit hw⟩
  · intro w sg tag hres hfit u v
    have cmp := compareOp_int (q := q) (p := p) hs rfl hfit hres
    exact ⟨cmp 0 (fun x y => x == y) _ _ fun _ => rfl, cmp 1 (fun x y => x != y) _ _ fun _ => (decide_not ..).symm,
      cmp 2 (fun x y => decide (x < y)) _ _ fun _ => rfl, cmp 3 (fun x y => decide (x ≤ y)) _ _ fun _ => rfl,
      cmp 4 (fun x y => decide (y < x)) _ _ fun _ => rfl, cmp 5 (fun x y => decide (y ≤ x)) _ _ fun _ => rfl⟩
  · intro tag hres hfit u v nan signal below above compared
    have cmp := compareOp_float (q := q) (p := p) hs rfl hfit hres
    refine ⟨cmp 0 _ FVal.eq false (fun k => FVal.eq_eq ..) fun _ => rfl,
      cmp 1 _ (fun x y => !x.eq y) false (fun k => FVal.ne_eq ..) fun _ => rfl,
      cmp 2 _ FVal.lt true (fun k => FVal.lt_eq ..) fun _ => rfl,
      cmp 3 _ (fun x y => x.lt y || x.eq y) true (fun k => FVal.le_eq ..) fun _ => rfl,
      cmp 4 _ (fun x y => y.lt x) true (fun k => FVal.gt_eq ..) fun _ => rfl,
      cmp 5 _ (fun x y => y.lt x || x.eq y) true (fun k => FVal.ge_eq ..) fun _ => rfl,
      cmp 6 _ (fun x y => x.isNan || y.isNan) false (fun k => rfl) fun _ => rfl⟩
  · exact lanes 0 (· &&& ·) qa qb _ fun k _ => BitVec.getLsbD_and
  · exact lanes 1 (· ||| ·) qa qb _ fun k _ => BitVec.getLsbD_or
  · exact lanes 2 (· ^^^ ·) qa qb _ fun k _ => BitVec.getLsbD_xor
  · exact lanes 3 (fun x y => x &&& ~~~y) qa qb _ fun k hk => BitVec.getLsbD_and.trans (by rw [getLsbD_not_of_lt _ hk])
  · exact lanes 4 (fun x _ => ~~~x) qa 0 _ fun k hk => getLsbD_not_of_lt _ hk
  · exact lanes 5 (fun _ _ => BitVec.allOnes 2048) 0 0 _ fun k hk => BitVec.getLsbD_allOnes.trans (decide_eq_true hk)
  · exact lanes 6 (fun _ _ => 0) 0 0 _ fun k _ => BitVec.getLsbD_zero
  · simp only [List.mem_cons, List.not_mem_nil, or_false] at hi
    obtain rfl | rfl := hi
    · rw [exec_pcnt, execPcnt]
      exact predScalar_of_skip hs h 7 _
    · rw [exec_pfirst, execPfirst]
      exact predScalar_of_skip hs h 8 _
  · rw [exec_pcnt]
    exact execPcnt_of_begun hs h
  · have hlt : x.vstart < x.vl := by
      obtain ⟨hle, -⟩ := Bool.and_eq_true_iff.mp hpart
      exact Nat.lt_of_le_of_lt (of_decide_eq_true (Bool.and_eq_true_iff.mp hle).2) hk
    obtain ⟨rest, hhead⟩ := Strand.activeOnes_head hk hpart hbit hleast
    rw [exec_pfirst]
    exact execPfirst_of_cons hs hlt hhead
  · rw [exec_pfirst]
    exact execPfirst_of_nil hs h (Strand.activeOnes_eq_nil hnone)

end Sys2Proof.Machine
end

section
/-! ### O27: permutes and fills (R149, R160 to R162) -/
namespace Sys2Proof.Machine

/-! #### What a raw write leaves -/

theorem State.WroteAt.fflags_written (s : State) (d : BitVec 5) (vt : BitVec 16) (l : List (Nat × Nat)) :
    (s.endVector (s.me.written d vt l) 0).me.fflags = s.me.fflags :=
  (State.endVector_fflags ..).trans BitVec.or_zero

theorem State.endVector_written_elemType (s : State) (d : BitVec 5) (vt : BitVec 16) (l : List (Nat × Nat)) (fl : Flags) :
    ((s.endVector (s.me.written d vt l) fl).me.getV d).elemType = elemOf (vtypeTag vt) := by
  rw [State.endVector_getV, Strand.written, Strand.getV_setV_same, VReg.putAll_elemType, VReg.elemType]

/-- What a register holds of a value is its low bits. -/
theorem State.WroteAt.congr_mod {s t : State} {d : BitVec 5} {fresh : BitVec 16} {skips : Bool} {g g' : Nat → Option Nat}
    (h : s.WroteAt t d fresh skips g)
    (hg : ∀ k, (g k).map (· % 2 ^ (t.me.getV d).elemType.width) = (g' k).map (· % 2 ^ (t.me.getV d).elemType.width)) :
    s.WroteAt t d fresh skips g' := by
  obtain ⟨hvt, hraw, hrest⟩ := h
  refine ⟨hvt, fun k hk => (hraw k hk).trans ?_, hrest⟩
  have hk := hg k
  cases h : g k with
  | none =>
    rw [h] at hk
    rw [Option.map_eq_none_iff.mp hk.symm]
  | some v =>
    rw [h] at hk
    obtain ⟨v', h', hv⟩ := Option.map_eq_some_iff.mp hk.symm
    rw [h']
    exact hv.symm

theorem Elem.vlmax_congr {t t' : Elem} (h : t.width = t'.width) : t.vlmax = t'.vlmax := by rw [Elem.vlmax, h, Elem.vlmax]

/-! #### Permutes (R162) -/

section
variable {s : State} {d a : BitVec 5} {p : BitVec 3} {same other : List (BitVec 5)}
  (hs : s.me.share ≠ 0) (hd : (s.me.getV d).elemType = .dead ∨ vtypeTag (s.me.getV d).vtype = vtypeTag (s.me.getV a).vtype)
  (ha : a ∈ same) (htag : ∀ n ∈ same, vtypeTag (s.me.getV n).vtype = vtypeTag (s.me.getV a).vtype)
  (hlive : ∀ n ∈ same ++ other, (s.me.getV n).elemType ≠ .dead)
  (hfit : ∀ n ∈ same ++ other, s.me.vl ≤ (s.me.getV n).elemType.vlmax)
include hd htag

theorem Strand.tagsDiffer_of_same : s.me.tagsDiffer same d = false := by
  have hall : ∀ n ∈ same ++ [d], (s.me.getV n).elemType ≠ .dead → s.me.tag n = vtypeTag (s.me.getV a).vtype := by
    intro n hn hl
    obtain hn | hn := List.mem_append.mp hn
    · exact htag n hn
    · cases List.mem_singleton.mp hn
      exact hd.resolve_left hl
  refine Bool.eq_false_iff.mpr fun h => ?_
  obtain ⟨n, hn, m, hm, hln, hlm, hne⟩ := (s.me.tagsDiffer_iff same d).mp h
  exact hne ((hall n hn hln).trans (hall m hm hlm).symm)

include hs ha hlive hfit

/-- A permute whose sources and destination share one tag writes what it names. -/
theorem permuteOp_of_same (word : InstrWord) {bad : Bool} (hbad : bad = false) (out : Strand → List (Nat × Nat)) :
    permuteOp word bad same other d a out s = .next (s.endVector (s.me.written d
      (if (s.me.getV d).elemType = .dead then (s.me.getV a).vtype else (s.me.getV d).vtype) (out s.me)) 0) := by
  have hroom : s.me.vl ≤ (if (s.me.getV d).elemType = .dead then (s.me.getV a).elemType
      else (s.me.getV d).elemType).vlmax := by
    have hva := hfit a (List.mem_append_left _ ha)
    split
    · exact hva
    · next h => rwa [VReg.elemType, hd.resolve_left h]
  have hnone : s.me.vectorTrap word (bad || s.me.tagsDiffer same d) _ _ = none :=
    Strand.vectorTrap_eq_none (by rw [hbad, Strand.tagsDiffer_of_same hd htag]; rfl) hs hlive
      (Strand.held_fit hroom hfit)
  simp only [permuteOp, hnone, Strand.deliverRaw_eq]

/-- The same, the writes given as a partial function. -/
theorem exec_permute_left {i : Instr} {word : InstrWord} {bad : Bool} {out : Strand → List (Nat × Nat)}
    (hi : exec i s = permuteOp word bad same other d a out s) (hbad : bad = false) (g : Nat → Option Nat)
    (hg : ∀ k v, (k, v) ∈ out s.me ↔ g k = some v) :
    ∃ t, exec i s = .next t ∧ t.me.fflags = s.me.fflags ∧ s.WroteAt t d (s.me.getV a).vtype false g :=
  ⟨_, hi.trans (permuteOp_of_same hs hd ha htag hlive hfit word hbad out), State.WroteAt.fflags_written ..,
    State.wroteAt_written 0 rfl hg⟩

/-- The same, one value at each active element. -/
theorem exec_permute_moves {i : Instr} {word : InstrWord} {bad : Bool} {out : Strand → List (Nat × Nat)}
    (hi : exec i s = permuteOp word bad same other d a out s) (hbad : bad = false) (f : Nat → Nat)
    (hout : out s.me = (s.me.activeFrom 0 p).map (fun i => (i, f i))) :
    ∃ t, exec i s = .next t ∧ t.me.fflags = s.me.fflags ∧ s.WroteElements t d (s.me.getV a).vtype true p f :=
  ⟨_, hi.trans (permuteOp_of_same hs hd ha htag hlive hfit word hbad out), State.WroteAt.fflags_written ..,
    hout ▸ State.wroteElements_whole f 0 rfl⟩

end

/-! #### The active elements in order (VCOMPRESS, VEXPAND) -/

theorem mem_numbered {α : Type} {l : List α} {j : Nat} {x : α} : (j, x) ∈ numbered l ↔ l[j]? = some x := by
  rw [numbered, List.mem_iff_getElem?]
  simp only [List.getElem?_zip_eq_some]
  constructor
  · rintro ⟨n, hn, hx⟩
    obtain ⟨hlt, hnj⟩ := List.getElem?_eq_some_iff.mp hn
    rwa [← hnj, List.getElem_range]
  · intro h
    obtain ⟨hj, -⟩ := List.getElem?_eq_some_iff.mp h
    exact ⟨j, List.getElem?_range hj, h⟩

theorem mem_numbered_map {α β γ : Type} {l : List α} {f : Nat × α → β × γ} {q : β × γ} :
    q ∈ (numbered l).map f ↔ ∃ j x, l[j]? = some x ∧ f (j, x) = q := by
  simp only [List.mem_map, Prod.exists, mem_numbered]

/-- In an ascending list an element's index is the number of elements below it. -/
theorem length_filter_lt_of_getElem? {l : List Nat} (h : l.Pairwise (· < ·)) {i j : Nat} (hj : l[j]? = some i) :
    (l.filter (fun k => decide (k < i))).length = j := by
  induction l generalizing j with
  | nil => cases hj
  | cons a t ih =>
    obtain ⟨hat, ht⟩ := List.pairwise_cons.mp h
    cases j with
    | zero =>
      cases hj
      rw [List.filter_cons_of_neg (by simp), List.filter_eq_nil_iff.mpr fun k hk => by simpa using (hat k hk).le]
      rfl
    | succ j =>
      have hi : i ∈ t := List.mem_of_getElem? hj
      rw [List.filter_cons_of_pos (by simpa using hat i hi), List.length_cons, ih ht hj]

theorem Strand.activeFrom_ascending (x : Strand) (start : Nat) (p : BitVec 3) : (x.activeFrom start p).Pairwise (· < ·) :=
  List.Pairwise.filter _ List.pairwise_lt_range

/-- VCOMPRESS: element j takes the value of the j-th active element. -/
theorem mem_packed {l : List Nat} {f : Nat → Nat} {j v : Nat} :
    (j, v) ∈ (numbered l).map (fun q => (q.1, f q.2)) ↔ l[j]?.map f = some v := by
  rw [mem_numbered_map, Option.map_eq_some_iff]
  simp only [Prod.mk.injEq]
  constructor
  · rintro ⟨j', i, hi, rfl, hv⟩
    exact ⟨i, hi, hv⟩
  · rintro ⟨i, hi, hv⟩
    exact ⟨j, i, hi, rfl, hv⟩

/-- VEXPAND: an active element takes the value whose index is the number of active elements below it. -/
theorem Strand.mem_spread (x : Strand) {p : BitVec 3} (f : Nat → Nat) {i v : Nat} :
    (i, v) ∈ (numbered (x.activeFrom 0 p)).map (fun q => (q.2, f q.1)) ↔
      (if i < x.vl ∧ (x.getP p).getLsbD i = true then
        some (f ((x.activeFrom 0 p).filter (fun j => decide (j < i))).length) else none) = some v := by
  have hact : i < x.vl ∧ (x.getP p).getLsbD i = true ↔ i ∈ x.activeFrom 0 p := by
    rw [Strand.mem_activeFrom]
    exact ⟨fun ⟨hlt, hp⟩ => ⟨hlt, Nat.zero_le i, hp⟩, fun ⟨hlt, _, hp⟩ => ⟨hlt, hp⟩⟩
  have hindex {j : Nat} (hj : (x.activeFrom 0 p)[j]? = some i) :
      ((x.activeFrom 0 p).filter (fun k => decide (k < i))).length = j :=
    length_filter_lt_of_getElem? (x.activeFrom_ascending 0 p) hj
  rw [mem_numbered_map, Option.ite_none_right_eq_some, hact]
  simp only [Prod.mk.injEq, Option.some.injEq]
  constructor
  · rintro ⟨j, i', hj, rfl, hv⟩
    exact ⟨List.mem_of_getElem? hj, by rw [hindex hj, hv]⟩
  · rintro ⟨hi, hv⟩
    obtain ⟨j, hj⟩ := List.mem_iff_getElem?.mp hi
    exact ⟨j, i, hj, rfl, by rw [← hv, hindex hj]⟩

theorem permutes : Claims.Permutes := by
  intro s d a b f p x ta vb tag at_ act same left moved hta hsame hfit
  obtain ⟨hs, -, hva⟩ := hfit
  have one {i word} {out} (hi : exec i s = permuteOp word false [a] [] d a out s) :=
    exec_permute_moves (p := p) hs hsame (by simp) (by simp) (by simpa using hta) hva hi rfl
  have part {i word} {out} (hi : exec i s = permuteOp word false [a] [] d a out s) :=
    exec_permute_left hs hsame (by simp) (by simp) (by simpa using hta) hva hi rfl
  refine ⟨?_, one (exec_vrev ..) (fun i => at_ a (x.vl - 1 - i)) rfl, part (exec_vcompress ..) _ fun _ _ => mem_packed,
    part (exec_vexpand ..) _ fun _ _ => s.me.mem_spread _, fun hf hb hvb => ?_⟩
  · intro hf k
    exact ⟨one (exec_vslideup ..) (fun i => at_ a (i - k)) rfl, one (exec_vslidedn ..) (fun i => at_ a (i + k)) rfl⟩
  have hlive : ∀ n ∈ [a, vb], (x.getV n).elemType ≠ .dead := by simpa using ⟨hta, hb⟩
  have hfit : ∀ n ∈ [a, vb], x.vl ≤ (x.getV n).elemType.vlmax := by simpa using ⟨hva a (List.mem_singleton_self a), hvb⟩
  refine ⟨fun hint => ?_, fun htag => ?_⟩
  · have hbad : ((x.getV vb).elemType != .dead && !(x.getV vb).elemType.isInt) = false := by simp [hint]
    have hi := exec_vpermute s d a b f p
    rw [execVpermute] at hi
    exact exec_permute_moves (p := p) (same := [a]) (other := [vb]) hs hsame (by simp) (by simp) hlive hfit hi hbad
      (fun i => at_ a (x.value vb i).toI) rfl
  · have two {i word} {out} (hi : exec i s = permuteOp word false [a, vb] [] d a out s) :=
      exec_permute_moves (p := p) hs hsame (by simp) (by simpa using htag) hlive hfit hi rfl
    have hzip := exec_vzip s d a b f p
    have hunzip := exec_vunzip s d a b f p
    rw [execVzip] at hzip
    rw [execVunzip] at hunzip
    exact ⟨two hzip (fun i => at_ (if i % 2 = 0 then a else vb) (i / 2 : Nat)) rfl, two hunzip
      (fun i => if 2 * i < x.vl then at_ a (2 * i : Nat) else at_ vb (2 * i - x.vl : Nat)) rfl⟩

/-! #### Fills (R59, R162) -/

/-- An integer delivered to an integer type is not rounded. -/
theorem Elem.deliver_int_of_isInt {t : Elem} (h : t.isInt = true) (m m' : RMode) (sat : Bool) (v : Int) :
    t.deliver m sat (.int v) = t.deliver m' sat (.int v) := by
  cases t with
  | int w sg => rfl
  | _ => cases h

theorem elemOf_int_width {tag : BitVec 8} {w : Nat} {sg : Bool} (h : elemOf tag = .int w sg) : 8 ≤ w := by
  unfold elemOf at h
  split at h <;> cases h <;> decide

theorem intOfBits_of_lt {w : Nat} {v : Int} (h0 : -2 ^ (w - 1) ≤ v) (h1 : v < 2 ^ (w - 1)) (hw : 0 < w) :
    intOfBits w true (v % 2 ^ w).toNat = v := by
  have hfull : (2 : Int) ^ w = 2 * 2 ^ (w - 1) := by rw [← pow_succ']; congr 1; omega
  have hpos : (0 : Int) < 2 ^ w := by positivity
  have hcast : ((2 ^ (w - 1) : Nat) : Int) = 2 ^ (w - 1) := by push_cast; rfl
  have hmod : ((v % 2 ^ w).toNat : Int) = v % 2 ^ w := Int.toNat_of_nonneg (Int.emod_nonneg _ hpos.ne')
  rw [intOfBits, Bool.true_and]
  by_cases hv : 0 ≤ v
  · have hlow : v % 2 ^ w = v := Int.emod_eq_of_lt hv (by omega)
    rw [if_neg (by rw [decide_eq_true_iff]; omega), hmod, hlow]
  · have hhigh : v % 2 ^ w = v + 2 ^ w := by
      rw [← Int.add_emod_right]
      exact Int.emod_eq_of_lt (by omega) (by omega)
    rw [if_pos (by rw [decide_eq_true_iff]; omega), hmod, hhigh]
    omega

/-- R59, R162: the immediate of VBCAST as the type it is extended into reads it. -/
theorem Elem.extended_imm (tag : BitVec 8) (b : BitVec 5) : (elemOf tag).extended (viImm b) =
    match elemOf tag with
    | .int w false => b.toInt % 2 ^ w
    | _ => b.toInt := by
  cases h : elemOf tag with
  | int w sg =>
    have hw : 8 ≤ w := elemOf_int_width h
    have hhalf : (16 : Int) ≤ 2 ^ (w - 1) := by
      calc (16 : Int) = 2 ^ 4 := rfl
        _ ≤ 2 ^ (w - 1) := pow_le_pow_right₀ (by norm_num) (by omega)
    have hpos : (0 : Int) < 2 ^ w := by positivity
    cases sg with
    | true =>
      have hlow : -16 ≤ b.toInt := BitVec.le_toInt b
      have hhigh : b.toInt < 16 := BitVec.toInt_lt
      exact intOfBits_of_lt (by simp only [viImm]; omega) (by simp only [viImm]; omega) (by omega)
    | false => exact Int.toNat_of_nonneg (Int.emod_nonneg _ hpos.ne')
  | _ => rfl

section
variable {s : State} {d a b c : BitVec 5} {f : BitVec 2} {p : BitVec 3}

/-- A fill reads no register: it needs lanes and room. -/
theorem Strand.vectorTrap_fill {x : Strand} (hs : x.share ≠ 0) {t : Elem} (ht : x.vl ≤ t.vlmax) (w : InstrWord) {bad : Bool}
    (hbad : bad = false) : x.vectorTrap w bad [] [(t, x.vl)] = none :=
  Strand.vectorTrap_eq_none hbad hs (by simp) (by simpa using ht)

/-- R146: integers delivered from element 0 on. -/
theorem State.fill_deliver {tag : BitVec 8} {mode : RMode} (hbx : ∀ q, elemOf (vtypeTag (s.me.destVtype d tag)) ≠ .bx q)
    (hmode : (elemOf (vtypeTag (s.me.destVtype d tag))).isInt = true ∨ s.me.roundingOf (s.me.destVtype d tag) = some mode)
    {v v' : Nat → Int} (hv : ∀ k, v k = v' k) :
    let r := s.me.deliver d tag ((s.me.roundingOf (s.me.destVtype d tag)).getD .rne)
      ((s.me.activeFrom 0 p).map (fun i => (i, .int (v i))))
    let put (k : Nat) : Nat × Flags :=
      (elemOf (vtypeTag (s.me.destVtype d tag))).deliver mode ((s.me.destVtype d tag).getLsbD 8) (.int (v' k))
    (s.endVector r.1 r.2).me.fflags = s.me.fflags ||| orFlags ((s.me.activeFrom 0 p).map (fun k => (put k).2)) ∧
      s.WroteElements (s.endVector r.1 r.2) d (freshVtype tag) true p (fun k => (put k).1) := by
  intro r put
  have hput (k : Nat) : (elemOf (vtypeTag (s.me.destVtype d tag))).deliver
      ((s.me.roundingOf (s.me.destVtype d tag)).getD .rne) ((s.me.destVtype d tag).getLsbD 8) (.int (v k)) = put k := by
    rw [hv]
    obtain h | h := hmode
    · exact Elem.deliver_int_of_isInt h _ _ _ _
    · rw [h]; rfl
  refine ⟨?_, ?_⟩
  · rw [State.endVector_fflags, Strand.deliver_fflags, Strand.deliver_flags hbx]
    simp only [hput]
  · have h := State.wroteElements_deliver_whole hbx ((s.me.roundingOf (s.me.destVtype d tag)).getD .rne) p
      (fun k => .int (v k)) r.2
    simp only [hput] at h
    exact h

/-- The rounding of a fill is no reason to trap (R45). -/
theorem Strand.badRounding_fill {x : Strand} {vt : BitVec 16} {mode : RMode}
    (h : (elemOf (vtypeTag vt)).isInt = true ∨ x.roundingOf vt = some mode) : x.badRounding vt false = false :=
  h.elim Strand.badRounding_of_int fun h => Strand.badRounding_of_mode h false

theorem execVid_fills {mode : RMode} (hs : s.me.share ≠ 0)
    (hroom : s.me.vl ≤ (elemOf (vtypeTag (s.me.destVtype d 0x0A))).vlmax)
    (hmode : (elemOf (vtypeTag (s.me.destVtype d 0x0A))).isInt = true ∨ s.me.roundingOf (s.me.destVtype d 0x0A) = some mode) :
    let r := s.me.deliver d 0x0A ((s.me.roundingOf (s.me.destVtype d 0x0A)).getD .rne)
      ((s.me.activeFrom 0 p).map (fun i => (i, .int i)))
    execVid d p s = .next (s.endVector r.1 r.2) := by
  simp only [execVid, Strand.vectorTrap_fill hs hroom _ (Strand.badRounding_fill hmode)]

theorem execVbcast_imm {mode : RMode} (hs : s.me.share ≠ 0)
    (hroom : s.me.vl ≤ (elemOf (vtypeTag (s.me.destVtype d 0x04))).vlmax)
    (hmode : (elemOf (vtypeTag (s.me.destVtype d 0x04))).isInt = true ∨ s.me.roundingOf (s.me.destVtype d 0x04) = some mode) :
    let r := s.me.deliver d 0x04 ((s.me.roundingOf (s.me.destVtype d 0x04)).getD .rne) ((s.me.activeFrom 0 p).map
      (fun i => (i, .int ((elemOf (vtypeTag (s.me.destVtype d 0x04))).extended (viImm b)))))
    execVbcast d b 2 p s = .next (s.endVector r.1 r.2) := by
  have hbad : ((2 : BitVec 2) == 2 && s.me.badRounding (s.me.destVtype d 0x04) false) = false :=
    Strand.badRounding_fill hmode
  rw [execVbcast]
  simp only [Strand.vectorTrap_fill hs hroom _ hbad, if_true]

/-- A raw fill or insertion: the vtype vd has, or takes when DEAD (R37). -/
theorem Strand.deliverRaw_destVtype (x : Strand) (d : BitVec 5) (tag : BitVec 8) (l : List (Nat × Nat)) :
    x.deliverRaw d (x.destVtype d tag) l = x.written d (x.destVtype d tag) l := by
  rw [Strand.deliverRaw_eq]
  congr 1
  split
  · rfl
  · next h => exact (Strand.destVtype_of_live h tag).symm

theorem execVbcast_scalar (hs : s.me.share ≠ 0)
    (hroom : s.me.vl ≤ (elemOf (vtypeTag (s.me.destVtype d 0x04))).vlmax) :
    ∃ t, execVbcast d b 1 p s = .next t ∧ t.me.fflags = s.me.fflags ∧
      s.WroteElements t d (freshVtype 0x04) true p (fun _ => (s.g b).toNat) := by
  have hnone (w : InstrWord) : s.me.vectorTrap w ((1 : BitVec 2) == 2 && s.me.badRounding (s.me.destVtype d 0x04) false) []
      [(elemOf (vtypeTag (s.me.destVtype d 0x04)), s.me.vl)] = none := Strand.vectorTrap_fill hs hroom w rfl
  refine ⟨s.endVector (s.me.written d (s.me.destVtype d 0x04) ((s.me.activeFrom 0 p).map (fun i =>
    (i, (s.me.getG b).toNat % 2 ^ (elemOf (vtypeTag (s.me.destVtype d 0x04))).width)))) 0, ?_,
    State.WroteAt.fflags_written .., ?_⟩
  · rw [execVbcast]
    simp only [hnone, Strand.deliverRaw_destVtype]
    rfl
  · refine (State.wroteElements_whole (vt := s.me.destVtype d 0x04) _ 0 rfl).congr_mod fun k => ?_
    simp only [State.endVector_written_elemType, Option.map_if, Nat.mod_mod, State.g]

theorem execVins_moves (hs : s.me.share ≠ 0) (hroom : s.me.vl ≤ (elemOf (vtypeTag (s.me.destVtype d 0x04))).vlmax) :
    ∃ t, execVins d c b f p s = .next t ∧ t.me.fflags = s.me.fflags ∧ s.WroteAt t d (freshVtype 0x04) false (fun i =>
      if (i : Int) = s.me.slideBy f b ∧ i < s.me.vl ∧ (s.me.getP p).getLsbD i = true then some (s.g c).toNat else none) := by
  have hnone (w : InstrWord) := Strand.vectorTrap_fill hs hroom w (bad := false) rfl
  simp only [execVins, hnone, Strand.deliverRaw_destVtype]
  refine ⟨_, rfl, State.WroteAt.fflags_written .., (State.wroteAt_written (vt := s.me.destVtype d 0x04) (g := fun i =>
    if (i : Int) = s.me.slideBy f b ∧ i < s.me.vl ∧ (s.me.getP p).getLsbD i = true then
      some ((s.g c).toNat % 2 ^ (elemOf (vtypeTag (s.me.destVtype d 0x04))).width) else none) 0 rfl fun i v => ?_).congr_mod
      fun i => ?_⟩
  · rw [Option.ite_none_right_eq_some, List.mem_ite_nil_right, Bool.and_eq_true, Bool.and_eq_true, decide_eq_true_iff,
      decide_eq_true_iff, List.mem_singleton, Prod.mk.injEq, Option.some.injEq]
    constructor
    · rintro ⟨⟨⟨h0, hlt⟩, hp⟩, rfl, rfl⟩
      exact ⟨⟨Int.toNat_of_nonneg h0, by omega, hp⟩, rfl⟩
    · rintro ⟨⟨hi, hlt, hp⟩, rfl⟩
      rw [← hi]
      exact ⟨⟨⟨Int.natCast_nonneg i, by omega⟩, hp⟩, rfl, rfl⟩
  · rw [State.endVector_written_elemType, Option.map_if, Option.map_if, Nat.mod_mod]

theorem execVextr_reads (hs : s.me.share ≠ 0) (ha : (s.me.getV a).elemType ≠ .dead)
    (hfit : s.me.vl ≤ (s.me.getV a).elemType.vlmax) :
    ∃ t, execVextr d a b f p s = .next t ∧ t.me.v = s.me.v ∧ t.me.vstart = 0 ∧ t.me.getG d = if d = 0 then 0 else
      BitVec.ofInt 64 (match (s.me.getV a).elemType with
        | .int w sg => intOfBits w sg (s.me.readElem (s.me.getV a) p (s.me.slideBy f b))
        | _ => (s.me.readElem (s.me.getV a) p (s.me.slideBy f b) : Int)) := by
  have hnone (w : InstrWord) : s.me.vectorTrap w false [a] [((s.me.getV a).elemType, s.me.vl)] = none :=
    Strand.vectorTrap_eq_none rfl hs (by simpa using ha) (by simpa using hfit)
  simp only [execVextr, hnone]
  refine ⟨_, rfl, ?_, State.endVector_vstart .., ?_⟩
  · rw [State.endVector_v, Strand.setG_only]
  · exact (State.endVector_getG ..).trans (Strand.getG_setG_self ..)

theorem Strand.widthsDiffer_single {x : Strand} (h : (x.getV d).elemType = .dead ∨ (x.getV d).elemType.width =
    (x.getV a).elemType.width) : x.widthsDiffer [a] d = false := by
  have hall : ∀ u ∈ [(x.getV d).elemType, (x.getV a).elemType].filter (fun u => u != .dead),
      u.width = (x.getV a).elemType.width := by
    intro u hu
    obtain ⟨hu, hl⟩ := List.mem_filter.mp hu
    obtain rfl | hu := List.mem_cons.mp hu
    · exact h.resolve_left (bne_iff_ne.mp hl)
    · rw [List.mem_singleton.mp hu]
  refine Bool.eq_false_iff.mpr fun hdiff => ?_
  obtain ⟨u, hu, hdiff⟩ := List.any_eq_true.mp hdiff
  obtain ⟨v, hv, hne⟩ := List.any_eq_true.mp hdiff
  exact bne_iff_ne.mp hne ((hall u hu).trans (hall v hv).symm)

theorem execVmvix_moves (hs : s.me.share ≠ 0) (ha : (s.me.getV a).elemType ≠ .dead)
    (hfit : s.me.vl ≤ (s.me.getV a).elemType.vlmax) {vd : BitVec 5} (hvd : (s.me.getG d).extractLsb' 0 5 = vd)
    (h : (s.me.getV vd).elemType = .dead ∨ (s.me.getV vd).elemType.width = (s.me.getV a).elemType.width) :
    ∃ t, execVmvix d a p s = .next t ∧ t.me.fflags = s.me.fflags ∧
      s.WroteElements t vd (s.me.getV a).vtype true p (fun i => (s.me.getV a).raw i) := by
  have hroom : s.me.vl ≤ (if (s.me.getV vd).elemType = .dead then (s.me.getV a).elemType
      else (s.me.getV vd).elemType).vlmax := by
    split
    · exact hfit
    · next hl => rwa [Elem.vlmax_congr (h.resolve_left hl)]
  have hnone (w : InstrWord) : s.me.vectorTrap w (s.me.widthsDiffer [a] vd) [a]
      [(if (s.me.getV vd).elemType = .dead then (s.me.getV a).elemType else (s.me.getV vd).elemType, s.me.vl),
        ((s.me.getV a).elemType, s.me.vl)] = none :=
    Strand.vectorTrap_eq_none (Strand.widthsDiffer_single h) hs (by simpa using ha)
      (Strand.held_fit (regs := [a]) hroom (by simpa using hfit))
  refine ⟨_, ?_, State.WroteAt.fflags_written .., State.wroteElements_whole _ 0 rfl⟩
  rw [← Strand.deliverRaw_eq]
  simp only [execVmvix, hvd, hnone]

end

theorem singleElementsAndFills : Claims.SingleElementsAndFills := by
  intro s d a b c f p mode x ta k vd dest room filled hs
  refine ⟨fun hf => ⟨fun ha hfit => ?_, fun hroom => ?_⟩, fun hroom => ?_, fun hroom hbx hmode => ?_, fun hroom hbx hmode => ?_,
    fun ha hfit hvd => ?_⟩
  · rw [exec_vextr]
    exact execVextr_reads hs ha hfit
  · rw [exec_vins]
    exact execVins_moves hs hroom
  · rw [exec_vbcast]
    exact execVbcast_scalar hs hroom
  · rw [exec_vbcast]
    exact ⟨_, execVbcast_imm hs hroom hmode, State.fill_deliver hbx hmode fun _ => Elem.extended_imm _ b⟩
  · rw [exec_vid]
    exact ⟨_, execVid_fills hs hroom hmode, State.fill_deliver hbx hmode fun _ => rfl⟩
  · rw [exec_vmvix]
    exact execVmvix_moves hs ha hfit rfl hvd

end Sys2Proof.Machine
open Sys2Proof.Machine in
/-- Settles O27: comparisons and predicates by the bits of their masks, permutes by the writes they list, fills by R146. -/
theorem comparesAndPermutes : Obligations.ComparesAndPermutes := ⟨comparisonsAndPredicates, permutes, singleElementsAndFills⟩
end

section
/-! ### O26: element-wise floating instructions (R146, R152, R154, R155, R157 to R159) -/
namespace Sys2Proof.Machine

/-! #### What every floating function comes to -/

/-- The end of a floating element-wise instruction: the exact results `g` of the active elements delivered once, with the
flags of the deliveries and of the functions (R146, R60). -/
def State.floatEnd (s : State) (d : BitVec 5) (tag : BitVec 8) (mode : RMode) (p : BitVec 3) (g : Nat → FVal × Flags) :
    State :=
  let r := s.me.deliver d tag mode ((s.me.active p).map (fun k => (k, .fl (g k).1)))
  s.endFrom r.1 (r.2 ||| orFlags ((s.me.active p).map (fun k => (g k).2)))

section
variable {s : State} {d a b : BitVec 5} {f : BitVec 2} {p : BitVec 3} {tag own : BitVec 8} {mode : RMode} {td : Elem}
  {y : Second}

/-- An element-wise instruction of the floating domain that passes its checks. -/
theorem elementwise_float {word : InstrWord} {ifn : Option IntOp} {op : FpOp} {reads rounds resolveY : Bool}
    {rtag : Option (BitVec 8)} (htag : rtag.getD own = tag) (htd : elemOf (vtypeTag (s.me.destVtype d tag)) = td)
    (hmode : s.me.roundingOf (s.me.destVtype d tag) = some mode)
    (hres : s.me.resolveWith (a :: if reads then [d] else []) (if resolveY then y else .none) = .ok .float own)
    (hlive : ∀ n ∈ [a] ++ y.regs ++ (if reads then [d] else []), (s.me.getV n).elemType ≠ .dead)
    (hfit : s.me.Fits td ([a] ++ y.regs)) :
    elementwise word ifn (some op) reads rounds rtag d a y resolveY p s = .next (s.floatEnd d tag mode p
      (fun k => op ⟨0, false, mode, td⟩ (s.me.value a k).toF (s.me.secondAt y k).toF (s.me.value d k).toF)) := by
  subst htag htd
  obtain ⟨hs, hroom, hregs⟩ := hfit
  have hlegal : s.me.elementIllegal (.ok .float own) ifn (some op) rounds d rtag = false := by
    rw [Strand.elementIllegal, Strand.badRounding_of_mode hmode, Bool.and_false]
    rfl
  rw [elementwise_of_ok hres (Strand.vectorTrap_eq_none hlegal hs hlive (Strand.held_fit hroom hregs))]
  simp only [Strand.elementEffect, State.floatEnd, hmode, Option.getD_some, List.map_map]
  rfl

/-- A binary function of the floating domain. -/
theorem exec_binary_float (htd : elemOf (vtypeTag (s.me.destVtype d tag)) = td)
    (hmode : s.me.roundingOf (s.me.destVtype d tag) = some mode) (hy : s.me.second f (s.me.getV a).elemType b = y)
    (hres : s.me.resolveWith [a] y = .ok .float tag) (hfit : s.me.Fits td ([a] ++ y.regs))
    {i : Instr} {major fn : BitVec 6} {ifn : Option IntOp} {op : FpOp} {rounds : Bool}
    (hi : exec i s = vBinary major fn ifn (some op) false rounds d a b f p s) :
    exec i s = .next (s.floatEnd d tag mode p
      (fun k => op ⟨0, false, mode, td⟩ (s.me.value a k).toF (s.me.secondAt y k).toF (s.me.value d k).toF)) := by
  subst hy
  exact hi.trans (elementwise_float rfl htd hmode hres (by simpa using Strand.live_of_resolveWith hres) hfit)

/-- A function of the floating domain that reads vd too. -/
theorem exec_ternary_float (htd : elemOf (vtypeTag (s.me.destVtype d tag)) = td)
    (hmode : s.me.roundingOf (s.me.destVtype d tag) = some mode) (hy : s.me.second f (s.me.getV a).elemType b = y)
    (hres : s.me.resolveWith [a, d] y = .ok .float tag) (hfit : s.me.Fits td ([a] ++ y.regs))
    {i : Instr} {major fn : BitVec 6} {ifn : Option IntOp} {op : FpOp} {rounds : Bool}
    (hi : exec i s = vBinary major fn ifn (some op) true rounds d a b f p s) :
    exec i s = .next (s.floatEnd d tag mode p
      (fun k => op ⟨0, false, mode, td⟩ (s.me.value a k).toF (s.me.secondAt y k).toF (s.me.value d k).toF)) := by
  subst hy
  have hlive := Strand.live_of_resolveWith hres
  refine hi.trans (elementwise_float rfl htd hmode hres (fun n hn => hlive n ?_) hfit)
  simp only [List.mem_append, List.mem_cons, List.not_mem_nil, or_false, if_true] at hn ⊢
  tauto

/-- A unary function of the floating domain, into va's tag or one of its own. -/
theorem exec_unary_float (htd : elemOf (vtypeTag (s.me.destVtype d tag)) = td)
    (hmode : s.me.roundingOf (s.me.destVtype d tag) = some mode) (hres : s.me.resolveWith [a] .none = .ok .float own)
    (hfit : s.me.Fits td [a]) {i : Instr} {major fn : BitVec 6} {ifn : Option IntOp} {op : FpOp} {rounds : Bool}
    {rtag : Option (BitVec 8)} (htag : rtag.getD own = tag)
    (hi : exec i s = vUnary major fn ifn (some op) rounds rtag d a p s) :
    exec i s = .next (s.floatEnd d tag mode p
      (fun k => op ⟨0, false, mode, td⟩ (s.me.value a k).toF (s.me.secondAt .none k).toF (s.me.value d k).toF)) :=
  hi.trans (elementwise_float htag htd hmode hres (by simpa using Strand.live_of_resolveWith hres) hfit)

/-! #### The lists of functions -/

theorem exec_floatFunctions (htd : elemOf (vtypeTag (s.me.destVtype d tag)) = td)
    (hmode : s.me.roundingOf (s.me.destVtype d tag) = some mode) (hy : s.me.second f (s.me.getV a).elemType b = y)
    (hres : s.me.resolveWith [a] y = .ok .float tag) (hfit : s.me.Fits td ([a] ++ y.regs)) :
    ∀ q ∈ floatFunctions mode d a b f p, exec q.1 s =
      .next (s.floatEnd d tag mode p (fun k => q.2 (s.me.value a k).toF (s.me.secondAt y k).toF)) := by
  have bin {i major fn ifn op rounds} (hi : exec i s = vBinary major fn ifn (some op) false rounds d a b f p s) :=
    exec_binary_float htd hmode hy hres hfit hi
  simp only [floatFunctions, List.forall_mem_cons, List.not_mem_nil, false_implies, implies_true, and_true]
  exact ⟨(bin (exec_vadd ..) :), (bin (exec_vsub ..) :), (bin (exec_vrsub ..) :), (bin (exec_vmul ..) :),
    (bin (exec_vdiv ..) :), (bin (exec_vmin ..) :), (bin (exec_vmax ..) :), (bin (exec_vabsd ..) :)⟩

theorem exec_floatTernary (htd : elemOf (vtypeTag (s.me.destVtype d tag)) = td)
    (hmode : s.me.roundingOf (s.me.destVtype d tag) = some mode) (hy : s.me.second f (s.me.getV a).elemType b = y)
    (hres : s.me.resolveWith [a, d] y = .ok .float tag) (hfit : s.me.Fits td ([a] ++ y.regs)) :
    ∀ q ∈ floatTernary mode d a b f p, exec q.1 s = .next (s.floatEnd d tag mode p
      (fun k => q.2 (s.me.value a k).toF (s.me.secondAt y k).toF (s.me.value d k).toF)) := by
  have ter {i major fn ifn op rounds} (hi : exec i s = vBinary major fn ifn (some op) true rounds d a b f p s) :=
    exec_ternary_float htd hmode hy hres hfit hi
  simp only [floatTernary, List.forall_mem_cons, List.not_mem_nil, false_implies, implies_true, and_true]
  exact ⟨(ter (exec_vmacc ..) :), (ter (exec_vnmsac ..) :), (ter (exec_vmadd ..) :), (ter (exec_vnmsub ..) :)⟩

theorem exec_floatUnary (htd : elemOf (vtypeTag (s.me.destVtype d tag)) = td)
    (hmode : s.me.roundingOf (s.me.destVtype d tag) = some mode) (hres : s.me.resolveWith [a] .none = .ok .float tag)
    (hfit : s.me.Fits td [a]) :
    ∀ q ∈ floatUnary mode td d a p, exec q.1 s =
      .next (s.floatEnd d tag mode p (fun k => q.2 (s.me.value a k).toF)) := by
  have un {i major fn ifn op rounds} (hi : exec i s = vUnary major fn ifn (some op) rounds none d a p s) :=
    exec_unary_float htd hmode hres hfit rfl hi
  simp only [floatUnary, List.forall_mem_cons, List.not_mem_nil, false_implies, implies_true, and_true]
  exact ⟨(un (exec_vabs ..) :), (un (exec_vneg ..) :), (un (exec_vsqrt ..) :), (un (exec_vcvt ..) :), (un (exec_vfrint ..) :),
    (un (exec_vfrexp ..) :), (un (exec_vfmant ..) :), (un (exec_vrecipe ..) :), (un (exec_vrsqrte ..) :)⟩

/-! #### Into a destination that is not BX -/

/-- R146, R60: the elements a floating instruction leaves, and the flags it raises. -/
theorem State.floatEnd_elements (htd : elemOf (vtypeTag (s.me.destVtype d tag)) = td) (hbx : ∀ q, td ≠ .bx q)
    (g : Nat → FVal × Flags) :
    let at_ (k : Nat) : Nat × Flags := atType td mode ((s.me.destVtype d tag).getLsbD 8) (g k)
    (s.floatEnd d tag mode p g).me.fflags = s.me.fflags ||| s.me.raisedBy p at_ ∧
      s.WroteElements (s.floatEnd d tag mode p g) d (freshVtype tag) false p (fun k => (at_ k).1) := by
  subst htd
  refine ⟨?_, State.wroteElements_deliver_part hbx mode p (fun k => .fl (g k).1) _⟩
  rw [State.floatEnd, Strand.deliver_flags hbx mode (fun k => .fl (g k).1), ← orFlags_map_or]
  refine State.endFrom_fflags (Strand.deliver_fflags ..) fun h => ?_
  rw [Strand.active_eq_nil h]
  rfl

theorem exec_float_elements (htd : elemOf (vtypeTag (s.me.destVtype d tag)) = td) (hbx : ∀ q, td ≠ .bx q) {i : Instr}
    {g : Nat → FVal × Flags} (hi : exec i s = .next (s.floatEnd d tag mode p g)) :
    ∃ t, exec i s = .next t ∧
      t.me.fflags = s.me.fflags ||| s.me.raisedBy p (fun k => atType td mode ((s.me.destVtype d tag).getLsbD 8) (g k)) ∧
      s.WroteElements t d (freshVtype tag) false p (fun k => (atType td mode ((s.me.destVtype d tag).getLsbD 8) (g k)).1) :=
  ⟨_, hi, State.floatEnd_elements htd hbx g⟩

/-! #### VFEXP2F, VCLASS, VFSCALE (R157 to R159) -/

theorem exec_vfexp2f_float (htd : elemOf (vtypeTag (s.me.destVtype d tag)) = td)
    (hmode : s.me.roundingOf (s.me.destVtype d tag) = some mode) (hres : s.me.resolveWith [a] .none = .ok .float own)
    (hfit : s.me.Fits td [a]) (htag : (exp2Tag (s.me.getV a).elemType).getD own = tag)
    (h64 : (s.me.getV a).elemType ≠ .fp .fp64) :
    exec (.vfexp2f d a p) s = .next (s.floatEnd d tag mode p
      (fun k => exp2Result (exp2Format (s.me.getV a).elemType) (s.me.value a k).toF)) := by
  have hi := exec_vfexp2f s d a p
  have h64 : ¬ ((s.me.getV a).elemType == .fp .fp64) = true := by simpa using h64
  rw [execVfexp2f, vFormIf, if_neg h64] at hi
  exact (exec_unary_float htd hmode hres hfit htag hi :)

theorem exec_vclass_float (htd : elemOf (vtypeTag (s.me.destVtype d 0x0A)) = td)
    (hmode : s.me.roundingOf (s.me.destVtype d 0x0A) = some mode) (hres : s.me.resolveWith [a] .none = .ok .float own)
    (hfit : s.me.Fits td [a]) (hdest : classDest (s.me.getV d).elemType = true) :
    exec (.vclass d a p) s = .next (s.floatEnd d 0x0A mode p
      (fun k => (.fin false (2 ^ classOfVal (s.me.getV a).elemType (s.me.value a k).toF) 0, 0))) := by
  have hi := exec_vclass s d a p
  rw [execVclass, vFormIf, hdest, if_neg (by decide)] at hi
  exact (exec_unary_float htd hmode hres hfit rfl hi :)

theorem exec_vfscale_float (htd : elemOf (vtypeTag (s.me.destVtype d tag)) = td)
    (hmode : s.me.roundingOf (s.me.destVtype d tag) = some mode) (hres : s.me.resolveWith [a] .none = .ok .float tag)
    (hy : s.me.scaleSecond f (s.me.getV a).elemType b = y) (hfit : s.me.Fits td ([a] ++ y.regs))
    (hlive : ∀ n ∈ y.regs, (s.me.getV n).elemType ≠ .dead) :
    exec (.vfscale d a b f p) s = .next (s.floatEnd d tag mode p
      (fun k => scaleOp (s.me.value a k).toF (s.me.secondAt y k).toF)) := by
  subst hy
  have ha : (s.me.getV a).elemType ≠ .dead := Strand.live_of_resolveWith hres a (by simp)
  exact (exec_vfscale ..).trans (elementwise_float (reads := false) (resolveY := false) rfl htd hmode hres
    (by simpa using ⟨ha, hlive⟩) hfit)

/-- A register named by a form that has one. -/
theorem Strand.formRegs_of_vector {x : Strand} (hf : f = 0 ∨ f = 3) : ∃ vb, x.formRegs f b = [vb] ∧
    ∀ t, x.second f t b = .vec vb := by
  obtain rfl | rfl := hf
  · exact ⟨_, rfl, fun _ => rfl⟩
  · exact ⟨_, rfl, fun _ => rfl⟩

/-! #### VDOT4 on floating sources (R62, R155) -/

theorem isFloat8_only {t : Elem} (h : isFloat8 t = true) : t ≠ .dead ∧ isInt8 t = false ∧ t.isInt = false := by
  simp only [isFloat8, Bool.or_eq_true, beq_iff_eq] at h
  obtain ((rfl | rfl) | rfl) | rfl := h <;> exact ⟨Elem.noConfusion, rfl, rfl⟩

theorem dotIllegal_float {ta tb : Elem} (ha : isFloat8 ta = true) (hb : isFloat8 tb = true)
    (hd : td = .fp .fp32 ∨ td = .fp .bf16) : dotIllegal ta tb td = false := by
  obtain ⟨-, hia, -⟩ := isFloat8_only ha
  obtain ⟨-, hib, -⟩ := isFloat8_only hb
  have hint : td.isInt = false := by obtain rfl | rfl := hd <;> rfl
  have htd : (td == .int 32 true || td == .int 32 false || td == .fp .fp32 || td == .fp .bf16) = true := by
    obtain rfl | rfl := hd <;> rfl
  simp [dotIllegal, ha, hb, hia, hib, hint, htd]

/-- The delivery depends on the result tag through the vtype it gives alone. -/
theorem Strand.deliver_congr {x : Strand} {tag' : BitVec 8} (h : x.destVtype d tag = x.destVtype d tag')
    (l : List (Nat × EVal)) :
    x.deliver d tag mode l = x.deliver d tag' mode l := by
  simp only [Strand.deliver, h]

theorem or_noFlags (a : Flags) : a ||| 0 = a := BitVec.or_zero

/-- R62: the old element and four products, with the flags of all of them. -/
theorem dotElement_float (mode : RMode) (old : EVal) (u v : Nat → EVal) (i : Nat) :
    let prod (j : Nat) : FVal × Flags := (u (4 * i + j)).toF.mul (v (4 * i + j)).toF
    let r := sumExact mode [old.toF, (prod 0).1, (prod 1).1, (prod 2).1, (prod 3).1]
    dotElement mode false old (((List.range 4).map (fun j => 4 * i + j)).map u)
        (((List.range 4).map (fun j => 4 * i + j)).map v) =
      (.fl r.1, r.2 ||| (prod 0).2 ||| (prod 1).2 ||| (prod 2).2 ||| (prod 3).2) := by
  intro prod r
  rw [show List.range 4 = [0, 1, 2, 3] from rfl, dotElement]
  simp only [Bool.false_eq_true, if_false, List.map_cons, List.map_nil, List.zip_cons_cons, List.zip_nil_left, orFlags_cons,
    orFlags_nil, BitVec.or_assoc, or_noFlags]
  rfl

theorem exec_vdot4_float {vb : BitVec 5} (hvb : (s.me.formRegs f b).headD b = vb)
    (htd : elemOf (vtypeTag (s.me.destVtype d tag)) = td) (hmode : s.me.roundingOf (s.me.destVtype d tag) = some mode)
    (ha : isFloat8 (s.me.getV a).elemType = true) (hb : isFloat8 (s.me.getV vb).elemType = true)
    (hd : td = .fp .fp32 ∨ td = .fp .bf16) (hlive : (s.me.getV d).elemType ≠ .dead) (hs : s.me.share ≠ 0)
    (hroom : s.me.vl ≤ td.vlmax) (hva : 4 * s.me.vl ≤ (s.me.getV a).elemType.vlmax)
    (hvvb : 4 * s.me.vl ≤ (s.me.getV vb).elemType.vlmax) :
    exec (.vdot4 d a b f p) s = .next (s.floatEnd d tag mode p (fun k =>
      let prod (j : Nat) : FVal × Flags := (s.me.value a (4 * k + j)).toF.mul (s.me.value vb (4 * k + j)).toF
      let r := sumExact mode [(s.me.value d k).toF, (prod 0).1, (prod 1).1, (prod 2).1, (prod 3).1]
      (r.1, r.2 ||| (prod 0).2 ||| (prod 1).2 ||| (prod 2).2 ||| (prod 3).2))) := by
  have hvt (t : BitVec 8) : s.me.destVtype d t = (s.me.getV d).vtype := Strand.destVtype_of_live hlive t
  have htype : (s.me.getV d).elemType = td := by rw [VReg.elemType, ← hvt tag, htd]
  rw [hvt] at hmode
  obtain ⟨hla, -, hint⟩ := isFloat8_only ha
  obtain ⟨hlb, -, -⟩ := isFloat8_only hb
  have hlegal : (dotIllegal (s.me.getV a).elemType (s.me.getV vb).elemType (s.me.getV d).elemType ||
      ((s.me.getV d).elemType != .dead && s.me.badRounding (s.me.getV d).vtype
        (isFloat8 (s.me.getV a).elemType || isFloat8 (s.me.getV vb).elemType))) = false := by
    rw [htype, dotIllegal_float ha hb hd, Strand.badRounding_of_mode hmode, Bool.and_false]
    rfl
  have hnone (w : InstrWord) := Strand.vectorTrap_eq_none (w := w) (read := [a, vb, d])
    (held := [((s.me.getV d).elemType, s.me.vl), ((s.me.getV a).elemType, 4 * s.me.vl),
      ((s.me.getV vb).elemType, 4 * s.me.vl)]) hlegal hs (by simpa using ⟨hla, hlb, hlive⟩)
    (by simpa using ⟨htype ▸ hroom, hva, hvvb⟩)
  have hdeliver := Strand.deliver_congr (mode := mode) ((hvt (vtypeTag (s.me.getV d).vtype)).trans (hvt tag).symm)
  rw [exec_vdot4, execVdot4]
  simp only [hvb, hnone, hint, hmode, Option.getD_some, dotElement_float, hdeliver]
  simp only [List.map_map, State.floatEnd]
  rfl

end

theorem floatingElements : Claims.FloatingElements := by
  intro s d a b f p tag mode x ta y vt td sat done hd hbx hmode
  refine ⟨fun hres hfit i op hi => ?_, fun hres hfit i op hi => ?_, fun hres hfit i op hi => ?_,
    fun vb hvb _ ha hb htd hl hs hroom hva hvvb => ?_, fun own hres hfit => ⟨fun htag h64 => ?_, fun htag hdest => ?_,
    fun htag hf => ?_, fun htag hf => ?_, fun vb hvb htag hf hlb hvvb => ?_⟩⟩
  · exact exec_float_elements rfl hbx (exec_floatFunctions rfl hmode rfl hres hfit _ hi)
  · exact exec_float_elements rfl hbx (exec_floatUnary rfl hmode hres hfit _ hi)
  · exact exec_float_elements rfl hbx (exec_floatTernary rfl hmode rfl hres hfit _ hi)
  · exact exec_float_elements rfl hbx (exec_vdot4_float hvb.symm rfl hmode ha hb htd hl hs hroom hva hvvb)
  · exact (exec_float_elements rfl hbx (exec_vfexp2f_float rfl hmode hres hfit htag.symm h64) :)
  · subst htag
    have h := exec_vclass_float (p := p) rfl hmode hres hfit hdest
    exact exec_float_elements rfl hbx h
  · subst htag hf
    have hy : x.scaleSecond 1 ta b = .one (.int (s.g b).toInt) := rfl
    have h := exec_vfscale_float (p := p) rfl hmode hres hy hfit (by simp [Second.regs])
    exact exec_float_elements rfl hbx h
  · subst htag hf
    have hy : x.scaleSecond 2 ta b = .one (.fl (FVal.ofInt b.toInt)) :=
      congrArg Second.one (if_neg (Bool.eq_false_iff.mp (Strand.isInt_of_resolveWith_float hres)))
    have h := exec_vfscale_float (p := p) rfl hmode hres hy hfit (by simp [Second.regs])
    exact exec_float_elements rfl hbx h
  · subst htag
    obtain ⟨n, hn, hsecond⟩ := Strand.formRegs_of_vector (x := x) (b := b) hf
    have hvb : vb = n := by rw [hvb, hn]; rfl
    subst hvb
    have hf1 : f ≠ 1 := by rintro rfl; revert hf; decide
    have hy : x.scaleSecond f ta b = .vec vb := (if_neg hf1).trans (hsecond ta)
    obtain ⟨hs, hroom, hva⟩ := hfit
    have hregs : ∀ n ∈ [a, vb], x.vl ≤ (x.getV n).elemType.vlmax := by
      simpa using ⟨hva a (List.mem_singleton_self a), hvvb⟩
    have h := exec_vfscale_float (p := p) rfl hmode hres hy ⟨hs, hroom, hregs⟩ (by simpa [Second.regs] using hlb)
    exact exec_float_elements rfl hbx h

end Sys2Proof.Machine
end

section
/-! ### O26: results packed into BX blocks (R39, R55, R157) -/
namespace Sys2Proof.Machine

/-! #### One block (R55) -/

theorem maxOf_le {l : List Nat} {n : Nat} (h : ∀ x ∈ l, x ≤ n) : maxOf l ≤ n := by
  have hfold (m : Nat) (hm : m ≤ n) : l.foldl max m ≤ n := by
    induction l generalizing m with
    | nil => exact hm
    | cons x t ih =>
      obtain ⟨hx, ht⟩ := List.forall_mem_cons.mp h
      exact ih ht _ (max_le hm hx)
  exact hfold 0 (Nat.zero_le n)

/-- The exponents of a block are bytes. -/
theorem BxFmt.pack_exponents (fm : BxFmt) (mode : RMode) (xs : List FVal) :
    (fm.pack mode xs).e0 < 256 ∧ (fm.pack mode xs).e1 < 256 := by
  unfold BxFmt.pack
  split
  · exact ⟨show 255 < 256 by decide, show 255 < 256 by decide⟩
  · dsimp only
    have he1 : min (maxOf (xs.map (fm.fitexp mode))) 254 ≤ 254 := Nat.min_le_right ..
    refine ⟨?_, by omega⟩
    split
    · omega
    · refine Nat.lt_of_le_of_lt (maxOf_le fun x hx => ?_) (show 254 < 256 by decide)
      have := of_decide_eq_true (List.mem_filter.mp hx).2
      omega

theorem BxFmt.pack_elems_length (fm : BxFmt) (mode : RMode) (xs : List FVal) : (fm.pack mode xs).elems.length = xs.length := by
  unfold BxFmt.pack
  split <;> simp

/-- The values of a block: those of its elements that are written, and 0 for the others. -/
def blockValues (l : List (Nat × EVal)) (block : Nat) : List FVal :=
  ((List.range 32).map (fun k => 32 * block + k)).map (fun i => ((lookupVal l i).getD (.int 0)).toF)

/-- The bits R55 gives an element of a packed destination. -/
def packedElem (fm : BxFmt) (mode : RMode) (l : List (Nat × EVal)) (k : Nat) : Nat :=
  ((fm.pack mode (blockValues l (k / 32))).elems[k % 32]?.getD (0, 0)).1

theorem isSome_lookupVal {l : List (Nat × EVal)} {i : Nat} : (lookupVal l i).isSome = true ↔ i ∈ l.map Prod.fst := by
  rw [lookupVal, Option.isSome_map, List.find?_isSome]
  simp only [List.mem_map, beq_iff_eq]

/-- What a block writes: its elements that have a result. -/
theorem mem_packBlock {fm : BxFmt} {mode : RMode} {l : List (Nat × EVal)} {block k v : Nat} :
    (k, v) ∈ (packBlock fm mode l block).1 ↔ k / 32 = block ∧ k ∈ l.map Prod.fst ∧ packedElem fm mode l k = v := by
  have hlen : (fm.pack mode (blockValues l block)).elems.length = 32 := by
    rw [BxFmt.pack_elems_length, blockValues, List.length_map, List.length_map, List.length_range]
  have hzip (w : Nat × Flags) : (k, w) ∈ ((List.range 32).map (fun k => 32 * block + k)).zip
      (fm.pack mode (blockValues l block)).elems ↔
      k / 32 = block ∧ (fm.pack mode (blockValues l block)).elems[k % 32]? = some w := by
    simp only [List.mem_iff_getElem?, List.getElem?_zip_eq_some, List.getElem?_map, Option.map_eq_some_iff]
    constructor
    · rintro ⟨i, ⟨j, hj, rfl⟩, hw⟩
      obtain ⟨hi, rfl⟩ := List.getElem?_eq_some_iff.mp hj
      rw [List.length_range] at hi
      rw [List.getElem_range]
      exact ⟨by omega, by rwa [show (32 * block + i) % 32 = i by omega]⟩
    · rintro ⟨rfl, hw⟩
      exact ⟨k % 32, ⟨k % 32, List.getElem?_range (Nat.mod_lt k (by decide)), by omega⟩, hw⟩
  have hmem : (k, v) ∈ (packBlock fm mode l block).1 ↔ ∃ w : Nat × Flags, (k / 32 = block ∧
      (fm.pack mode (blockValues l block)).elems[k % 32]? = some w) ∧ k ∈ l.map Prod.fst ∧ w.1 = v := by
    simp only [← hzip, ← isSome_lookupVal]
    constructor
    · intro h
      obtain ⟨⟨k', w⟩, hw, he⟩ := List.mem_map.mp h
      cases he
      obtain ⟨hz, hl⟩ := List.mem_filter.mp hw
      exact ⟨w, hz, hl, rfl⟩
    · rintro ⟨w, hz, hl, rfl⟩
      exact List.mem_map.mpr ⟨(k, w), List.mem_filter.mpr ⟨hz, hl⟩, rfl⟩
  rw [hmem]
  constructor
  · rintro ⟨w, ⟨rfl, hw⟩, hk, rfl⟩
    exact ⟨rfl, hk, by rw [packedElem, hw]; rfl⟩
  · rintro ⟨rfl, hk, rfl⟩
    have hi : k % 32 < (fm.pack mode (blockValues l (k / 32))).elems.length := hlen.symm ▸ Nat.mod_lt k (show 0 < 32 by decide)
    exact ⟨_, ⟨rfl, List.getElem?_eq_getElem hi⟩, hk, by rw [packedElem, List.getElem?_eq_getElem hi]; rfl⟩

/-! #### All blocks -/

/-- The blocks that hold a result. -/
def resultBlocks (l : List (Nat × EVal)) : List Nat := (l.map (fun q => q.1 / 32)).eraseDups

theorem mem_resultBlocks {l : List (Nat × EVal)} {k : Nat} : k ∈ resultBlocks l ↔ k ∈ l.map (fun q => q.1 / 32) :=
  List.mem_eraseDups

/-- The writes of a packed destination. -/
def packedWrites (fm : BxFmt) (mode : RMode) (l : List (Nat × EVal)) : List (Nat × Nat) :=
  (resultBlocks l).flatMap (fun k => (packBlock fm mode l k).1)

theorem mem_packedWrites {fm : BxFmt} {mode : RMode} {l : List (Nat × EVal)} {k v : Nat} :
    (k, v) ∈ packedWrites fm mode l ↔ (if k ∈ l.map Prod.fst then some (packedElem fm mode l k) else none) = some v := by
  simp only [packedWrites, List.mem_flatMap, mem_packBlock, Option.ite_none_right_eq_some, Option.some.injEq]
  constructor
  · rintro ⟨_, -, -, hk, hv⟩
    exact ⟨hk, hv⟩
  · rintro ⟨hk, hv⟩
    obtain ⟨q, hq, rfl⟩ := List.mem_map.mp hk
    exact ⟨q.1 / 32, mem_resultBlocks.mpr (List.mem_map_of_mem hq), rfl, hk, hv⟩

/-- A scale register with the exponents of the blocks of a packed destination. -/
def packedScale (fm : BxFmt) (mode : RMode) (l : List (Nat × EVal)) (e : BitVec 2048) : BitVec 2048 :=
  (resultBlocks l).foldl (fun e k => setScale e k (packBlock fm mode l k).2.1 (packBlock fm mode l k).2.2.1) e

/-- The exponent a byte of a scale register takes. -/
def packedByte (fm : BxFmt) (mode : RMode) (l : List (Nat × EVal)) (j : Nat) : Nat :=
  if j % 2 = 0 then (packBlock fm mode l (j / 2)).2.1 else (packBlock fm mode l (j / 2)).2.2.1

theorem packBlock_exponents (fm : BxFmt) (mode : RMode) (l : List (Nat × EVal)) (k : Nat) :
    (packBlock fm mode l k).2.1 < 256 ∧ (packBlock fm mode l k).2.2.1 < 256 := fm.pack_exponents mode (blockValues l k)

theorem scaleByte_setScale (e : BitVec 2048) {k e0 e1 j : Nat} (h0 : e0 < 256) (h1 : e1 < 256) (hj : j < 256) (hk : k < 128) :
    scaleByte (setScale e k e0 e1) j = if j / 2 = k then (if j % 2 = 0 then e0 else e1) else scaleByte e j := by
  have hv : e0 + 256 * e1 < 2 ^ 16 := by omega
  rw [scaleByte, setScale_eq_putField]
  split
  · next h =>
    rw [extractLsb'_putField_inside e hv (by omega) (by omega) (by omega)]
    split
    · next hp =>
      rw [show 8 * j - 16 * k = 0 by omega]
      omega
    · next hp =>
      rw [show 8 * j - 16 * k = 8 by omega]
      omega
  · next h => rw [extractLsb'_putField_outside e hv (by omega) (by omega), scaleByte]

theorem scaleByte_packedScale {fm : BxFmt} {mode : RMode} {l : List (Nat × EVal)}
    (hl : ∀ k ∈ l.map (fun q => q.1 / 32), k < 128) (e : BitVec 2048) {j : Nat} (hj : j < 256) :
    scaleByte (packedScale fm mode l e) j =
      if j / 2 ∈ l.map (fun q => q.1 / 32) then packedByte fm mode l j else scaleByte e j := by
  have hfold (bs : List Nat) (hbs : ∀ k ∈ bs, k < 128) (e : BitVec 2048) :
      scaleByte (bs.foldl (fun e k => setScale e k (packBlock fm mode l k).2.1 (packBlock fm mode l k).2.2.1) e) j =
        if j / 2 ∈ bs then packedByte fm mode l j else scaleByte e j := by
    induction bs generalizing e with
    | nil => rfl
    | cons k t ih =>
      obtain ⟨hk, ht⟩ := List.forall_mem_cons.mp hbs
      obtain ⟨h0, h1⟩ := packBlock_exponents fm mode l k
      rw [List.foldl_cons, ih ht, scaleByte_setScale e h0 h1 hj hk]
      simp only [List.mem_cons]
      by_cases hjt : j / 2 ∈ t
      · simp [hjt]
      · by_cases hjk : j / 2 = k
        · subst hjk
          simp [hjt, packedByte]
        · simp [hjt, hjk]
  rw [packedScale, hfold _ fun k hk => hl k (mem_resultBlocks.mp hk)]
  simp only [mem_resultBlocks]

/-! #### The strand (R39, R146) -/

/-- vd with its elements packed, and the scale register e(vd mod 16) with their exponents. -/
def Strand.packed (x : Strand) (d : BitVec 5) (vt : BitVec 16) (fm : BxFmt) (mode : RMode) (l : List (Nat × EVal)) : Strand :=
  { x.written d vt (packedWrites fm mode l) with
    e := x.e.set (d.toNat % 16) (packedScale fm mode l (x.scaleOf d)) (by omega) }

theorem Strand.deliver_of_bx {x : Strand} {d : BitVec 5} {tag : BitVec 8} {fm : BxFmt}
    (h : elemOf (vtypeTag (x.destVtype d tag)) = .bx fm) (mode : RMode) (l : List (Nat × EVal)) :
    x.deliver d tag mode l = (x.packed d (x.destVtype d tag) fm mode l, blockFlags fm mode l) := by
  have hflags : blockFlags fm mode l = orFlags ((resultBlocks l).map (fun k => (packBlock fm mode l k).2.2.2)) := by
    refine orFlags_congr fun fl => ?_
    simp only [List.mem_map, mem_resultBlocks]
    constructor
    · rintro ⟨q, hq, rfl⟩
      exact ⟨q.1 / 32, ⟨q, hq, rfl⟩, rfl⟩
    · rintro ⟨_, ⟨q, hq, rfl⟩, rfl⟩
      exact ⟨q, hq, rfl⟩
  rw [hflags, Strand.deliver]
  simp only [h, List.map_map, List.flatMap_map, List.foldl_map]
  rfl

section
variable {s : State} {d : BitVec 5} {vt : BitVec 16} {fm : BxFmt} {mode : RMode} {l : List (Nat × EVal)}

theorem Strand.packed_getV (x : Strand) (n : BitVec 5) :
    (x.packed d vt fm mode l).getV n = (x.written d vt (packedWrites fm mode l)).getV n := rfl

theorem Strand.packed_scaleOf_ne (x : Strand) {n : BitVec 5} (hn : n.toNat % 16 ≠ d.toNat % 16) :
    (x.packed d vt fm mode l).scaleOf n = x.scaleOf n := Vector.getElem_set_ne (by omega) (by omega) hn.symm

theorem Strand.packed_scaleOf (x : Strand) : (x.packed d vt fm mode l).scaleOf d = packedScale fm mode l (x.scaleOf d) :=
  Vector.getElem_set_self _

theorem Strand.packed_raw (x : Strand) (hvt : elemOf (vtypeTag vt) = .bx fm) {k : Nat} (hk : k < 8192 / fm.width) :
    ((x.packed d vt fm mode l).getV d).raw k =
      if k ∈ l.map Prod.fst then packedElem fm mode l k % 2 ^ fm.width else elemBits (x.getV d).bits fm.width k := by
  have htype : ({ x.getV d with vtype := vt } : VReg).elemType = .bx fm := hvt
  have hmax : ({ x.getV d with vtype := vt } : VReg).elemType.vlmax = 8192 / fm.width := by
    rw [htype]
    cases fm <;> rfl
  rw [Strand.packed_getV, Strand.written, Strand.getV_setV_same,
    VReg.raw_putAll_graph (fun _ _ => mem_packedWrites) _ (hmax.symm ▸ hk), VReg.raw, htype]
  split
  · next h =>
    obtain ⟨hk, hv⟩ := Option.ite_none_right_eq_some.mp h
    rw [if_pos hk, Option.some.inj hv]
    rfl
  · next h =>
    rw [if_neg fun hk => by rw [if_pos hk] at h; cases h]
    rfl

theorem Strand.packed_vtype (x : Strand) : ((x.packed d vt fm mode l).getV d).vtype = vt := by
  rw [Strand.packed_getV, Strand.written, Strand.getV_setV_same, VReg.putAll_vtype]

theorem Strand.packed_getV_ne (x : Strand) {n : BitVec 5} (hn : n ≠ d) : (x.packed d vt fm mode l).getV n = x.getV n := by
  rw [Strand.packed_getV, Strand.written, Strand.getV_setV_ne _ _ hn]

/-- R55: the packed destination, block by block. -/
theorem State.wroteBlocks_packed (hvt : elemOf (vtypeTag vt) = .bx fm) (hl : ∀ k ∈ l.map Prod.fst, k < 8192 / fm.width)
    (fl : Flags) : s.WroteBlocks (s.endVector (s.me.packed d vt fm mode l) fl) d fm mode l := by
  have hblock : ∀ b ∈ l.map (fun q => q.1 / 32), b < 128 := by
    intro b hb
    obtain ⟨q, hq, rfl⟩ := List.mem_map.mp hb
    have hlt := hl q.1 (List.mem_map_of_mem hq)
    have hmost : 8192 / fm.width ≤ 2048 := by cases fm <;> decide
    omega
  have hscale {j : Nat} (hj : j < 256) : scaleByte ((s.endVector (s.me.packed d vt fm mode l) fl).me.scaleOf d) j =
      if j / 2 ∈ l.map (fun q => q.1 / 32) then packedByte fm mode l j else scaleByte (s.me.scaleOf d) j := by
    rw [State.endVector_scaleOf, Strand.packed_scaleOf, scaleByte_packedScale hblock _ hj]
  refine ⟨fun k hk => ?_, fun k hk hout => ?_, fun j hj hout => ?_, fun n hn => ?_, fun n hn => ?_, State.endVector_g ..,
    State.endVector_p .., State.endVector_vl .., State.endVector_share .., State.endVector_vstart ..,
    fun sid h => State.endVector_strand_ne _ _ _ h, State.endVector_mem .., State.endVector_cores ..⟩
  · have hkb : k / 32 ∈ l.map (fun q => q.1 / 32) := by
      obtain ⟨q, hq, rfl⟩ := List.mem_map.mp hk
      exact List.mem_map_of_mem hq
    obtain ⟨h0, h1⟩ := packBlock_exponents fm mode l (k / 32)
    have hlt := hblock _ hkb
    refine ⟨fun q hq => ?_, ?_, ?_⟩
    · obtain ⟨-, hq, hv⟩ := mem_packBlock.mp hq
      rw [State.endVector_getV, Strand.packed_raw _ hvt (hl q.1 hq), if_pos hq, hv]
    · rw [hscale (by omega), packedByte, show 2 * (k / 32) / 2 = k / 32 by omega, if_pos hkb, if_pos (by omega),
        Nat.mod_eq_of_lt h0]
    · rw [hscale (by omega), packedByte, show (2 * (k / 32) + 1) / 2 = k / 32 by omega, if_pos hkb, if_neg (by omega),
        Nat.mod_eq_of_lt h1]
  · rw [State.endVector_getV, Strand.packed_raw _ hvt hk, if_neg hout]
  · rw [hscale hj, if_neg hout]
  · rw [State.endVector_scaleOf, Strand.packed_scaleOf_ne _ hn]
  · rw [State.endVector_getV, Strand.packed_getV_ne _ hn]

end

/-- R157: delivery into a register that takes a BX vtype first. -/
theorem Strand.deliver_retagged (x : Strand) {d : BitVec 5} {vt : BitVec 16} {fm : BxFmt} (hvt : elemOf (vtypeTag vt) = .bx fm)
    (mode : RMode) (l : List (Nat × EVal)) :
    (x.setV d { x.getV d with vtype := vt }).deliver d (vtypeTag vt) mode l =
      (x.packed d vt fm mode l, blockFlags fm mode l) := by
  have hlive : ((x.setV d { x.getV d with vtype := vt }).getV d).elemType ≠ .dead := by
    rw [Strand.getV_setV_same, VReg.elemType, hvt]
    exact Elem.noConfusion
  have hdest : (x.setV d { x.getV d with vtype := vt }).destVtype d (vtypeTag vt) = vt := by
    rw [Strand.destVtype_of_live hlive, Strand.getV_setV_same]
  rw [Strand.deliver_of_bx (hdest.symm ▸ hvt), hdest]
  simp only [Strand.packed, Strand.written, Strand.setV_setV, Strand.getV_setV_same]
  rfl

/-! #### The instructions -/

theorem mem_active_map_fst {x : Strand} {p : BitVec 3} {res : Nat → EVal} {k : Nat}
    (h : k ∈ ((x.active p).map (fun i => (i, res i))).map Prod.fst) : k < x.vl := by
  rw [List.map_map] at h
  obtain ⟨i, hi, rfl⟩ := List.mem_map.mp h
  exact (Strand.mem_activeFrom.mp hi).1

theorem BxFmt.vlmax_eq (fm : BxFmt) : (Elem.bx fm).vlmax = 8192 / fm.width := by cases fm <;> rfl

theorem Strand.Fits.room {x : Strand} {td : Elem} {regs : List (BitVec 5)} (h : x.Fits td regs) : x.vl ≤ td.vlmax :=
  have ⟨_, hroom, _⟩ := h
  hroom

/-- A floating function into a BX destination. -/
theorem exec_float_blocks {s : State} {d : BitVec 5} {p : BitVec 3} {tag : BitVec 8} {mode : RMode} {fm : BxFmt}
    (htd : elemOf (vtypeTag (s.me.destVtype d tag)) = .bx fm) (hbegun : s.me.vstart < s.me.vl)
    (hroom : s.me.vl ≤ (Elem.bx fm).vlmax) {i : Instr} {g : Nat → FVal × Flags}
    (hi : exec i s = .next (s.floatEnd d tag mode p g)) :
    let res : List (Nat × EVal) := (s.me.active p).map (fun k => (k, .fl (g k).1))
    ∃ t, exec i s = .next t ∧ (t.me.getV d).vtype = s.me.destVtype d tag ∧ s.WroteBlocks t d fm mode res ∧
      t.me.fflags = s.me.fflags ||| orFlags ((s.me.active p).map (fun k => (g k).2)) ||| blockFlags fm mode res := by
  intro res
  have hend : s.floatEnd d tag mode p g = s.endVector (s.me.packed d (s.me.destVtype d tag) fm mode res)
      (blockFlags fm mode res ||| orFlags ((s.me.active p).map (fun k => (g k).2))) := by
    rw [State.floatEnd, Strand.deliver_of_bx htd, State.endFrom_of_begun _ _ _ hbegun]
  rw [hend] at hi
  refine ⟨_, hi, ?_, State.wroteBlocks_packed htd (fun k hk => ?_) _, ?_⟩
  · rw [State.endVector_getV, Strand.packed_vtype]
  · exact Nat.lt_of_lt_of_le (mem_active_map_fst hk) (fm.vlmax_eq ▸ hroom)
  · rw [State.endVector_fflags, BitVec.or_assoc, BitVec.or_comm (orFlags _)]
    rfl

/-- VBXPACK into the vtype it gives vd. -/
theorem execVbxpack_next {s : State} {d a : BitVec 5} {p : BitVec 3} {mode : RMode} {fm : BxFmt}
    (hvt : elemOf (vtypeTag (packVtype (s.me.getV d).vtype)) = .bx fm)
    (hmode : s.me.roundingOf (packVtype (s.me.getV d).vtype) = some mode) (ha : (s.me.getV a).elemType ≠ .dead)
    (hfit : s.me.Fits (.bx fm) [a]) :
    let out := (s.me.active p).map (fun k => (k, s.me.value a k))
    execVbxpack d a p s = .next (s.endFrom (s.me.packed d (packVtype (s.me.getV d).vtype) fm mode out)
      (blockFlags fm mode out)) := by
  obtain ⟨hs, hroom, hva⟩ := hfit
  have hnone (w : InstrWord) : s.me.vectorTrap w (s.me.badRounding (packVtype (s.me.getV d).vtype) true) [a]
      [(elemOf (vtypeTag (packVtype (s.me.getV d).vtype)), s.me.vl), ((s.me.getV a).elemType, s.me.vl)] = none :=
    Strand.vectorTrap_eq_none (Strand.badRounding_of_mode hmode true) hs (by simpa using ha)
      (Strand.held_fit (regs := [a]) (hvt ▸ hroom) hva)
  simp only [execVbxpack, hnone, hmode, Option.getD_some, Strand.deliver_retagged _ hvt]

theorem blockPacking : Claims.BlockPacking := by
  intro s d a p mode fm x vt out
  refine ⟨fun hvt hmode ha hfit => ?_, fun b f tag => ?_⟩
  · have hnext := (exec_vbxpack s d a p).trans (execVbxpack_next hvt hmode ha hfit)
    by_cases hskip : x.vl ≤ x.vstart
    · rw [State.endFrom_of_skip _ _ _ hskip] at hnext
      refine ⟨_, hnext, ?_, fun h => absurd hskip (Nat.not_le.mpr h), fun _ =>
        ⟨State.endVector_v .., State.endVector_e .., ?_⟩⟩
      · rw [State.endVector_getV, if_pos hskip]
      · exact (State.endVector_fflags ..).trans BitVec.or_zero
    · rw [State.endFrom_of_begun _ _ _ (Nat.lt_of_not_le hskip)] at hnext
      refine ⟨_, hnext, ?_, fun _ => ⟨State.wroteBlocks_packed hvt (fun k hk => ?_) _, State.endVector_fflags ..⟩,
        fun h => absurd h hskip⟩
      · rw [State.endVector_getV, Strand.packed_vtype, if_neg hskip]
      · exact Nat.lt_of_lt_of_le (mem_active_map_fst hk) (fm.vlmax_eq ▸ hfit.room)
  · intro y ty done hty hmode hbegun
    refine ⟨fun hres hfit i op hi => ?_, fun hres hfit i op hi => ?_, fun hres hfit i op hi => ?_⟩
    · exact exec_float_blocks hty hbegun hfit.room (exec_floatFunctions hty hmode rfl hres hfit _ hi)
    · exact exec_float_blocks hty hbegun hfit.room (exec_floatUnary hty hmode hres hfit _ hi)
    · exact exec_float_blocks hty hbegun hfit.room (exec_floatTernary hty hmode rfl hres hfit _ hi)

end Sys2Proof.Machine
open Sys2Proof.Machine in
/-- Settles O26: every floating function comes to `State.floatEnd`, whose elements or blocks R146 and R55 give. -/
theorem floatingElementwise : Obligations.FloatingElementwise := ⟨floatingElements, blockPacking⟩
end

section
/-! ### O5: rounding a quotient by a power of two (R56) -/
namespace Sys2Proof.Machine

/-- Whether R56 rounds the magnitude up, from its sign, the floor `q` of the quotient, the remainder `r` and half the
divisor. -/
def RMode.roundsUp (mode : RMode) (neg : Bool) (q r half : Nat) : Bool :=
  match mode with
  | .rne => decide (half < r) || (r == half && q % 2 == 1)
  | .rtz => false
  | .rdn => neg
  | .rup => !neg
  | .rmm => decide (half ≤ r)

theorem roundShift_of_dvd {m sh : Nat} (mode : RMode) (neg : Bool) (h : m % 2 ^ sh = 0) :
    roundShift mode neg m sh = (m / 2 ^ sh, false) := if_pos h

theorem roundShift_of_not_dvd {m sh : Nat} (mode : RMode) (neg : Bool) (h : m % 2 ^ sh ≠ 0) :
    roundShift mode neg m sh =
      (if mode.roundsUp neg (m / 2 ^ sh) (m % 2 ^ sh) (2 ^ sh / 2) then m / 2 ^ sh + 1 else m / 2 ^ sh, true) := by
  rw [roundShift, if_neg h]
  cases mode <;> rfl

theorem gridDistance_of_le {m q sh : Nat} (h : q * 2 ^ sh ≤ m) : gridDistance m q sh = m - q * 2 ^ sh := by
  rw [gridDistance]
  exact_mod_cast congrArg Int.natAbs (Nat.cast_sub (R := Int) h).symm

theorem gridDistance_of_ge {m q sh : Nat} (h : m ≤ q * 2 ^ sh) : gridDistance m q sh = q * 2 ^ sh - m := by
  rw [gridDistance, ← Int.natAbs_neg, neg_sub]
  exact_mod_cast congrArg Int.natAbs (Nat.cast_sub (R := Int) h).symm

/-- A divisor that leaves a remainder is even. -/
theorem two_mul_half_of_mod {m sh : Nat} (h : m % 2 ^ sh ≠ 0) : 2 * (2 ^ sh / 2) = 2 ^ sh := by
  cases sh with
  | zero => exact absurd (Nat.mod_one m) h
  | succ n => omega

end Sys2Proof.Machine

open Sys2Proof.Machine in
/-- Settles O5: the rounded number is the floor of the quotient or the next, by `RMode.roundsUp`, at the distance of the
remainder or of what it lacks to the divisor. -/
theorem roundingModes : Obligations.RoundingModes := by
  intro mode neg m sh
  have hm := Nat.div_add_mod' m (2 ^ sh)
  have hlt := Nat.mod_lt m (Nat.two_pow_pos sh)
  by_cases h : m % 2 ^ sh = 0
  · have hexact : m / 2 ^ sh * 2 ^ sh = m := by omega
    simp [roundShift_of_dvd mode neg h, gridDistance_of_le hexact.le, hexact, (Nat.two_pow_pos sh).ne]
  · have heven := two_mul_half_of_mod h
    simp only [roundShift_of_not_dvd mode neg h]
    cases hup : mode.roundsUp neg (m / 2 ^ sh) (m % 2 ^ sh) (2 ^ sh / 2)
    case false =>
      have hle : m / 2 ^ sh * 2 ^ sh ≤ m := by omega
      simp only [Bool.false_eq_true, if_false, gridDistance_of_le hle]
      generalize m / 2 ^ sh * 2 ^ sh = t at *
      cases mode <;> simp [RMode.roundsUp] at hup ⊢
      case rdn | rup => simp only [hup, Bool.false_eq_true, if_true, if_false]; omega
      all_goals omega
    case true =>
      have hnext : (m / 2 ^ sh + 1) * 2 ^ sh = m / 2 ^ sh * 2 ^ sh + 2 ^ sh := Nat.succ_mul ..
      have hge : m ≤ (m / 2 ^ sh + 1) * 2 ^ sh := by omega
      simp only [if_true, gridDistance_of_ge hge]
      generalize m / 2 ^ sh * 2 ^ sh = t at *
      cases mode <;> simp [RMode.roundsUp] at hup ⊢
      case rdn | rup => simp only [hup, Bool.false_eq_true, if_true, if_false]; omega
      all_goals omega
end

section
/-! ### O6: delivery in a format (R49, R56, R57) -/
namespace Sys2Proof.Machine

/-! #### Magnitudes as rationals -/

/-- The number m × 2^e. -/
def magnitude (m : Nat) (e : Int) : ℚ := m * 2 ^ e

theorem magnitude_of_le {e g : Int} (m : Nat) (h : g ≤ e) : magnitude (m * 2 ^ (e - g).toNat) g = magnitude m e := by
  have hk : (2 : ℚ) ^ (e - g).toNat = 2 ^ (e - g) := by
    rw [← zpow_natCast, Int.toNat_of_nonneg (Int.sub_nonneg.mpr h)]
  rw [magnitude, magnitude, Nat.cast_mul, Nat.cast_pow, Nat.cast_ofNat, hk, mul_assoc,
    ← zpow_add₀ (by norm_num), Int.sub_add_cancel]

theorem magnitude_inj {m n : Nat} {e : Int} (h : magnitude m e = magnitude n e) : m = n := by
  have hpos : (2 : ℚ) ^ e ≠ 0 := zpow_ne_zero _ (by norm_num)
  exact_mod_cast mul_right_cancel₀ hpos h

/-- The leading bit of a number bounds its magnitude. -/
theorem magnitude_bounds {m : Nat} (e : Int) (hm : m ≠ 0) :
    (2 : ℚ) ^ (e + Nat.log2 m) ≤ magnitude m e ∧ magnitude m e < 2 ^ (e + Nat.log2 m + 1) := by
  have h2 : (2 : ℚ) ≠ 0 := by norm_num
  have hpos : (0 : ℚ) < 2 ^ e := zpow_pos (by norm_num) e
  have hlo : ((2 ^ Nat.log2 m : Nat) : ℚ) ≤ m := by exact_mod_cast Nat.log2_self_le hm
  have hhi : (m : ℚ) < (2 ^ (Nat.log2 m + 1) : Nat) := by exact_mod_cast Nat.lt_log2_self
  rw [add_assoc, zpow_add₀ h2, zpow_add₀ h2 e, magnitude, mul_comm (m : ℚ)]
  push_cast at hlo hhi
  exact ⟨by exact_mod_cast mul_le_mul_of_nonneg_left hlo hpos.le, by exact_mod_cast mul_lt_mul_of_pos_left hhi hpos⟩

/-- Numbers of one magnitude have their leading bit at one place. -/
theorem lead_eq_of_magnitude {m n : Nat} {e g : Int} (hm : m ≠ 0) (h : magnitude n g = magnitude m e) :
    n ≠ 0 ∧ g + Nat.log2 n = e + Nat.log2 m := by
  have one_lt : (1 : ℚ) < 2 := by norm_num
  obtain ⟨hlo, hhi⟩ := magnitude_bounds e hm
  have hn : n ≠ 0 := by
    rintro rfl
    have hpos : (0 : ℚ) < 2 ^ (e + Nat.log2 m) := zpow_pos (by norm_num) _
    simpa [magnitude] using hpos.trans_le (hlo.trans h.ge)
  obtain ⟨hlo', hhi'⟩ := magnitude_bounds g hn
  have h1 := (zpow_lt_zpow_iff_right₀ one_lt).mp (hlo'.trans_lt (h.le.trans_lt hhi))
  have h2 := (zpow_lt_zpow_iff_right₀ one_lt).mp (hlo.trans_lt (h.ge.trans_lt hhi'))
  exact ⟨hn, by omega⟩

/-- An inexact bit that is clear: rounding to a multiple of 2^g changed nothing. -/
theorem roundAt_exact {mode : RMode} {neg : Bool} {m : Nat} {e g : Int} (h : (roundAt mode neg m e g).2 = false) :
    magnitude (roundAt mode neg m e g).1 g = magnitude m e := by
  by_cases hge : g ≤ e
  · rw [roundAt, if_pos hge]
    exact magnitude_of_le m hge
  · rw [roundAt, if_neg hge] at h ⊢
    rw [← magnitude_of_le _ (Int.le_of_lt (Int.not_le.mp hge)), (roundingModes mode neg m _).1.mp h]

theorem roundAt_self (mode : RMode) (neg : Bool) (m : Nat) (e : Int) : roundAt mode neg m e e = (m, false) := by
  simp [roundAt]

/-- Numbers of one sign and one magnitude are equal. -/
theorem FVal.eq_of_magnitude (neg : Bool) {m n : Nat} {e g : Int} (h : magnitude m e = magnitude n g) :
    (FVal.fin neg m e).eq (.fin neg n g) = true := by
  have hscaled : m * 2 ^ (e - min e g).toNat = n * 2 ^ (g - min e g).toNat := by
    apply magnitude_inj (e := min e g)
    rw [magnitude_of_le m (min_le_left ..), magnitude_of_le n (min_le_right ..), h]
  simp [FVal.eq, FVal.isNan, FVal.lt, min_comm g e, hscaled]

/-! #### Encodings -/

/-- The significand of the finite magnitude a format encodes as `b` (R49). -/
def FFmt.significand (f : FFmt) (b : Nat) : Nat := if b / 2 ^ f.fbits = 0 then b else 2 ^ f.fbits + b % 2 ^ f.fbits

/-- The exponent of its last bit. -/
def FFmt.exponent (f : FFmt) (b : Nat) : Int :=
  if b / 2 ^ f.fbits = 0 then 1 - f.bias - f.fbits else (b / 2 ^ f.fbits : Nat) - f.bias - f.fbits

/-- What an encoding above the largest finite one stands for (R49, R50). -/
def FFmt.special (f : FFmt) (neg : Bool) (b : Nat) : FVal :=
  if f.hasInf && b == f.infBits then .inf neg
  else .nan (f.hasSignalling && b % 2 ^ f.fbits < 2 ^ (f.fbits - 1))

/-- The sign, exponent and fraction fields of an encoding. -/
theorem FFmt.fields_signed (f : FFmt) (neg : Bool) {b : Nat} (hb : b < 2 ^ (f.width - 1)) :
    (f.signBit neg + b) / 2 ^ (f.width - 1) % 2 = neg.toNat ∧
      (f.signBit neg + b) / 2 ^ f.fbits % 2 ^ f.ebits = b / 2 ^ f.fbits ∧
      (f.signBit neg + b) % 2 ^ f.fbits = b % 2 ^ f.fbits := by
  cases f <;> cases neg <;>
    simp only [FFmt.signBit, FFmt.width, FFmt.fbits, FFmt.ebits, Bool.toNat] at hb ⊢ <;> norm_num at hb ⊢ <;> omega

/-- The finite encodings are those that are neither infinite nor NaN. -/
theorem FFmt.le_maxBits_iff (f : FFmt) {b : Nat} (hb : b < 2 ^ (f.width - 1)) :
    b ≤ f.maxBits ↔ ¬(b / 2 ^ f.fbits = 2 ^ f.ebits - 1 ∧ (f.hasInf = true ∨ b % 2 ^ f.fbits = 2 ^ f.fbits - 1)) := by
  cases f <;> simp only [FFmt.maxBits, FFmt.width, FFmt.fbits, FFmt.ebits, FFmt.hasInf] at hb ⊢ <;> norm_num at hb ⊢ <;>
    omega

theorem FFmt.decode_signed (f : FFmt) (neg : Bool) {b : Nat} (hb : b < 2 ^ (f.width - 1)) :
    f.decode (f.signBit neg + b) =
      if b ≤ f.maxBits then .fin neg (f.significand b) (f.exponent b) else f.special neg b := by
  obtain ⟨hsign, hexp, hfrac⟩ := f.fields_signed neg hb
  have hneg : (neg.toNat == 1) = neg := by cases neg <;> rfl
  have hb' := Nat.div_add_mod' b (2 ^ f.fbits)
  simp only [FFmt.decode, hsign, hexp, hfrac, hneg, f.le_maxBits_iff hb]
  by_cases htop : b / 2 ^ f.fbits = 2 ^ f.ebits - 1
  · have hinf : b = f.infBits ↔ b % 2 ^ f.fbits = 0 := by rw [FFmt.infBits, ← htop]; omega
    have hzero : 2 ^ f.ebits - 1 ≠ 0 := by cases f <;> decide
    cases hi : f.hasInf
    · have hquiet : f.hasSignalling = false := by cases f <;> simp_all [FFmt.hasInf, FFmt.hasSignalling]
      simp [hi, htop, hquiet, FFmt.special, FFmt.significand, FFmt.exponent, hzero]
    · simp [hi, htop, hinf, FFmt.special]
  · by_cases hsub : b / 2 ^ f.fbits = 0
    · have hfr : b % 2 ^ f.fbits = b := by rw [hsub] at hb'; omega
      simp [hsub, hsub ▸ htop, hfr, FFmt.significand, FFmt.exponent]
    · simp [htop, hsub, FFmt.significand, FFmt.exponent]

/-! #### Delivery -/

/-- The grid a number whose leading bit weighs 2^lead is rounded on. -/
def FFmt.grid (f : FFmt) (lead : Int) : Int := max (lead - f.fbits) (1 - f.bias - f.fbits)

/-- The magnitude bits of the multiple n of that grid. -/
def FFmt.bitsAt (f : FFmt) (lead : Int) (n : Nat) : Nat :=
  if lead < 1 - f.bias then n else ((lead - (1 - f.bias)).toNat + 1) * 2 ^ f.fbits + (n - 2 ^ f.fbits)

/-- A nonzero number overflows or is the rounded multiple of its grid, with NX where that is inexact. -/
theorem FFmt.roundFin_cases (f : FFmt) (mode : RMode) (sat neg : Bool) (m : Nat) (e : Int) :
    let lead := e + Nat.log2 m
    let r := roundAt mode neg m e (f.grid lead)
    (f.maxBits < f.bitsAt lead r.1 ∧ f.roundFin mode sat neg m e = f.overflow mode sat neg) ∨
      (f.bitsAt lead r.1 ≤ f.maxBits ∧ ∃ tiny, f.roundFin mode sat neg m e =
        (f.signBit neg + f.bitsAt lead r.1, flagIf (tiny && r.2) flagUF ||| flagIf r.2 flagNX)) := by
  intro lead r
  have hsub : (max (lead - f.fbits) (1 - f.bias - f.fbits) = 1 - (f.bias : Int) - f.fbits ∧ lead < 1 - f.bias) ↔
      lead < 1 - f.bias := by omega
  have hbits : (if max (lead - f.fbits) (1 - f.bias - f.fbits) = 1 - (f.bias : Int) - f.fbits ∧ lead < 1 - f.bias then r.1
      else ((lead - (1 - f.bias)).toNat + 1) * 2 ^ f.fbits + (r.1 - 2 ^ f.fbits)) = f.bitsAt lead r.1 := by
    rw [FFmt.bitsAt]
    simp only [hsub]
  rw [← hbits]
  refine (Nat.lt_or_ge ..).imp (fun h => ⟨h, if_pos h⟩) (fun h => ⟨h, _, if_neg (Nat.not_lt.mpr h)⟩)

theorem FFmt.grid_lead (f : FFmt) {b : Nat} (hb : b ≠ 0) :
    let lead := f.exponent b + Nat.log2 (f.significand b)
    f.grid lead = f.exponent b ∧ f.bitsAt lead (f.significand b) = b := by
  intro lead
  have hb' := Nat.div_add_mod' b (2 ^ f.fbits)
  by_cases hsub : b / 2 ^ f.fbits = 0
  · have hlog : Nat.log2 b < f.fbits :=
      (Nat.log2_lt hb).mpr ((Nat.div_eq_zero_iff_lt (Nat.two_pow_pos _)).mp hsub)
    simp only [lead, FFmt.grid, FFmt.bitsAt, FFmt.significand, FFmt.exponent, if_pos hsub]
    exact ⟨by omega, if_pos (by omega)⟩
  · have hlog : Nat.log2 (2 ^ f.fbits + b % 2 ^ f.fbits) = f.fbits := by
      have hlt := Nat.mod_lt b (Nat.two_pow_pos f.fbits)
      refine (Nat.log2_eq_iff (by omega)).mpr ⟨by omega, by omega⟩
    simp only [lead, FFmt.grid, FFmt.bitsAt, FFmt.significand, FFmt.exponent, if_neg hsub, hlog]
    generalize b / 2 ^ f.fbits = E at *
    have hE : ((E : Int) - f.bias - f.fbits + f.fbits - (1 - f.bias)).toNat + 1 = E := by omega
    rw [if_neg (by omega), hE]
    omega

theorem FFmt.encoded_bitsAt (f : FFmt) {n : Nat} {lead : Int} (h : f.grid lead + Nat.log2 n = lead) (hn : n ≠ 0) :
    f.significand (f.bitsAt lead n) = n ∧ f.exponent (f.bitsAt lead n) = f.grid lead := by
  unfold FFmt.grid at *
  by_cases hsub : lead < 1 - f.bias
  · have hlt : n < 2 ^ f.fbits := (Nat.log2_lt hn).mp (by omega)
    have hzero : n / 2 ^ f.fbits = 0 := Nat.div_eq_of_lt hlt
    simp only [FFmt.bitsAt, FFmt.significand, FFmt.exponent, if_pos hsub, if_pos hzero, true_and]
    omega
  · obtain ⟨hlo, hhi⟩ := (Nat.log2_eq_iff hn).mp (show Nat.log2 n = f.fbits by omega)
    have hdiv : (((lead - (1 - f.bias)).toNat + 1) * 2 ^ f.fbits + (n - 2 ^ f.fbits)) / 2 ^ f.fbits =
        (lead - (1 - f.bias)).toNat + 1 := by
      rw [Nat.mul_comm, Nat.mul_add_div (Nat.two_pow_pos _), Nat.div_eq_of_lt (by omega), Nat.add_zero]
    have hmod : (((lead - (1 - f.bias)).toNat + 1) * 2 ^ f.fbits + (n - 2 ^ f.fbits)) % 2 ^ f.fbits =
        n - 2 ^ f.fbits := by
      rw [Nat.mul_add_mod', Nat.mod_eq_of_lt (by omega)]
    simp only [FFmt.bitsAt, FFmt.significand, FFmt.exponent, if_neg hsub, hdiv, hmod, Nat.succ_ne_zero, if_false]
    omega

theorem FFmt.maxBits_lt (f : FFmt) : f.maxBits < 2 ^ (f.width - 1) := by cases f <;> decide

/-- An encoding is a sign and the bits of a magnitude. -/
theorem FFmt.exists_signed (f : FFmt) {x : Nat} (hx : x < 2 ^ f.width) :
    ∃ neg, ∃ b < 2 ^ (f.width - 1), x = f.signBit neg + b := by
  have hw : 2 ^ f.width = 2 ^ (f.width - 1) + 2 ^ (f.width - 1) := by cases f <;> rfl
  by_cases hs : x < 2 ^ (f.width - 1)
  · exact ⟨false, x, hs, (Nat.zero_add x).symm⟩
  · refine ⟨true, x - 2 ^ (f.width - 1), by omega, ?_⟩
    simp only [FFmt.signBit, if_true]
    omega

theorem FFmt.signed_lt (f : FFmt) (neg : Bool) {b : Nat} (hb : b < 2 ^ (f.width - 1)) :
    f.signBit neg + b < 2 ^ f.width := by
  have hw : 2 ^ f.width = 2 ^ (f.width - 1) + 2 ^ (f.width - 1) := by cases f <;> rfl
  cases neg <;> simp only [FFmt.signBit, if_true, Bool.false_eq_true, if_false] <;> omega

theorem FFmt.significand_eq_zero (f : FFmt) {b : Nat} : f.significand b = 0 ↔ b = 0 := by
  have hpos := Nat.two_pow_pos f.fbits
  by_cases h : b / 2 ^ f.fbits = 0
  · simp only [FFmt.significand, h, if_true]
  · have hb : b ≠ 0 := by rintro rfl; exact h (Nat.zero_div _)
    simp only [FFmt.significand, h, if_false, hb, iff_false]
    omega

/-- A finite number of the format is delivered as its own encoding. -/
theorem FFmt.deliver_encoded (f : FFmt) (mode : RMode) (sat neg : Bool) {b : Nat} (hb : b ≤ f.maxBits) :
    f.deliver mode sat (.fin neg (f.significand b) (f.exponent b)) = (f.signBit neg + b, 0) := by
  by_cases hz : b = 0
  · rw [FFmt.deliver, if_pos (f.significand_eq_zero.mpr hz), hz, Nat.add_zero]
  · obtain ⟨hgrid, hbits⟩ := f.grid_lead hz
    have hcases := f.roundFin_cases mode sat neg (f.significand b) (f.exponent b)
    simp only [hgrid, roundAt_self, hbits, Bool.and_false] at hcases
    obtain ⟨hbig, -⟩ | ⟨-, -, h⟩ := hcases
    · exact absurd hb (Nat.not_le.mpr hbig)
    · rw [FFmt.deliver, if_neg (mt f.significand_eq_zero.mp hz), h]
      rfl

theorem Claims.decodedNumbersAreDeliveredUnchanged : Claims.DecodedNumbersAreDeliveredUnchanged := by
  intro f mode sat x hx hnum
  obtain ⟨neg, b, hb, rfl⟩ := f.exists_signed hx
  rw [f.decode_signed neg hb] at hnum ⊢
  split at hnum
  · rw [if_pos ‹_›, f.deliver_encoded mode sat neg ‹_›]
  · rw [if_neg ‹_›]
    by_cases hinf : f.hasInf && b == f.infBits
    · obtain ⟨hhas, rfl⟩ : f.hasInf = true ∧ b = f.infBits := by simpa using hinf
      simp [FFmt.special, FFmt.deliver, hhas]
    · rw [FFmt.special, if_neg hinf] at hnum
      cases hnum

/-- An overflow is delivered as an encoding, never without a flag (R57). -/
theorem FFmt.overflow_spec (f : FFmt) (mode : RMode) (sat neg : Bool) :
    (f.overflow mode sat neg).1 < 2 ^ f.width ∧ (f.overflow mode sat neg).2 ≠ 0 := by
  rw [FFmt.overflow]
  split
  · split
    · exact ⟨f.signed_lt neg (by cases f <;> decide), show flagOF ||| flagNX ≠ 0 by decide⟩
    · exact ⟨by cases f <;> decide, show flagNV ||| flagOF ||| flagNX ≠ 0 by decide⟩
  · exact ⟨f.signed_lt neg f.maxBits_lt, show flagOF ||| flagNX ≠ 0 by decide⟩

theorem flags_of_inexact : ∀ tiny : Bool, flagIf (tiny && true) flagUF ||| flagIf true flagNX ≠ 0 := by decide

theorem Claims.flaglessDeliveryIsExact : Claims.FlaglessDeliveryIsExact := by
  intro f mode sat neg m e
  by_cases hm : m = 0
  · subst hm
    have hdec := f.decode_signed neg (Nat.two_pow_pos (f.width - 1))
    have hlt := f.signed_lt neg (Nat.two_pow_pos (f.width - 1))
    rw [Nat.add_zero, if_pos (Nat.zero_le _), f.significand_eq_zero.mpr rfl] at hdec
    simp only [FFmt.deliver, if_true, hdec]
    exact ⟨hlt, fun _ => FVal.eq_of_magnitude neg (by simp [magnitude])⟩
  · simp only [FFmt.deliver, if_neg hm]
    obtain ⟨-, h⟩ | ⟨hle, tiny, h⟩ := f.roundFin_cases mode sat neg m e
    · rw [h]
      exact ⟨(f.overflow_spec mode sat neg).1, fun h0 => absurd h0 (f.overflow_spec mode sat neg).2⟩
    · have hlt := hle.trans_lt f.maxBits_lt
      rw [h, f.decode_signed neg hlt, if_pos hle]
      refine ⟨f.signed_lt neg hlt, fun h0 => ?_⟩
      have hexact : (roundAt mode neg m e (f.grid (e + Nat.log2 m))).2 = false := by
        cases hr : (roundAt mode neg m e (f.grid (e + Nat.log2 m))).2
        · rfl
        · rw [hr] at h0
          exact absurd h0 (flags_of_inexact tiny)
      have hmag := roundAt_exact hexact
      obtain ⟨hn, hlead⟩ := lead_eq_of_magnitude hm hmag
      obtain ⟨hsig, hexp⟩ := f.encoded_bitsAt hlead hn
      rw [hsig, hexp]
      exact FVal.eq_of_magnitude neg hmag

end Sys2Proof.Machine

open Sys2Proof.Machine in
/-- Settles O6: an encoding is a sign and the bits of a significand on the grid of its own binade (`FFmt.decode_signed`,
`FFmt.grid_lead`), and a rounding that raises nothing stays at the magnitude given (`roundAt_exact`). -/
theorem deliveryIsExact : Obligations.DeliveryIsExact :=
  ⟨Claims.decodedNumbersAreDeliveredUnchanged, Claims.flaglessDeliveryIsExact⟩
end

section
/-! ### O25: integers wrapped, clamped and delivered (R47, R48, R147, R153) -/
namespace Sys2Proof.Machine

/-! #### Wrapping -/

theorem wrapTo_congr {w : Nat} (sg : Bool) {u v : Int} (h : u % 2 ^ w = v % 2 ^ w) : wrapTo w sg u = wrapTo w sg v := by
  simp only [wrapTo, h]

theorem wrapTo_emod (w : Nat) (sg : Bool) (v : Int) : wrapTo w sg v % 2 ^ w = v % 2 ^ w := by
  unfold wrapTo
  dsimp only
  split
  · rw [Int.sub_emod_right, Int.emod_emod_of_dvd _ dvd_rfl]
  · exact Int.emod_emod_of_dvd _ dvd_rfl

/-- The numbers of an integer type are those that wrapping gives. -/
theorem wrapTo_mem_range {w : Nat} (hw : 0 < w) (sg : Bool) (v : Int) :
    (intRange w sg).1 ≤ wrapTo w sg v ∧ wrapTo w sg v ≤ (intRange w sg).2 := by
  have hlo := Int.emod_nonneg v (show (2 : Int) ^ w ≠ 0 by positivity)
  have hhi := Int.emod_lt_of_pos v (show (0 : Int) < 2 ^ w by positivity)
  have htwo : (2 : Int) ^ w = 2 * 2 ^ (w - 1) := by rw [← pow_succ', Nat.sub_add_cancel hw]
  cases sg <;> simp only [wrapTo, intRange, Bool.true_and, Bool.false_and, Bool.false_eq_true, if_false, if_true,
    decide_eq_true_eq]
  · omega
  · split <;> omega

/-- Bits read as a number of the domain. -/
theorem intOfBits_mod (w : Nat) (sg : Bool) (n : Nat) : intOfBits w sg (n % 2 ^ w) = wrapTo w sg n := by
  have hle : 2 ^ (w - 1) ≤ n % 2 ^ w ↔ (2 : Int) ^ (w - 1) ≤ (n : Int) % 2 ^ w := by exact_mod_cast Iff.rfl
  simp only [intOfBits, wrapTo, hle]
  push_cast
  rfl

theorem VCtx.read_eq (c : VCtx) (n : Nat) : c.read n = wrapTo c.w c.signed n := intOfBits_mod ..

theorem VCtx.form_cast (c : VCtx) (x : Int) : (c.form x : Int) = x % 2 ^ c.w :=
  Int.toNat_of_nonneg (Int.emod_nonneg x (by positivity))

theorem VCtx.wrapped_of_int {c : VCtx} {w : Nat} {sg : Bool} (h : c.dest = .int w sg) (v : Int) :
    c.wrapped v = wrapTo w sg v := by
  have hcast : ((v % 2 ^ w).toNat : Int) = v % 2 ^ w := Int.toNat_of_nonneg (Int.emod_nonneg v (by positivity))
  have hmod : (v % 2 ^ w).toNat = (v % 2 ^ w).toNat % 2 ^ w := by
    refine (Nat.mod_eq_of_lt ?_).symm
    zify
    rw [hcast]
    exact Int.emod_lt_of_pos v (by positivity)
  simp only [VCtx.wrapped, h]
  rw [hmod, intOfBits_mod, hcast]
  exact wrapTo_congr sg (Int.emod_emod_of_dvd _ dvd_rfl)

theorem VCtx.wrapped_of_not_int {c : VCtx} (h : c.dest.isInt = false) (v : Int) : c.wrapped v = v := by
  unfold VCtx.wrapped
  split
  · next hd => rw [hd] at h; cases h
  · rfl

/-! #### Delivery to an integer type (R47) -/

theorem deliverInt_eq (w : Nat) (sg sat : Bool) (v : Int) : deliverInt w sg sat v =
    ((if sat then max (intRange w sg).1 (min (intRange w sg).2 v) else v) % 2 ^ w).toNat := by
  cases sg <;> rfl

/-- A number of the type is delivered as it stands, SAT or not. -/
theorem deliverInt_wrapTo {w : Nat} (hw : 0 < w) (sg sat : Bool) (v : Int) :
    deliverInt w sg sat (wrapTo w sg v) = (v % 2 ^ w).toNat := by
  obtain ⟨hlo, hhi⟩ := wrapTo_mem_range hw sg v
  rw [deliverInt_eq, min_eq_right hhi, max_eq_right hlo, ite_self, wrapTo_emod]

/-- What has been clamped to the type is not clamped again. -/
theorem deliverInt_clamp (w : Nat) (sg sat : Bool) (v : Int) :
    deliverInt w sg sat (max (intRange w sg).1 (min (intRange w sg).2 v)) = deliverInt w sg true v := by
  have hle : (intRange w sg).1 ≤ (intRange w sg).2 := by
    have hpos : (0 : Int) < 2 ^ (w - 1) ∧ (0 : Int) < 2 ^ w := ⟨by positivity, by positivity⟩
    cases sg <;> simp only [intRange, Bool.false_eq_true, if_false, if_true] <;> omega
  rw [deliverInt_eq, deliverInt_eq, if_pos rfl]
  cases sat
  · rfl
  · rw [if_pos rfl, min_eq_right (max_le hle (min_le_left ..)), max_eq_right (le_max_left ..)]

theorem elemOf_int_width_le {tag : BitVec 8} {w : Nat} {sg : Bool} (h : elemOf tag = .int w sg) : w ≤ 64 := by
  unfold elemOf at h
  split at h <;> cases h <;> decide

/-! #### The model's functions in plain terms (R48, R152, R153, R157) -/

/-- R152: the high half of a product. -/
theorem VCtx.read_high (c : VCtx) (x y : Int) :
    c.read (x * y % 2 ^ (2 * c.w) / 2 ^ c.w).toNat = wrapTo c.w c.signed (x * y / 2 ^ c.w) := by
  have hpos : (0 : Int) < 2 ^ c.w := by positivity
  have hnonneg : 0 ≤ x * y % 2 ^ (2 * c.w) / 2 ^ c.w := Int.ediv_nonneg (Int.emod_nonneg _ (by positivity)) hpos.le
  rw [VCtx.read_eq, Int.toNat_of_nonneg hnonneg]
  have hsplit : x * y / 2 ^ c.w =
      x * y % 2 ^ (2 * c.w) / 2 ^ c.w + 2 ^ c.w * (x * y / 2 ^ (2 * c.w)) := by
    rw [← Int.add_mul_ediv_left _ _ hpos.ne', ← mul_assoc, ← pow_add, ← two_mul, Int.emod_add_mul_ediv]
  exact wrapTo_congr _ (by rw [hsplit, Int.add_mul_emod_self_left])

theorem divOp_int {c : VCtx} {wd : Nat} {sgd : Bool} (hd : c.dest = .int wd sgd) (hw : 0 < wd) (sat : Bool) (x y o : Int) :
    deliverInt wd sgd sat (divOp c x y o) =
      if y = 0 then ((if c.signed then -1 else 2 ^ c.w - 1) % 2 ^ wd : Int).toNat
      else if divisionPast c.w c.signed x y then (x % 2 ^ wd).toNat else deliverInt wd sgd sat (x.tdiv y) := by
  by_cases hy : y = 0
  · simp only [divOp, hy, if_true, VCtx.wrapped_of_int hd, deliverInt_wrapTo hw]
  · have hb : c.borderline x y = divisionPast c.w c.signed x y := by simp [VCtx.borderline, divisionPast, hy]
    simp only [divOp, hy, if_false, hb]
    split
    · rw [VCtx.wrapped_of_int hd, deliverInt_wrapTo hw]
    · rfl

theorem remOp_int {c : VCtx} {wd : Nat} {sgd : Bool} (hd : c.dest = .int wd sgd) (hw : 0 < wd) (sat : Bool) (x y o : Int) :
    deliverInt wd sgd sat (remOp c x y o) =
      if y = 0 then (x % 2 ^ wd).toNat else if divisionPast c.w c.signed x y then 0 else deliverInt wd sgd sat (x.tmod y) := by
  by_cases hy : y = 0
  · simp only [remOp, hy, if_true, VCtx.wrapped_of_int hd, deliverInt_wrapTo hw]
  · have hb : c.borderline x y = divisionPast c.w c.signed x y := by simp [VCtx.borderline, divisionPast, hy]
    simp only [remOp, hy, if_false, hb]
    split
    · have h0 : wrapTo wd sgd 0 = 0 := by simp [wrapTo]
      rw [← h0, deliverInt_wrapTo hw]
      rfl
    · rfl

theorem divOp_exact {c : VCtx} (hd : c.dest.isInt = false) (x y o : Int) : divOp c x y o =
    if y = 0 then (if c.signed then -1 else 2 ^ c.w - 1) else if divisionPast c.w c.signed x y then x else x.tdiv y := by
  by_cases hy : y = 0
  · simp only [divOp, hy, if_true, VCtx.wrapped_of_not_int hd]
  · simp [divOp, hy, VCtx.wrapped_of_not_int hd, VCtx.borderline, divisionPast]

theorem remOp_exact {c : VCtx} (hd : c.dest.isInt = false) (x y o : Int) : remOp c x y o =
    if y = 0 then x else if divisionPast c.w c.signed x y then 0 else x.tmod y := by
  by_cases hy : y = 0
  · simp only [remOp, hy, if_true, VCtx.wrapped_of_not_int hd]
  · simp [remOp, hy, VCtx.borderline, divisionPast]

/-- R59: a conversion to a wider or equal integer type never clamps. -/
theorem widen_int {c : VCtx} {wd : Nat} {sgd : Bool} (hd : c.dest = .int wd sgd) (hw : 0 < wd) (sat : Bool) (x : Int) :
    deliverInt wd sgd sat (c.widen x) = if c.w ≤ wd then (x % 2 ^ wd).toNat else deliverInt wd sgd sat x := by
  have hwidth : c.dest.width = wd := by rw [hd]; rfl
  rw [VCtx.widen, hwidth]
  split
  · rw [VCtx.wrapped_of_int hd, deliverInt_wrapTo hw]
  · rfl

/-- R153: the counts. -/
theorem clzBits_cast (c : VCtx) (x : Int) : (clzBits c.w (c.form x) : Int) =
    if (x % 2 ^ c.w).toNat = 0 then (c.w : Int) else ((c.w - 1 - Nat.log2 (x % 2 ^ c.w).toNat : Nat) : Int) := by
  rw [clzBits, VCtx.form]
  split <;> rfl

theorem popBits_eq (n w : Nat) : popBits n w = ((List.range w).filter (fun i => n.testBit i)).length := by
  induction w generalizing n with
  | zero => rfl
  | succ w ih =>
    have hstep : (fun i => n.testBit i) ∘ Nat.succ = fun i => (n / 2).testBit i := funext fun i => Nat.testBit_succ n i
    rw [popBits, ih, List.range_succ_eq_map, List.filter_cons, List.filter_map, hstep, Nat.testBit_zero]
    rcases Nat.mod_two_eq_zero_or_one n with h | h <;> simp [h, Nat.add_comm]

/-- R153: the shifts of the w-bit form. -/
theorem VCtx.read_sll (c : VCtx) (x : Int) (n : Nat) : c.read (c.form x * 2 ^ n) = wrapTo c.w c.signed (x * 2 ^ n) := by
  rw [VCtx.read_eq]
  push_cast
  rw [VCtx.form_cast]
  exact wrapTo_congr _ ((Int.mod_modEq x _).mul_right _)

theorem VCtx.read_srl (c : VCtx) (x : Int) (n : Nat) :
    c.read (c.form x / 2 ^ n) = wrapTo c.w c.signed (x % 2 ^ c.w / 2 ^ n) := by
  rw [VCtx.read_eq]
  push_cast
  rw [VCtx.form_cast]

theorem VCtx.read_sra (c : VCtx) (x : Int) (n : Nat) :
    c.read (c.form (intOfBits c.w true (c.form x) / 2 ^ n)) = wrapTo c.w c.signed (wrapTo c.w true x / 2 ^ n) := by
  have hform : c.form x = c.form x % 2 ^ c.w := by
    zify
    rw [VCtx.form_cast, Int.emod_emod_of_dvd _ dvd_rfl]
  have hsigned : intOfBits c.w true (c.form x) = wrapTo c.w true x := by
    rw [hform, intOfBits_mod, VCtx.form_cast]
    exact wrapTo_congr _ (Int.emod_emod_of_dvd _ dvd_rfl)
  rw [VCtx.read_eq, VCtx.form_cast, hsigned]
  exact wrapTo_congr _ (Int.emod_emod_of_dvd _ dvd_rfl)

theorem VCtx.read_rol (c : VCtx) (x : Int) (n : Nat) :
    c.read (c.form x * 2 ^ n % 2 ^ c.w + c.form x / 2 ^ (c.w - n)) =
      wrapTo c.w c.signed (x % 2 ^ c.w * 2 ^ n + x % 2 ^ c.w / 2 ^ (c.w - n)) := by
  rw [VCtx.read_eq]
  push_cast
  rw [VCtx.form_cast]
  exact wrapTo_congr _ (Int.emod_add_emod ..)

/-- R152: absolute values and differences. -/
theorem natAbs_cast (x : Int) : (x.natAbs : Int) = if x < 0 then -x else x := by
  split <;> omega

theorem natAbs_sub_cast (x y : Int) : ((x - y).natAbs : Int) = max x y - min x y := by omega

end Sys2Proof.Machine
end

section
/-! ### O25: element-wise integer instructions (R146, R147, R152 to R154, R157) -/
namespace Sys2Proof.Machine

/-! #### What every integer function comes to -/

/-- The end of an element-wise instruction of an integer domain: the exact results `g` of the active elements delivered
once (R146). -/
def State.intEnd (s : State) (d : BitVec 5) (tag : BitVec 8) (mode : RMode) (p : BitVec 3) (g : Nat → Int) : State :=
  let r := s.me.deliver d tag mode ((s.me.active p).map (fun k => (k, .int (g k))))
  s.endFrom r.1 r.2

theorem State.intEnd_congr {s : State} {d : BitVec 5} {tag : BitVec 8} {mode : RMode} {p : BitVec 3} {g g' : Nat → Int}
    (h : ∀ k, g k = g' k) : s.intEnd d tag mode p g = s.intEnd d tag mode p g' := by
  rw [funext h]

theorem orFlags_map_zero {α : Type} (l : List α) : orFlags (l.map (fun _ => (0 : Flags))) = 0 := by
  induction l with
  | nil => rfl
  | cons a t ih => rw [List.map_cons, orFlags_cons, ih]; rfl

section
variable {s : State} {d a b : BitVec 5} {f : BitVec 2} {p : BitVec 3} {tag : BitVec 8} {mode : RMode} {td : Elem}
  {y : Second} {w : Nat} {sg : Bool}

/-- An element-wise instruction of an integer domain that passes its checks. -/
theorem elementwise_int {word : InstrWord} {op : IntOp} {ffn : Option FpOp} {reads rounds : Bool}
    (htd : elemOf (vtypeTag (s.me.destVtype d tag)) = td)
    (hmode : (s.me.roundingOf (s.me.destVtype d tag)).getD .rne = mode)
    (hround : (rounds && s.me.badRounding (s.me.destVtype d tag) false) = false)
    (hres : s.me.resolveWith (a :: if reads then [d] else []) y = .ok (.int w sg) tag)
    (hfit : s.me.Fits td ([a] ++ y.regs)) :
    elementwise word (some op) ffn reads rounds none d a y true p s = .next (s.intEnd d tag mode p
      (fun k => op ⟨w, sg, mode, td⟩ (s.me.value a k).toI (s.me.secondAt y k).toI (s.me.value d k).toI)) := by
  subst htd hmode
  obtain ⟨hs, hroom, hregs⟩ := hfit
  have hlive : ∀ n ∈ [a] ++ y.regs ++ (if reads then [d] else []), (s.me.getV n).elemType ≠ .dead := by
    have h := Strand.live_of_resolveWith hres
    intro n hn
    apply h
    simp only [List.mem_append, List.mem_cons, List.not_mem_nil, or_false] at hn ⊢
    tauto
  have hlegal : s.me.elementIllegal (.ok (.int w sg) tag) (some op) ffn rounds d none = false := by
    rw [Strand.elementIllegal, VDom.lacks]
    exact hround
  rw [elementwise_of_ok hres (Strand.vectorTrap_eq_none hlegal hs hlive (Strand.held_fit hroom hregs))]
  simp only [Strand.elementEffect, State.intEnd, List.map_map]
  change Host.Outcome.next (s.endFrom _ (_ ||| orFlags ((s.me.active p).map (fun _ => 0)))) = _
  rw [orFlags_map_zero, or_noFlags]
  rfl

/-! #### Into a destination that is not BX -/

/-- R146, R60: the elements an integer function leaves, and the flags of their deliveries. -/
theorem State.intEnd_elements (htd : elemOf (vtypeTag (s.me.destVtype d tag)) = td) (hbx : ∀ q, td ≠ .bx q) (v : Nat → Int) :
    let out (k : Nat) : Nat × Flags := td.deliver mode ((s.me.destVtype d tag).getLsbD 8) (.int (v k))
    (s.intEnd d tag mode p v).me.fflags = s.me.fflags ||| s.me.raisedBy p out ∧
      s.WroteElements (s.intEnd d tag mode p v) d (freshVtype tag) false p (fun k => (out k).1) := by
  subst htd
  refine ⟨?_, State.wroteElements_deliver_part hbx mode p (fun k => .int (v k)) _⟩
  rw [State.intEnd, Strand.deliver_flags hbx mode (fun k => .int (v k))]
  refine State.endFrom_fflags (Strand.deliver_fflags ..) fun h => ?_
  rw [Strand.active_eq_nil h]
  rfl

/-- R47: the elements an integer function leaves in an integer type; their delivery raises nothing. -/
theorem exec_int_elements {wd : Nat} {sgd : Bool} (htd : elemOf (vtypeTag (s.me.destVtype d tag)) = .int wd sgd) {i : Instr}
    {v : Nat → Int} {g : Nat → Nat} (hi : exec i s = .next (s.intEnd d tag mode p v))
    (hv : ∀ k, deliverInt wd sgd ((s.me.destVtype d tag).getLsbD 8) (v k) = g k) :
    ∃ t, exec i s = .next t ∧ t.me.fflags = s.me.fflags ∧ s.WroteElements t d (freshVtype tag) false p g := by
  obtain ⟨hflags, hwrote⟩ := State.intEnd_elements (mode := mode) (p := p) htd (fun _ => Elem.noConfusion) v
  refine ⟨_, hi, hflags.trans ?_, funext hv ▸ hwrote⟩
  exact (congrArg _ (orFlags_map_zero _)).trans (or_noFlags _)

/-! #### The forms of the instructions -/

/-- The sources of an integer domain are integers. -/
theorem resolveTags_int {tags : List (BitVec 8)} (h : resolveTags tags = .ok (.int w sg) tag) :
    ∀ t ∈ tags, (elemOf t).isInt = true := by
  have hall : (tags.map elemOf).all Elem.isInt = true := by
    unfold resolveTags at h
    dsimp only at h
    by_contra hn
    rw [if_neg hn] at h
    repeat' split at h
    all_goals cases h
  simpa using hall

theorem Strand.isInt_of_resolveWith_int {x : Strand} {l : List (BitVec 5)} (h : x.resolveWith l y = .ok (.int w sg) tag) :
    ∀ n ∈ l ++ y.regs, (x.getV n).elemType.isInt = true := fun n hn =>
  resolveTags_int h (x.tag n) (List.mem_append_left _ (List.mem_map_of_mem hn))

theorem form_cases : ∀ f : BitVec 2, f = 0 ∨ f = 1 ∨ f = 2 ∨ f = 3 := by decide

theorem Strand.formRegs_eq (x : Strand) (f : BitVec 2) (t : Elem) (b : BitVec 5) : x.formRegs f b = (x.second f t b).regs := by
  obtain rfl | rfl | rfl | rfl := form_cases f
  · rfl
  · change [] = Second.regs (if _ then _ else _)
    split <;> rfl
  · rfl
  · rfl

section
variable (htd : elemOf (vtypeTag (s.me.destVtype d tag)) = td)
  (hmode : (s.me.roundingOf (s.me.destVtype d tag)).getD .rne = mode)
include htd hmode

/-- A binary function of an integer domain. -/
theorem exec_binary_int (hy : s.me.second f (s.me.getV a).elemType b = y) (hres : s.me.resolveWith [a] y = .ok (.int w sg) tag)
    (hfit : s.me.Fits td ([a] ++ y.regs)) {i : Instr} {major fn : BitVec 6} {op : IntOp} {ffn : Option FpOp} {rounds : Bool}
    (hround : (rounds && s.me.badRounding (s.me.destVtype d tag) false) = false)
    (hi : exec i s = vBinary major fn (some op) ffn false rounds d a b f p s) :
    exec i s = .next (s.intEnd d tag mode p
      (fun k => op ⟨w, sg, mode, td⟩ (s.me.value a k).toI (s.me.secondAt y k).toI (s.me.value d k).toI)) := by
  subst hy
  exact hi.trans (elementwise_int (reads := false) htd hmode hround hres hfit)

/-- A function of an integer domain that reads vd too. -/
theorem exec_ternary_int (hy : s.me.second f (s.me.getV a).elemType b = y)
    (hres : s.me.resolveWith [a, d] y = .ok (.int w sg) tag) (hfit : s.me.Fits td ([a] ++ y.regs)) {i : Instr}
    {major fn : BitVec 6} {op : IntOp} {ffn : Option FpOp} {rounds : Bool}
    (hround : (rounds && s.me.badRounding (s.me.destVtype d tag) false) = false)
    (hi : exec i s = vBinary major fn (some op) ffn true rounds d a b f p s) :
    exec i s = .next (s.intEnd d tag mode p
      (fun k => op ⟨w, sg, mode, td⟩ (s.me.value a k).toI (s.me.secondAt y k).toI (s.me.value d k).toI)) := by
  subst hy
  exact hi.trans (elementwise_int (reads := true) htd hmode hround hres hfit)

/-- A unary function of an integer domain. -/
theorem exec_unary_int (hres : s.me.resolveWith [a] .none = .ok (.int w sg) tag) (hfit : s.me.Fits td [a]) {i : Instr}
    {major fn : BitVec 6} {op : IntOp} {ffn : Option FpOp} {rounds : Bool}
    (hround : (rounds && s.me.badRounding (s.me.destVtype d tag) false) = false)
    (hi : exec i s = vUnary major fn (some op) ffn rounds none d a p s) :
    exec i s = .next (s.intEnd d tag mode p
      (fun k => op ⟨w, sg, mode, td⟩ (s.me.value a k).toI (s.me.secondAt .none k).toI (s.me.value d k).toI)) :=
  hi.trans (elementwise_int (reads := false) htd hmode hround hres hfit)

/-- A shift or rotation: no source of an integer domain is floating, and R45 does not check it. -/
theorem exec_shift_int (hy : s.me.second f (s.me.getV a).elemType b = y) (hres : s.me.resolveWith [a] y = .ok (.int w sg) tag)
    (hfit : s.me.Fits td ([a] ++ y.regs)) {i : Instr} {fn : BitVec 6} {op : IntOp}
    (hi : exec i s = shiftOp fn op d a b f p s) :
    exec i s = .next (s.intEnd d tag mode p
      (fun k => op ⟨w, sg, mode, td⟩ (s.me.value a k).toI (s.me.secondAt y k).toI (s.me.value d k).toI)) := by
  have hfloat : ¬ s.me.floatSource (a :: s.me.formRegs f b) = true := by
    rw [Strand.formRegs_eq _ _ (s.me.getV a).elemType, hy, Strand.floatSource, List.any_eq_true]
    rintro ⟨n, hn, h⟩
    rw [Strand.isInt_of_resolveWith_int hres n hn, Bool.not_true, Bool.and_false] at h
    cases h
  exact exec_binary_int (rounds := false) htd hmode hy hres hfit rfl (hi.trans (if_neg hfloat))

end

end

theorem integerElements : Claims.IntegerElements := by
  intro s d a b f p w wd sg sgd tag x y sat htd
  have hpos : 0 < wd := Nat.lt_of_lt_of_le (by decide) (elemOf_int_width htd)
  have hround (rounds : Bool) : (rounds && x.badRounding (x.destVtype d tag) false) = false := by
    rw [Strand.badRounding_of_int (by rw [htd]; rfl), Bool.and_false]
  refine ⟨fun hres hfit i op hi => ?_, fun hres hfit i op hi => ?_, fun hres hfit i op hi => ?_⟩
  · have bin {i major fn ffn rounds} {op : IntOp} {g : Nat → Nat}
        (hi : exec i s = vBinary major fn (some op) ffn false rounds d a b f p s) :=
      exec_int_elements (g := g) htd (exec_binary_int htd rfl rfl hres hfit (hround rounds) hi)
    have shift {i fn} {op : IntOp} {g : Nat → Nat} (hi : exec i s = shiftOp fn op d a b f p s) :=
      exec_int_elements (g := g) htd (exec_shift_int htd rfl rfl hres hfit hi)
    have all : ∀ q ∈ intBinary w sg wd sgd sat d a b f p, ∃ t, exec q.1 s = .next t ∧ t.me.fflags = x.fflags ∧
        s.WroteElements t d (freshVtype tag) false p (fun k => q.2 (x.value a k).toI (x.secondAt y k).toI) := by
      simp only [intBinary, intShifts, List.map_cons, List.map_nil, List.cons_append, List.nil_append,
        List.forall_mem_cons, List.not_mem_nil, false_implies, implies_true, and_true]
      exact ⟨bin (exec_vadd ..) fun _ => rfl, bin (exec_vsub ..) fun _ => rfl, bin (exec_vrsub ..) fun _ => rfl,
        bin (exec_vmul ..) fun _ => rfl, bin (exec_vmulh ..) fun _ => congrArg _ (VCtx.read_high ..),
        bin (exec_vdiv ..) fun _ => divOp_int rfl hpos .., bin (exec_vrem ..) fun _ => remOp_int rfl hpos ..,
        bin (exec_vmin ..) fun _ => rfl, bin (exec_vmax ..) fun _ => rfl,
        bin (exec_vabsd ..) fun _ => congrArg _ (natAbs_sub_cast ..),
        bin (exec_vsadd ..) fun _ => deliverInt_clamp .., bin (exec_vssub ..) fun _ => deliverInt_clamp ..,
        shift (exec_vsll ..) fun _ => congrArg _ (VCtx.read_sll ..), shift (exec_vsrl ..) fun _ => congrArg _ (VCtx.read_srl ..),
        shift (exec_vsra ..) fun _ => congrArg _ (VCtx.read_sra ..), shift (exec_vrol ..) fun _ => congrArg _ (VCtx.read_rol ..)⟩
    exact all _ hi
  · have un {i major fn ffn rounds} {op : IntOp} {g : Nat → Nat}
        (hi : exec i s = vUnary major fn (some op) ffn rounds none d a p s) :=
      exec_int_elements (g := g) htd (exec_unary_int htd rfl hres hfit (hround rounds) hi)
    have all : ∀ q ∈ intUnary w wd sgd sat d a p, ∃ t, exec q.1 s = .next t ∧ t.me.fflags = x.fflags ∧
        s.WroteElements t d (freshVtype tag) false p (fun k => q.2 (x.value a k).toI) := by
      simp only [intUnary, intSigns, intCounts, List.map_cons, List.map_nil, List.cons_append, List.nil_append,
        List.forall_mem_cons, List.not_mem_nil, false_implies, implies_true, and_true]
      exact ⟨un (exec_vcvt ..) fun _ => widen_int rfl hpos .., un (exec_vabs ..) fun _ => congrArg _ (natAbs_cast ..),
        un (exec_vneg ..) fun _ => rfl, un (exec_vclz ..) fun _ => congrArg _ (clzBits_cast ..),
        un (exec_vpopc ..) fun _ => congrArg _ (congrArg _ (popBits_eq ..))⟩
    exact all _ hi
  · have ter {i major fn ffn rounds} {op : IntOp} {g : Nat → Nat}
        (hi : exec i s = vBinary major fn (some op) ffn true rounds d a b f p s) :=
      exec_int_elements (g := g) htd (exec_ternary_int htd rfl rfl hres hfit (hround rounds) hi)
    have all : ∀ q ∈ intTernary wd sgd sat d a b f p, ∃ t, exec q.1 s = .next t ∧ t.me.fflags = x.fflags ∧
        s.WroteElements t d (freshVtype tag) false p
          (fun k => q.2 (x.value a k).toI (x.secondAt y k).toI (x.value d k).toI) := by
      simp only [intTernary, List.forall_mem_cons, List.not_mem_nil, false_implies, implies_true, and_true]
      exact ⟨ter (exec_vmacc ..) fun _ => rfl, ter (exec_vnmsac ..) fun _ => rfl, ter (exec_vmadd ..) fun _ => rfl,
        ter (exec_vnmsub ..) fun _ => congrArg _ (neg_add_eq_sub ..)⟩
    exact all _ hi

end Sys2Proof.Machine
end

section
/-! ### O25: integer functions into a floating destination (R45, R147, R152, R153, R157) -/
namespace Sys2Proof.Machine

/-! #### The numbers an integer operand can hold -/

theorem intOfBits_abs {w : Nat} (sg : Bool) {x : Nat} (hx : x < 2 ^ w) (hw : w ≤ 64) : |intOfBits w sg x| ≤ 2 ^ 64 := by
  have hx' : (x : Int) < 2 ^ w := by exact_mod_cast hx
  have hle : (2 : Int) ^ w ≤ 2 ^ 64 := pow_le_pow_right₀ (by norm_num) hw
  rw [abs_le, intOfBits]
  split <;> constructor <;> omega

theorem Elem.value_abs {t : BitVec 8} (e0 e1 : Nat) {x : Nat} (hx : x < 2 ^ (elemOf t).width) :
    |((elemOf t).value e0 e1 x).toI| ≤ 2 ^ 64 := by
  cases h : elemOf t with
  | int w sg =>
    rw [h] at hx
    exact intOfBits_abs sg hx (elemOf_int_width_le h)
  | _ => simp [Elem.value, EVal.toI]

theorem Strand.value_abs (x : Strand) (n : BitVec 5) (k : Nat) : |(x.value n k).toI| ≤ 2 ^ 64 :=
  Elem.value_abs _ _ (BitVec.isLt _)

theorem Strand.secondAt_abs (x : Strand) (f : BitVec 2) (a b : BitVec 5) (k : Nat) :
    |(x.secondAt (x.second f (x.getV a).elemType b) k).toI| ≤ 2 ^ 64 := by
  have hscalar : |(scalarValue (x.getV a).elemType (x.getG b)).toI| ≤ 2 ^ 64 := by
    cases h : (x.getV a).elemType with
    | int w sg => exact intOfBits_abs sg (Nat.mod_lt _ (Nat.two_pow_pos w)) (elemOf_int_width_le h)
    | fp fm => cases fm <;> simp [scalarValue, EVal.toI]
    | _ => simp [scalarValue, EVal.toI]
  have himm : |viImm b| ≤ 2 ^ 64 := by
    have hlo := BitVec.le_toInt b
    have hhi := BitVec.toInt_lt (x := b)
    rw [abs_le, viImm]
    omega
  obtain rfl | rfl | rfl | rfl := form_cases f
  · exact x.value_abs b k
  · change |(x.secondAt (if _ then _ else _) k).toI| ≤ _
    split <;> exact hscalar
  · change |(if _ then EVal.int _ else EVal.fl _).toI| ≤ _
    split
    · exact himm
    · exact (by simp [EVal.toI])
  · exact x.value_abs _ k

/-! #### Clamping to a floating type (R49, R152) -/

/-- The formats whose largest finite number no sum of two integer operands passes. -/
theorem FFmt.le_maxInt {fm : FFmt} (h : (Elem.fp fm).most = 2 ^ 65) : 2 ^ 65 ≤ fm.maxInt := by
  cases fm with
  | fp64 =>
    have hmax : FFmt.fp64.decode FFmt.fp64.maxBits = .fin false (2 ^ 53 - 1) 971 := by decide
    have hpow : (2 : Int) ^ 65 ≤ 2 ^ 971 := pow_le_pow_right₀ (by norm_num) (by norm_num)
    rw [FFmt.maxInt, hmax]
    exact hpow.trans (le_mul_of_one_le_left (by positivity) (by norm_num))
  | fp32 | bf16 => decide
  | _ => exact absurd h (by decide)

theorem FFmt.most_eq (fm : FFmt) : (Elem.fp fm).most = 2 ^ 65 ∨ (Elem.fp fm).most = fm.maxInt := by
  cases fm <;> simp [Elem.most] <;> decide

/-- R152: the clamp of the saturating functions, on a sum of two integer operands. -/
theorem VCtx.clamp_of_not_int {c : VCtx} (hc : c.dest.isInt = false) {v : Int} (hv : |v| ≤ 2 ^ 65) :
    c.clamp v = max (-c.dest.most) (min c.dest.most v) := by
  obtain ⟨hlo, hhi⟩ := abs_le.mp hv
  have hid {n : Int} (h : 2 ^ 65 ≤ n) : max (-n) (min n v) = v := by omega
  cases hd : c.dest with
  | int w sg => rw [hd] at hc; cases hc
  | fp fm =>
    simp only [VCtx.clamp, hd]
    obtain h | h := fm.most_eq
    · rw [hid (FFmt.le_maxInt h), h, hid le_rfl]
    · rw [h]
  | dead | bx => simp only [VCtx.clamp, hd]; exact (hid le_rfl).symm

theorem VCtx.widen_of_not_int {c : VCtx} (hc : c.dest.isInt = false) (x : Int) : c.widen x = x := by
  rw [VCtx.widen, VCtx.wrapped_of_not_int hc, ite_self]

/-! #### Delivery -/

/-- R147: integer sources beside a live one that is none leave no domain. -/
theorem resolveTags_mixed {tags : List (BitVec 8)} (hlive : ∀ t ∈ tags, elemOf t ≠ .dead)
    (hint : ∃ t ∈ tags, (elemOf t).isInt = true) (hother : ∃ t ∈ tags, (elemOf t).isInt = false) :
    resolveTags tags = .none := by
  have h1 : ¬ (tags.map elemOf).any (fun t => t == .dead) = true := by simpa using hlive
  have h2 : ¬ (tags.map elemOf).all Elem.isInt = true := by simpa using hother
  have h3 : (tags.map elemOf).any Elem.isInt = true := by simpa using hint
  unfold resolveTags
  dsimp only
  rw [if_neg h1, if_neg h2, if_pos h3]

section
variable {s : State} {d a b : BitVec 5} {f : BitVec 2} {p : BitVec 3} {tag : BitVec 8} {mode : RMode} {y : Second} {w : Nat}
  {sg : Bool}

/-- A multiply-accumulate of integer sources into a live vd that is none. -/
theorem exec_mixed_traps (hres : s.me.resolveWith [a] (s.me.second f (s.me.getV a).elemType b) = .ok (.int w sg) tag)
    (hlive : (s.me.getV d).elemType ≠ .dead) (hd : (s.me.getV d).elemType.isInt = false) {i : Instr} {major fn : BitVec 6}
    {op : Option IntOp} {ffn : Option FpOp} {rounds : Bool} (hi : exec i s = vBinary major fn op ffn true rounds d a b f p s) :
    exec i s = .next (s.trap (wordTrap causeIllegal (encV major d a b f p fn))) := by
  have hints := resolveTags_int hres
  have hnone : s.me.resolveWith [a, d] (s.me.second f (s.me.getV a).elemType b) = .none := by
    refine resolveTags_mixed (fun t ht => ?_) ⟨s.me.tag a, by simp, hints _ (by simp)⟩ ⟨s.me.tag d, by simp, hd⟩
    by_cases htd : t = s.me.tag d
    · rwa [htd]
    · intro hdead
      have hmem : t ∈ ([a] ++ (s.me.second f (s.me.getV a).elemType b).regs).map s.me.tag ++
          (s.me.second f (s.me.getV a).elemType b).tags := by
        simp only [List.cons_append, List.nil_append, List.map_cons, List.mem_cons] at ht ⊢
        tauto
      have hint := hints t hmem
      rw [hdead] at hint
      cases hint
  exact hi.trans (elementwise_of_trap (reads := true) (resolveY := true) hnone (Strand.vectorTrap_illegal rfl))

/-- What IntegersIntoFloating says of an instruction that delivers `g`. -/
theorem exec_int_floating (hlive : (s.me.getV d).elemType ≠ .dead) (hroom : s.me.vl ≤ (s.me.getV d).elemType.vlmax)
    {i : Instr} {g : Nat → Int} (hi : exec i s = .next (s.intEnd d tag mode p g)) :
    (∀ fm, (s.me.getV d).elemType = .fp fm →
      let out (v : Int) : Nat × Flags := fm.deliver mode ((s.me.getV d).vtype.getLsbD 8) (FVal.ofInt v)
      ∃ t, exec i s = .next t ∧ t.me.fflags = s.me.fflags ||| s.me.raisedBy p (fun k => out (g k)) ∧
        s.WroteElements t d (freshVtype tag) false p (fun k => (out (g k)).1)) ∧
    (∀ fm, (s.me.getV d).elemType = .bx fm → s.me.vstart < s.me.vl →
      let out : List (Nat × EVal) := (s.me.active p).map (fun k => (k, .int (g k)))
      ∃ t, exec i s = .next t ∧ t.me.fflags = s.me.fflags ||| blockFlags fm mode out ∧ s.WroteBlocks t d fm mode out) := by
  have hvt : s.me.destVtype d tag = (s.me.getV d).vtype := Strand.destVtype_of_live hlive tag
  have htype : elemOf (vtypeTag (s.me.destVtype d tag)) = (s.me.getV d).elemType := by rw [hvt, VReg.elemType]
  refine ⟨fun fm hfm => ?_, fun fm hfm hbegun => ?_⟩
  · have h := State.intEnd_elements (mode := mode) (p := p) (htype.trans hfm) (fun _ => Elem.noConfusion) g
    rw [hvt] at h
    exact ⟨_, hi, h⟩
  · have hbx : elemOf (vtypeTag (s.me.destVtype d tag)) = .bx fm := htype.trans hfm
    rw [State.intEnd, Strand.deliver_of_bx hbx, State.endFrom_of_begun _ _ _ hbegun] at hi
    refine ⟨_, hi, State.endVector_fflags .., State.wroteBlocks_packed hbx (fun k hk => ?_) _⟩
    exact Nat.lt_of_lt_of_le (mem_active_map_fst hk) (fm.vlmax_eq ▸ hfm ▸ hroom)

end

theorem integersIntoFloating : Claims.IntegersIntoFloating := by
  intro s d a b f p w sg tag mode x y td sat u v done hlive hd
  have hvt : x.destVtype d tag = (x.getV d).vtype := Strand.destVtype_of_live hlive tag
  have htd : elemOf (vtypeTag (x.destVtype d tag)) = td := by rw [hvt]; rfl
  have hround (h : x.roundingOf (x.getV d).vtype = some mode) (rounds : Bool) :
      (rounds && x.badRounding (x.destVtype d tag) false) = false := by
    rw [hvt, Strand.badRounding_of_mode h, Bool.and_false]
  have hmode (h : x.roundingOf (x.getV d).vtype = some mode) : (x.roundingOf (x.destVtype d tag)).getD .rne = mode := by
    rw [hvt, h]
    rfl
  refine ⟨fun hres => ⟨fun hfit hm i op hi => ?_, fun hfit hm i op hi => ?_, ?_⟩, fun hres hfit => ⟨fun hm => ?_, fun hm i op hi => ?_⟩⟩
  · have hsum (k : Nat) : |u k + v k| ≤ 2 ^ 65 ∧ |u k - v k| ≤ 2 ^ 65 := by
      have hu := abs_le.mp (x.value_abs a k)
      have hv := abs_le.mp (x.secondAt_abs f a b k)
      simp only [abs_le, u, v, y]
      omega
    have bin {i major fn ffn rounds} {op : IntOp} {g : Nat → Int}
        (hi : exec i s = vBinary major fn (some op) ffn false rounds d a b f p s)
        (hv : ∀ k, op ⟨w, sg, mode, td⟩ (u k) (v k) (x.value d k).toI = g k) : done i g :=
      exec_int_floating hlive hfit.room ((exec_binary_int htd (hmode hm) rfl hres hfit (hround hm rounds) hi).trans
        (congrArg _ (State.intEnd_congr hv)))
    have all : ∀ q ∈ intExact w sg td.most d a b f p, done q.1 (fun k => q.2 (u k) (v k)) := by
      simp only [intExact, List.forall_mem_cons, List.not_mem_nil, false_implies, implies_true, and_true]
      exact ⟨bin (exec_vadd ..) fun _ => rfl, bin (exec_vsub ..) fun _ => rfl, bin (exec_vrsub ..) fun _ => rfl,
        bin (exec_vmul ..) fun _ => rfl, bin (exec_vmulh ..) fun _ => VCtx.read_high ..,
        bin (exec_vdiv ..) fun _ => divOp_exact hd .., bin (exec_vrem ..) fun _ => remOp_exact hd ..,
        bin (exec_vmin ..) fun _ => rfl, bin (exec_vmax ..) fun _ => rfl,
        bin (exec_vabsd ..) fun _ => natAbs_sub_cast ..,
        bin (exec_vsadd ..) fun k => VCtx.clamp_of_not_int hd (hsum k).1,
        bin (exec_vssub ..) fun k => VCtx.clamp_of_not_int hd (hsum k).2⟩
    exact all _ hi
  · have shift {i fn} {op : IntOp} {g : Nat → Int} (hi : exec i s = shiftOp fn op d a b f p s)
        (hv : ∀ k, op ⟨w, sg, mode, td⟩ (u k) (v k) (x.value d k).toI = g k) : done i g :=
      exec_int_floating hlive hfit.room ((exec_shift_int htd (hvt ▸ hm) rfl hres hfit hi).trans
        (congrArg _ (State.intEnd_congr hv)))
    have all : ∀ q ∈ intShifts w sg d a b f p, done q.1 (fun k => q.2 (u k) (v k)) := by
      simp only [intShifts, List.forall_mem_cons, List.not_mem_nil, false_implies, implies_true, and_true]
      exact ⟨shift (exec_vsll ..) fun _ => VCtx.read_sll .., shift (exec_vsrl ..) fun _ => VCtx.read_srl ..,
        shift (exec_vsra ..) fun _ => VCtx.read_sra .., shift (exec_vrol ..) fun _ => VCtx.read_rol ..⟩
    exact all _ hi
  · have traps {i major fn op ffn rounds} (hi : exec i s = vBinary major fn op ffn true rounds d a b f p s) :=
      exec_mixed_traps hres hlive hd hi
    simp only [List.forall_mem_cons, List.not_mem_nil, false_implies, implies_true, and_true]
    refine ⟨?_, ?_, ?_, ?_⟩ <;> rintro q ⟨⟩
    · exact (traps (exec_vmacc ..) :)
    · exact (traps (exec_vnmsac ..) :)
    · exact (traps (exec_vmadd ..) :)
    · exact (traps (exec_vnmsub ..) :)
  · have un {i major fn ffn rounds} {op : IntOp} {g : Nat → Int}
        (hi : exec i s = vUnary major fn (some op) ffn rounds none d a p s)
        (hv : ∀ k, op ⟨w, sg, mode, td⟩ (u k) (x.secondAt .none k).toI (x.value d k).toI = g k) : done i g :=
      exec_int_floating hlive hfit.room ((exec_unary_int htd (hmode hm) hres hfit (hround hm rounds) hi).trans
        (congrArg _ (State.intEnd_congr hv)))
    have all : ∀ q ∈ intSigns d a p, done q.1 (fun k => q.2 (u k)) := by
      simp only [intSigns, List.forall_mem_cons, List.not_mem_nil, false_implies, implies_true, and_true]
      exact ⟨un (exec_vabs ..) fun _ => natAbs_cast .., un (exec_vneg ..) fun _ => rfl⟩
    exact ⟨un (exec_vcvt ..) fun _ => VCtx.widen_of_not_int hd _, fun i op hi => all _ hi⟩
  · have un {i major fn ffn} {op : IntOp} {g : Nat → Int}
        (hi : exec i s = vUnary major fn (some op) ffn false none d a p s)
        (hv : ∀ k, op ⟨w, sg, mode, td⟩ (u k) (x.secondAt .none k).toI (x.value d k).toI = g k) : done i g :=
      exec_int_floating hlive hfit.room ((exec_unary_int htd (hvt ▸ hm) hres hfit rfl hi).trans
        (congrArg _ (State.intEnd_congr hv)))
    have all : ∀ q ∈ intCounts w d a p, done q.1 (fun k => q.2 (u k)) := by
      simp only [intCounts, List.forall_mem_cons, List.not_mem_nil, false_implies, implies_true, and_true]
      exact ⟨un (exec_vclz ..) fun _ => clzBits_cast .., un (exec_vpopc ..) fun _ => congrArg _ (popBits_eq ..)⟩
    exact all _ hi

end Sys2Proof.Machine
end

section
/-! ### O25: bitwise functions and VDOT4 on integers (R153, R155) -/
namespace Sys2Proof.Machine

/-! #### Bits of w-bit numbers -/

/-- The complement at 64 bits, cut to w bits, is the complement at w bits. -/
theorem notBits_mod {w : Nat} (hw : w ≤ 64) {x : Nat} (hx : x < 2 ^ w) : notBits x % 2 ^ w = 2 ^ w - 1 - x := by
  have hsplit : 2 ^ 64 = 2 ^ w * (2 ^ (64 - w) - 1) + 2 ^ w := by
    rw [← Nat.mul_succ, Nat.succ_eq_add_one, Nat.sub_add_cancel (Nat.two_pow_pos _), ← Nat.pow_add, Nat.add_sub_cancel' hw]
  have hcut : 2 ^ 64 - 1 - x = 2 ^ w * (2 ^ (64 - w) - 1) + (2 ^ w - 1 - x) := by omega
  rw [notBits, Nat.mod_eq_of_lt (show x < 2 ^ 64 by omega), hcut, Nat.mul_add_mod, Nat.mod_eq_of_lt (by omega)]

theorem Elem.width_pos {tag : BitVec 8} (h : elemOf tag ≠ .dead) : 0 < (elemOf tag).width ∧ (elemOf tag).width ≤ 64 := by
  cases ht : elemOf tag with
  | dead => exact absurd ht h
  | int w sg => exact ⟨Nat.lt_of_lt_of_le (by decide) (elemOf_int_width ht), elemOf_int_width_le ht⟩
  | fp fm => cases fm <;> decide
  | bx fm => cases fm <;> decide

theorem VReg.raw_lt (r : VReg) (k : Nat) : r.raw k < 2 ^ r.elemType.width := BitVec.isLt _

theorem Strand.rawSecond_lt {x : Strand} {f : BitVec 2} {b : BitVec 5} {w : Nat}
    (h : ∀ n ∈ x.formRegs f b, (x.getV n).elemType.width = w) (k : Nat) : x.rawSecond f b w k < 2 ^ w := by
  obtain rfl | rfl | rfl | rfl := form_cases f
  · exact h b (List.mem_singleton_self b) ▸ VReg.raw_lt ..
  · exact Nat.mod_lt _ (Nat.two_pow_pos w)
  · have hpos : (0 : Int) < 2 ^ w := by positivity
    have hlt := Int.emod_lt_of_pos (viImm b) hpos
    change (viImm b % 2 ^ w).toNat < 2 ^ w
    zify
    rwa [Int.toNat_of_nonneg (Int.emod_nonneg _ hpos.ne')]
  · exact h _ (List.mem_singleton_self _) ▸ VReg.raw_lt ..

/-! #### The bitwise functions (R153) -/

section
variable {s : State} {d a b : BitVec 5} {f : BitVec 2} {p : BitVec 3} {w : Nat}

theorem Strand.widthsDiffer_of_same {x : Strand} {srcs : List (BitVec 5)}
    (hd : (x.getV d).elemType = .dead ∨ (x.getV d).elemType.width = w) (hw : ∀ n ∈ srcs, (x.getV n).elemType.width = w) :
    x.widthsDiffer srcs d = false := by
  have hall : ∀ u ∈ ((x.getV d).elemType :: srcs.map (fun n => (x.getV n).elemType)).filter (fun u => u != .dead),
      u.width = w := by
    intro u hu
    obtain ⟨hu, hl⟩ := List.mem_filter.mp hu
    obtain rfl | hu := List.mem_cons.mp hu
    · exact hd.resolve_left (bne_iff_ne.mp hl)
    · obtain ⟨n, hn, rfl⟩ := List.mem_map.mp hu
      exact hw n hn
  refine Bool.eq_false_iff.mpr fun hdiff => ?_
  obtain ⟨u, hu, hdiff⟩ := List.any_eq_true.mp hdiff
  obtain ⟨v, hv, hne⟩ := List.any_eq_true.mp hdiff
  exact bne_iff_ne.mp hne ((hall u hu).trans (hall v hv).symm)

theorem State.endFrom_written_fflags (s : State) (d : BitVec 5) (vt : BitVec 16) (l : List (Nat × Nat)) :
    (s.endFrom (s.me.written d vt l) 0).me.fflags = s.me.fflags :=
  (State.endFrom_fflags (y := s.me.written d vt l) rfl fun _ => rfl).trans (or_noFlags _)

/-- A bitwise function whose sources and destination share one width. -/
theorem exec_bitwise {unary reads : Bool} {word : InstrWord} {op : Nat → Nat → Nat → Nat} {i : Instr} {g : Nat → Nat}
    {td : Elem} (htd : (if (s.me.getV d).elemType = .dead then (s.me.getV a).elemType else (s.me.getV d).elemType) = td)
    (hw : td.width = w) (hpos : 0 < w)
    (hfit : s.me.Fits td ([a] ++ if unary then [] else s.me.formRegs f b))
    (hsame : ∀ n ∈ [a] ++ (if unary then [] else s.me.formRegs f b), (s.me.getV n).elemType.width = w)
    (hread : reads = true → (s.me.getV d).elemType ≠ .dead) (hi : exec i s = bitwiseOp word op unary reads d a b f p s)
    (hop : ∀ k, op ((s.me.getV a).raw k) (if unary then 0 else s.me.rawSecond f b w k) ((s.me.getV d).raw k) % 2 ^ w = g k) :
    ∃ t, exec i s = .next t ∧ t.me.fflags = s.me.fflags ∧ s.WroteElements t d (s.me.getV a).vtype false p g := by
  obtain ⟨hs, hroom, hregs⟩ := hfit
  subst htd
  have ha : (s.me.getV a).elemType.width = w := hsame a (by simp)
  have hd : (s.me.getV d).elemType = .dead ∨ (s.me.getV d).elemType.width = w := by
    by_cases h : (s.me.getV d).elemType = .dead
    · exact .inl h
    · exact .inr (by rwa [if_neg h] at hw)
  have hsrc : ∀ n ∈ [a] ++ (if unary then [] else s.me.formRegs f b), (s.me.getV n).elemType ≠ .dead := by
    intro n hn hdead
    have h := hsame n hn
    rw [hdead] at h
    exact absurd h hpos.ne
  have hlive : ∀ n ∈ [a] ++ (if unary then [] else s.me.formRegs f b) ++ (if reads then [d] else []),
      (s.me.getV n).elemType ≠ .dead := by
    intro n hn
    obtain hn | hn := List.mem_append.mp hn
    · exact hsrc n hn
    · cases reads
      · cases hn
      · cases List.mem_singleton.mp hn
        exact hread rfl
  have hnone := Strand.vectorTrap_eq_none (w := word) (Strand.widthsDiffer_of_same hd hsame) hs hlive
    (Strand.held_fit hroom hregs)
  have hnext : exec i s = .next (s.endFrom (s.me.deliverRaw d (s.me.getV a).vtype
      ((s.me.active p).map (fun k => (k, g k)))) 0) := by
    rw [hi, bitwiseOp]
    simp only [hnone, ha, hop]
  rw [Strand.deliverRaw_eq] at hnext
  exact ⟨_, hnext, State.endFrom_written_fflags .., State.wroteElements_part g 0 rfl⟩

/-! #### VDOT4 on 8-bit integers (R155) -/

theorem isInt8_only {t : Elem} (h : isInt8 t = true) : t ≠ .dead ∧ isFloat8 t = false ∧ t.isInt = true ∧ t.vlmax = 1024 := by
  simp only [isInt8, Bool.or_eq_true, beq_iff_eq] at h
  obtain rfl | rfl := h <;> exact ⟨Elem.noConfusion, rfl, rfl, rfl⟩

theorem dotIllegal_int {ta tb td : Elem} {sg : Bool} (ha : isInt8 ta = true) (hb : isInt8 tb = true) (hd : td = .int 32 sg) :
    dotIllegal ta tb td = false := by
  obtain ⟨-, hfa, -⟩ := isInt8_only ha
  obtain ⟨-, hfb, -⟩ := isInt8_only hb
  cases sg <;> simp [dotIllegal, ha, hb, hfa, hfb, hd, Elem.isInt]

/-- R155: the old element and four products. -/
theorem dotElement_int (mode : RMode) (old : EVal) (u v : Nat → EVal) (i : Nat) :
    dotElement mode true old (((List.range 4).map (fun j => 4 * i + j)).map u)
        (((List.range 4).map (fun j => 4 * i + j)).map v) =
      (.int (old.toI + (u (4 * i)).toI * (v (4 * i)).toI + (u (4 * i + 1)).toI * (v (4 * i + 1)).toI +
        (u (4 * i + 2)).toI * (v (4 * i + 2)).toI + (u (4 * i + 3)).toI * (v (4 * i + 3)).toI), 0) := rfl

/-- What a DEAD register would take is nothing to a live one. -/
theorem State.WroteAt.of_live {t : State} {fresh fresh' : BitVec 16} {skips : Bool} {g : Nat → Option Nat}
    (h : s.WroteAt t d fresh skips g) (hlive : (s.me.getV d).elemType ≠ .dead) : s.WroteAt t d fresh' skips g := by
  obtain ⟨hvt, hrest⟩ := h
  exact ⟨by rw [hvt, if_neg (by tauto), if_neg (by tauto)], hrest⟩

theorem exec_vdot4_int {sgd : Bool} (ha : isInt8 (s.me.getV a).elemType = true)
    (hb : isInt8 (s.me.getV b).elemType = true) (hd : (s.me.getV d).elemType = .int 32 sgd) (hs : s.me.share ≠ 0)
    (hroom : s.me.vl ≤ 256) :
    exec (.vdot4 d a b 0 p) s = .next (s.intEnd d (vtypeTag (s.me.getV d).vtype)
      ((s.me.roundingOf (s.me.getV d).vtype).getD .rne) p (fun k => (s.me.value d k).toI +
        (s.me.value a (4 * k)).toI * (s.me.value b (4 * k)).toI +
        (s.me.value a (4 * k + 1)).toI * (s.me.value b (4 * k + 1)).toI +
        (s.me.value a (4 * k + 2)).toI * (s.me.value b (4 * k + 2)).toI +
        (s.me.value a (4 * k + 3)).toI * (s.me.value b (4 * k + 3)).toI)) := by
  obtain ⟨hla, hfa, hint, hma⟩ := isInt8_only ha
  obtain ⟨hlb, hfb, -, hmb⟩ := isInt8_only hb
  have hbad : s.me.badRounding (s.me.getV d).vtype false = false :=
    Strand.badRounding_of_int (show (s.me.getV d).elemType.isInt = true by rw [hd]; rfl)
  have hlegal : (dotIllegal (s.me.getV a).elemType (s.me.getV b).elemType (s.me.getV d).elemType ||
      ((s.me.getV d).elemType != .dead && s.me.badRounding (s.me.getV d).vtype
        (isFloat8 (s.me.getV a).elemType || isFloat8 (s.me.getV b).elemType))) = false := by
    rw [dotIllegal_int ha hb hd, hfa, hfb, Bool.or_false, hbad, Bool.and_false]
    rfl
  have hmax : (Elem.int 32 sgd).vlmax = 256 := by simp [Elem.vlmax, Elem.width]
  have hnone (w : InstrWord) := Strand.vectorTrap_eq_none (w := w) (read := [a, b, d])
    (held := [((s.me.getV d).elemType, s.me.vl), ((s.me.getV a).elemType, 4 * s.me.vl),
      ((s.me.getV b).elemType, 4 * s.me.vl)]) hlegal hs (by simpa [hd] using ⟨hla, hlb⟩)
    (by simp only [List.forall_mem_cons, hd, hmax, hma, hmb]; simp; omega)
  have hvb : (s.me.formRegs 0 b).headD b = b := rfl
  rw [exec_vdot4, execVdot4]
  simp only [hvb, hnone, hint, dotElement_int]
  simp only [List.map_map]
  change Host.Outcome.next (s.endFrom _ (_ ||| orFlags ((s.me.active p).map (fun _ => 0)))) = _
  rw [orFlags_map_zero, or_noFlags]
  rfl

end

theorem bitwiseAndDotProducts : Claims.BitwiseAndDotProducts := by
  intro s d a b f p x ta w td srcs done first other old
  have htd : (if (x.getV d).elemType = .dead then ta else (x.getV d).elemType) = td := by
    simp only [td]
    split <;> rfl
  refine ⟨fun ha hw hfit hsame => ?_, fun ha hw hfit => ?_, fun sgd hf ha hb hd hs hroom => ?_⟩
  · obtain ⟨hpos, h64⟩ : 0 < w ∧ w ≤ 64 := Elem.width_pos ha
    have hfirst (k : Nat) : first k < 2 ^ w := VReg.raw_lt ..
    have hother (k : Nat) : other k < 2 ^ w := Strand.rawSecond_lt (fun n hn => hsame n (List.mem_append_right _ hn)) k
    have plain {i word} {op : Nat → Nat → Nat → Nat} {g : Nat → Nat} (hi : exec i s = bitwiseOp word op false false d a b f p s)
        (hop : ∀ k, op (first k) (other k) (old k) % 2 ^ w = g k) : done i g :=
      exec_bitwise (unary := false) htd hw hpos hfit hsame (fun h => by cases h) hi hop
    refine ⟨plain (exec_vand ..) fun k => ?_, plain (exec_vor ..) fun k => ?_, plain (exec_vxor ..) fun k => ?_, fun hlive => ?_⟩
    · exact Nat.mod_eq_of_lt (Nat.and_lt_two_pow _ (hother k))
    · exact Nat.mod_eq_of_lt (Nat.or_lt_two_pow (hfirst k) (hother k))
    · exact Nat.mod_eq_of_lt (Nat.xor_lt_two_pow (hfirst k) (hother k))
    · refine exec_bitwise (unary := false) (reads := true) htd hw hpos hfit hsame (fun _ => hlive) (exec_vmerge ..) fun k => ?_
      have hold : old k < 2 ^ w := by
        rw [← hw, ← htd, if_neg hlive]
        exact VReg.raw_lt ..
      change ((first k &&& other k) ||| (old k &&& notBits (other k))) % 2 ^ w = _
      rw [Nat.or_mod_two_pow, Nat.and_mod_two_pow (a := old k), notBits_mod h64 (hother k), Nat.mod_eq_of_lt hold,
        Nat.mod_eq_of_lt (Nat.and_lt_two_pow _ (hother k))]
  · obtain ⟨hpos, h64⟩ : 0 < w ∧ w ≤ 64 := Elem.width_pos ha
    have plain {i word} {op : Nat → Nat → Nat → Nat} {g : Nat → Nat} (hi : exec i s = bitwiseOp word op true false d a 0 0 p s)
        (hop : ∀ k, op (first k) 0 (old k) % 2 ^ w = g k) : done i g :=
      exec_bitwise (unary := true) htd hw hpos hfit (by simp; rfl) (fun h => by cases h) hi hop
    exact ⟨plain (exec_vnot ..) fun k => notBits_mod h64 (VReg.raw_lt ..),
      plain (exec_vmov ..) fun k => Nat.mod_eq_of_lt (VReg.raw_lt ..)⟩
  · subst hf
    have hlive : (x.getV d).elemType ≠ .dead := by rw [hd]; exact Elem.noConfusion
    have hvt := Strand.destVtype_of_live hlive (vtypeTag (x.getV d).vtype)
    have htype : elemOf (vtypeTag (x.destVtype d (vtypeTag (x.getV d).vtype))) = .int 32 sgd := by rw [hvt]; exact hd
    obtain ⟨t, ht, hflags, hwrote⟩ := exec_int_elements htype (exec_vdot4_int (p := p) ha hb hd hs hroom) fun _ => rfl
    rw [hvt] at hwrote
    exact ⟨t, ht, hflags, State.WroteAt.of_live hwrote hlive⟩

end Sys2Proof.Machine
open Sys2Proof.Machine in
/-- Settles O25: every integer function comes to `State.intEnd`, its exact result delivered once; the bitwise functions copy
bits. -/
theorem integerElementwise : Obligations.IntegerElementwise := ⟨integerElements, integersIntoFloating, bitwiseAndDotProducts⟩
end

section
/-! ### O28: running values and the fixed tree (R63) -/
namespace Sys2Proof.Machine

/-! #### Running values -/

/-- The value carried over a list. -/
def carryOver {α : Type} (step : α → Nat → α × Flags) (c : α) (l : List Nat) : α := l.foldl (fun c k => (step c k).1) c

/-- The elements of an ascending list up to its head are the head. -/
theorem filter_le_head {i : Nat} {t : List Nat} (h : ∀ k ∈ t, i < k) : (i :: t).filter (fun j => decide (j ≤ i)) = [i] := by
  rw [List.filter_cons_of_pos (by simp), List.filter_eq_nil_iff.mpr fun k hk => by simpa using h k hk]

theorem filter_lt_head {i : Nat} {t : List Nat} (h : ∀ k ∈ t, i < k) : (i :: t).filter (fun j => decide (j < i)) = [] := by
  rw [List.filter_cons_of_neg (by simp), List.filter_eq_nil_iff.mpr fun k hk => by simpa using (h k hk).le]

/-- R63: over an ascending list the values carried are those of its initial parts, and each step's flags are raised. -/
theorem runCarry_eq (step : EVal → Nat → EVal × Flags) (c : EVal) {l : List Nat} (h : l.Pairwise (· < ·)) :
    runCarry step c l = (carryOver step c l, l.map (fun k => (k, carryOver step c (l.filter (fun j => decide (j ≤ k))))),
      orFlags (l.map (fun k => (step (carryOver step c (l.filter (fun j => decide (j < k)))) k).2))) := by
  induction l generalizing c with
  | nil => rfl
  | cons i t ih =>
    obtain ⟨hit, ht⟩ := List.pairwise_cons.mp h
    have hle : ∀ k ∈ t, (i :: t).filter (fun j => decide (j ≤ k)) = i :: t.filter (fun j => decide (j ≤ k)) := fun k hk =>
      List.filter_cons_of_pos (by simpa using (hit k hk).le)
    have hlt : ∀ k ∈ t, (i :: t).filter (fun j => decide (j < k)) = i :: t.filter (fun j => decide (j < k)) := fun k hk =>
      List.filter_cons_of_pos (by simpa using hit k hk)
    have hvalues : t.map (fun k => (k, carryOver step c ((i :: t).filter (fun j => decide (j ≤ k))))) =
        t.map (fun k => (k, carryOver step (step c i).1 (t.filter (fun j => decide (j ≤ k))))) :=
      List.map_congr_left fun k hk => by rw [hle k hk]; rfl
    have hflags : t.map (fun k => (step (carryOver step c ((i :: t).filter (fun j => decide (j < k)))) k).2) =
        t.map (fun k => (step (carryOver step (step c i).1 (t.filter (fun j => decide (j < k)))) k).2) :=
      List.map_congr_left fun k hk => by rw [hlt k hk]; rfl
    rw [runCarry, ih _ ht, List.map_cons, List.map_cons, orFlags_cons, hvalues, hflags, filter_le_head hit,
      filter_lt_head hit]
    rfl

/-- Values carried as elements are those carried as integers. -/
theorem carryOver_int (op : Int → Nat → Int) (c : Int) (l : List Nat) :
    carryOver (fun acc k => (EVal.int (op acc.toI k), 0)) (.int c) l = .int (l.foldl op c) := by
  induction l generalizing c with
  | nil => rfl
  | cons i t ih => exact ih _

/-- A step of the floating domain on elements. -/
def floatStep (op : FVal → Nat → FVal × Flags) (acc : EVal) (k : Nat) : EVal × Flags := (.fl (op acc.toF k).1, (op acc.toF k).2)

/-- Values carried as elements are those carried as floating values. -/
theorem carryOver_float (op : FVal → Nat → FVal × Flags) (c : EVal) (l : List Nat) :
    (carryOver (floatStep op) c l).toF = carryOver op c.toF l := by
  induction l generalizing c with
  | nil => rfl
  | cons i t ih => exact ih _

/-! #### The fixed tree -/

/-- One node over two positions, either of which may hold no element. -/
def nodePair (node : FVal → FVal → FVal × Flags) (x y : Option FVal) : Option FVal × Flags :=
  match x, y with
  | some u, some v => (some (node u v).1, (node u v).2)
  | none, v => (v, 0)
  | u, none => (u, 0)

theorem treeLevel_cons_cons (node : FVal → FVal → FVal × Flags) (x y : Option FVal) (t : List (Option FVal)) :
    treeLevel node (x :: y :: t) =
      ((nodePair node x y).1 :: (treeLevel node t).1, (nodePair node x y).2 ||| (treeLevel node t).2) := by
  cases x <;> cases y <;> simp [treeLevel, nodePair]

/-- The element at a position of a level. -/
def levelAt (l : List (Option FVal)) (m : Nat) : Option FVal := l[m]?.join

/-- Node j over the positions of a level. -/
def nodeAt (node : FVal → FVal → FVal × Flags) (leaf : Nat → Option FVal) (j : Nat) : Option FVal × Flags :=
  nodePair node (leaf (2 * j)) (leaf (2 * j + 1))

theorem levelAt_treeLevel (node : FVal → FVal → FVal × Flags) : ∀ (l : List (Option FVal)) (m : Nat),
    levelAt (treeLevel node l).1 m = (nodeAt node (levelAt l) m).1
  | [], m => rfl
  | [x], 0 => by cases x <;> rfl
  | [x], m + 1 => by cases x <;> rfl
  | x :: y :: t, 0 => by rw [treeLevel_cons_cons]; rfl
  | x :: y :: t, m + 1 => by
    rw [treeLevel_cons_cons]
    exact levelAt_treeLevel node t m

theorem length_treeLevel (node : FVal → FVal → FVal × Flags) : ∀ l : List (Option FVal),
    2 * (treeLevel node l).1.length ≤ l.length + 1
  | [] => by simp [treeLevel]
  | [x] => by cases x <;> simp [treeLevel]
  | x :: y :: t => by
    have h := length_treeLevel node t
    rw [treeLevel_cons_cons]
    simp only [List.length_cons]
    omega

theorem nodePair_none_flags (node : FVal → FVal → FVal × Flags) (x : Option FVal) : (nodePair node x none).2 = 0 := by
  cases x <;> rfl

/-- The flags of a level are those of its nodes. -/
theorem flags_treeLevel (node : FVal → FVal → FVal × Flags) : ∀ (l : List (Option FVal)) (k : Nat), l.length ≤ 2 * k →
    (treeLevel node l).2 = orFlags ((List.range k).map (fun j => (nodeAt node (levelAt l) j).2))
  | [], k, _ => (orFlags_map_zero (List.range k)).symm
  | [x], k, _ => by
    have hzero : (treeLevel node [x]).2 = 0 := by cases x <;> rfl
    have hnode (j : Nat) : (nodeAt node (levelAt [x]) j).2 = 0 := nodePair_none_flags ..
    simp only [hzero, hnode, orFlags_map_zero]
  | x :: y :: t, 0, h => absurd h (by simp)
  | x :: y :: t, k + 1, h => by
    have ih := flags_treeLevel node t k (by simp only [List.length_cons] at h; omega)
    rw [treeLevel_cons_cons, ih, List.range_succ_eq_map, List.map_cons, orFlags_cons, List.map_map]
    rfl

theorem orFlags_append (l l' : List Flags) : orFlags (l ++ l') = orFlags l ||| orFlags l' := by
  induction l with
  | nil => exact BitVec.zero_or.symm
  | cons f t ih => rw [List.cons_append, orFlags_cons, orFlags_cons, ih, BitVec.or_assoc]

/-- A subtree with its flags, whether or not an element takes part in it. -/
def subtree (node : FVal → FVal → FVal × Flags) (leaf : Nat → Option FVal) : Nat → Nat → Option FVal × Flags
  | 0, m => (leaf m, 0)
  | n + 1, m =>
    let u := subtree node leaf n (2 * m)
    let v := subtree node leaf n (2 * m + 1)
    let r := nodePair node u.1 v.1
    (r.1, u.2 ||| v.2 ||| r.2)

/-- A tree whose leaves are the nodes of the first level. -/
theorem subtree_succ (node : FVal → FVal → FVal × Flags) (leaf : Nat → Option FVal) (n m : Nat) :
    subtree node leaf (n + 1) m =
      ((subtree node (fun j => (nodeAt node leaf j).1) n m).1,
        orFlags ((List.range (2 ^ n)).map (fun j => (nodeAt node leaf (m * 2 ^ n + j)).2)) |||
          (subtree node (fun j => (nodeAt node leaf j).1) n m).2) := by
  induction n generalizing m with
  | zero => simp [subtree, nodeAt]
  | succ n ih =>
    have hsplit : orFlags ((List.range (2 ^ (n + 1))).map (fun j => (nodeAt node leaf (m * 2 ^ (n + 1) + j)).2)) =
        orFlags ((List.range (2 ^ n)).map (fun j => (nodeAt node leaf (2 * m * 2 ^ n + j)).2)) |||
          orFlags ((List.range (2 ^ n)).map (fun j => (nodeAt node leaf ((2 * m + 1) * 2 ^ n + j)).2)) := by
      have hlow : m * 2 ^ (n + 1) = 2 * m * 2 ^ n := by ring
      have hhigh (j : Nat) : 2 * m * 2 ^ n + (2 ^ n + j) = (2 * m + 1) * 2 ^ n + j := by ring
      rw [Nat.pow_succ, Nat.mul_two, List.range_add, List.map_append, orFlags_append, List.map_map, ← Nat.mul_two,
        ← Nat.pow_succ, hlow]
      simp only [Function.comp_def, hhigh]
    rw [subtree, ih, ih, hsplit, subtree]
    dsimp only
    congr 1
    ac_rfl

/-- R63: the tree level by level is the tree node by node. -/
theorem treeSum_eq (node : FVal → FVal → FVal × Flags) (l : List (Option FVal)) (n : Nat) (h : l.length ≤ 2 ^ n) :
    treeSum node l n = subtree node (levelAt l) n 0 := by
  induction n generalizing l with
  | zero => cases l <;> simp [treeSum, subtree, levelAt]
  | succ n ih =>
    have hlen := length_treeLevel node l
    have hroom : l.length ≤ 2 * 2 ^ n := by rwa [← Nat.pow_succ']
    have hleaf : levelAt (treeLevel node l).1 =
        fun j => (nodeAt node (levelAt l) j).1 := funext (levelAt_treeLevel node l)
    rw [treeSum, ih _ (by omega), subtree_succ, hleaf, flags_treeLevel node l _ hroom]
    simp only [Nat.zero_mul, Nat.zero_add]

/-- A node of the fixed tree is the subtree's value and flags, where an element takes part in it. -/
theorem treeNode_eq (node : FVal → FVal → FVal × Flags) (leaf : Nat → Option FVal) (n m : Nat) :
    treeNode node leaf n m = (subtree node leaf n m).1.map (fun v => (v, (subtree node leaf n m).2)) ∧
      ((subtree node leaf n m).1 = none → (subtree node leaf n m).2 = 0) := by
  induction n generalizing m with
  | zero => exact ⟨rfl, fun _ => rfl⟩
  | succ n ih =>
    obtain ⟨hu, hu0⟩ := ih (2 * m)
    obtain ⟨hv, hv0⟩ := ih (2 * m + 1)
    rw [treeNode, hu, hv, subtree]
    dsimp only
    cases h1 : (subtree node leaf n (2 * m)).1 <;> cases h2 : (subtree node leaf n (2 * m + 1)).1 <;>
      simp_all [nodePair]

end Sys2Proof.Machine
end

section
/-! ### O28: reductions and scans (R63, R161, R163) -/
namespace Sys2Proof.Machine

/-! #### What every reduction and scan comes to -/

theorem vtypeTag_freshVtype (tag : BitVec 8) : vtypeTag (freshVtype tag) = tag := by
  have hof (blk : BitVec 3) : vtypeTag (vtypeOf blk 0 false tag) = tag := by
    refine BitVec.eq_of_getLsbD_eq fun i hi => ?_
    rw [vtypeTag, BitVec.getLsbD_extractLsb', decide_eq_true hi, Bool.true_and, Nat.zero_add]
    exact getLsbD_append_low (by omega) (getLsbD_append_low (by omega) (getLsbD_append_low (by omega)
      (getLsbD_append_low hi rfl)))
  unfold freshVtype
  split <;> exact hof _

/-- The vtype of a destination depends on the result tag through itself alone. -/
theorem Strand.destVtype_tag (x : Strand) (d : BitVec 5) (tag : BitVec 8) :
    x.destVtype d (vtypeTag (x.destVtype d tag)) = x.destVtype d tag := by
  unfold Strand.destVtype
  split
  · rw [vtypeTag_freshVtype]
  · rfl

/-- The end of an instruction of major 0x29: its results delivered, the flags on the way beside those of the delivery. -/
def State.reduceEnd (s : State) (d : BitVec 5) (tag : BitVec 8) (mode : RMode) (out : List (Nat × EVal) × Flags) : State :=
  let r := s.me.deliver d tag mode out.1
  s.endVector r.1 (out.2 ||| r.2)

section
variable {s : State} {d a b : BitVec 5} {f : BitVec 2} {p : BitVec 3} {tag : BitVec 8} {mode : RMode} {td : Elem}
  {y : Second} {dom : VDom}

/-- A reduction or scan that passes its checks. -/
theorem reduceOp_next {fn : BitVec 6} {c : Combine} {kind : RedKind} {tree : Bool} {rtag : BitVec 8}
    (hy : s.me.second f (s.me.getV a).elemType b = y) (hres : s.me.resolveWith [a] y = .ok dom tag)
    (hrtag : redResult dom tag = rtag) (htd : elemOf (vtypeTag (s.me.destVtype d rtag)) = td)
    (hmode : (s.me.roundingOf (s.me.destVtype d rtag)).getD .rne = mode)
    (hlegal : s.me.redIllegal c (.ok dom tag) d = false) (hfit : s.me.Fits td ([a] ++ y.regs)) :
    reduceOp fn c kind tree d a b f p s =
      .next (s.reduceEnd d rtag mode (s.me.redValues c kind tree dom (s.me.destVtype d rtag) a y p)) := by
  subst hy hrtag htd hmode
  obtain ⟨hs, hroom, hregs⟩ := hfit
  have hnone (w : InstrWord) := Strand.vectorTrap_eq_none (w := w) hlegal hs (Strand.live_of_resolveWith hres)
    (Strand.held_fit hroom hregs)
  have hdeliver := Strand.deliver_congr (mode := (s.me.roundingOf (s.me.destVtype d (redResult dom tag))).getD .rne)
    (s.me.destVtype_tag d (redResult dom tag))
  simp only [reduceOp, hres, hnone, hdeliver]
  rfl

/-- R63: a reduction writes element 0, nothing with VL = 0. -/
theorem State.reduceEnd_low (htd : elemOf (vtypeTag (s.me.destVtype d tag)) = td) (hbx : ∀ q, td ≠ .bx q) (v : EVal) (fl : Flags) :
    let put := td.deliver mode ((s.me.destVtype d tag).getLsbD 8) v
    let t := s.reduceEnd d tag mode (if s.me.vl = 0 then [] else [(0, v)], fl)
    t.me.fflags = s.me.fflags ||| fl ||| (if s.me.vl = 0 then 0 else put.2) ∧
      s.WroteAt t d (freshVtype tag) false (fun k => if k = 0 ∧ 0 < s.me.vl then some put.1 else none) := by
  subst htd
  dsimp only
  rw [State.reduceEnd, Strand.deliver_of_not_bx hbx]
  refine ⟨(State.endVector_fflags ..).trans ?_, State.wroteAt_written _ rfl fun k u => ?_⟩
  · rw [← BitVec.or_assoc]
    split
    · rfl
    · exact congrArg _ ((orFlags_cons ..).trans (or_noFlags _))
  · by_cases h : s.me.vl = 0
    · simp [h]
    · simp [h, Nat.pos_of_ne_zero h, Prod.ext_iff, eq_comm]

/-- R63: a scan writes each active element. -/
theorem State.reduceEnd_each (htd : elemOf (vtypeTag (s.me.destVtype d tag)) = td) (hbx : ∀ q, td ≠ .bx q) (v : Nat → EVal)
    (fl : Flags) :
    let put (k : Nat) := td.deliver mode ((s.me.destVtype d tag).getLsbD 8) (v k)
    let t := s.reduceEnd d tag mode ((s.me.activeFrom 0 p).map (fun k => (k, v k)), fl)
    t.me.fflags = s.me.fflags ||| fl ||| orFlags ((s.me.activeFrom 0 p).map (fun k => (put k).2)) ∧
      s.WroteElements t d (freshVtype tag) true p (fun k => (put k).1) := by
  subst htd
  refine ⟨(State.endVector_fflags ..).trans ?_, State.wroteElements_deliver_whole hbx mode p v _⟩
  rw [Strand.deliver_fflags, Strand.deliver_flags hbx mode v, BitVec.or_assoc]

/-! #### Integers -/

theorem Elem.value_of_isInt {t : Elem} (h : t.isInt = true) (e0 e1 v : Nat) : t.value e0 e1 v = .int (t.value e0 e1 v).toI := by
  cases t with
  | int w sg => rfl
  | _ => cases h

theorem Strand.value_of_isInt {x : Strand} {n : BitVec 5} (h : (x.getV n).elemType.isInt = true) (k : Nat) :
    x.value n k = .int (x.value n k).toI := Elem.value_of_isInt h ..

/-- The second operand of an integer domain is an integer. -/
theorem Strand.secondAt_of_int {x : Strand} {w : Nat} {sg : Bool} (hy : x.second f (x.getV a).elemType b = y)
    (hres : x.resolveWith [a] y = .ok (.int w sg) tag) (k : Nat) : x.secondAt y k = .int (x.secondAt y k).toI := by
  have hint := Strand.isInt_of_resolveWith_int hres
  subst hy
  have ha : (x.getV a).elemType.isInt = true := hint a (by simp)
  obtain rfl | rfl | rfl | rfl := form_cases f
  · exact Strand.value_of_isInt (hint b (by simp [Strand.second, Second.regs])) k
  · cases ht : (x.getV a).elemType with
    | int w sg => rfl
    | _ => rw [ht] at ha; cases ha
  · have himm : x.second 2 (x.getV a).elemType b = .one (.int (viImm b)) := congrArg Second.one (if_pos ha)
    rw [himm]
    rfl
  · exact Strand.value_of_isInt (hint _ (by simp [Strand.second, Second.regs])) k

section
variable {w wd : Nat} {sg sgd : Bool} (hy : s.me.second f (s.me.getV a).elemType b = y)
  (hres : s.me.resolveWith [a] y = .ok (.int w sg) tag)
include hy hres

/-- The values a reduction or scan of integers delivers: exact on the way, no flag raised. -/
theorem Strand.redValues_int {c : Combine} {kind : RedKind} {tree : Bool} {op : Int → Int → Int} (hop : c.onInt = some op)
    (vt : BitVec 16) :
    let run (l : List Nat) : EVal := .int (l.foldl (fun v k => op v (s.me.value a k).toI) (s.me.secondAt y 0).toI)
    s.me.redValues c kind tree (.int w sg) vt a y p = (match kind with
      | .reduce => if s.me.vl = 0 then [] else [(0, run (s.me.activeFrom 0 p))]
      | .scan => (s.me.activeFrom 0 p).map (fun k => (k, run ((s.me.activeFrom 0 p).filter (fun j => decide (j ≤ k))))), 0) := by
  have hseed : s.me.seed y = .int (s.me.secondAt y 0).toI := Strand.secondAt_of_int hy hres 0
  have hrun (l : List Nat) := carryOver_int (fun v k => op v (s.me.value a k).toI) (s.me.secondAt y 0).toI l
  simp only [Strand.redValues, hop, Option.getD_some, hseed, runCarry_eq _ _ (s.me.activeFrom_ascending 0 p), hrun,
    orFlags_map_zero]
  cases kind <;> rfl

variable (htd : elemOf (vtypeTag (s.me.destVtype d tag)) = .int wd sgd) (hfit : s.me.Fits (.int wd sgd) ([a] ++ y.regs))
include htd hfit

theorem reduceOp_int {fn : BitVec 6} {c : Combine} {kind : RedKind} {tree : Bool} {op : Int → Int → Int}
    (hop : c.onInt = some op) :
    ∃ mode, reduceOp fn c kind tree d a b f p s = .next (s.reduceEnd d tag mode
      (s.me.redValues c kind tree (.int w sg) (s.me.destVtype d tag) a y p)) := by
  have hlegal : s.me.redIllegal c (.ok (.int w sg) tag) d = false := by
    rw [Strand.redIllegal, hop, Strand.badRounding_of_int (by rw [htd]; rfl)]
    rfl
  exact ⟨_, reduceOp_next hy hres rfl htd rfl hlegal hfit⟩

theorem exec_int_reduction {i : Instr} {fn : BitVec 6} {c : Combine} {tree : Bool} (op : Int → Int → Int)
    (hi : exec i s = reduceOp fn c .reduce tree d a b f p s) (hop : c.onInt = some op) :
    ∃ t, exec i s = .next t ∧ t.me.fflags = s.me.fflags ∧ s.WroteAt t d (freshVtype tag) false (fun k =>
      if k = 0 ∧ 0 < s.me.vl then some (deliverInt wd sgd ((s.me.destVtype d tag).getLsbD 8)
        ((s.me.activeFrom 0 p).foldl (fun v k => op v (s.me.value a k).toI) (s.me.secondAt y 0).toI)) else none) := by
  obtain ⟨mode, hnext⟩ := reduceOp_int (p := p) (fn := fn) (kind := .reduce) (tree := tree) hy hres htd hfit hop
  rw [Strand.redValues_int hy hres hop] at hnext
  obtain ⟨hflags, hwrote⟩ := State.reduceEnd_low (mode := mode) htd (fun _ => Elem.noConfusion)
    (.int ((s.me.activeFrom 0 p).foldl (fun v k => op v (s.me.value a k).toI) (s.me.secondAt y 0).toI)) 0
  refine ⟨_, hi.trans hnext, hflags.trans ?_, hwrote⟩
  simp only [Elem.deliver, ite_self, or_noFlags]

theorem exec_int_scan {i : Instr} {fn : BitVec 6} {c : Combine} {tree : Bool} (op : Int → Int → Int)
    (hi : exec i s = reduceOp fn c .scan tree d a b f p s) (hop : c.onInt = some op) :
    ∃ t, exec i s = .next t ∧ t.me.fflags = s.me.fflags ∧ s.WroteElements t d (freshVtype tag) true p (fun k =>
      deliverInt wd sgd ((s.me.destVtype d tag).getLsbD 8) (((s.me.activeFrom 0 p).filter (fun j => decide (j ≤ k))).foldl
        (fun v k => op v (s.me.value a k).toI) (s.me.secondAt y 0).toI)) := by
  obtain ⟨mode, hnext⟩ := reduceOp_int (p := p) (fn := fn) (kind := .scan) (tree := tree) hy hres htd hfit hop
  rw [Strand.redValues_int hy hres hop] at hnext
  obtain ⟨hflags, hwrote⟩ := State.reduceEnd_each (p := p) (mode := mode) htd (fun _ => Elem.noConfusion)
    (fun k => .int (((s.me.activeFrom 0 p).filter (fun j => decide (j ≤ k))).foldl
      (fun v k => op v (s.me.value a k).toI) (s.me.secondAt y 0).toI)) 0
  refine ⟨_, hi.trans hnext, hflags.trans ?_, hwrote⟩
  simp only [Elem.deliver, orFlags_map_zero, or_noFlags]

end

end

theorem integerReductions : Claims.IntegerReductions := by
  intro s d a b f p tag w wd sg sgd x y part run put low each bits hres htd hfit
  have reduces {i fn c tree} (op : Int → Int → Int) (hi : exec i s = reduceOp fn c .reduce tree d a b f p s)
      (hop : c.onInt = some op) : low i op := exec_int_reduction rfl hres htd hfit op hi hop
  have scans {i fn c tree} (op : Int → Int → Int) (hi : exec i s = reduceOp fn c .scan tree d a b f p s)
      (hop : c.onInt = some op) : each i op := exec_int_scan rfl hres htd hfit op hi hop
  exact ⟨reduces _ (exec_vredsum ..) rfl, reduces _ (exec_vredmin ..) rfl, reduces _ (exec_vredmax ..) rfl,
    reduces _ (exec_vredand ..) rfl, reduces _ (exec_vredor ..) rfl, reduces _ (exec_vredxor ..) rfl,
    scans _ (exec_vscanadd ..) rfl, scans _ (exec_vscanmin ..) rfl, scans _ (exec_vscanmax ..) rfl⟩

end Sys2Proof.Machine
end

section
/-! ### O28: floating reductions, scans and recurrences (R52, R63, R161, R163) -/
namespace Sys2Proof.Machine

section
variable {s : State} {d a b : BitVec 5} {f : BitVec 2} {p : BitVec 3} {tag : BitVec 8} {mode : RMode} {fm : FFmt} {y : Second}

/-! #### Values -/

/-- The flags the steps over an ascending list raise. -/
def raisedOver (op : FVal → Nat → FVal × Flags) (c : FVal) (l : List Nat) : Flags :=
  orFlags (l.map (fun k => (op (carryOver op c (l.filter (fun j => decide (j < k)))) k).2))

theorem runCarry_float (op : FVal → Nat → FVal × Flags) (c : EVal) {l : List Nat} (h : l.Pairwise (· < ·)) :
    runCarry (floatStep op) c l = (carryOver (floatStep op) c l,
      l.map (fun k => (k, carryOver (floatStep op) c (l.filter (fun j => decide (j ≤ k))))), raisedOver op c.toF l) := by
  rw [runCarry_eq _ _ h, raisedOver]
  simp only [← carryOver_float]
  rfl

theorem Strand.redValues_float {x : Strand} (c : Combine) (kind : RedKind) {vt : BitVec 16} (a : BitVec 5) (y : Second)
    (p : BitVec 3) (hfm : redFormat (elemOf (vtypeTag vt)) = some fm) (hmode : x.roundingOf vt = some mode) :
    let op (v : FVal) (k : Nat) : FVal × Flags := c.node fm mode (vt.getLsbD 8) v (x.value a k).toF
    let run (l : List Nat) : EVal := carryOver (floatStep op) (x.secondAt y 0) l
    x.redValues c kind false .float vt a y p = (match kind with
      | .reduce => if x.vl = 0 then [] else [(0, run (x.activeFrom 0 p))]
      | .scan => (x.activeFrom 0 p).map (fun k => (k, run ((x.activeFrom 0 p).filter (fun j => decide (j ≤ k))))),
      raisedOver op (x.secondAt y 0).toF (x.activeFrom 0 p)) := by
  intro op run
  have hrun : runCarry (fun acc k => (.fl (op acc.toF k).1, (op acc.toF k).2)) (x.secondAt y 0) (x.activeFrom 0 p) = _ :=
    runCarry_float op (x.secondAt y 0) (x.activeFrom_ascending 0 p)
  simp only [op] at hrun
  simp only [Strand.redValues, hfm, hmode, Option.getD_some, Strand.seed, hrun]
  cases kind <;> rfl

/-- VREDSUM: the tree's value added to the initial one. -/
theorem Strand.redValues_tree {x : Strand} (c : Combine) (kind : RedKind) {vt : BitVec 16} (a : BitVec 5) (y : Second)
    (p : BitVec 3) (hfm : redFormat (elemOf (vtypeTag vt)) = some fm) (hmode : x.roundingOf vt = some mode) (hroom : x.vl ≤ 2048) :
    let node := c.node fm mode (vt.getLsbD 8)
    let v0 := (x.secondAt y 0).toF
    let sum : FVal × Flags :=
      match treeNode node (fun m => if m ∈ x.activeFrom 0 p then some (x.value a m).toF else none) 11 0 with
      | some v => ((node v0 v.1).1, v.2 ||| (node v0 v.1).2)
      | none => (v0, 0)
    x.redValues c kind true .float vt a y p = (if x.vl = 0 then [] else [(0, .fl sum.1)], sum.2) := by
  intro node v0 sum
  have hleaf : levelAt ((List.range x.vl).map
      (fun i => if (x.activeFrom 0 p).contains i then some (x.value a i).toF else none)) =
      fun m => if m ∈ x.activeFrom 0 p then some (x.value a m).toF else none := by
    funext m
    by_cases hm : m < x.vl
    · simp [levelAt, List.getElem?_map, List.getElem?_range hm, List.contains_eq_mem]
    · have hout : m ∉ x.activeFrom 0 p := fun h => hm (Strand.mem_activeFrom.mp h).1
      simp [levelAt, hm, hout]
  have htree := treeSum_eq node ((List.range x.vl).map
      (fun i => if (x.activeFrom 0 p).contains i then some (x.value a i).toF else none)) 11 (by simpa using hroom)
  rw [hleaf] at htree
  obtain ⟨hnode, hnone⟩ := treeNode_eq node (fun m => if m ∈ x.activeFrom 0 p then some (x.value a m).toF else none) 11 0
  simp only [Strand.redValues, hfm, hmode, Option.getD_some, Strand.seed]
  simp only [node] at htree hnode hnone
  simp only [htree, sum, node, hnode]
  generalize subtree (c.node fm mode (vt.getLsbD 8)) _ 11 0 = r at hnone ⊢
  obtain ⟨_ | v, fl⟩ := r
  · obtain rfl : fl = 0 := hnone rfl
    exact congrArg (Prod.mk _) (or_noFlags 0)
  · rfl

/-! #### The instructions -/

theorem combineAdd_node (ints : Bool) (fm : FFmt) (mode : RMode) (sat : Bool) :
    (combineAdd ints).node fm mode sat = fun u v => roundTo fm mode sat (sumExact mode [u, v]) := rfl

theorem combineMinMax_node (wantMax : Bool) (fm : FFmt) (mode : RMode) (sat : Bool) :
    (combineMinMax wantMax).node fm mode sat = minMaxVal wantMax := rfl

section
variable {dt : BitVec 8} (hdt : redTag tag = dt) (hfm : redFormat (.fp fm) = some fm)
  (hy : s.me.second f (s.me.getV a).elemType b = y) (hres : s.me.resolveWith [a] y = .ok .float tag)
  (htd : elemOf (vtypeTag (s.me.destVtype d dt)) = .fp fm) (hmode : s.me.roundingOf (s.me.destVtype d dt) = some mode)
  (hfit : s.me.Fits (.fp fm) ([a] ++ y.regs))
include hdt hfm hy hres htd hmode hfit

theorem reduceOp_float {fn : BitVec 6} {c : Combine} {kind : RedKind} {tree : Bool} (hc : c.onFp.isNone = false) :
    reduceOp fn c kind tree d a b f p s = .next (s.reduceEnd d dt mode
      (s.me.redValues c kind tree .float (s.me.destVtype d dt) a y p)) := by
  subst hdt
  have hlegal : s.me.redIllegal c (.ok .float tag) d = false := by
    simp only [Strand.redIllegal, hc, htd, hfm, Strand.badRounding_of_mode hmode]
    rfl
  exact reduceOp_next hy hres rfl htd (by rw [hmode]; rfl) hlegal hfit

/-- A reduction in ascending order: `op` is its node. -/
theorem exec_float_reduction {i : Instr} {fn : BitVec 6} {c : Combine} (op : FVal → Nat → FVal × Flags)
    (hi : exec i s = reduceOp fn c .reduce false d a b f p s) (hc : c.onFp.isNone = false)
    (hop : ∀ v k, c.node fm mode ((s.me.destVtype d dt).getLsbD 8) v (s.me.value a k).toF = op v k) :
    let put := fm.deliver mode ((s.me.destVtype d dt).getLsbD 8) (carryOver op (s.me.secondAt y 0).toF (s.me.activeFrom 0 p))
    ∃ t, exec i s = .next t ∧
      t.me.fflags = s.me.fflags ||| raisedOver op (s.me.secondAt y 0).toF (s.me.activeFrom 0 p) |||
        (if s.me.vl = 0 then 0 else put.2) ∧
      s.WroteAt t d (freshVtype dt) false (fun k => if k = 0 ∧ 0 < s.me.vl then some put.1 else none) := by
  have hnext := reduceOp_float (p := p) (fn := fn) (kind := .reduce) (tree := false) hdt hfm hy hres htd hmode hfit hc
  have hval := Strand.redValues_float c .reduce a y p (htd ▸ hfm) hmode
  rw [hval, funext₂ hop] at hnext
  have hlow := State.reduceEnd_low (mode := mode) htd (fun _ => by simp)
    (carryOver (floatStep op) (s.me.secondAt y 0) (s.me.activeFrom 0 p))
    (raisedOver op (s.me.secondAt y 0).toF (s.me.activeFrom 0 p))
  simp only [Elem.deliver, carryOver_float] at hlow
  exact ⟨_, hi.trans hnext, hlow⟩

/-- A scan. -/
theorem exec_float_scan {i : Instr} {fn : BitVec 6} {c : Combine} (op : FVal → Nat → FVal × Flags)
    (hi : exec i s = reduceOp fn c .scan false d a b f p s) (hc : c.onFp.isNone = false)
    (hop : ∀ v k, c.node fm mode ((s.me.destVtype d dt).getLsbD 8) v (s.me.value a k).toF = op v k) :
    let put (k : Nat) := fm.deliver mode ((s.me.destVtype d dt).getLsbD 8) (carryOver op (s.me.secondAt y 0).toF
      ((s.me.activeFrom 0 p).filter (fun j => decide (j ≤ k))))
    ∃ t, exec i s = .next t ∧
      t.me.fflags = s.me.fflags ||| raisedOver op (s.me.secondAt y 0).toF (s.me.activeFrom 0 p) |||
        orFlags ((s.me.activeFrom 0 p).map (fun k => (put k).2)) ∧
      s.WroteElements t d (freshVtype dt) true p (fun k => (put k).1) := by
  have hnext := reduceOp_float (p := p) (fn := fn) (kind := .scan) (tree := false) hdt hfm hy hres htd hmode hfit hc
  have hval := Strand.redValues_float c .scan a y p (htd ▸ hfm) hmode
  rw [hval, funext₂ hop] at hnext
  have heach := State.reduceEnd_each (p := p) (mode := mode) htd (fun _ => by simp)
    (fun k => carryOver (floatStep op) (s.me.secondAt y 0) ((s.me.activeFrom 0 p).filter (fun j => decide (j ≤ k))))
    (raisedOver op (s.me.secondAt y 0).toF (s.me.activeFrom 0 p))
  simp only [Elem.deliver, carryOver_float] at heach
  exact ⟨_, hi.trans hnext, heach⟩

/-- VREDSUM in the floating domain. -/
theorem exec_vredsum_float (add : FVal → FVal → FVal × Flags)
    (hadd : ∀ u v, roundTo fm mode ((s.me.destVtype d dt).getLsbD 8) (sumExact mode [u, v]) = add u v) :
    let v0 := (s.me.secondAt y 0).toF
    let sum : FVal × Flags :=
      match treeNode add (fun m => if m ∈ s.me.activeFrom 0 p then some (s.me.value a m).toF else none) 11 0 with
      | some v => ((add v0 v.1).1, v.2 ||| (add v0 v.1).2)
      | none => (v0, 0)
    let put := fm.deliver mode ((s.me.destVtype d dt).getLsbD 8) sum.1
    ∃ t, exec (.vredsum d a b f p) s = .next t ∧
      t.me.fflags = s.me.fflags ||| sum.2 ||| (if s.me.vl = 0 then 0 else put.2) ∧
      s.WroteAt t d (freshVtype dt) false (fun k => if k = 0 ∧ 0 < s.me.vl then some put.1 else none) := by
  intro v0 sum put
  have hroom : s.me.vl ≤ 2048 := hfit.room.trans (by cases fm <;> decide)
  have hnode : (combineAdd true).node fm mode ((s.me.destVtype d dt).getLsbD 8) = add := funext₂ hadd
  have hnext := reduceOp_float (p := p) (fn := 0) (c := combineAdd true) (kind := .reduce) (tree := true) hdt hfm hy hres htd
    hmode hfit rfl
  have hval := Strand.redValues_tree (combineAdd true) .reduce a y p (htd ▸ hfm) hmode hroom
  rw [hval, hnode] at hnext
  exact ⟨_, (exec_vredsum ..).trans hnext, State.reduceEnd_low (mode := mode) htd (fun _ => by simp) (.fl sum.1) sum.2⟩

end

/-- VRECUR: the values of its recurrence, each carry one fused operation. -/
theorem exec_vrecur_float (hfm : redFormat (.fp fm) = some fm) (hy : s.me.second f (s.me.getV a).elemType b = y)
    (hres : s.me.resolveWith [a, d] y = .ok .float tag) (htd : (s.me.getV d).elemType = .fp fm)
    (hmode : s.me.roundingOf (s.me.getV d).vtype = some mode) (hfit : s.me.Fits (.fp fm) ([a] ++ y.regs))
    {step : FVal → Nat → FVal × Flags} (hstep : ∀ c k, roundTo fm mode ((s.me.getV d).vtype.getLsbD 8)
      (FVal.fma mode (s.me.value a k).toF c (s.me.value d k).toF) = step c k) :
    exec (.vrecur d a b f p) s = .next (s.reduceEnd d (vtypeTag (s.me.getV d).vtype) mode
      ((s.me.activeFrom 0 p).map (fun k => (k, carryOver (floatStep step) (s.me.secondAt y 0)
        ((s.me.activeFrom 0 p).filter (fun j => decide (j ≤ k))))),
        raisedOver step (s.me.secondAt y 0).toF (s.me.activeFrom 0 p))) := by
  obtain ⟨hs, hroom, hregs⟩ := hfit
  subst hy
  have hlive : ∀ n ∈ [a] ++ (s.me.second f (s.me.getV a).elemType b).regs ++ [d], (s.me.getV n).elemType ≠ .dead := by
    have h := Strand.live_of_resolveWith hres
    intro n hn
    apply h
    simp only [List.mem_append, List.mem_cons, List.not_mem_nil, or_false] at hn ⊢
    tauto
  have hheld : ∀ q ∈ ([a] ++ (s.me.second f (s.me.getV a).elemType b).regs ++ [d]).map
      (fun n => ((s.me.getV n).elemType, s.me.vl)), q.2 ≤ q.1.vlmax := by
    intro q hq
    obtain ⟨n, hn, rfl⟩ := List.mem_map.mp hq
    obtain hn | hn := List.mem_append.mp hn
    · exact hregs n hn
    · rwa [List.mem_singleton.mp hn, htd]
  have hfmt : redFormat (elemOf (vtypeTag (s.me.getV d).vtype)) = some fm := by rw [← hfm, ← htd]; rfl
  have hnone (w : InstrWord) := Strand.vectorTrap_eq_none (w := w) (illegal := false) rfl hs hlive hheld
  have hrun : runCarry (fun c k => (.fl (step c.toF k).1, (step c.toF k).2))
      (s.me.secondAt (s.me.second f (s.me.getV a).elemType b) 0) (s.me.activeFrom 0 p) = _ :=
    runCarry_float step _ (s.me.activeFrom_ascending 0 p)
  rw [exec_vrecur, execVrecur]
  simp only [hres, hmode, hfmt, Option.isNone_some, Bool.false_or, Strand.badRounding_of_mode hmode, hnone,
    Option.getD_some, hstep, Strand.seed, hrun]
  rfl

end

theorem floatingReductions : Claims.FloatingReductions := by
  intro s d a b f p tag mode fm x y part v0 upTo run raised elem hfm
  refine ⟨?_, ?_⟩
  · intro vt put add low each hres htd hmode hfit
    have reduces {i fn c} (op : FVal → FVal → FVal × Flags) (hi : exec i s = reduceOp fn c .reduce false d a b f p s)
        (hc : c.onFp.isNone = false) (hop : c.node fm mode (vt.getLsbD 8) = op) : low i (elem op) :=
      exec_float_reduction rfl hfm rfl hres htd hmode hfit (elem op) hi hc fun v k => congrFun₂ hop ..
    have scans {i fn c} (op : FVal → FVal → FVal × Flags) (hi : exec i s = reduceOp fn c .scan false d a b f p s)
        (hc : c.onFp.isNone = false) (hop : c.node fm mode (vt.getLsbD 8) = op) : each i (elem op) :=
      exec_float_scan rfl hfm rfl hres htd hmode hfit (elem op) hi hc fun v k => congrFun₂ hop ..
    exact ⟨reduces add (exec_vfredosum ..) rfl (combineAdd_node ..),
      reduces (minMaxVal false) (exec_vredmin ..) rfl (combineMinMax_node ..),
      reduces (minMaxVal true) (exec_vredmax ..) rfl (combineMinMax_node ..),
      scans add (exec_vscanadd ..) rfl (combineAdd_node ..),
      scans (minMaxVal false) (exec_vscanmin ..) rfl (combineMinMax_node ..),
      scans (minMaxVal true) (exec_vscanmax ..) rfl (combineMinMax_node ..),
      exec_vredsum_float rfl hfm rfl hres htd hmode hfit add fun _ _ => rfl⟩
  · intro sat step hres htd hmode hfit
    have hnext := exec_vrecur_float (p := p) (step := step) hfm rfl hres htd hmode hfit fun _ _ => rfl
    have hlive : (x.getV d).elemType ≠ .dead := by rw [htd]; exact Elem.noConfusion
    have hvt : x.destVtype d (vtypeTag (x.getV d).vtype) = (x.getV d).vtype := Strand.destVtype_of_live hlive _
    have hdest : elemOf (vtypeTag (x.destVtype d (vtypeTag (x.getV d).vtype))) = .fp fm := by rw [hvt]; exact htd
    have heach := State.reduceEnd_each (p := p) (mode := mode) hdest (fun _ => by simp)
      (fun k => carryOver (floatStep step) (x.secondAt y 0) (part.filter (fun j => decide (j ≤ k))))
      (raisedOver step v0 part)
    rw [hvt] at heach
    simp only [Elem.deliver, carryOver_float] at heach
    obtain ⟨hflags, hwrote⟩ := heach
    exact ⟨_, hnext, hflags, State.WroteAt.of_live hwrote hlive⟩

end Sys2Proof.Machine
open Sys2Proof.Machine in
/-- Settles O28: a reduction or scan delivers the values carried over the active elements (`runCarry_eq`), VREDSUM that of
the fixed tree (`treeSum_eq`). -/
theorem reductionsAndScans : Obligations.ReductionsAndScans := ⟨integerReductions, floatingReductions⟩
end

section
/-! ### O33: the matrix multiply (R61, R183 to R188)

#### One element of the accumulator (R61) -/
namespace Sys2Proof.Machine

theorem foldl_add_eq {α : Type} (f : α → Int) (l : List α) (c : Int) :
    l.foldl (fun t p => t + f p) c = c + (l.map f).foldr (· + ·) 0 := by
  induction l generalizing c with
  | nil => simp
  | cons p t ih => rw [List.foldl_cons, ih, List.map_cons, List.foldr_cons, Int.add_assoc]

/-- The exact sum of products modulo 2^32. -/
theorem mmaInt_eq (sub : Bool) (old : Nat) (xs ys : List EVal) :
    (mmaInt sub old xs ys : Int) =
      (old + (if sub then -1 else 1) * ((xs.zip ys).map (fun p => p.1.toI * p.2.toI)).foldr (· + ·) 0) % 2 ^ 32 := by
  have hnonneg (v : Int) : 0 ≤ v % 2 ^ 32 := Int.emod_nonneg v (by norm_num)
  rw [mmaInt, foldl_add_eq (fun p : EVal × EVal => p.1.toI * p.2.toI), Int.zero_add, Int.toNat_of_nonneg (hnonneg _)]
  cases sub
  · rw [if_neg Bool.false_ne_true, if_neg Bool.false_ne_true, Int.one_mul]
  · rw [if_pos rfl, if_pos rfl, Int.neg_one_mul]

/-- An FP32 accumulator is rounded once after each group of products, in ascending k. -/
theorem mmaFloat_fst (sub : Bool) {group : Nat} (hg : 0 < group) (m : Nat) (acc : FVal) (xs ys : List EVal) (fuel : Nat)
    (hx : xs.length = group * m) (hy : ys.length = group * m) (hfuel : m ≤ fuel) :
    (mmaFloat sub group acc xs ys fuel).1 = (List.range m).foldl (fun acc j =>
      (mmaStep sub acc ((xs.drop (group * j)).take group) ((ys.drop (group * j)).take group)).1) acc := by
  induction m generalizing acc xs ys fuel with
  | zero =>
    obtain rfl := List.eq_nil_of_length_eq_zero hx
    cases fuel <;> rfl
  | succ m ih =>
    obtain ⟨fuel, rfl⟩ := Nat.exists_eq_succ_of_ne_zero (show fuel ≠ 0 by omega)
    have hne : ¬ xs.isEmpty = true := by
      rw [List.isEmpty_iff]
      rintro rfl
      simp [hg.ne'] at hx
    have hlen {zs : List EVal} (h : zs.length = group * (m + 1)) : (zs.drop group).length = group * m := by
      rw [List.length_drop, h, Nat.mul_succ, Nat.add_sub_cancel]
    rw [mmaFloat, if_neg hne]
    dsimp only
    rw [ih _ _ _ fuel (hlen hx) (hlen hy) (by omega), List.range_succ_eq_map, List.foldl_cons, List.foldl_map]
    simp only [List.drop_drop, Nat.mul_zero, List.drop_zero, Nat.mul_succ, Nat.add_comm]

theorem matrixElements : Claims.MatrixElements := by
  refine ⟨fun sub group old xs ys => mmaInt_eq sub old xs ys, ?_⟩
  intro sub group m old xs ys hg hx hy part step
  have hstep : step = fun acc j =>
      (mmaStep sub acc ((xs.drop (group * j)).take group) ((ys.drop (group * j)).take group)).1 := by
    funext acc j
    simp only [step, part, mmaStep, List.map_map]
    rfl
  have hfuel : m ≤ xs.length := hx ▸ Nat.le_mul_of_pos_left m hg
  rw [hstep, ← mmaFloat_fst sub hg m _ xs ys xs.length hx hy hfuel]
  rfl

/-! #### The elements of all rows (R186) -/

theorem elemsOf_length (x w n : Nat) : (elemsOf x w n).length = n := by
  induction n generalizing x with
  | zero => rfl
  | succ n ih => rw [elemsOf, List.length_cons, ih]

theorem getElem?_elemsOf (x w : Nat) {n i : Nat} (hi : i < n) : (elemsOf x w n)[i]? = some (x / 2 ^ (w * i) % 2 ^ w) := by
  induction n generalizing x i with
  | zero => cases hi
  | succ n ih =>
    cases i with
    | zero => simp [elemsOf]
    | succ i =>
      rw [elemsOf, List.getElem?_cons_succ, ih _ (Nat.lt_of_succ_lt_succ hi), Nat.div_div_eq_div_mul, ← Nat.pow_add,
        Nat.mul_succ, Nat.add_comm]

/-- The elements of an accumulator's image. -/
theorem getElem?_accElems (bits : BitVec 131072) {i : Nat} (hi : i < 4096) :
    (elemsOf bits.toNat 32 4096)[i]? = some (accElem bits i) := by
  rw [getElem?_elemsOf _ _ hi, accElem, BitVec.extractLsb'_toNat, Nat.shiftRight_eq_div_pow]

/-- Rows of one length put one after the other. -/
theorem getElem?_flatMap_row {α β : Type} {f : α → List β} {n : Nat} (hf : ∀ a, (f a).length = n) (l : List α) (r : Nat) {q : Nat}
    (hq : q < n) : (l.flatMap f)[n * r + q]? = l[r]?.bind (fun a => (f a)[q]?) := by
  induction l generalizing r with
  | nil => rfl
  | cons a t ih =>
    rw [List.flatMap_cons]
    cases r with
    | zero =>
      rw [Nat.mul_zero, Nat.zero_add, List.getElem?_append_left (by rw [hf]; exact hq)]
      rfl
    | succ r =>
      have hpos : n * (r + 1) + q = n + (n * r + q) := by rw [Nat.mul_succ]; omega
      rw [hpos, List.getElem?_append_right (by rw [hf]; omega), hf, Nat.add_sub_cancel_left, ih]
      rfl

/-- The elements of all 64 × 64 pairs of rows, with their flags; those of rows that hold poisoned bytes are dropped (R189). -/
def mmaAll (sub isInt : Bool) (group old : Nat) (ra rb : List (List EVal × Bool)) : List (Nat × Flags) :=
  ((ra.flatMap (fun u => rb.map (fun v => (u, v)))).zip (elemsOf old 32 4096)).map (fun q =>
    let r := mmaElem sub isInt group q.2 q.1.1.1 q.1.2.1
    (r.1, if q.1.1.2 && q.1.2.2 then r.2 else 0))

theorem accElem_mmaAll (sub isInt : Bool) (group old : Nat) {ra rb : List (List EVal × Bool)} (hrb : rb.length = 64) {r q : Nat}
    (hr : r < 64) (hq : q < 64) {u v : List EVal × Bool} (hu : ra[r]? = some u) (hv : rb[q]? = some v) :
    accElem (BitVec.ofNat 131072 (packElems 32 ((mmaAll sub isInt group old ra rb).map Prod.fst))) (64 * r + q) =
      (mmaElem sub isInt group (old / 2 ^ (32 * (64 * r + q)) % 2 ^ 32) u.1 v.1).1 % 2 ^ 32 := by
  have hpair : (ra.flatMap (fun u => rb.map (fun v => (u, v))))[64 * r + q]? = some (u, v) := by
    rw [getElem?_flatMap_row (n := 64) (fun a => by rw [List.length_map, hrb]) ra r hq, hu, Option.bind_some,
      List.getElem?_map, hv]
    rfl
  have hall : ((mmaAll sub isInt group old ra rb).map Prod.fst)[64 * r + q]? =
      some (mmaElem sub isInt group (old / 2 ^ (32 * (64 * r + q)) % 2 ^ 32) u.1 v.1).1 := by
    have hzip : ((ra.flatMap (fun u => rb.map (fun v => (u, v)))).zip (elemsOf old 32 4096))[64 * r + q]? =
        some ((u, v), old / 2 ^ (32 * (64 * r + q)) % 2 ^ 32) :=
      List.getElem?_zip_eq_some.mpr ⟨hpair, getElem?_elemsOf old 32 (show 64 * r + q < 4096 by omega)⟩
    rw [mmaAll, List.map_map, List.getElem?_map, hzip]
    rfl
  obtain ⟨hlt, hget⟩ := List.getElem?_eq_some_iff.mp hall
  have hlen : ((mmaAll sub isInt group old ra rb).map Prod.fst).length ≤ 4096 := by
    simp only [mmaAll, List.length_map, List.length_zip, elemsOf_length]
    exact Nat.min_le_right ..
  rw [accElem, extractLsb'_packElems hlt (by omega), hget]

section
variable {s : State} {x : BitVec 2} {a b : MatSrc} {ca cb : Nat} {fa fb : BitVec 8}
  (hpa : s.matPoison a ca fa (List.range 64) = none) (hpb : s.matPoison b cb fb (List.range 64) = none)
  (clear sub : Bool) (tag : BitVec 8) (group es k rate : Nat)

/-- Row r of an operand with whether it is free of poison, for each row. -/
def State.matRows (s : State) (m : MatSrc) (core : Nat) (f : BitVec 8) (base k : Nat) : List (List EVal × Bool) :=
  (List.range 64).map (fun r => (s.me.matValues f base r k (s.matRow m core f r), (s.matPoison m core f [r]).isNone))

theorem State.getElem?_matRows (s : State) (m : MatSrc) (core : Nat) (f : BitVec 8) (base k : Nat) {r : Nat} (hr : r < 64) :
    (s.matRows m core f base k)[r]? =
      some (s.me.matValues f base r k (s.matRow m core f r), (s.matPoison m core f [r]).isNone) := by
  rw [State.matRows, List.getElem?_map, List.getElem?_range hr]
  rfl

include hpa hpb

/-- What an MMA whose operands hold no poisoned byte will write. -/
theorem State.mmaJob_unmarked :
    let all := mmaAll sub (tag == 0x03) group (if clear then 0 else (s.myCore.acc x).toNat) (s.matRows a ca fa es k)
      (s.matRows b cb fb (es + 1) k)
    s.mmaJob x clear sub a b ca cb fa fb tag group es k rate =
      (⟨s.cur, x.toNat, BitVec.ofNat 131072 (packElems 32 (all.map Prod.fst)), tag, orFlags (all.map Prod.snd), none,
        s.cycle + mmaLatency k rate s.myCore.mcap⟩, s) := by
  have hmark : (leastOf (((s.matPoison a ca fa (List.range 64)).toList ++
      (s.matPoison b cb fb (List.range 64)).toList).map BitVec.toNat)).map (BitVec.ofNat 64) = none := by
    rw [hpa, hpb]
    rfl
  simp only [State.mmaJob, hmark]
  rfl

/-- R186: element (r, q) of the accumulator from row r of A and row q of B. -/
theorem State.mmaJob_elem {r q : Nat} (hr : r < 64) (hq : q < 64) :
    accElem (s.mmaJob x clear sub a b ca cb fa fb tag group es k rate).1.bits (64 * r + q) =
      (mmaElem sub (tag == 0x03) group (if clear then 0 else accElem (s.myCore.acc x) (64 * r + q))
        (s.me.matValues fa es r k (s.matRow a ca fa r)) (s.me.matValues fb (es + 1) q k (s.matRow b cb fb q))).1 % 2 ^ 32 := by
  have hold : (if clear then 0 else (s.myCore.acc x).toNat) / 2 ^ (32 * (64 * r + q)) % 2 ^ 32 =
      if clear then 0 else accElem (s.myCore.acc x) (64 * r + q) := by
    cases clear
    · simp only [Bool.false_eq_true, if_false]
      rw [accElem, BitVec.extractLsb'_toNat, Nat.shiftRight_eq_div_pow]
    · simp
  rw [State.mmaJob_unmarked hpa hpb]
  dsimp only
  rw [accElem_mmaAll _ _ _ _ (by simp [State.matRows]) hr hq (s.getElem?_matRows a ca fa es k hr)
    (s.getElem?_matRows b cb fb (es + 1) k hq), hold]

end

/-! #### The checks (R183 to R185, R191) -/

theorem tileOp_of_ready {s : State} {accs : List (BitVec 2)} (h : s.myCore.owns s.cur = true)
    (hbusy : s.myCore.accBusy accs = false) (w : InstrWord) (body : State → Result) : tileOp w accs body s = body s := by
  simp [tileOp, h, hbusy]

theorem matRate_live {fa fb tag : BitVec 8} {rate group : Nat} (h : matRate fa fb = some (tag, rate, group)) : tag ≠ 0 := by
  unfold matRate at h
  dsimp only at h
  repeat' split at h
  all_goals cases h <;> decide

theorem mmaIllegal_of_ready {fa fb tag at_ : BitVec 8} {rate group es k : Nat} (hrate : matRate fa fb = some (tag, rate, group))
    (hat : at_ = tag ∨ at_ = 0) (hsa : scaleTooHigh fa es k = false) (hsb : scaleTooHigh fb (es + 1) k = false)
    (hes : isBxTag fa = false → isBxTag fb = false → es = 0) : mmaIllegal fa fb at_ es k k = false := by
  have hbx : (!isBxTag fa && !isBxTag fb && es != 0) = false := by
    cases ha : isBxTag fa <;> cases hb : isBxTag fb <;> simp
    exact hes ha hb
  obtain rfl | rfl := hat <;> simp [mmaIllegal, hsa, hsb, hrate, hbx]

/-- A matrix multiply that passes its checks: issued, or with an FFLAGS enable completed at once (R188). -/
theorem mmaOp_of_ready {s : State} {op : BitVec 5} {fn : Nat} {x : BitVec 2} {y z : BitVec 5} {e : BitVec 4} {sa sb : BitVec 1}
    {fa fb tag : BitVec 8} {rate group k ca cb : Nat} (hop : op = 1 ↔ fn = 1)
    (h : s.MmaReady fn x e (s.me.matSrc y sa) (s.me.matSrc z sb) fa fb tag rate group k ca cb) :
    let job := (s.mmaJob x (op == 1) (op == 2) (s.me.matSrc y sa) (s.me.matSrc z sb) ca cb fa fb tag group e.toNat k rate).1
    s.matPoison (s.me.matSrc y sa) ca fa (List.range 64) = none ∧ s.matPoison (s.me.matSrc z sb) cb fb (List.range 64) = none ∧
    mmaOp op x y z e sa sb s = .next (if s.me.frm.extractLsb' 8 5 = 0
      then (s.setMyCore { s.myCore with matrix := s.myCore.matrix ++ [job] }).retire
      else (s.setMyCore (job.write s.myCore)).finish job.flags) := by
  obtain ⟨hown, hbusy, hra, hrb, hfmt, hla, hlb, hrate, hacc, hka, hkb, hba, hbb, hsa, hsb, hes, haa, hab, hca, hcb, hmark,
    hpa, hpb, hmay⟩ := h
  have hillegal : mmaIllegal fa fb (s.myCore.accTag x) e.toNat k k = false :=
    mmaIllegal_of_ready hrate (hacc.imp_right And.right) hsa hsb (fun ha hb => by rw [hes ha hb]; rfl)
  have hdead : ¬ (fa == 0 || fb == 0 || (op != 1 && s.myCore.accTag x == 0)) = true := by
    have hlive := matRate_live hrate
    simp only [Bool.or_eq_true, Bool.and_eq_true, beq_iff_eq, bne_iff_ne, hla, hlb, false_or, ne_eq, hop, not_and]
    rintro hfn h0
    obtain htag | ⟨hfn', -⟩ := hacc
    · exact hlive (htag ▸ h0)
    · exact hfn hfn'
  have hclean : (if op = 1 then none else s.myCore.accMark x) = none := by
    split
    · rfl
    · next h => exact hmark.resolve_left (fun h' => h (hop.mpr h'))
  refine ⟨hpa, hpb, ?_⟩
  rw [mmaOp, tileOp_of_ready hown hbusy]
  simp only [hfmt, hka, hkb, hrate, Option.getD_some, hra, hrb, hillegal, Bool.or_self, Bool.false_eq_true, if_false, hdead, hba,
    hbb, bne_self_eq_false, haa, hab, hca, hcb, hclean, hmay, Bool.not_true, State.mmaJob_unmarked hpa hpb]
  split <;> rfl

/-- R186, R188: the product and its end. -/
theorem exec_mma_runs {s : State} {op : BitVec 5} {fn : Nat} {x : BitVec 2} {y z : BitVec 5} {e : BitVec 4} {sa sb : BitVec 1}
    {fa fb tag : BitVec 8} {rate group k ca cb : Nat} {i : Instr} (hi : exec i s = mmaOp op x y z e sa sb s)
    (hop1 : (op == 1) = decide (fn = 1)) (hop2 : (op == 2) = decide (fn = 2))
    (h : s.MmaReady fn x e (s.me.matSrc y sa) (s.me.matSrc z sb) fa fb tag rate group k ca cb) :
    ∃ job : MmaJob, exec i s = .next (if s.me.frm.extractLsb' 8 5 = 0
        then (s.setMyCore { s.myCore with matrix := s.myCore.matrix ++ [job] }).retire
        else (s.setMyCore (s.myCore.setAcc x job.bits tag none)).finish job.flags) ∧
      job.sid = s.cur ∧ job.acc = x.toNat ∧ job.tag = tag ∧ job.mark = none ∧
      ∀ r q, r < 64 → q < 64 → accElem job.bits (64 * r + q) =
        (mmaElem (fn = 2) (tag = 0x03) group (if fn = 1 then 0 else accElem (s.myCore.acc x) (64 * r + q))
          (s.me.matValues fa e.toNat r k (s.matRow (s.me.matSrc y sa) ca fa r))
          (s.me.matValues fb (e.toNat + 1) q k (s.matRow (s.me.matSrc z sb) cb fb q))).1 % 2 ^ 32 := by
  have hop : op = 1 ↔ fn = 1 := by rw [← beq_iff_eq, hop1, decide_eq_true_iff]
  obtain ⟨hpa, hpb, hnext⟩ := mmaOp_of_ready hop h
  have hjob := State.mmaJob_unmarked hpa hpb (x := x) (op == 1) (op == 2) tag group e.toNat k rate
  have hwrite (bits : BitVec 131072) (fl : Flags) (n : Nat) :
      MmaJob.write ⟨s.cur, x.toNat, bits, tag, fl, none, n⟩ s.myCore = s.myCore.setAcc x bits tag none := by
    rw [MmaJob.write, BitVec.ofNat_toNat, BitVec.setWidth_eq]
  refine ⟨(s.mmaJob x (op == 1) (op == 2) (s.me.matSrc y sa) (s.me.matSrc z sb) ca cb fa fb tag group e.toNat k rate).1,
    (hi.trans hnext).trans ?_, ?_, ?_, ?_, ?_, fun r q hr hq => ?_⟩
  · rw [hjob, hwrite]
  · rw [hjob]
  · rw [hjob]
  · rw [hjob]
  · rw [hjob]
  · rw [State.mmaJob_elem hpa hpb _ _ _ _ _ _ _ hr hq, hop1, hop2]
    simp only [decide_eq_true_eq]
    rfl

theorem matrixProducts : Claims.MatrixProducts := by
  intro s x y z e sa sb fa fb tag rate group k ca cb core c a b rowA rowB runs
  refine ⟨fun h => ?_, fun h => ?_, fun h => ?_, fun j rest hj hlt => ?_⟩
  · exact exec_mma_runs (exec_mma ..) rfl rfl h
  · exact exec_mma_runs (exec_mmaz ..) rfl rfl h
  · exact exec_mma_runs (exec_mmas ..) rfl rfl h
  · have hnext := exec_mmaCompletion (st := s) core
    simp only [execMmaCompletion, hj] at hnext
    have hacc : (BitVec.ofNat 2 j.acc).toNat = j.acc := by
      rw [BitVec.toNat_ofNat, Nat.mod_eq_of_lt hlt]
    refine ⟨_, hnext, ?_, ?_, ?_, ?_, ?_, ?_, fun i hi => ?_⟩
    · simp [MmaJob.write, Core.setAcc]
    · simp [MmaJob.write, Core.setAcc, hacc, hlt]
    · simp [MmaJob.write, Core.setAcc, hacc, hlt]
    · simp [MmaJob.write, Core.setAcc, hacc, hlt]
    · simp
    · rw [State.strand_setStrand_same, State.strand_setCore]
    · rw [State.strand_setStrand_ne _ _ hi, State.strand_setCore]

end Sys2Proof.Machine

open Sys2Proof.Machine in
/-- Settles O33: an MMA that passes its checks issues the job it computed, or with an FFLAGS enable completes it at once; an
element of the job is found at its place among the rows' pairs; a sum that starts from the old element is the sum of the parts,
and the groups of an FP32 element are read off by induction on their number. -/
theorem matrixMultiply : Obligations.MatrixMultiply := ⟨matrixProducts, matrixElements⟩
end

section
/-! ### O32: tile rows and accumulators (R189, R196, R197)

#### Elements delivered raw into a vector register (R197) -/
namespace Sys2Proof.Machine

/-- The first `m` elements of vd written at a live tag: what the register then holds. -/
theorem Strand.written_range (x : Strand) (d : BitVec 5) {vt : BitVec 16} {tag : BitVec 8} (hvt : vtypeTag vt = tag)
    (htag : elemOf tag ≠ .dead) (m : Nat) {f : Nat → Nat} (hf : ∀ k, f k < 2 ^ (elemOf tag).width) :
    let r := (x.written d vt ((List.range m).map (fun k => (k, f k)))).getV d
    vtypeTag r.vtype = tag ∧ ∀ k, k < 8192 / (elemOf tag).width →
      elemBits r.bits (elemOf tag).width k = if k < m then f k else elemBits (x.getV d).bits (elemOf tag).width k := by
  intro r
  have hr : r = VReg.putAll { x.getV d with vtype := vt } ((List.range m).map (fun k => (k, f k))) := Strand.getV_setV_same ..
  have htype : VReg.elemType { x.getV d with vtype := vt } = elemOf tag := by rw [VReg.elemType, hvt]
  refine ⟨by rw [hr, VReg.putAll_vtype, hvt], fun k hk => ?_⟩
  have hmax : k < (VReg.elemType { x.getV d with vtype := vt }).vlmax := by
    rwa [htype, Elem.vlmax, if_neg (Elem.width_pos htag).1.ne']
  have hraw : elemBits r.bits (elemOf tag).width k = r.raw k := by rw [VReg.raw, hr, VReg.putAll_elemType, htype]
  rw [hraw, hr, VReg.raw_putAll (f := f) (by simp) _ hmax, VReg.raw, htype, Nat.mod_eq_of_lt (hf k)]
  simp

/-- The first `m` elements of vd delivered raw, DEAD or of the same tag before, and the rest of the machine left alone. -/
theorem State.retire_deliverRaw_range (s : State) {d : BitVec 5} {tag : BitVec 8} (htag : elemOf tag ≠ .dead)
    (hd : vtypeTag (s.me.getV d).vtype = 0 ∨ vtypeTag (s.me.getV d).vtype = tag) (m : Nat) {f : Nat → Nat}
    (hf : ∀ k, f k < 2 ^ (elemOf tag).width) :
    let u := (s.setMe (s.me.deliverRaw d (freshVtype tag) ((List.range m).map (fun k => (k, f k))))).retire
    u.mem = s.mem ∧ u.cores = s.cores ∧ u.me.g = s.me.g ∧ (∀ k, k ≠ d → u.me.getV k = s.me.getV k) ∧
      vtypeTag (u.me.getV d).vtype = tag ∧ ∀ k, k < 8192 / (elemOf tag).width →
        elemBits (u.me.getV d).bits (elemOf tag).width k =
          if k < m then f k else elemBits (s.me.getV d).bits (elemOf tag).width k := by
  intro u
  have hvt : vtypeTag (if (s.me.getV d).elemType = .dead then freshVtype tag else (s.me.getV d).vtype) = tag := by
    obtain h | h := hd
    · rw [if_pos (by rw [VReg.elemType, h]; rfl), vtypeTag_freshVtype]
    · rw [if_neg (by rwa [VReg.elemType, h]), h]
  have hme : u.me = (s.me.deliverRaw d (freshVtype tag) ((List.range m).map (fun k => (k, f k)))).retire := by
    rw [State.me_retire, State.me_setMe]
  have hreg (k : BitVec 5) :
      u.me.getV k = (s.me.deliverRaw d (freshVtype tag) ((List.range m).map (fun k => (k, f k)))).getV k := by
    rw [hme, Strand.getV, Strand.retire_v, Strand.getV]
  refine ⟨rfl, rfl, by rw [hme, Strand.retire_g]; rfl, fun k hk => ?_, ?_⟩
  · rw [hreg, Strand.deliverRaw_eq, Strand.written, Strand.getV_setV_ne _ _ hk]
  · rw [hreg, Strand.deliverRaw_eq]
    exact s.me.written_range d hvt htag m hf

/-! #### Tiles and vector registers (R197) -/

theorem elemOf_tileTag {t : BitVec 8} : isTileTag t = true → t ≠ 0 → elemOf t ≠ .dead := by
  revert t
  decide

theorem tileVecOp_of_owns {s : State} {bad : Bool} (hown : s.myCore.owns s.cur = true) (hbad : bad = false) (w : InstrWord)
    (body : State → Result) : tileVecOp bad w [] body s = body s := by
  rw [tileVecOp, hbad, if_neg Bool.false_ne_true, tileOp_of_owns hown]

/-- A tile and a vector register that pair, the source live. -/
theorem State.rowTrap_eq_none {s : State} (hshare : s.me.share ≠ 0) (w : InstrWord) {a b src : BitVec 8}
    (hpair : a = 0 ∨ b = 0 ∨ a = b) (hsrc : src ≠ 0) : s.rowTrap w a b src = none := by
  have hsame : ¬ (a != 0 && b != 0 && a != b) = true := by
    obtain rfl | rfl | rfl := hpair <;> simp
  rw [State.rowTrap, if_neg hsame, if_neg hshare, if_neg hsrc]

theorem tileForeign_of_pair {a b : BitVec 8} (h : a = 0 ∨ a = b) (hb : isTileTag b = true) : tileForeign a = false := by
  have hfits : a = 0 ∨ isTileTag a = true := h.imp_right fun (hab : a = b) => hab ▸ hb
  rw [tileForeign_eq, decide_eq_true hfits, Bool.not_true]

theorem setTileRow_eq_putField (bits : BitVec 32768) (r : Nat) (x : BitVec 512) :
    setTileRow bits r x = putField bits 512 (512 * r) x.toNat := by
  rw [setTileRow, putField, BitVec.ofNat_toNat, ← BitVec.toNat_allOnes, BitVec.ofNat_toNat]

/-- A row of a tile replaced: the row, and the others. -/
theorem setTileRow_row (bits : BitVec 32768) (x : BitVec 512) {n r : Nat} (hn : n < 64) (hr : r < 64) :
    (setTileRow bits n x).extractLsb' (512 * r) 512 = if r = n then x else bits.extractLsb' (512 * r) 512 := by
  rw [setTileRow_eq_putField]
  split
  · next h =>
    subst h
    refine BitVec.eq_of_toNat_eq ?_
    rw [extractLsb'_putField_inside bits x.isLt (by omega) le_rfl le_rfl, Nat.sub_self, Nat.pow_zero, Nat.div_one,
      Nat.mod_eq_of_lt x.isLt]
  · next h => exact extractLsb'_putField_outside bits x.isLt (by omega) (by omega)

section
variable {s : State} {t : BitVec 3} {v : BitVec 5} (z : BitVec 5) (hown : s.myCore.owns s.cur = true)
  (hshare : s.me.share ≠ 0)
include hown hshare

theorem execTrowv_of_pair (htag : isTileTag (s.myCore.tileTag t) = true) (h0 : s.myCore.tileTag t ≠ 0)
    (hv : s.me.tag v = 0 ∨ s.me.tag v = s.myCore.tileTag t) :
    execTrowv v t z s = .next (s.setMe (s.me.deliverRaw v (freshVtype (s.myCore.tileTag t))
      ((List.range (rowElems (s.myCore.tileTag t))).map (fun k =>
        (k, tileElem (s.myCore.tile t) (elemOf (s.myCore.tileTag t)).width ((s.g z).toNat % 64) k))))).retire := by
  rw [execTrowv, tileVecOp_of_owns hown (tileForeign_of_pair hv htag)]
  dsimp only
  rw [State.rowTrap_eq_none hshare _ (hv.elim (.inr <| .inl ·) (.inr <| .inr ·.symm)) h0]

theorem execTcolv_of_pair (htag : isTileTag (s.myCore.tileTag t) = true) (h0 : s.myCore.tileTag t ≠ 0)
    (hv : s.me.tag v = 0 ∨ s.me.tag v = s.myCore.tileTag t) :
    execTcolv v t z s = .next (s.setMe (s.me.deliverRaw v (freshVtype (s.myCore.tileTag t))
      ((List.range 64).map (fun r => (r, tileElem (s.myCore.tile t) (elemOf (s.myCore.tileTag t)).width r
        ((s.g z).toNat % rowElems (s.myCore.tileTag t))))))).retire := by
  rw [execTcolv, tileVecOp_of_owns hown (tileForeign_of_pair hv htag)]
  dsimp only
  rw [State.rowTrap_eq_none hshare _ (hv.elim (.inr <| .inl ·) (.inr <| .inr ·.symm)) h0]

theorem execVtrow_of_pair (htag : isTileTag (s.me.tag v) = true) (h0 : s.me.tag v ≠ 0)
    (ht : s.myCore.tileTag t = 0 ∨ s.myCore.tileTag t = s.me.tag v) :
    execVtrow t v z s = .next (s.setMyCore (s.myCore.setTile t
      (setTileRow (s.myCore.tile t) ((s.g z).toNat % 64) ((s.me.getV v).bits.extractLsb' 0 512)) (s.me.tag v))).retire := by
  rw [execVtrow, tileVecOp_of_owns hown (tileForeign_of_pair (.inr rfl) htag)]
  dsimp only
  rw [State.rowTrap_eq_none hshare _ (ht.imp_right .inr) h0]

end

theorem tileElem_lt (bits : BitVec 32768) (w r k : Nat) : tileElem bits w r k < 2 ^ w := BitVec.isLt _

theorem tileVectorTransfers : Claims.TileVectorTransfers := by
  intro s t v z c x tag vtag w n g read hown hshare
  refine ⟨fun htag h0 hv => ?_, fun htag h0 ht => ?_⟩
  · have hlive := elemOf_tileTag htag h0
    have hn : rowElems tag = n := if_neg (Elem.width_pos hlive).1.ne'
    have hrow := execTrowv_of_pair z hown hshare htag h0 hv
    have hcol := execTcolv_of_pair z hown hshare htag h0 hv
    rw [hn] at hrow hcol
    exact ⟨⟨_, hrow, s.retire_deliverRaw_range hlive hv n fun k => tileElem_lt ..⟩,
      ⟨_, hcol, s.retire_deliverRaw_range hlive hv 64 fun k => tileElem_lt ..⟩⟩
  · exact ⟨_, execVtrow_of_pair z hown hshare htag h0 ht, fun r hr =>
      setTileRow_row _ _ (Nat.mod_lt _ (by decide)) hr⟩

/-! #### Accumulators (R189, R196) -/

theorem FFmt.deliver_lt (f : FFmt) (mode : RMode) (sat : Bool) (v : FVal) : (f.deliver mode sat v).1 < 2 ^ f.width := by
  have hnan : f.nanBits < 2 ^ f.width := by cases f <;> decide
  cases v with
  | nan sig => exact hnan
  | fin neg m e => exact (deliveryIsExact.2 f mode sat neg m e).1
  | inf neg =>
    rw [FFmt.deliver]
    split
    · exact f.signed_lt neg (by cases f <;> decide)
    · split
      · exact f.signed_lt neg f.maxBits_lt
      · exact hnan

/-- An accumulator's image, element by element. -/
theorem elemsOf_acc (bits : BitVec 131072) : elemsOf bits.toNat 32 4096 = (List.range 4096).map (accElem bits) := by
  refine List.ext_getElem? fun i => ?_
  by_cases hi : i < 4096
  · rw [getElem?_accElems bits hi, List.getElem?_map, List.getElem?_range hi]
    rfl
  · rw [List.getElem?_eq_none (by rw [elemsOf_length]; omega), List.getElem?_eq_none (by simpa using hi)]

/-- An accumulator put together from its elements. -/
theorem accElem_pack {f : Nat → Nat} {i : Nat} (hi : i < 4096) (hf : f i < 2 ^ 32) :
    accElem (BitVec.ofNat 131072 (packElems 32 ((List.range 4096).map f))) i = f i := by
  rw [accElem, extractLsb'_packElems (by simpa using hi) (by simp), List.getElem_map, List.getElem_range, Nat.mod_eq_of_lt hf]

theorem setAccRow_eq_putField (bits : BitVec 131072) (r x : Nat) :
    setAccRow bits r x = putField bits 2048 (2048 * r) (x % 2 ^ 2048) := by
  rw [setAccRow, putField]

/-- A row of an accumulator replaced by the first elements of a vector register. -/
theorem accElem_setAccRow (bits : BitVec 131072) (v : BitVec 8192) {n i : Nat} (hn : n < 64) (hi : i < 4096) :
    accElem (setAccRow bits n (v.extractLsb' 0 2048).toNat) i =
      if i / 64 = n then elemBits v 32 (i % 64) else accElem bits i := by
  have hlt := (v.extractLsb' 0 2048).isLt
  rw [setAccRow_eq_putField, Nat.mod_eq_of_lt hlt, accElem]
  split
  · next h =>
    have hpos : 32 * i - 2048 * n = 32 * (i % 64) := by omega
    rw [extractLsb'_putField_inside bits hlt (by omega) (by omega) (by omega), hpos, ← Nat.shiftRight_eq_div_pow,
      ← BitVec.extractLsb'_toNat, BitVec.extractLsb'_extractLsb'_of_le (by omega), elemBits]
  · next h => rw [extractLsb'_putField_outside bits hlt (by omega) (by omega), accElem]

/-- The tags an accumulator holds are live. -/
theorem accTag_live {t : BitVec 8} (h : t = 0x03 ∨ t = 0x11) : t ≠ 0 := by
  obtain rfl | rfl := h <;> decide

section
variable {s : State} {x x' : BitVec 2} {y : BitVec 5} (z : BitVec 5) (e : BitVec 4) (hown : s.myCore.owns s.cur = true)
  (hbusy : s.myCore.accBusy [x, x'] = false)
include hown hbusy

theorem tileOp_of_idle (w : InstrWord) (body : State → Result) : tileOp w [x] body s = body s := by
  refine tileOp_of_ready hown ?_ w body
  simp only [Core.accBusy, List.any_cons, List.any_nil, List.any_eq_false, Bool.or_false] at hbusy ⊢
  intro j hj hx
  exact hbusy j hj (by rw [hx, Bool.true_or])

theorem execAccz_idle : execAccz x s =
    .next (s.setMyCore (s.myCore.setAcc x 0 (if s.myCore.accTag x = 0 then 0x11 else s.myCore.accTag x) none)).retire := by
  rw [execAccz, tileOp_of_idle hown hbusy]
  rfl

theorem execAccwr_idle (hv : s.me.tag y = 0x03 ∨ s.me.tag y = 0x11)
    (hpair : s.myCore.accTag x = 0 ∨ s.myCore.accTag x = s.me.tag y) :
    execAccwr x y z s = .next (s.setMyCore (s.myCore.setAcc x (setAccRow (s.myCore.acc x) ((s.g z).toNat % 64)
      ((s.me.getV y).bits.extractLsb' 0 2048).toNat) (s.me.tag y) (s.myCore.accMark x))).retire := by
  have hforeign : accForeign (s.me.tag y) = false := by
    rw [accForeign_eq, decide_eq_true (.inr hv), Bool.not_true]
  have hlive := accTag_live hv
  have hmatch : accMismatch (s.me.tag y) (s.myCore.accTag x) = false := by
    obtain h | h := hpair <;> simp [accMismatch, h]
  have htag : liveTag (s.myCore.accTag x) (s.me.tag y) = s.me.tag y := by
    obtain h | h := hpair <;> simp [liveTag, h]
  rw [execAccwr, tileVecOp, hforeign, if_neg Bool.false_ne_true, tileOp_of_idle hown hbusy]
  dsimp only
  rw [hmatch, if_neg Bool.false_ne_true, if_neg hlive, htag]

section
variable (hta : s.myCore.accTag x = 0x03 ∨ s.myCore.accTag x = 0x11) (hmark : s.myCore.accMark x = none)
include hta hmark

theorem execAccrd_idle (hv : s.me.tag y = 0 ∨ s.me.tag y = s.myCore.accTag x) :
    execAccrd x y z s = .next (s.setMe (s.me.deliverRaw y (freshVtype (s.myCore.accTag x))
      ((List.range 64).map (fun k => (k, accElem (s.myCore.acc x) (64 * ((s.g z).toNat % 64) + k)))))).retire := by
  have hforeign : accForeign (s.me.tag y) = false := by
    rw [accForeign_eq, decide_eq_true (hv.imp_right fun h => h ▸ hta), Bool.not_true]
  have hlive := accTag_live hta
  have hmatch : accMismatch (s.me.tag y) (s.myCore.accTag x) = false := by
    obtain h | h := hv <;> simp [accMismatch, h]
  have hpos (k : Nat) : 2048 * ((s.g z).toNat % 64) + 32 * k = 32 * (64 * ((s.g z).toNat % 64) + k) := by omega
  rw [execAccrd, tileVecOp, hforeign, if_neg Bool.false_ne_true, tileOp_of_idle hown hbusy]
  simp only [hmatch, Bool.false_eq_true, if_false, hlive, hmark, hpos, accElem]

theorem execAccst_idle {l : List (Place × Nat)} {s1 : State}
    (hl : s.PiecesReady s1 .store (s.g y) (s.g z) (4 * accBytes e) l) :
    let f (i : Nat) := accConvert (s.myCore.accTag x) e (accElem (s.myCore.acc x) i)
    execAccst x y z e s =
      .next ((s1.storePieces l (packElems (8 * accBytes e) ((List.range 4096).map (fun i => (f i).1)))).finish
        (orFlags ((List.range 4096).map (fun i => (f i).2)))) := by
  have hlive := accTag_live hta
  obtain ⟨hbase, hpitch, hfound, hmay⟩ := hl
  rw [execAccst, tileOp_of_idle hown hbusy]
  simp only [hlive, if_false, pitchTrap_eq_none hbase hpitch, hfound.takePieces hmay, hmark, Option.isSome_none,
    Bool.false_eq_true, foundPieces, hfound.writePieces, elemsOf_acc, List.map_map]
  rfl

theorem execAccadd_idle (htag : s.myCore.accTag x' = s.myCore.accTag x) (hmark' : s.myCore.accMark x' = none) :
    let f (i : Nat) := accSum (s.myCore.accTag x) (accElem (s.myCore.acc x) i) (accElem (s.myCore.acc x') i)
    execAccadd x x' s = .next ((s.setMyCore (s.myCore.setAcc x
      (BitVec.ofNat 131072 (packElems 32 ((List.range 4096).map (fun i => (f i).1)))) (s.myCore.accTag x) none)).finish
        (orFlags ((List.range 4096).map (fun i => (f i).2)))) := by
  have hlive := accTag_live hta
  rw [execAccadd, tileOp_of_ready hown hbusy]
  simp only [htag, hlive, ne_eq, not_true, and_false, or_self, if_false, hmark, hmark', Option.or_none, elemsOf_acc,
    List.zip_map', List.map_map]
  rfl

theorem execAccscl_idle :
    let f (i : Nat) := accScaled (s.myCore.accTag x) (FFmt.fp32.decode ((s.g y).toNat % 2 ^ 32)) (accElem (s.myCore.acc x) i)
    execAccscl x y s = .next ((s.setMyCore (s.myCore.setAcc x
      (BitVec.ofNat 131072 (packElems 32 ((List.range 4096).map (fun i => (f i).1)))) 0x11 none)).finish
        (orFlags ((List.range 4096).map (fun i => (f i).2)))) := by
  have hlive := accTag_live hta
  rw [execAccscl, tileOp_of_idle hown hbusy]
  simp only [hlive, if_false, hmark, elemsOf_acc, List.map_map]
  rfl

end

end

theorem accSum_lt (tag : BitVec 8) (a b : Nat) : (accSum tag a b).1 < 2 ^ 32 := by
  rw [accSum]
  split
  · exact Nat.mod_lt _ (Nat.two_pow_pos 32)
  · exact FFmt.deliver_lt .fp32 ..

theorem accScaled_lt (tag : BitVec 8) (k : FVal) (a : Nat) : (accScaled tag k a).1 < 2 ^ 32 := FFmt.deliver_lt .fp32 ..

theorem accElem_lt (bits : BitVec 131072) (i : Nat) : accElem bits i < 2 ^ 32 := BitVec.isLt _

theorem accumulatorsComplete : Claims.AccumulatorsComplete := by
  intro s x x' y z e c ta vtag row fp rounded sum product raised hown hbusy
  refine ⟨execAccz_idle hown hbusy, fun hv hpair => ?_, fun hta hmark => ⟨fun hv => ?_, fun l s1 he hl => ?_,
    fun htag hmark' => ?_, ?_⟩⟩
  · exact ⟨_, execAccwr_idle z hown hbusy hv hpair, fun i hi => accElem_setAccRow _ _ (Nat.mod_lt _ (by decide)) hi⟩
  · have hw : (elemOf ta).width = 32 ∧ elemOf ta ≠ .dead := by
      obtain h | h := hta <;> rw [h] <;> decide
    have hread := s.retire_deliverRaw_range hw.2 hv 64
      (f := fun k => accElem (s.myCore.acc x) (64 * ((s.g z).toNat % 64) + k)) fun k => by rw [hw.1]; exact accElem_lt ..
    rw [hw.1] at hread
    exact ⟨_, execAccrd_idle z hown hbusy hta hmark hv, hread⟩
  · refine ⟨_, execAccst_idle z e hown hbusy hta hmark hl, fun i hi => ?_⟩
    rw [packElems_div_mod _ _ i (by simpa using hi), List.getElem_map, List.getElem_range]
  · exact ⟨_, execAccadd_idle hown hbusy hta hmark htag hmark', fun i hi => accElem_pack hi (accSum_lt ..)⟩
  · exact ⟨_, execAccscl_idle hown hbusy hta hmark, fun i hi => accElem_pack hi (accScaled_lt ..)⟩

end Sys2Proof.Machine

open Sys2Proof.Machine in
/-- Settles O32: what a transfer reads is a list of elements at their indices, delivered raw; a row replaced is a field of the
image; an accumulator's image is the list of its 4,096 elements, taken apart and put together again. -/
theorem tileRowsAndAccumulators : Obligations.TileRowsAndAccumulators := ⟨tileVectorTransfers, accumulatorsComplete⟩
end

section
/-! ### O13: the answer to a load of another device (R132, R353) -/
namespace Sys2Proof.Machine

/-- A request answered with the bytes 1 and 2, its mask naming byte 0 of the line alone. -/
def readOfByteZero : FabricReq :=
  ⟨7, 0, { emptyPacket with mask := 1 }, .load 0, 0, some (0, [1, 2]), false, 0⟩

/-- Strand 0 waits under that request's tag for byte 1 of the line. -/
def waitsForByteOne : State :=
  { State.reset with
    strands := [(0, { Strand.reset with wait := .load 7 1 1 false 1 })]
    fabric := [readOfByteZero] }

/-- The model takes the byte at the load's address from the line. -/
theorem loadDataReturn_reads_address : ∃ t, exec (.loadDataReturn 0) waitsForByteOne = .next t ∧ (t.strand 0).getG 1 = 2 :=
  ⟨_, rfl, by decide⟩

/-- The statement counts from the top bit of the request's mask, here byte 0. -/
theorem loadDataReturn_of_remoteAnswersComplete (h : Claims.RemoteAnswersComplete) :
    ∃ t, exec (.loadDataReturn 0) waitsForByteOne = .next t ∧ (t.strand 0).getG 1 = 1 := by
  obtain ⟨hload, -⟩ := h waitsForByteOne 0 7 1 1 false false 1 readOfByteZero [1, 2] (by decide)
  obtain ⟨hdata, -, -⟩ := hload (by decide)
  exact ⟨_, hdata rfl, by decide⟩

end Sys2Proof.Machine

open Sys2Proof.Machine in
/-- Refutes O13: `Claims.RemoteAnswersComplete` ranges over every state and does not say that the request under the load's tag
asks for the load's own bytes. Where its mask names another byte of the line than the load's address, the model takes the byte
at the address and the statement that at the mask's top bit: a byte load of address 1, answered by a request for byte 0 with
the bytes 1 and 2, leaves 2 in g(1), not 1. (A load sends the mask of its own bytes, so the statement lacks that premise.) -/
theorem not_atomicsAndAnswersComplete : ¬ Obligations.AtomicsAndAnswersComplete := by
  rintro ⟨-, hanswers⟩
  obtain ⟨t, ht, hone⟩ := loadDataReturn_of_remoteAnswersComplete hanswers
  obtain ⟨u, hu, htwo⟩ := loadDataReturn_reads_address
  cases ht.symm.trans hu
  exact absurd (hone.symm.trans htwo) (by decide)
end

section
/-! ### O11: the checks of an access (R65, R66, R115, R132, R303, R310) -/
namespace Sys2Proof.Machine

/-! #### The address checks before the page (R65, R68, R303, R310) -/

section
variable {s s1 s2 : State} {who : Actor} {kind : AccessKind} {a : Word} {n : Nat} {p : Place}

theorem State.reach_none (ha : classOf a = .none) :
    s.reach who kind a n = .error (.trap (addrTrap (faultOf kind) a), s) := by
  simp only [State.reach, ha]

theorem State.reach_window_fetch (ha : classOf a = .window) :
    s.reach who .fetch a n = .error (.trap (addrTrap causeFaultFetch a), s) := by
  simp only [State.reach, ha, if_true]

theorem State.reach_window_error {t : Trap} (ha : classOf a = .window) (hkind : kind ≠ .fetch)
    (hw : s.windowPlace (coreOf who.sid) kind a n = .error t) : s.reach who kind a n = .error (.trap t, s) := by
  simp only [State.reach, ha, if_neg hkind, hw]

theorem State.reach_window_ok (ha : classOf a = .window) (hkind : kind ≠ .fetch)
    (hw : s.windowPlace (coreOf who.sid) kind a n = .ok p) : s.reach who kind a n = .ok (p, s) := by
  simp only [State.reach, ha, if_neg hkind, hw]

theorem State.reach_fillWaits (ha : classOf a = .ordinary) (hfill : s.fillWaits who a.toNat = true) :
    s.reach who kind a n = .error (.busy, s) := by
  simp only [State.reach, ha, if_pos hfill]

theorem State.reach_denied (ha : classOf a = .ordinary) (hfill : s.fillWaits who a.toNat = false)
    (hplb : s.plbGrants who (rightsNeeded kind) a.toNat = (false, s1)) : s.reach who kind a n =
      .error (.trap (addrTrap (if kind = .fetch then causeFaultFetch else causeDomainRights) a), s1) := by
  simp only [State.reach, ha, hfill, hplb]
  cases kind <;> rfl

/-! #### The page behind the PLB (R310, R367) -/

section
variable (ha : classOf a = .ordinary) (hfill : s.fillWaits who a.toNat = false)
  (hplb : s.plbGrants who (rightsNeeded kind) a.toNat = (true, s1))
include ha hfill hplb

theorem State.reach_walkWaits (hwalk : s1.walkWaits a.toNat = true) : s.reach who kind a n = .error (.busy, s1) := by
  simp only [State.reach, ha, hfill, hplb, hwalk, Bool.false_eq_true, if_true, if_false]

theorem State.reach_untranslated (hwalk : s1.walkWaits a.toNat = false) (ht : s1.translate kind a.toNat = none) :
    s.reach who kind a n = .error (.trap (addrTrap (faultOf kind) a), s1) := by
  simp only [State.reach, ha, hfill, hplb, hwalk, ht, Bool.false_eq_true, if_false]

theorem State.reach_translated (hwalk : s1.walkWaits a.toNat = false) (ht : s1.translate kind a.toNat = some (p, s2)) :
    s.reach who kind a n = .ok (p, s2) := by
  simp only [State.reach, ha, hfill, hplb, hwalk, ht, Bool.false_eq_true, if_false]

end

/-! #### The turn at a combining queue (R133, R349) -/

theorem State.resolve_of_reach_error {e : Stop} (h : s.reach who kind a n = .error (e, s1)) :
    s.resolve who kind a n = .error (e, s1) := by
  simp only [State.resolve, h]

theorem State.resolve_of_reach_atomic (h : s.reach who .atomic a n = .ok (p, s1)) :
    s.resolve who .atomic a n = .ok (p, s1) := by
  simp only [State.resolve, h, if_true]

theorem State.resolve_of_turn (hkind : kind ≠ .atomic) (h : s.reach who kind a n = .ok (p, s1))
    (hturn : s1.takeTurn who p n = .ok s2) : s.resolve who kind a n = .ok (p, s2) := by
  simp only [State.resolve, h, if_neg hkind, hturn]

theorem State.resolve_of_waiting (hkind : kind ≠ .atomic) (h : s.reach who kind a n = .ok (p, s1))
    (hturn : s1.takeTurn who p n = .error s2) : s.resolve who kind a n = .error (.busy, s2) := by
  simp only [State.resolve, h, if_neg hkind, hturn]

theorem State.windowPlace_ne_mem (s : State) (core : Nat) (kind : AccessKind) (a : Word) (n : Nat) (f : Span) :
    s.windowPlace core kind a n ≠ .ok (.mem f) := by
  unfold State.windowPlace
  dsimp only
  repeat' split
  all_goals nofun

/-- Combining queues are at locations of memory, so an access of a scratchpad waits for none. -/
theorem State.takeTurn_of_windowPlace {core : Nat} (hw : s.windowPlace core kind a n = .ok p) :
    s.takeTurn who p n = .ok s := by
  cases p with
  | mem f => exact absurd hw (s.windowPlace_ne_mem core kind a n f)
  | spad | decode | fabric => rfl

theorem State.resolve_window (ha : classOf a = .window) (hkind : kind ≠ .fetch)
    (hw : s.windowPlace (coreOf who.sid) kind a n = .ok p) : s.resolve who kind a n = .ok (p, s) := by
  have hreach := State.reach_window_ok ha hkind hw
  by_cases hatomic : kind = .atomic
  · subst hatomic
    exact State.resolve_of_reach_atomic hreach
  · exact State.resolve_of_turn hatomic hreach (State.takeTurn_of_windowPlace hw)

end

theorem addressChecksInOrder : Claims.AddressChecksInOrder := by
  intro s who kind a n
  refine ⟨fun ha => ?_, fun ha hfetch => ?_, fun ha hkind => ⟨fun t hw => ?_, fun p hw => ?_⟩, fun ha hfill => ?_,
    fun s1 ha hfill => ⟨fun hplb => ?_, fun hplb => ⟨fun hwalk => ?_, fun hwalk => ⟨fun ht => ?_, fun p s2 ht => ?_⟩⟩⟩⟩
  · exact State.resolve_of_reach_error (State.reach_none ha)
  · subst hfetch
    exact State.resolve_of_reach_error (State.reach_window_fetch ha)
  · exact State.resolve_of_reach_error (State.reach_window_error ha hkind hw)
  · exact State.resolve_window ha hkind hw
  · exact State.resolve_of_reach_error (State.reach_fillWaits ha hfill)
  · exact State.resolve_of_reach_error (State.reach_denied ha hfill hplb)
  · exact State.resolve_of_reach_error (State.reach_walkWaits ha hfill hplb hwalk)
  · exact State.resolve_of_reach_error (State.reach_untranslated ha hfill hplb hwalk ht)
  · have hreach := State.reach_translated (n := n) ha hfill hplb hwalk ht
    refine ⟨fun hatomic => ?_, fun hkind s3 => ⟨State.resolve_of_turn hkind hreach, State.resolve_of_waiting hkind hreach⟩⟩
    subst hatomic
    exact State.resolve_of_reach_atomic hreach

/-! #### Loads and stores (R131, R132) -/

/-- R131: the model's address is the base plus the signed offset times the size. -/
theorem State.memAddr_eq (s : State) (b : BitVec 5) (o : BitVec 10) (n : Nat) :
    s.memAddr b o n = s.g b + BitVec.ofInt 64 (o.toInt * n) := by
  rw [State.memAddr, BitVec.ofInt_mul, BitVec.ofInt_natCast, BitVec.signExtend]

theorem aligned_eq_true {a : Word} {n : Nat} (h : a.toNat % n = 0) : aligned a n = true := by
  simp [aligned, h]

theorem aligned_eq_false {a : Word} {n : Nat} (h : a.toNat % n ≠ 0) : aligned a n = false := by
  simp [aligned, h]

theorem exec_of_mem_loadForms {n : Nat} {d b : BitVec 5} {c : BitVec 4} {h : BitVec 2} {o : BitVec 10} {i : Instr}
    (hi : i ∈ loadForms n d b c h o) (s : State) : ∃ signed, exec i s = loadOp n signed d b c o s := by
  unfold loadForms at hi
  split at hi <;> simp only [List.mem_cons, List.not_mem_nil, or_false] at hi
  case h_4 =>
    subst hi
    exact ⟨false, rfl⟩
  all_goals
    obtain rfl | rfl := hi
    exacts [⟨true, rfl⟩, ⟨false, rfl⟩]

theorem exec_of_mem_storeForms {n : Nat} {d b : BitVec 5} {c : BitVec 4} {h : BitVec 2} {o : BitVec 10} {i : Instr}
    (hi : i ∈ storeForms n d b c h o) (s : State) : exec i s = storeOp n d b c o s := by
  unfold storeForms at hi
  split at hi <;> simp only [List.mem_cons, List.not_mem_nil, or_false] at hi <;> subst hi <;> rfl

section
variable {s s1 : State} {d b : BitVec 5} {c : BitVec 4} {o : BitVec 10} {n : Nat} {a : Word} {signed : Bool}
  (haddr : s.memAddr b o n = a)
include haddr

theorem loadOp_misaligned (ha : a.toNat % n ≠ 0) :
    loadOp n signed d b c o s = .next (s.trap (addrTrap causeMisaligned a)) := by
  simp [loadOp, haddr, aligned_eq_false ha]

theorem storeOp_misaligned (ha : a.toNat % n ≠ 0) :
    storeOp n d b c o s = .next (s.trap (addrTrap causeMisaligned a)) := by
  simp [storeOp, haddr, aligned_eq_false ha]

theorem loadOp_fault {t : Trap} (ha : a.toNat % n = 0) (hr : s.resolve s.actor .load a n = .error (.trap t, s1)) :
    loadOp n signed d b c o s = .next (s1.trap t) := by
  simp [loadOp, haddr, aligned_eq_true ha, hr, State.stopped]

theorem storeOp_fault {t : Trap} (ha : a.toNat % n = 0) (hr : s.resolve s.actor .store a n = .error (.trap t, s1)) :
    storeOp n d b c o s = .next (s1.trap t) := by
  simp [storeOp, haddr, aligned_eq_true ha, hr, State.stopped]

/-- A load of its own package's bytes that may go ahead meets their poison mark, or reads them. -/
theorem loadOp_accessible {p : Place} (h : s.accessible .load a n c.toNat p s1) :
    loadOp n signed d b c o s =
      if s1.placePoisoned p n then .next (s1.trap (addrTrap causeMemPoison a))
      else .next (s1.writeG d (extend n signed (s1.readPlace p n))) := by
  obtain ⟨halign, hr, hmay, hown⟩ := h
  simp only [loadOp, haddr, halign, hr]
  cases p with
  | fabric dev pa => exact absurd rfl (hown dev pa)
  | mem | spad | decode => simp [hmay]

end

theorem accessTrapsInOrder : Claims.AccessTrapsInOrder := by
  intro s d b c h o n i a
  have haddr : s.memAddr b o n = a := s.memAddr_eq b o n
  refine ⟨fun hi ha => ?_, fun hi ha => ?_, fun hi ha t s1 hr => ?_⟩
  · obtain hload | hstore := List.mem_append.mp hi
    · obtain ⟨signed, hexec⟩ := exec_of_mem_loadForms hload s
      exact hexec.trans (loadOp_misaligned haddr ha)
    · exact (exec_of_mem_storeForms hstore s).trans (storeOp_misaligned haddr ha)
  · obtain ⟨signed, hexec⟩ := exec_of_mem_loadForms hi s
    refine ⟨fun t s1 hr => hexec.trans (loadOp_fault haddr ha hr), fun p s1 hp hpoison => ?_⟩
    exact hexec.trans ((loadOp_accessible haddr hp).trans (if_pos hpoison))
  · exact (exec_of_mem_storeForms hi s).trans (storeOp_fault haddr ha hr)

end Sys2Proof.Machine

open Sys2Proof.Machine in
/-- Settles O11: every load and store is one of two operations that check alignment, then the address, then poison; the
address checks follow the class of the address, the PLB, the page and the combining queue, and a window's place is in no queue. -/
theorem accessChecksAndTraps : Obligations.AccessChecksAndTraps := ⟨accessTrapsInOrder, addressChecksInOrder⟩
end
